-- ==== Sys2Proof/Word.lean ====
section
/-! DEFINITION. The machine's word types and their plainest arithmetic (spec 00_scope R5, R8; 03 R92, R95).
Numbers that the manual only counts or compares (identifiers, addresses, tally times, lengths) are `Nat`;
contents of registers, lines and lanes are bit vectors. -/

namespace Sys2Proof

/-- A 32-bit word: a lane register, a register of BAR0, a word of a reply. -/
abbrev Word := BitVec 32

/-- The 64 data bytes of a pool line, byte 0 in the lowest bits (R8, R95). -/
abbrev LineData := BitVec 512

/-- Sum of two 64-bit tally times or counters (R432: the tally wraps after 2^64 ticks). -/
def add64 (a b : Nat) : Nat := (a + b) % 2 ^ 64

/-- Sum of two 32-bit counters (every BAR0 counter is cumulative modulo 2^32). -/
def add32 (a b : Nat) : Nat := (a + b) % 2 ^ 32

/-- The outstanding amount of two cumulative counters (R19): (issued - returned) mod 2^32. -/
def outstanding32 (issued returned : Nat) : Nat := (issued + 2 ^ 32 - returned % 2 ^ 32) % 2 ^ 32

/-- A count that saturates at `m`. -/
def satAdd (m a b : Nat) : Nat := min m (a + b)

/-- Ceiling division. -/
def ceilDiv (a b : Nat) : Nat := (a + (b - 1)) / b

/-- The bit of weight 2^i of a number, as the manual writes NAME[i]. -/
def bitOf (a i : Nat) : Bool := a / 2 ^ i % 2 == 1

/-- The field NAME[lo + w - 1 : lo] of a number. -/
def fieldOf (a lo w : Nat) : Nat := a / 2 ^ lo % 2 ^ w

/-- 1 for true, 0 for false: a one-bit field. -/
def b2n (b : Bool) : Nat := if b then 1 else 0

/-- A sparse table: pairs in strictly rising key order, the canonical form (log 7). -/
abbrev SMap (α : Type) := List (Nat × α)

end Sys2Proof
end

