-- ==== Sys2Proof/Syntax.lean ====
section
/-! DEFINITION. The commands: ONE inductive `Instr`, one constructor for each row of spec/opcode_table.json, with the
operands that the rule of the row names, and the structures those operands are made of.
The table gives its rows no bits, so the operands are the FIELDS of the packet, descriptor, message or event, not a word
(log 3, 4). A field `resv` says that some reserved bit of the structure is not zero (R14). Outcomes of the external
standards (GCM tags, Ed448 signatures, CRC of a flit) arrive as operands (log 4). -/

namespace Sys2Proof

/-- How reading and checking an input item ended (R351, R361 STAGE 5 and 6). -/
inductive ItemAuth where
  | good | tagFail | dmaError
deriving DecidableEq, Repr

/-- An input item as named by a command: its bounce offset and the outcome of its authentication (R351). -/
structure Item where
  off  : Nat
  auth : ItemAuth
deriving DecidableEq, Repr

/-- A command packet as fetched from a slot: the clear header of R350, the outcome of the tag check, and in `head` bytes 0x00 to
0x0F of the packet (R359), whose fields Machine/HostPath.lean reads. `presv` tells a non-zero reserved bit of the parameter
bytes (judged only for a defined opcode, R367). -/
structure Packet where
  stream : Nat
  slot   : Nat
  seq    : Nat
  tagOk  : Bool
  head   : List Nat
  presv  : Bool
deriving DecidableEq, Repr

/-- HOST_CONFIG parameters (R370). -/
structure HostCfg where
  vec         : List Nat
  countStatus : Nat
  waitStatus  : Nat
  countEvent  : Nat
  waitEvent   : Nat
  poison      : Nat
deriving DecidableEq, Repr

/-- The fields of a sagger entry that SAGGER_CREATE and SAGGER_SET carry (R315, R339). -/
structure SagParams where
  fCrate : Nat
  lCrate : Nat
  fCburst : Nat
  lCburst : Nat
  fPrate : Nat
  lPrate : Nat
  fPburst : Nat
  lPburst : Nat
  latTarget : Nat
  shelves : List Nat
  breachMask : Nat
  sealLoad : Nat
deriving DecidableEq, Repr

/-- Coherence parameters (R159), in tally ticks. -/
structure CohCfg where
  hold : Nat
  lease : Nat
  pulse : Nat
  snoopLimit : Nat
  backoffBase : Nat
  backoffCap : Nat
deriving DecidableEq, Repr

/-- Heat parameters (R84). -/
structure HeatCfg where
  period : Nat
  shift : Nat
  localAlert : Nat
  remoteAlert : Nat
deriving DecidableEq, Repr

/-- Holder-table entry (R48). STATE 0 Absent, 1 Active, 2 Draining, 3 Lost. -/
structure Holder where
  st : Nat
  kind : Nat
  port : Nat
  altPort : Nat
  aid : Nat
  limit : Nat
deriving DecidableEq, Repr

/-- Bisque parameters (R110). -/
structure BisqueCfg where
  period : Nat
  tablePeriod : Nat
  ceRowLimit : Nat
  autoSppr : Nat
deriving DecidableEq, Repr

/-- A DRAM row as MEM_PPR and the sPPR entry of R452 name it. -/
structure RowLoc where
  die : Nat
  channel : Nat
  subch : Nat
  rank : Nat
  bankGroup : Nat
  bank : Nat
  row : Nat
deriving DecidableEq, Repr

/-- A row or column of an on-die array (R112 to R114): array 0 shelf SRAM, 1 glaze store, 2 replay buffer, 3 trace buffer, 4 hub caches;
the shelf, port or plane that owns it (0 for the trace buffer); bank; number. -/
structure Spare where
  array : Nat
  unit : Nat
  bank : Nat
  col : Bool
  index : Nat
deriving DecidableEq, Repr

/-- Mover descriptor (R64). -/
structure MoveDesc where
  fmt : Nat
  op : Nat
  notify : Bool
  chain : Bool
  tag : Nat
  length : Nat
  src : Nat
  dst : Nat
  pattern : BitVec 64
  resv : Bool
deriving DecidableEq, Repr

/-- Region slot of a firing descriptor (R199). -/
structure Slot where
  pva : Nat
  length : Nat
  role : Nat
  format : Nat
  dist : Nat
  grain : Nat
  pack4 : Bool
  push : Bool
  resv : Bool
deriving DecidableEq, Repr

/-- Firing descriptor (R198). -/
structure FireDesc where
  fmt : Nat
  kind : Nat
  rmode : Nat
  sat : Bool
  tag : Nat
  glaze : Nat
  spread : Nat
  seed : Nat
  limit : Nat
  ctxBase : Nat
  ctxCount : Nat
  window : Nat
  args : List Word
  slots : List Slot
  resv : Bool
deriving DecidableEq, Repr

/-- Context entry (R235). KIND 0 none, 1 KV, 2 TABLE; STATE 0 Free, 1 Granted, 2 Ready. `list` is LIST_PVA, `aux` SCALES
or ROWS_PVA, `nnz` CHUNK_BLOCKS or NNZ. -/
structure Ctx where
  fmt : Nat
  st : Nat
  kind : Nat
  sid : Nat
  format : Nat
  btLog : Nat
  kvHeads : Nat
  weighted : Bool
  g : Nat
  width : Nat
  count : Nat
  nnz : Nat
  list : Nat
  aux : Nat
  rows : Nat
  resv : Bool
deriving DecidableEq, Repr

/-- Window block (R257). -/
structure WinBlock where
  fmt : Nat
  cfmt : Nat
  short : Nat
  autoRearm : Bool
  notify : Bool
  gw : Nat
  window : Nat
  sid : Nat
  die : Nat
  shelves : Nat
  elements : Nat
  contrib : Nat
  notifyAid : Nat
  round : Nat
  deadline : Nat
  step : FireDesc
  aids : List Nat
  resv : Bool
deriving DecidableEq, Repr

/-- Glaze image (R226). -/
structure GlazeImg where
  fmt : Nat
  id : Nat
  version : Nat
  codeWords : Nat
  requires : Nat
  ctx : Bool
  win : Bool
  key : Nat
  code : List Word
  resv : Bool
deriving DecidableEq, Repr

/-- PORT_CONFIG parameters (R313). -/
structure PortParams where
  port : Nat
  enable : Nat
  portAid : Nat
  completionTimeout : Nat
  replayTimeout : Nat
  laneLimit : Nat
  strangerRate : Nat
  certEpochMin : Nat
deriving DecidableEq, Repr

/-- TRACE_CONFIG parameters (R472). -/
structure TraceCfg where
  mode : Nat
  sources : Nat
  ports : Nat
  vcs : Nat
  sidFilter : Nat
  sagger : Nat
  data : Nat
  spillRate : Nat
deriving DecidableEq, Repr

/-- SHAPE_CONFIG parameters (R340). -/
structure ShapeCfg where
  fOvh : Nat
  samplePeriod : Nat
  crowdLimit : Nat
  commitWait : Nat
  breachWindow : Nat
deriving DecidableEq, Repr

/-- Gate entry (R325). KIND 0 OPEN, 1 SLOT, 2 RETURN. -/
structure GateEntry where
  duration : Nat
  kind : Nat
  sid : Nat
  pair : Nat
  lines : Nat
  lag : Nat
  resv : Bool
deriving DecidableEq, Repr

/-- OTP generation record (R409); keys and the signature are opaque numbers, four fabric and four glaze keys. -/
structure GenRec where
  fmt : Nat
  gen : Nat
  fabricValid : Nat
  glazeValid : Nat
  armNotice : Nat
  owner : Nat
  host : Nat
  safelight : Nat
  fabric : List Nat
  glaze : List Nat
  sig : Nat
  resv : Bool
deriving DecidableEq, Repr

/-- Token (R415). PURPOSE 1 RETURN, 2 SCRAP, 3 SAFELIGHT, 4 FACTORY_DEBUG. `len` is the item's length. -/
structure Token where
  fmt : Nat
  purpose : Nat
  scope : Nat
  duration : Nat
  nonce : Nat
  sigOk : Bool
  len : Nat
  resv : Bool
deriving DecidableEq, Repr

/-- Firmware image header (R405). -/
structure FwImage where
  fmt : Nat
  type : Nat
  slot : Nat
  factory : Bool
  svn : Nat
  version : Nat
  length : Nat
  resv : Bool
  digest : Nat
deriving DecidableEq, Repr

/-- The header of a message from the fabric, with the port it arrived on (R297). `resv` tells a non-zero reserved bit of
the header or body, or a reserved code (R301). -/
structure Mhd where
  port : Nat
  src : Nat
  dst : Nat
  tag : Nat
  tgen : Nat
  resv : Bool
deriving DecidableEq, Repr

/-- A line handle (R123). The model carries the pair that the keyed permutation names, not its 64-bit image (log 5):
`line` is PPA[63:6]. -/
structure Handle where
  line : Nat
  sid : Nat
deriving DecidableEq, Repr

/-- REGION_PUBLISH fields (R152). -/
structure Publication where
  name : Nat
  sid : Nat
  epoch : Nat
  version : Nat
  base : Nat
  pages : Nat
  digest : Nat
  mode : Nat
deriving DecidableEq, Repr

/-- Header of a message inside a SEQ flit, as the port die judges it (R297 to R300, R305). `bytes` counts the message's
bytes in this flit and before it, `last` tells that it ends here. -/
structure RxMsg where
  fmt : Nat
  sealed : Bool
  keygen : Nat
  op : Nat
  vc : Nat
  len : Nat
  src : Nat
  dst : Nat
  ivc : Nat
  tagOk : Bool
  last : Bool
deriving DecidableEq, Repr

/-- A flit as received (R280): FTYPE 1 SEQ, 2 IDLE, 3 LCTL. An LCTL operation comes as a command of its own. -/
structure RxFlit where
  fmt : Nat
  ftype : Nat
  seq : Nat
  ack : Nat
  nak : Bool
  cv : Bool
  cvc : Nat
  ck : Nat
  ccount : Nat
  trainNo : Nat
  crcOk : Bool
  msgs : List RxMsg
deriving DecidableEq, Repr

/-- One DIMM as its SPD describes it (R86 to R88): capacity code of KLN_MEM_STATUS SIZE (1 to 7), ranks 1 to 4, an
organisation code and the number of rows, and the highest rate code (1 to 3) it permits. -/
structure Dimm where
  size : Nat
  ranks : Nat
  org : Nat
  rows : Nat
  grade : Nat
  maxRate : Nat
deriving DecidableEq, Repr

/-- The input item of MEM_START (14 R452): whether an entry has a reserved bit set (00 R14), and the rows with whether the DRAM has a
resource for each. -/
structure SpprItem where
  resv : Bool
  rows : List (RowLoc × Bool)
deriving DecidableEq, Repr

/-- The body of ADMIT_HELLO (08 R306): NONCE_A, XA, VERSIONS. -/
structure HelloBody where
  nonceA : Nat
  xa : Nat
  versions : Nat
deriving DecidableEq, Repr

/-- Who proves itself in ADMIT_PROVE (08 R306): IDA, CERT_SIG and the key slot that the signature names. -/
structure ProveId where
  ida : Nat
  certSig : Nat
  keyslot : Nat
deriving DecidableEq, Repr

/-- The RequesterVerifyData of FINISH (12 R424): whether it is right, and the bytes of the message before it. -/
structure FinishBody where
  ok : Bool
  bytes : List Nat
deriving DecidableEq, Repr

/-- What a table sweep finds (03 R111, R114; 11 R392): whether the planes' tables are equal, rows with a parity error, resident glazes (shelf and
ID) that fail their digest. -/
structure SweepFound where
  equal : Bool
  words : List Spare
  glazes : List (Nat × Nat)
deriving DecidableEq, Repr

/-- A die-to-die transfer (03 R93, R94): its number, header and payload as the sender holds them, and the bytes as received. -/
structure D2dTransfer where
  id : Nat
  header : List Nat
  payload : List Nat
  got : List Nat
deriving DecidableEq, Repr

/-- What the array tests find (03 R113, 05 R190): failing rows and columns, and shelves that fail beyond repair by those. -/
structure ArrayFails where
  spares : List Spare
  shelves : List Nat
deriving DecidableEq, Repr

/-- What the board presents when 64 V becomes good (R1, R444): the DIMM of each channel (global number k x 6 + c), the
address strap (R485), the 100 MHz reference, and DIMM power. -/
structure Board where
  dimms : List (Option Dimm)
  strap : Nat
  refOk : Bool
deriving DecidableEq, Repr

/-- Operand fields of a layout-G glaze instruction (R218): PN, PS, D, X, Y, MOD. -/
structure GArgs where
  pn : Bool
  ps : Nat
  d : Nat
  x : Nat
  y : Nat
  md : Nat
deriving DecidableEq, Repr

/-- Clocked domains whose clock can stop (R26, R439). -/
inductive ClockDomain where
  | golhaRx (p : Nat) | golhaTx (p : Nat) | ddr (die channel : Nat) | pcie | hubTally | dieTally (unit : Nat)
deriving DecidableEq, Repr

/-- The commands, one constructor for each row of the opcode table, in the table's order. In a host command the first
operand is the command ring whose fetched packet it is. Units of dies: 0-7 kiln dies, 8-23 port dies 0-15. -/
inductive Instr where
  -- system and start-up commands (10 R370, R372; 14 R459)
  | nop (r : Nat)
  | hostConfig (r : Nat) (c : HostCfg)
  | sysFence (r : Nat)
  | poolRead (r sid addr len : Nat)
  | poolWrite (r sid addr len : Nat) (item : Item) (lines : List (LineData × Nat))
  | fenceCancel (r ring cseq : Nat)
  | memStart (r rate : Nat) (item : Item) (len : Nat) (entries : SpprItem)
  | moduleReset (r : Nat) (force : Bool)
  | powerOffPrepare (r : Nat) (force : Bool)
  -- sagger commands (09 R339)
  | saggerCreate (r sid : Nat) (p : SagParams)
  | saggerSet (r sid : Nat) (p : SagParams) (force : Bool)
  | saggerShelves (r sid die mask : Nat)
  | saggerSeal (r sid tcBlocks dirBlocks sealLoad : Nat)
  | saggerUnseal (r sid : Nat)
  | saggerDrain (r sid : Nat)
  | saggerResume (r sid : Nat)
  | saggerDestroy (r sid : Nat)
  | gateLoad (r port efmt n : Nat) (item : Item) (force : Bool) (guard : Nat) (entries : List GateEntry)
  | shapeConfig (r : Nat) (c : ShapeCfg)
  | saggerRead (r sid : Nat)
  -- coherence commands (04 R158)
  | cohConfig (r sid : Nat) (c : CohCfg)
  | agentRevoke (r aid : Nat)
  | regionBind (r name sid hid : Nat)
  | regionResolve (r name choice : Nat)
  | cohRead (r select val : Nat)
  -- translation commands (02 R58)
  | xltTableGrant (r n : Nat) (ppas : List Nat)
  | xltRootSet (r sid : Nat)
  | xltMap (r sid pva count size ppa : Nat) (rd wr att pin reserve : Bool) (item : Item) (list : List Nat)
  | xltPresent (r sid pva count ppa : Nat) (item : Item) (list : List Nat)
  | xltWithdraw (r sid pva count mode : Nat) (keep : Bool)
  | xltProtect (r sid pva count : Nat) (rd wr att pin : Bool)
  | xltFence (r sid epoch : Nat)
  | xltRead (r sid pva : Nat)
  | faultResolve (r n : Nat) (pairs : List (Nat × Nat))
  | faultConfig (r timeout batchWindow : Nat)
  | heatConfig (r : Nat) (c : HeatCfg) (sid : Nat)
  | pageMigrate (r sid pva dst : Nat)
  | holderSet (r hid : Nat) (h : Holder)
  -- memory commands (03 R119)
  | memCraze (r ppa lines : Nat)
  | memWedge (r die page pages : Nat)
  | memRegen (r die : Nat)
  | memPpr (r : Nat) (loc : RowLoc) (mode : Nat) (spprLeft hpprLeft : Bool)
  | memDieSet (r die st : Nat)
  | bisqueConfig (r : Nat) (c : BisqueCfg) (die : Nat)
  -- movers and kilns (02 R68; 06 R233; 07 R273)
  | moveSubmit (r sid : Nat) (item : Item) (d : MoveDesc)
  | kilnFire (r sid : Nat) (item : Item) (d : FireDesc)
  | firingCancel (r sid submitter tag : Nat)
  | glazeInstall (r len : Nat) (item : Item) (img : GlazeImg) (sigOk : Bool)
  | glazeRemove (r id : Nat)
  | glazePermit (r id mode action n : Nat) (sids : List Nat)
  | klnLibGrant (r n : Nat) (ppas : List Nat)
  | glazeRead (r index : Nat)
  | firingRead (r sid submitter tag : Nat)
  | ctxGrant (r sid base count : Nat)
  | ctxSet (r n : Nat) (e : Ctx)
  | ctxRead (r n : Nat)
  | windowOpen (r len : Nat) (item : Item) (b : WinBlock)
  | windowArm (r w : Nat)
  | windowForce (r w : Nat)
  | windowClose (r w : Nat)
  | windowRead (r w contrib : Nat)
  -- port commands (08 R313)
  | portConfig (r : Nat) (p : PortParams)
  | aidAllow (r port aid sid : Nat)
  | portReset (r port mode : Nat)
  | saRekey (r port aid : Nat)
  | portRead (r port aid : Nat)
  | aidDetach (r port aid : Nat)
  -- observation commands (15 R480)
  | obsCounters (r sid : Nat)
  | obsMirrorSet (r sid ppa period heatBase heatPages heatEvery : Nat)
  | traceConfig (r : Nat) (c : TraceCfg)
  | traceCtrl (r action consumed : Nat)
  | traceRead (r first count : Nat)
  | traceSpillGrant (r n : Nat) (ppas : List Nat)
  | contactTake (r : Nat) (data : Bool)
  | contactRead (r off len : Nat)
  | contactRelease (r : Nat)
  | shelfSramRead (r shelf off len : Nat)
  | shelfStep (r shelf mode steps : Nat)
  -- security and factory commands (12 R426)
  | proofGet (r nonce : Nat)
  | otpGenWrite (r len : Nat) (item : Item) (g : GenRec) (sigOk : Bool)
  | lcSeal (r len : Nat) (item : Item) (g : GenRec) (sigOk : Bool)
  | lcReturn (r : Nat) (item : Item) (t : Token)
  | lcScrap (r : Nat) (item : Item) (t : Token)
  | safelightArm (r : Nat)
  | safelightOpen (r : Nat) (item : Item) (t : Token)
  | tokenNonce (r : Nat)
  | safelightClose (r : Nat)
  | fwSvnCommit (r type : Nat)
  | facCertWrite (r len : Nat) (item : Item) (cert : Nat) (subjectOk : Bool)
  | facProvision (r : Nat)
  | facFwRevoke (r mask : Nat)
  | facDebugOpen (r : Nat) (item : Item) (t : Token)
  | facOtpDump (r : Nat)
  -- host path (10 R345 to R381; 12 R406)
  | commandFetch (r : Nat) (p : Packet)
  | parkedCommandComplete (r : Nat)
  | commandDoorbell (r p : Nat)
  | consumerDoorbell (r c : Nat)
  | ringStart (r : Nat)
  | ringReset (r : Nat)
  | irqCauseClear (mask : Nat)
  | registerWrite (off : Nat) (v : Word)
  | lowWordRead (off : Nat)
  | busMasterChange (bme d3hot : Bool)
  | hostPathReset
  | outputEntryWrite (r : Nat)
  | ringDmaError (r : Nat)
  | statusInterrupt (event : Bool)
  | penFwGo (v : Word)
  | firmwareVerified (dmaOk : Bool) (img : FwImage) (sigOk : Bool)
  -- SPDM requests (12 R422)
  | getVersion
  | getCapabilities
  | negotiateAlgorithms
  | getCertificate (slot : Nat)
  | challenge (slot hashType : Nat)
  | getMeasurements (index : Nat) (signed : Bool)
  | keyExchange
  | finish (hostSigOk : Bool) (verify : FinishBody)
  | spdmUnsupported
  -- agent and holder messages (08 R300)
  | rdShared (m : Mhd) (addr : Nat)
  | rdOwn (m : Mhd) (addr lepoch : Nat)
  | upgrade (m : Mhd) (addr lepoch : Nat)
  | rdOnce (m : Mhd) (addr : Nat) (nowait : Bool)
  | scorch (m : Mhd) (addr : Nat) (mask : BitVec 64) (cause : Nat) (nowait : Bool) (line : LineData)
  | atomic (m : Mhd) (addr aop size : Nat) (opnd1 opnd2 : BitVec 64) (nowait : Bool)
  | writeback (m : Mhd) (h : Handle) (lepoch cause : Nat) (line : LineData)
  | rspData (m : Mhd) (h : Handle) (cause : Nat) (line : LineData)
  | rspClean (m : Mhd) (h : Handle)
  | rspGone (m : Mhd) (h : Handle)
  | move (m : Mhd) (d : MoveDesc)
  | fire (m : Mhd) (d : FireDesc)
  | fireCancel (m : Mhd) (ftag : Nat)
  | agentCtxSet (m : Mhd) (n : Nat) (e : Ctx)
  | fence (m : Mhd)
  | fenceAck (m : Mhd)
  | hdata (m : Mhd) (status : Nat) (lines : List (LineData × Nat))
  | hdone (m : Mhd) (status : Nat)
  | contrib (m : Mhd) (addr round cause : Nat) (data : List Word)
  | join (m : Mhd) (kind : Nat)
  | pulse (m : Mhd) (lepoch : Nat)
  | regionPublish (m : Mhd) (p : Publication)
  | admitHello (m : Mhd) (hello : HelloBody)
  | admitProve (m : Mhd) (who : ProveId) (certEpoch : Nat) (certSigOk sigAOk : Bool)
  | rekey (m : Mhd) (gen : Nat)
  | rekeyAck (m : Mhd) (gen : Nat)
  -- link events (08 R278 to R310)
  | flitReceive (p : Nat) (f : RxFlit)
  | resume (p : Nat) (fresh : Bool) (trainNo rxAck : Nat) (credits : List Nat)
  | laneSwap (p lane codeword : Nat)
  | laneSwapAck (p lane codeword : Nat)
  | retrain (p : Nat)
  | lctlResend (p : Nat)
  | laneFail (p lane codeword : Nat)
  | lockLost (p : Nat)
  | signalDetect (p : Nat)
  | trained (p : Nat) (narrow : Bool)
  | trainingTimeout (p : Nat)
  | trainingRetry (p : Nat)
  | replayTimeout (p : Nat)
  | completionTimeout (aid tag : Nat)
  | admitTimeout (p aid : Nat)
  | ivcLimit (p aid : Nat)
  | rekeyWindowEnd (p aid : Nat)
  | portLost (p cause : Nat)
  -- timers and engines (02, 04, 06, 07)
  | leaseExpiry (aid : Nat)
  | snoopTimeout (aid : Nat)
  | leaseExpired (aid : Nat)
  | holdEnd (line : Nat)
  | reservationExpiry (aid line : Nat)
  | claimGranted (f : Nat)
  | regionChange (name : Nat)
  | regionContested (name : Nat)
  | faultBatchClose
  | faultTimeout (id : Nat)
  | heatDecay (sid page : Nat)
  | withdrawAck (sid epoch : Nat)
  | migrateDone (sid page : Nat)
  | saggerDrained (sid : Nat)
  | moverStart (m : Nat)
  | moveDone (m : Nat)
  | moverLost (m : Nat)
  | partPlaced (die : Nat)
  | firingLimit (f : Nat)
  | firingDone (f : Nat)
  -- glaze instructions (06 R220); `sh` is the global shelf
  | glazeNop (sh : Nat) (g : GArgs)
  | commit (sh : Nat) (bad : Option Nat)
  | endLane (sh : Nat) (g : GArgs)
  | bra (sh cond m target : Nat)
  | loop (sh n target : Nat)
  | rep (sh : Nat) (src : Bool) (imm : Nat)
  | setct (sh n : Nat) (src : Bool) (imm : Nat)
  | barrier (sh : Nat)
  | ldi (sh : Nat) (pn : Bool) (ps d imm : Nat)
  | ldh (sh : Nat) (pn : Bool) (ps d imm : Nat)
  | mov (sh : Nat) (g : GArgs)
  | iadd (sh : Nat) (g : GArgs)
  | isub (sh : Nat) (g : GArgs)
  | imul (sh : Nat) (g : GArgs)
  | logic (sh : Nat) (g : GArgs)
  | shift (sh : Nat) (g : GArgs)
  | icmp (sh : Nat) (g : GArgs)
  | fcmp (sh : Nat) (g : GArgs)
  | sel (sh : Nat) (g : GArgs)
  | plog (sh : Nat) (g : GArgs)
  | ldp (sh : Nat) (g : GArgs)
  | ldc (sh : Nat) (g : GArgs)
  | stp (sh : Nat) (g : GArgs)
  | avail (sh : Nat) (g : GArgs)
  | fma32 (sh : Nat) (g : GArgs)
  | dot2 (sh : Nat) (g : GArgs)
  | dot4 (sh : Nat) (g : GArgs)
  | dot4x (sh : Nat) (g : GArgs)
  | dot8x (sh : Nat) (g : GArgs)
  | add32f (sh : Nat) (g : GArgs)
  | func (sh : Nat) (g : GArgs)
  | cread (sh : Nat) (g : GArgs)
  | cvt (sh : Nat) (g : GArgs)
  | unpk (sh : Nat) (g : GArgs)
  | sred (sh : Nat) (g : GArgs)
  | fred (sh : Nat) (g : GArgs)
  | flags (sh : Nat) (g : GArgs)
  | shelfOut (sh : Nat)
  | windowDeadline (w : Nat)
  -- memory, die and power events (03, 11, 14)
  | bisqueSweep (die : Nat)
  | tableSweep (plane : Nat) (found : SweepFound)
  | driftTracking (die channel : Nat)
  | spprRepair (loc : RowLoc) (left : Bool)
  | spareRowAssign (sh bank row : Nat)
  | channelTrained (die channel : Nat) (ok : Bool)
  | wedgePassDone (die : Nat)
  | dieLost (die : Nat) (whole : Bool) (cause : Nat)
  | d2dTransfer (unit : Nat) (x : D2dTransfer)
  | dieOvertemp (unit : Nat)
  | powerGovernor (watts : Nat)
  | inputGood (b : Board)
  | railGroupGood
  | railFault (rail : Nat)
  | hubResetRelease
  | tallyStart
  | inputLow (mv : Nat)
  | pwrFail (overVoltage : Bool)
  | pwrFailRailsOff
  | hubOvertemp
  | mrstN
  | moduleResetBegin
  | dieJoin (unit : Nat) (ok : Bool) (delay : Nat)
  | arrayTest (fails : ArrayFails) (badPorts badBanks : List Nat) (planeABad planeBBad : Bool)
  | penenoStart (romOk rngOk : Bool)
  | firmwareStart
  | poolReady
  | rngFail (test : Nat)
  | nonceLapse
  | safelightExpiry
  -- twins (11)
  | pulseSend (plane : Nat)
  | pulseWindow (watcher : Nat) (wire mailbox : Bool)
  | gateOutput (gate plane value : Nat)
  | gateUnpaired (gate : Nat)
  | divergenceParity (aBad bBad : Bool)
  | parityError (plane : Nat)
  | gapEnd
  | planeTestDone (plane : Nat) (ok : Bool)
  | twinRejoin
  | resyncTimeout (crcFail : Bool)
  | fatal (cause : Nat)
  -- tally and crossings (13)
  | tallySync
  | clockStop (d : ClockDomain)
  | crossingReset (x : ClockDomain)
  | regionFreeze (unit cause : Nat)
  | tallyGap (unit : Nat)
  | regionSyncTimeout (unit : Nat)
  -- shaping and observation (09, 15)
  | queueSample
  | meterAdmit (sid port : Nat)
  | gateEntry (p : Nat)
  | breachRecord (sid guarantee reason : Nat)
  | mirrorUpdate (sid : Nat)
  | heatMirrorUpdate (sid : Nat)
  | traceSpill
  | contactMarker (unit : Nat)
  | contactDone
  | evtTimerExpiry (n : Nat)
  | evtPulseEnd (pin : Nat)
  | evtEdge (pin : Nat) (rising : Bool)
  -- sideband (16 R487)
  | page (v : Nat)
  | voutMode
  | statusWord
  | readVin (measured : Nat)
  | readIin (measured : Nat)
  | readVout (measured : Nat)
  | readIout (measured : Nat)
  | readTemperature1 (measured : Nat)
  | readPout (measured : Nat)
  | readPin (measured : Nat)
  | moduleStatus
  | evtTimer (timer mode pin low width start period : Nat)
  | evtPin (pin mode : Nat)
  | evtResult
  | evtCapture
  | sidebandInvalid (code len : Nat) (write : Bool)
  -- I3C common command codes (16 R486)
  | setdasa (static dynamic : Nat)
  | entdaa (dynamic : Nat)
  | rstdaa
  | getpid
  | getbcr
  | getdcr
  | getstatus
  | getmrl
  | getmwl
  | enec
  | disec
  -- test access port (16 R493)
  | extest
  | samplePreload
  | idcode
  | clamp
  | highz
  | arraytest (kind unit : Nat)
  | intscan
  | bypass
  | tapReset
  -- rows added at the end of the table
  | flitSend (p : Nat)
  | clockReturn (d : ClockDomain)
  | mrstNRelease
  | inputLowClear
  | lcChanged
  | pcieLinkTrained (width rateGts : Nat)
deriving DecidableEq, Repr

end Sys2Proof
end

