-- ==== Sys2Proof/Config.lean ====
section
/-! DEFINITION. Values the manual leaves open (no body: nothing can be proved of them) and the constants that one
J9P fixes. Each opaque value is named in an assumption log row. -/

namespace Sys2Proof.Config

/-- Silicon revision, GLB_ID REV (10 R378: 0x01 for the first revision, else not given; log 6). -/
opaque siliconRev : BitVec 8

/-- A fresh value the manual leaves open: random draws (06 R176 seeds, 12 R415 nonces), log 6. -/
opaque freeValue : Nat → Nat

/-- Whether a control plane's translation cache still holds a leaf whose table's die is lost (02 R56, 03 R118; log 9). -/
opaque cacheHolds : Nat → Nat → Nat → Bool

/-- Set of the directory cache in which a line lies, below 2^20 (04 R126: a hash that the manual does not give; log 10). -/
opaque dirSet : Nat → Nat

/-- Where in its channel a line lies (03 R91: the mapping is internal; log 10), as bits [42:6] of its location: subchannel, rank, bank
group, bank, row and column. -/
opaque dramLocation : Nat → Nat

/-- Which of the results within its accuracy a FUNC instruction gives (05 R184; log 16): function, operand, choice. -/
opaque funcBits : Nat → Nat → Nat

/-- A word whose value the manual leaves open, by what it is of and its inputs (log 16): 1 the low half under LDH and 2 the
old value under CVT when D is an OUT or a discarded code, 3 an element beyond the word in UNPK, 4 what a shelf's stream staging holds,
5 the generation and counter in a waiting message's header, 6 its body, 7 the words of a held flit that the model does not keep,
8 the progress of a resync, 9 the ResponderVerifyData of FINISH_RSP. -/
opaque openWord : Nat → Nat → BitVec 32

/-- SHAKE256 digest of a sequence of words, 256 bits (an external standard; log 4). -/
opaque shake256 : List Nat → Nat

/-- SHAKE256 of a sequence of bytes with 64 bytes of output (08 R306, R307: an external standard; log 77). -/
opaque shake512 : List Nat → Nat

/-- X448 of a private and a public key, and the public key of a private one (08 R306, R307: an external standard; log 77). -/
opaque x448 : Nat → Nat → Nat

/-- The X448 public key of a private key (08 R306; log 77). -/
opaque x448Public : Nat → Nat

/-- The Ed448 public key of a private key (12 R414: an external standard; log 77). -/
opaque ed448Public : Nat → Nat

/-- Ed448 signature by a private key over the message that a number or digest stands for (08 R306, 12 R419; log 77). -/
opaque ed448Sign : Nat → Nat → Nat

/-- The 64-bit image of a line handle, by key, line and SID: a keyed permutation (04 R123; log 5). -/
opaque handleBits : Nat → Nat → Nat → Nat

/-- Vendor ID of Bymas Microsystems and other identity bytes that no rule gives (log 6). -/
opaque vendorId : Nat

/-- Identity bytes of the I3C target, by common command code and byte (16 R486; log 22). -/
opaque i3cByte : Nat → Nat → Nat

/-- Bymas's JEP106 code, 11 bits (16 R493; log 6). -/
opaque jep106 : Nat

/-- The byte that names a rising or falling edge in EVT_CAPTURE (16 R487; log 6). -/
opaque edgeByte : Bool → Nat

/-- Bytes 1 to 9 of EVT_CAPTURE when no capture waits (16 R487; log 6). -/
opaque emptyCapture : Nat → Nat

/-- Steps in which the power governor lowers the lane voltage, less one, below 79 (01 R42; log 6). -/
opaque govSteps : Nat

/-- What picks the lane voltage of a step of the governor but the last (01 R42; log 6). -/
opaque govMillivolts : Nat → Nat

/-- Words of the OTP that no rule gives: factory data, fuse map, an interrupted slot, by OTP word (12 R408; log 6). -/
opaque otpWord : Nat → Nat

/-- The twelve words of the ROM's firmware entry in a proof, and its digest as entry 12 (12 R419; log 6). -/
opaque romWord : Nat → Nat

/-- Spares of a bank that the factory fuse map takes: array, unit, bank, 1 for columns (03 R113; log 76). -/
opaque fusedSpares : Nat → Nat → Nat → Nat → Nat

/-- 2^52, the size of a pool virtual address space (02 R43). -/
def pvaLimit : Nat := 2 ^ 52

/-- Bytes of a small page, 2 MiB (02 R44). -/
def pageBytes : Nat := 2097152

/-- Lines of a 2 MiB page (02 R46). -/
def pageLines : Nat := 32768

end Sys2Proof.Config
end

