-- ==== Sys2Proof/Machine/State.lean ====
section
/-! DEFINITION. The machine's state: every register, table, queue, counter and mode the manual gives the J9P, as plain
data, with the queue of commands that wait (log 1) and the machine right after power-on (log 12). Rules are cited as
<chapter> R<n>. -/

namespace Sys2Proof.Machine

/-! ### Records and outputs -/

/-- An event record (15 R468): head fields and body words. -/
structure Event where
  kind : Nat
  sid : Nat
  region : Nat
  unit : Nat
  hubStamped : Bool
  tally : Nat
  seq : Nat
  body : List Nat
deriving DecidableEq, Repr

/-- Counters latched at the start or the end of a piece of work (15 R463). -/
structure Latch where
  tally : Nat
  lLines : Nat
  fires : Nat
  refire : Nat
deriving DecidableEq, Repr

/-- Content of an output item (10 R351, R368): 32-bit words, or pool lines with their causes
(R372), of which those with a cause go out poisoned when `poison` is set (R366). -/
inductive OutItem where
  | words (ws : List Nat)
  | lines (ls : List (LineData × Nat)) (poison : Bool)
  | pair (sid : Nat) (start stop : Latch)
deriving DecidableEq, Repr

/-- A status reply (10 R361). `index` 0xFFFFF means none; FIELD is
always 255, unknown. `items` is the content of the output item, written just before the reply (R351). -/
structure Reply where
  ring : Nat
  opcode : Nat
  status : Nat
  ctag : Nat
  cseq : Nat
  ended : Nat
  duration : Nat
  stage : Nat
  index : Nat
  result : List Nat
  items : List OutItem
deriving DecidableEq, Repr

/-- A fault record (02 R73): `waiters` holds up to 64 words in the layout of a waiter entry. -/
structure FaultRec where
  kind : Nat
  sid : Nat
  id : Nat
  batch : Nat
  index : Nat
  last : Bool
  total : Nat
  pva : Nat
  size : Nat
  access : Nat
  hid : Nat
  fmt : Nat
  epoch : Nat
  opened : Nat
  heat : Nat
  waiters : List Nat
deriving DecidableEq, Repr

/-- What the device wrote to the host, oldest first (the model's record of outputs); ring entries as their plaintext bytes (10 R352). -/
inductive HostOut where
  | status (slot seq : Nat) (bytes : List Nat)
  | fault (slot seq : Nat) (bytes : List Nat)
  | event (slot seq : Nat) (bytes : List Nat)
  | item (ring cseq : Nat) (parts : List OutItem)
  | msix (vector : Nat)
  | spdm (code : Nat) (body : List Nat)
  | read (off value : Nat)
deriving DecidableEq, Repr

/-! ### Host path (10) -/

/-- Ring states (R357). -/
inductive RingState where
  | stopped | running | halted
deriving DecidableEq, Repr

/-- A baked run (02 R62): one PPA per 2 MiB page from the region's first, none where the page is Reserved or faulting. -/
structure Run where
  sid : Nat
  pva : Nat
  len : Nat
  write : Bool
  pages : List (Option Nat)
deriving DecidableEq, Repr

/-- What a parked command waits for (R363). -/
inductive Park where
  | xltFence (sid epoch : Nat)
  | sysFence (cmds : List (Nat × Nat))
  | memStart
  | powerOff (force : Bool)
  | dieOffline (die : Nat)
  | poolRead (sid epoch : Nat) (run : Run) (done : List (LineData × Nat))
  | poolWrite (sid epoch : Nat) (run : Run) (left : List (LineData × Nat))
  | memCraze (line left : Nat)
  | contact
  | proof (nonce : Nat) (changed : List Nat)
  | peneno
  | retry (i : Instr)
deriving DecidableEq, Repr

/-- A fetched command that has not completed (R355, R363). `start` is the start latch of the counters of SID `lsid`
(15 R464). -/
structure Inflight where
  opcode : Nat
  ctag : Nat
  cseq : Nat
  latch : Bool
  outOff : Nat
  outLen : Nat
  fetched : Nat
  start : Latch
  lsid : Nat
  bellAt : Nat
  parked : Option Park
deriving DecidableEq, Repr

/-- One of the seven rings (R352, R379). `stored` is a doorbell written while the ring did not run (R354);
`since` the time since which the head packet waits while qualified (R355), `bells` the doorbells that cover packets still to be
fetched and when they were written, `bellAt` the time of the last. -/
structure Ring where
  base : Nat
  size : Nat
  st : RingState
  cause : Nat
  prod : Nat
  cons : Nat
  seq : Nat
  doorbell : Nat
  stored : Option Nat
  since : Option Nat
  bells : List (Nat × Nat)
  bellAt : Nat
  inflight : Option Inflight
deriving DecidableEq, Repr

/-- The host path: rings, interrupts, queues of entries that are ready (10). `refault` tells that the fault ring owes fresh
records of the open faults when it next runs (R358); `highs` are latched high words of 64-bit registers (R347). -/
structure HostIf where
  rings : List Ring
  bounceBase : Nat
  bounceSize : Nat
  authFail : Nat
  evtLost : Nat
  doorbellErr : Nat
  irqCause : BitVec 5
  msix : List Word
  pba : BitVec 64
  bme : Bool
  d3hot : Bool
  linkWidth : Nat
  linkRate : Nat
  linkUp : Bool
  highs : SMap Nat
  cfg : HostCfg
  stUnsig : Nat
  stFirst : Nat
  evUnsig : Nat
  evFirst : Nat
  statusQ : List Reply
  faultQ : List FaultRec
  evBuf : List Event
  evKept : List Event
  evSeq : Nat
  refault : Bool
deriving DecidableEq, Repr

/-! ### Observation (15) -/

/-- A trace record (R471). A data record (SOURCE 9) keeps its three data words in `tally`, `addr` and `ivc`. -/
structure TraceRec where
  source : Nat
  unit : Nat
  stamped : Bool
  masked : Bool
  sid : Nat
  op : Nat
  arg : Nat
  tag : Nat
  tally : Nat
  addr : Nat
  ivc : Nat
  keygen : Nat
  src : Nat
  dst : Nat
deriving DecidableEq, Repr

/-- Counter block of a SID (R462), the fields that are cumulative counters. -/
structure Counters where
  fCharged : Nat
  lLines : Nat
  fires : Nat
  refireTicks : Nat
  firings : Nat
  moves : Nat
  denied : Nat
  crazed : Nat
  nacks : Nat
  faults : Nat
  waitTicks : Nat
  contribAcc : Nat
  contribRef : Nat
  slotLate : Nat
  breaches : Nat
deriving DecidableEq, Repr

/-- All counters zero (SAGGER_CREATE, module reset). -/
def Counters.zero : Counters := ⟨0, 0, 0, 0, 0, 0, 0, 0, 0, 0, 0, 0, 0, 0, 0⟩

/-- Mirror settings of a SID (R465 to R467): page PPA 0 means off. -/
structure Mirror where
  ppa : Nat
  period : Nat
  heatBase : Nat
  heatPages : Nat
  heatEvery : Nat
  due : Nat
  updates : Nat
  seq : Nat
  heatSeq : Nat
  heatTally : Nat
deriving DecidableEq, Repr

/-- Trace buffer (R471 to R474) of `banks` banks, without those of `bankOut`. `recs` holds record `first` and later ones; `missed` counts by source the records discarded
since its last one. -/
structure Trace where
  st : Nat
  cfg : TraceCfg
  banks : Nat
  bankOut : List Nat
  first : Nat
  recs : List TraceRec
  written : Nat
  lost : Nat
  lostSince : Nat
  missed : SMap Nat
  spillPos : Nat
  spillAck : Nat
  spillPages : List Nat
deriving DecidableEq, Repr

/-- A section of a contact sheet (R477): its words, and the same with every body, payload, line and lane value 0. -/
structure Sect where
  type : Nat
  unit : Nat
  full : List Nat
  bare : List Nat
deriving DecidableEq, Repr

/-- A contact sheet being taken or held (R475 to R478). `waitUnits` are the dies whose marker has not returned, `units` and `frozen`
those in the cut, `ring` the ring of the command. -/
structure Contact where
  st : Nat
  pause : Nat
  count : Nat
  number : Nat
  data : Bool
  tStart : Nat
  tEnd : Nat
  waitUnits : List Nat
  units : List Nat
  frozen : List Nat
  sections : List Sect
  resumeTrace : Bool
  ring : Nat
deriving DecidableEq, Repr

/-- Observation block (15). -/
structure Obs where
  trace : Trace
  contact : Contact
  global : List Nat
  mirrors : SMap Mirror
deriving DecidableEq, Repr

/-! ### Translation (02) -/

/-- A leaf entry (R52). `page` of the key is PVA[51:21]; a 1 GiB leaf (`big`) stands at its first page. `alerted` tells a
HEAT record of this period, `due` the time of the next decay (R84); `out` that a command removed the entry from the translation caches
when its table could not be read any more (R57, 03 R118). -/
structure Leaf where
  big : Bool
  pres : Bool
  last : Bool
  rd : Bool
  wr : Bool
  atm : Bool
  pin : Bool
  mig : Bool
  heat : Nat
  alerted : Bool
  due : Nat
  ppa : Nat
  out : Bool
deriving DecidableEq, Repr

/-- A page table and its place in granted space (R51): level 1 to 3, index of the table in its level, PPA. -/
structure Table where
  level : Nat
  sid : Nat
  idx : Nat
  ppa : Nat
deriving DecidableEq, Repr

/-- Party that waits on an open fault (R71, R73). An agent request waits as its command. -/
inductive Waiter where
  | agent (i : Instr) (port aid : Nat)
  | firing (f : Nat)
  | step (w : Nat)
  | queued (n : Nat)
deriving DecidableEq, Repr

/-- An open fault (R72, R73); gaps and contact pauses add `extra` to its timeout (11 R390). -/
structure Fault' where
  id : Nat
  sid : Nat
  page : Nat
  big : Bool
  kind : Nat
  opened : Nat
  epoch : Nat
  access : Nat
  waiters : List (Waiter × Nat)
  extra : Nat
deriving DecidableEq, Repr

/-- Pages that one epoch bump took away (R78, R80): pairs of PVA page and PPA (0 where it was Reserved). -/
structure Taken where
  sid : Nat
  epoch : Nat
  ack : Bool
  pages : List (Nat × Nat)
deriving DecidableEq, Repr

/-- Party that waits on a migration (R81 step 2): a request or descriptor that is served again, a descriptor or firing that lacks
the page, or the host command parked on a ring. -/
inductive MigWait where
  | cmd (i : Instr)
  | work (w : Waiter)
  | host (ring : Nat)
deriving DecidableEq, Repr

/-- A migration in progress (R81); its waiters in order of arrival. -/
structure Mig where
  sid : Nat
  page : Nat
  src : Nat
  dst : Nat
  epoch : Nat
  waiters : List MigWait
deriving DecidableEq, Repr

/-- Translation tables and fault service (02). -/
structure Xlt where
  grants : List Nat
  libGrants : List Nat
  tables : List Table
  leaves : SMap Leaf
  epochs : SMap Nat
  holders : SMap Holder
  taken : List Taken
  faults : List Fault'
  nextFault : Nat
  batch : List FaultRec
  batchAt : Nat
  batchWin : Nat
  batchNo : Nat
  batchLast : Nat
  timeout : Nat
  batchWindow : Nat
  refused : Nat
  heatDef : HeatCfg
  heatCfg : SMap HeatCfg
  migs : List Mig
deriving DecidableEq, Repr

/-! ### Pool memory (03) -/

/-- A pool line with its 128 side bits (R92); `top` are the reserved bits [127:120]. -/
structure Line where
  data : LineData
  rowp : BitVec 16
  colp : BitVec 32
  crc : BitVec 32
  craze : BitVec 4
  tag : BitVec 12
  summary : BitVec 16
  wgen : BitVec 8
  top : BitVec 8
deriving DecidableEq, Repr

/-- TAG and WGEN that a whole page was last filled with; its unlisted lines hold zeros (R51, R105). -/
structure Fill where
  tag : BitVec 12
  wgen : BitVec 8
deriving DecidableEq, Repr

/-- Memory states of a kiln die (R120), in the codes of KLN_MEM_STATUS. -/
inductive MemState where
  | absent | training | wedging | inService | offline | lost
deriving DecidableEq, Repr

/-- Memory of one kiln die (R107, R110, R115, R121). -/
structure DieMem where
  st : MemState
  rate : Nat
  size : Nat
  mixed : Bool
  ranks : Nat
  rows : Nat
  wgen : Nat
  ce : Nat
  ue : Nat
  pos : Nat
  passes : Nat
  applied : Nat
  exhausted : Nat
  covered : List (Nat × Nat)
  fullPass : Bool
  cfg : BisqueCfg
  sweepAt : Nat
  trained : List Bool
  attempts : List Nat
deriving DecidableEq, Repr

/-- Pool memory (03). Line keys are PPA[44:6], page keys PPA[44:21]. `rowMends` lists the times of a row's mends within the last
PERIOD (R115), `rowErrs` the parity errors of shelf arrays that call for a spare row, with their times (R114). -/
structure MemSt where
  dies : List DieMem
  fills : SMap Fill
  lines : SMap Line
  rowMends : SMap (List Nat)
  ueLast : SMap Nat
  softRows : List RowLoc
  hardRows : List RowLoc
  pendingSppr : List Nat
  savedSppr : List (RowLoc × Bool)
  presence : List Nat
  spares : List Spare
  rowErrs : List (Spare × Nat)
  tableAt : Nat
deriving DecidableEq, Repr

/-! ### Directory and leases (04) -/

/-- Requests on a line (R131), and the recalls that the device makes itself (R145, R146, R155). -/
inductive LineOp where
  | rdShared | rdOwn | upgrade | rdOnce | scorch | atomic
  | recallShare | recallInv | evict
deriving DecidableEq, Repr

/-- Whose a request is: an agent's, the directory's own (a recall), a mover run's, a migration's, or that of a host command in
flight, by ring and CSEQ (R132, R145). -/
inductive Who where
  | agent | own
  | mover (mid : Nat)
  | mig (mid : Nat)
  | host (ring cseq : Nat)
deriving DecidableEq, Repr

/-- What a line access of the device itself gave (R132): data and cause, the cause written, or a status. -/
inductive DevRes where
  | got (d : LineData) (cause : Nat)
  | wrote (cause : Nat)
  | failed (status : Nat)
deriving DecidableEq, Repr

/-- A request queued for a line (R131). `port`, `src`, `tag`, `tgen` are the requester's; `now` tells a recall that
does not wait for hold windows (R139); `off` the byte offset of an atomic; `merged` that a remote line's new content is
fixed and being written. -/
structure Req where
  op : LineOp
  port : Nat
  src : Nat
  tag : Nat
  tgen : Nat
  sid : Nat
  page : Nat
  epoch : Nat
  nowait : Bool
  now : Bool
  mask : BitVec 64
  cause : Nat
  line : LineData
  aop : Nat
  size : Nat
  opnd1 : BitVec 64
  opnd2 : BitVec 64
  off : Nat
  merged : Bool
  who : Who
deriving DecidableEq, Repr

/-- Directory states (R127). -/
inductive DState where
  | uncached | shared | owned
deriving DecidableEq, Repr

/-- Where the head request of a line stands: not begun, snoops out, snoops answered, memory of the holder awaited. -/
inductive Phase where
  | idle | snooping | snooped | remote
deriving DecidableEq, Repr

/-- A directory entry and its open transactions (R127, R131). `copies` pairs each listed agent with the translation
epoch of its grant (R145); `back` is data a snoop returned; `gone` that the owner answered RSP_GONE. -/
structure DirEnt where
  st : DState
  sid : Nat
  copies : List (Nat × Nat)
  wide : Bool
  pp : BitVec 8
  page : Nat
  holdEnd : Nat
  granted : Nat
  queue : List Req
  phase : Phase
  snoops : List Nat
  snoopAt : Nat
  snoopInv : Bool
  back : Option (LineData × Nat)
  gone : Bool
deriving DecidableEq, Repr

/-- An agent (R122, R147). `kind` 0 never joined, 1 caching, 2 cache-less. `ending` is the cause of a lease end whose
scan is still to run, with lines marked and sharers removed so far. -/
structure Agent where
  kind : Nat
  lapsed : Bool
  lepoch : Nat
  expiry : Nat
  sid : Nat
  port : Nat
  nacks : Nat
  ending : Option (Nat × Nat × Nat)
deriving DecidableEq, Repr

/-- A publication held in the region table (R152). -/
structure Pub where
  epoch : Nat
  version : Nat
  base : Nat
  pages : Nat
  digest : Nat
  mode : Nat
  aid : Nat
  port : Nat
deriving DecidableEq, Repr

/-- A record that a region owes once the recall of R155 is over: `kind` 1 REGION_CHANGE, 2 REGION_CONTESTED, the holder, the two
publications that it names and the lines discarded since. -/
structure Owed where
  kind : Nat
  hid : Nat
  old : Pub
  new : Pub
  discarded : Nat
deriving DecidableEq, Repr

/-- A region-table entry (R153); Contested when `cont` holds a publication. `owed` are its records to come, the oldest first. -/
structure Region where
  sid : Nat
  hid : Option Nat
  act : Pub
  cont : Option Pub
  owed : List Owed
deriving DecidableEq, Repr

/-- A reserved way (R137): agent, line, the SID that gives the line's set, and the time at which it ends. -/
structure Resv where
  aid : Nat
  line : Nat
  sid : Nat
  till : Nat
deriving DecidableEq, Repr

/-- A page claim of a firing (R142, R143). -/
structure Claim where
  page : Nat
  write : Bool
  firing : Nat
  held : Bool
deriving DecidableEq, Repr

/-- Directory, agents, claims and regions (04). `wayWait` are the requests that wait for a way of their set, with line and victim
(R134); `strays` the snoops whose lines have left the directory (R146), with line, agent and time; `recalled` the lines with
uncorrectable side bits whose copies were recalled and that nobody has requested since (R128); `answers` what accesses of the
device itself gave and nothing has taken yet (R132). -/
structure Dir where
  ents : SMap DirEnt
  agents : SMap Agent
  lineNacks : SMap Nat
  reserv : List Resv
  reservWait : List (Nat × Nat × Nat)
  wayWait : List (Nat × Req × Option Nat)
  strays : List (Nat × Nat × Nat)
  recalled : List Nat
  answers : List (Who × DevRes)
  claims : List Claim
  claimWait : List (Nat × Req)
  regions : SMap Region
  cohDef : CohCfg
  cohCfg : SMap CohCfg
  nackCnt : Nat
  leaseEnds : Nat
  marked : Nat
  discarded : Nat
  summaryBad : Nat
  handleKey : Nat
deriving DecidableEq, Repr

/-! ### Golha ports (08) -/

/-- Fields that messages from the J9P carry beyond their header (R300, R303): words, an optional line with its cause,
an optional line handle. -/
structure OutMsg where
  op : Nat
  dst : Nat
  tag : Nat
  tgen : Nat
  status : Nat
  load : Nat
  body : List Nat
  line : Option (LineData × Nat)
  handle : Option Handle
deriving DecidableEq, Repr

/-- Admission of an AID at a port (R308): Stranger, Replied, Admitted. -/
inductive Adm where
  | stranger | replied | admitted
deriving DecidableEq, Repr

/-- Invocation counters accepted under one key (R299): one above the highest, and those seen in the window below it. -/
structure IvcWin where
  next : Nat
  seen : List Nat
deriving DecidableEq, Repr

/-- Security association of an AID at a port (R299, R305 to R309). `allow` is the SID of AID_ALLOW; `gen` and `txIvc` are the
generation used for sending and the next counter under it, `rxGen` and `rx` the newest generation received; `old` the
counters of the generation before, accepted until `oldUntil` (0: nothing has come under the new one); `rekeying` that a
REKEY of ours awaits its REKEY_ACK; `hello` that an Admitted AID is being admitted again; `admAt` the time of its admission. `hand` holds a
handshake's own private key, the agent's public key and T1 until its PROVE, and `keys` K(g) of the generations that are not erased (R307). -/
structure Assoc where
  adm : Adm
  allow : Option Nat
  sid : Nat
  gen : Nat
  txIvc : Nat
  rxGen : Nat
  rx : IvcWin
  old : Option IvcWin
  oldUntil : Nat
  rekeying : Bool
  hello : Bool
  replyAt : Nat
  admAt : Nat
  certEpoch : Nat
  keyslot : Nat
  hand : Option (Nat × Nat × Nat)
  keys : SMap Nat
deriving DecidableEq, Repr

/-- What an outstanding request to a holder or agent is for (R303, R310). -/
inductive Purpose where
  | dirRead (line : Nat)
  | dirWrite (line : Nat)
  | writeBack (line : Nat)
  | mark (aid line : Nat)
  | fence (aid : Nat)
  | push (firing : Nat)
deriving DecidableEq, Repr

/-- An outstanding request with its completion timer (R310, R311). -/
structure Outst where
  port : Nat
  aid : Nat
  tag : Nat
  tgen : Nat
  op : Nat
  sent : Nat
  lost : Bool
  purpose : Purpose
deriving DecidableEq, Repr

/-- A flit held for replay (R283, R286): the payload bytes that go on with an earlier message, and the messages whose
headers start in it. -/
structure HeldFlit where
  seq : Nat
  sentAt : Nat
  cont : Nat
  msgs : List OutMsg
deriving DecidableEq, Repr

/-- A link-control operation that the port sends (R282): 1 RESUME, 2 LANE_SWAP, 3 LANE_SWAP_ACK, 4 RETRAIN; `sent` the time it
was last sent. -/
structure Lctl where
  op : Nat
  lane : Nat
  codeword : Nat
  sent : Option Nat
deriving DecidableEq, Repr

/-- A flit as sent (R280), the model's record of a port's output. `ctl` is the operation of an LCTL flit, with FRESH, RX_ACK and
the credit counters of a RESUME. -/
structure TxFlit where
  port : Nat
  ftype : Nat
  seq : Nat
  ack : Nat
  nak : Bool
  cvc : Nat
  ck : Nat
  ccount : Nat
  trainNo : Nat
  cont : Nat
  msgs : List OutMsg
  ctl : Option (Lctl × Bool × Nat × List Nat)
deriving DecidableEq, Repr

/-- Port states (R288). -/
inductive LinkState where
  | down | training | resuming | up
deriving DecidableEq, Repr

/-- Port counters of R314. -/
structure PortCtr where
  fecCorr : Nat
  fecUncorr : Nat
  crcFail : Nat
  replays : Nat
  strangerDrop : Nat
  authFail : Nat
  late : Nat
  protocol : Nat
  freshDiscard : Nat
  undelivered : Nat
  lostInbound : Nat
deriving DecidableEq, Repr

/-- A scheduled gate list (R325 to R327). -/
structure GateSched where
  entries : List GateEntry
  guard : Nat
  start : Nat
  cur : Nat
  curAt : Nat
  used : Nat
deriving DecidableEq, Repr

/-- A VC0 request or CONTRIB of an agent that is not yet answered (R301, R311). `passed` tells that it has passed its
meter, `excess` in which class (09 R321), `deadline` its deadline (09 R323), `due` the start of the RETURN entry that is to
carry its answer when it came in a slot, `ord` its place in the order of admission (09 R329), `cost` its charge at meter F. -/
structure OpenReq where
  aid : Nat
  tag : Nat
  tgen : Nat
  fence : Bool
  passed : Bool
  excess : Bool
  deadline : Nat
  due : Option Nat
  ord : Nat
  cost : Nat
deriving DecidableEq, Repr

/-- A message that waits to be sent: its virtual channel, service class and deadline (09 R323), when it was built, the
earliest start of a RETURN entry that may carry it and its place among the answers of slots (09 R329, R330), and the charge of
the request that it answers (09 R320). -/
structure TxItem where
  vc : Nat
  msg : OutMsg
  cls : Nat
  deadline : Nat
  built : Nat
  due : Nat
  ord : Nat
  cost : Nat
deriving DecidableEq, Repr

/-- A Golha port with its die (08 R276 to R314, 09 R325). `fast` tells the kind of the training attempt that began at
`trainAt`, `retryAt` when the next one is due; `held` the replay buffer, of which the last `resend` flits are being sent again;
`nakHold` the ACK of the last replay's NAK and its start; `swapped` the data lane received on lane 8 (15 none), `txSwap` the one
sent there; `txLeft` the bytes still to send of the last message begun; `sinceIdle` flits since the last IDLE, `flits` flits sent
in all; credit counters stand in the order of RESUME, `crSent` as last sent and `crAt` by which flit; `rxOcc` receive-pool slots
that messages hold which no plane has taken; `rxPart` a message not yet complete; `strangerAt` when the next message of a
stranger may come; `idKey` the port identity key in the die's key store (12 R414). `reqs` stand in order of arrival; `admits` counts the requests that passed a meter. -/
structure Port where
  inSvc : Bool
  outCause : Nat
  par : PortParams
  st : LinkState
  narrow : Bool
  swapped : Nat
  txSwap : Option (Nat × Nat)
  trainNo : Nat
  fresh : Bool
  attempts : Nat
  fast : Bool
  trainAt : Nat
  retryAt : Option Nat
  wasUp : Bool
  downAt : Nat
  txSeq : Nat
  held : List HeldFlit
  resend : Nat
  lastAck : Nat
  replaysNoAck : Nat
  nakHold : Option (Nat × Nat)
  rxE : Nat
  nakSent : Bool
  txq : List TxItem
  txLeft : Nat
  sinceIdle : Nat
  flits : Nat
  grantedTx : List Nat
  usedTx : List Nat
  grantedRx : List Nat
  usedRx : List Nat
  crSent : List Nat
  crAt : List Nat
  rxOcc : List Nat
  lctl : List Lctl
  codewords : Nat
  failedLanes : List Nat
  rxPart : List RxMsg
  assocs : SMap Assoc
  strangerAt : Nat
  reqs : List OpenReq
  admits : Nat
  tagGens : SMap Nat
  gate : Option GateSched
  gateNext : Option (Nat × GateSched)
  ctr : PortCtr
  idKey : Option Nat
deriving DecidableEq, Repr

/-! ### Saggers and shaping (09) -/

/-- Sagger states (R316). -/
inductive SagState where
  | free | active | draining
deriving DecidableEq, Repr

/-- A meter (R321): levels in 1/1,000 byte. -/
structure Meter where
  t : Nat
  c : Int
  p : Int
deriving DecidableEq, Repr

/-- A request that waits at its port's gate or its meter (R322, R327): its command, when it arrived, bytes to charge, lines
it counts in a slot. -/
structure Waiting where
  port : Nat
  at_ : Nat
  cost : Nat
  lines : Nat
  cmd : Instr
deriving DecidableEq, Repr

/-- A sagger entry (R315) with its meters, samples and counters. `leaving` tells that it is unsealed but still holds its
partitions (R328), `drainDue` that SAGGER_DRAINED is still to come (R316). -/
structure Sagger where
  st : SagState
  sealed : Bool
  leaving : Bool
  drainDue : Bool
  par : SagParams
  tcBlocks : Nat
  dirBlocks : Nat
  f : Meter
  l : Meter
  waiting : List Waiting
  qdepth : Nat
  qdelay : Nat
  qdepthPeak : Nat
  qdelayPeak : Nat
  loads : SMap Nat
  ctr : Counters
  breachNext : Nat
  breachTotal : Nat
deriving DecidableEq, Repr

/-- An open breach record (R338): `port` and `die` 255 for none, `meter` 0 none, 1 F, 2 L. -/
structure Breach where
  sid : Nat
  guarantee : Nat
  reason : Nat
  port : Nat
  die : Nat
  count : Nat
  start : Nat
  last : Nat
  shortfall : Nat
  meter : Nat
deriving DecidableEq, Repr

/-- Saggers and shaping (09). -/
structure Sags where
  tab : SMap Sagger
  shape : ShapeCfg
  breaches : List Breach
  breachCnt : Nat
  sampleAt : Nat
deriving DecidableEq, Repr

/-! ### Twins (11) -/

/-- Plane states, in the codes of the TWN registers (R383). -/
inductive PlaneState where
  | active | standby | out | resync | dead
deriving DecidableEq, Repr

/-- A control plane (R383 to R387). -/
structure Plane where
  st : PlaneState
  claim : Nat
  losses : Nat
  fenced : Bool
  missed : Nat
  pulseAt : Nat
  windowAt : Nat
  testing : Bool
deriving DecidableEq, Repr

/-- Modes of the pair (R401). -/
inductive TwinMode where
  | starting | duplex | solo | fatal
deriving DecidableEq, Repr

/-- A running gap (R388, R391): start, cause, whether its parity verdict is awaited. -/
structure Gap where
  start : Nat
  cause : Nat
  divergence : Bool
  oldClaim : Nat
  left : Nat
deriving DecidableEq, Repr

/-- Twin control planes and their gates (11). `gates` maps a gate to the outputs held there, each with its plane, value and time
(R384); `rxWait` are commands received while no plane takes input (R388); `pauseEnd`,
`pauseLen` and `pauseWhy` tell the end, length and breach reason of the last gap or contact pause (R390). -/
structure Twin where
  planes : List Plane
  mode : TwinMode
  fatalCause : Nat
  gap : Option Gap
  gates : SMap (List (Nat × Nat × Nat))
  passed : List (Nat × Nat)
  resyncAt : Nat
  gaps : Nat
  lastGap : Nat
  divLocated : Nat
  divUnlocated : Nat
  alarmWire : Nat
  alarmMail : Nat
  pathRec : SMap Nat
  rxWait : List Instr
  pauseEnd : Nat
  pauseLen : Nat
  pauseWhy : Nat
deriving DecidableEq, Repr

/-! ### Peneno (12) -/

/-- One-time-programmable memory (R408 to R411). `half` is the state whose nibble is partly burned, `cert` the device certificate
and whether its subject key is the identity key. -/
structure Otp where
  lc : Nat
  killOwner : Bool
  killUds : Bool
  fwRevoke : Nat
  svn : List Nat
  udsBurned : Bool
  uds : Nat
  half : Option Nat
  cert : Option (Nat × Bool)
  slots : List (Option GenRec)
  used : List Bool
deriving DecidableEq, Repr

/-- A loaded firmware image (R405, R406). -/
structure Loaded where
  type : Nat
  slot : Nat
  factory : Bool
  svn : Nat
  version : Nat
  digest : Nat
deriving DecidableEq, Repr

/-- A burn of the OTP that runs (R407 to R412). -/
inductive Burn where
  | gen (g : GenRec) | seal (g : GenRec) | provision | cert (c : Nat) (subjectOk : Bool) | revoke (mask : Nat)
  | svn (type v : Nat) | lc (target : Nat)
deriving DecidableEq, Repr

/-- Root of trust (12). `idKey` and `aliasKey` are the identity and alias private keys (R414), `keys` KH and KD of the session in force
and `exch` Z, th1 and rsp_verify of a handshake (R424). `inForce` is the slot of the generation record in force, 0 for none (R410); `session` and `handshake`
tell that a session stands and that a KEY_EXCHANGE awaits its FINISH (R425); `nonce` the token nonce and its time. -/
structure Pen where
  otp : Otp
  started : Bool
  safelight : Nat
  slSince : Nat
  slScope : Nat
  slDuration : Nat
  factoryDebug : Bool
  rngFail : Bool
  aliasReady : Bool
  romError : Bool
  fwAddr : Nat
  fwLen : Nat
  fwNext : Nat
  fwResult : Nat
  fwLoaded : Nat
  verifying : Bool
  images : List Loaded
  nonce : Option (Nat × Nat)
  busy : Option Burn
  inForce : Nat
  session : Bool
  handshake : Bool
  idKey : Option Nat
  aliasKey : Option Nat
  keys : Option (Nat × Nat)
  exch : Option (Nat × Nat × Nat)
deriving DecidableEq, Repr

/-! ### Tally (13) -/

/-- A die's tally copy (R433, R440); `failed` tells that it failed to join (14 R449), `idleAt` since when a kiln die could become
dormant, `wakeAt` when the cause of its freeze ended, `d2d` the
transfers its link's sender holds with their failed attempts (01 R28), `corr` the ticks still to be
corrected since the last SYNC token. -/
structure DieTally where
  joined : Bool
  failed : Bool
  synced : Bool
  delay : Nat
  offset : Int
  freeze : Nat
  frozenLocal : Nat
  frozenHub : Nat
  hubStamped : Nat
  idleAt : Option Nat
  wakeAt : Option Nat
  d2d : SMap (Nat × List Nat)
  corr : Int
deriving DecidableEq, Repr

/-- States of a crossing (R437). -/
inductive Cross where
  | run | flush | idle | resync
deriving DecidableEq, Repr

/-- The tally and the crossings (13). Crossings and stopped clocks are listed by domain. -/
structure Tal where
  now : Nat
  running : Bool
  refOk : Bool
  locked : Bool
  skew : Nat
  dies : List DieTally
  gaps : Nat
  clkStop : Nat
  crossings : List (ClockDomain × Cross)
  stopped : List ClockDomain
deriving DecidableEq, Repr

/-! ### Power and start-up (14) -/

/-- Input, rails, start-up and reset state (14 R444 to R460). `group` rail groups are in their windows; `blocked` that the input
must fall first (R446, 16 R496); `waitStart` since when the next step waits for the host (R450); `lastLow` the last INPUT_LOW; `selfRefresh` that every channel is
in self-refresh (R457, R458, 11 R399). -/
structure Glb where
  inputGood : Bool
  inputLow : Bool
  pwrFail : Bool
  pwrFailAt : Nat
  blocked : Bool
  disconnected : Bool
  group : Nat
  railFault : Bool
  hubReset : Bool
  board : Option Board
  step : Nat
  arraysTested : Bool
  fwStarted : Bool
  waitStart : Option Nat
  readyAt : Nat
  hostWaitTotal : Nat
  poolReady : Bool
  readyOff : Bool
  lastLow : Option Nat
  resetCause : Nat
  prevFatal : Nat
  resetDue : Option Nat
  mrst : Bool
  memStarted : Bool
  rate : Nat
  kilnIn : BitVec 8
  powerStep : Nat
  heldPlacement : Bool
  selfRefresh : Bool
deriving DecidableEq, Repr

/-! ### Sideband (16) -/

/-- What the carrier controller and the TAP received, oldest first (the model's record of outputs). -/
inductive SideOut where
  | data (code : Nat) (bytes : List Nat)
  | nack (code : Nat)
  | ibi (code : Nat)
  | tdo (instr : Nat) (bits : List Bool)
  | pin (pin : Nat) (level : Bool)
deriving DecidableEq, Repr

/-- An event timer (R488, R490). `pin` 255 for none; `next` 0 when not armed. -/
structure EvtTimer where
  mode : Nat
  pin : Nat
  width : Nat
  start : Nat
  period : Nat
  next : Nat
deriving DecidableEq, Repr

/-- An event pin (R489, R491): capture mode, level, end of a running pulse, captures (oldest first). -/
structure EvtPinSt where
  mode : Nat
  owner : Option Nat
  level : Bool
  input : Bool
  pulseEnd : Option Nat
  captures : List (Nat × Bool)
deriving DecidableEq, Repr

/-- I3C target, event block and TAP (16). -/
structure Side where
  dynAddr : Nat
  ibiOn : Bool
  pageSel : Nat
  cml : Bool
  evtResult : Nat
  timers : List EvtTimer
  pins : List EvtPinSt
  tapIr : Nat
  pwrGood : Bool
  fatalN : Bool
deriving DecidableEq, Repr

/-! ### Kilns (05, 06, 07) -/

/-- A word with its taint (06 R216, R214; 07 R263): 0 none, 1 tainted (cause 8), 2 derived from an accumulator marked with
cause 7, 3 from a step written with cause 9. A result takes the largest of its sources. -/
structure TWord where
  v : Word
  t : Nat
deriving DecidableEq, Repr

/-- A word of a stream with the E8M0 scale code of its MX block (05 R169; 127 is a factor of 1). -/
structure SWord where
  w : TWord
  scale : Nat
deriving DecidableEq, Repr

/-- A logical lane (05 R162; 06 R196, R197). `a` and `b` are the operand words of its last fire. Predicates carry a value and a taint. `ins` are the words that remain of IN0 to IN3.
Converted results of the running step stand in `outs` as bytes with taint, for OUT0, OUT1, OSCL0 and OSCL1; `sent` counts
the bytes committed to each; `blk` holds the pushes of an MX block that is not full; `room` the elements that the lane's
grains of OUT0 and OUT1 still take, `lost` the pushes beyond them. `fin` tells that the lane met END. `pops`, `stps` and
`pushes` count the running step. -/
structure Lane where
  w : List TWord
  m : List (Bool × Nat)
  s : TWord
  c : TWord
  f : BitVec 8
  g : BitVec 64
  priv : SMap TWord
  ins : List (List SWord)
  outs : List (List (Nat × Nat))
  sent : List Nat
  blk : List (List TWord)
  room : List Nat
  lost : Nat
  fin : Bool
  pops : Nat
  stps : Nat
  pushes : Nat
  a : Word
  b : Word
deriving DecidableEq, Repr

/-- A glaze resident in a shelf's store: its bytes there and the time of its last use (06 R195). A store lists its residents in the order of
their last use. -/
structure Resident where
  id : Nat
  version : Nat
  size : Nat
  used : Nat
deriving DecidableEq, Repr

/-- What a shelf waits for: nothing, BARRIER, SRED with its operation, destination and predicate, or FRED (06 R220, R223). -/
inductive ShWait where
  | none | barrier | sred (op d ps : Nat) | fred (op out : Nat)
deriving DecidableEq, Repr

/-- A shelf (06 R193 to R197, 05 R188 to R190, 15 R480). `run` is the firing whose part it runs, `base` the index of its
first lane in the part; `unread` the pieces of grains that each lane's SPLIT streams have still to read, as grain, offset and bytes (06 R211); `shadow`, `ctS`, `idxS`, `repS`, `braS` the state at the last commit; `residue` the positions that are
Warned (1) or Retired (2), `free` the spare positions, `moved` the lanes that stand on a spare; `nine` the lanes whose
running step is written with cause 9; `attempts` the failed attempts of the running step and `stepAt` its last start;
`hold` 1 holds at the next commit, 2 after `steps` commits, `held` that it stands. -/
structure Shelf where
  out : Bool
  marked : Bool
  run : Option Nat
  window : Option Nat
  base : Nat
  idx : Nat
  rep : Nat
  ct : List Word
  const : SMap TWord
  lanes : List Lane
  unread : List (List (List (Nat × Nat × Nat)))
  shadow : List Lane
  ctS : List Word
  idxS : Nat
  repS : Nat
  slots : Nat
  bra : Bool
  braS : Bool
  attempts : Nat
  nine : List Nat
  wait : ShWait
  contrib : List (Option TWord)
  store : List Resident
  residue : SMap Nat
  free : List Nat
  moved : List (Nat × Nat)
  hold : Nat
  steps : Nat
  held : Bool
  stepAt : Nat
deriving DecidableEq, Repr

/-- Counters of a kiln die (05 R192, 06 R234, 07 R274). -/
structure KilnDie where
  residueFails : Nat
  retired : Nat
  cause9 : Nat
  partsDone : Nat
  glazeLoads : Nat
  winAccepted : Nat
  winRefused : Nat
  pieces : Nat
  queue : List (Nat × Nat)
deriving DecidableEq, Repr

/-- States of a firing (06 R209). -/
inductive FState where
  | faulting | claiming | queued | running
deriving DecidableEq, Repr

/-- A part (06 R206, R207): die, shelves it needs, grains of each lane in order, shelves it runs on; `ended` when all its
lanes have ended or it stopped; `freds` are what its FREDs gave: OUT, operation, value if any. -/
structure Part where
  die : Nat
  n : Nat
  grains : List Nat
  shelves : List Nat
  placed : Bool
  ended : Bool
  freds : List (Nat × Nat × Option TWord)
deriving DecidableEq, Repr

/-- A piece of a firing with contexts (07 R245): context, chunk or bag, head, first token, tokens, die. -/
structure Piece where
  ctx : Nat
  chunk : Nat
  head : Nat
  first : Nat
  count : Nat
  die : Nat
deriving DecidableEq, Repr

/-- A context (07 R235 to R238) with the baked base of a TABLE context's rows and its epoch. -/
structure CtxSt where
  e : Ctx
  base : Nat
  epoch : Nat
deriving DecidableEq, Repr

/-- An open firing (06 R198, R209, R230). `sub` is the agent that submitted it as port, AID, message TAG and TGEN (none:
the host or a window); `win` the window whose step it is; `runs` the baked runs by role, and by 100 plus a context's number for
its list; `blocks` the block PVAs of each KV context with their PPAs; `stop` the status of the event that ends it early;
`orphan` that the submitter's lease ended (R232); `heat` the lines counted on each leaf towards the next 64 (02 R83); `alloc` the sagger's shelf masks
and `avail` its in-service shelves on each die, both as they were at submission (01 R31, 06 R207). -/
structure Firing where
  fid : Nat
  firingId : Nat
  sub : Option (Nat × Nat × Nat × Nat)
  win : Option Nat
  sid : Nat
  desc : FireDesc
  st : FState
  epoch : Nat
  runs : List (Nat × Run)
  parts : List Part
  ctxs : List (Nat × CtxSt)
  blocks : List (Nat × List (Nat × Option Nat))
  pieces : List Piece
  seed : Nat
  submitted : Nat
  started : Nat
  extra : Nat
  latch : Latch
  written : Nat
  crazed : Nat
  refires : Nat
  retired : Nat
  overrun : Nat
  causes : Nat
  flags : Nat
  stop : Option Nat
  orphan : Bool
  heat : SMap Nat
  alloc : List Nat
  avail : List Nat
deriving DecidableEq, Repr

/-- A glaze of the library (06 R226 to R228); `units` are the line numbers of its 4 KiB units. -/
structure Glaze where
  id : Nat
  version : Nat
  requires : Nat
  ctx : Bool
  win : Bool
  key : Nat
  code : List Word
  digest : Nat
  mode : Nat
  sids : List Nat
  units : List Nat
deriving DecidableEq, Repr

/-- Window states (07 R265). -/
inductive WState where
  | opened | stepping | parked | lost
deriving DecidableEq, Repr

/-- An accumulator of a window (07 R259): S and C with their taint and mark. -/
structure Acc where
  s : TWord
  c : TWord
deriving DecidableEq, Repr

/-- A window that is not Free (07 R257 to R265). The ledger lists the set bits: contributor and segment. -/
structure Window where
  blk : WinBlock
  st : WState
  shelves : List Nat
  round : Nat
  opened : Bool
  ledger : List (Nat × Nat)
  accs : SMap Acc
  received : Nat
  dups : Nat
  late : Nat
  refused : Nat
  firstAt : Nat
  closedAt : Nat
  extra : Nat
  steps : Nat
  leaving : Bool
deriving DecidableEq, Repr

/-- A mover descriptor in the mover cluster (02 R64 to R69, 01 R36). `sub` is the agent's port and AID with the TAG
and TGEN of its message (none: the host), `mig` a migration's copy, `chain` its chain or 0; `runS`, `runD` the baked runs; `pos` the bytes
done; `buf` the source lines read for the next destination line; `heat` the lines of each page read or written since it last added
heat (R83); `stop` the status of the event that ended it. -/
structure MRun where
  mid : Nat
  moveId : Nat
  sub : Option (Nat × Nat × Nat × Nat)
  mig : Bool
  chain : Nat
  sid : Nat
  desc : MoveDesc
  epoch : Nat
  runS : Option Run
  runD : Run
  submitted : Nat
  started : Nat
  latch : Latch
  pos : Nat
  written : Nat
  crazed : Nat
  causes : Nat
  buf : SMap (LineData × Nat)
  heat : SMap Nat
  stop : Option Nat
  mover : Option Nat
deriving DecidableEq, Repr

/-- A chain of descriptors of one submitter (02 R67): port (16 once its last descriptor has come) and AID, how many came, whether
the rest is discarded. -/
structure Chain where
  id : Nat
  port : Nat
  aid : Nat
  count : Nat
  broken : Bool
  mover : Option Nat
deriving DecidableEq, Repr

/-- Kilns, firings, library, contexts, windows and movers (05, 06, 07; 02 R64). -/
structure Kiln where
  shelves : List Shelf
  dies : List KilnDie
  firings : List Firing
  nextFid : Nat
  nextFiringId : Nat
  firingWait : List Firing
  library : List Glaze
  ctxs : SMap CtxSt
  wins : SMap Window
  runs : List MRun
  movers : List Bool
  nextMid : Nat
  nextMoveId : Nat
  nextChain : Nat
  chains : List Chain
deriving DecidableEq, Repr

/-! ### The state, and how a step can stop -/

/-- The whole machine. `pending` is the queue of commands that wait, first in, first out (log 1). `freeCtr` counts the
free values drawn so far and is the model's own (log 6); `hostOut`, `fabOut` and `sideOut` record what the device put out. -/
structure State where
  pending : List Instr
  freeCtr : Nat
  glb : Glb
  host : HostIf
  xlt : Xlt
  mem : MemSt
  dir : Dir
  kiln : Kiln
  ports : List Port
  outst : List Outst
  sags : Sags
  twin : Twin
  pen : Pen
  tal : Tal
  obs : Obs
  side : Side
  hostOut : List HostOut
  fabOut : List TxFlit
  sideOut : List SideOut
deriving DecidableEq, Repr

/-! ### The machine right after power-on (log 12)

Every register that the manual's tables give a reset value has it. The members that no rule gives a reset value stand at 0,
empty or off, as log 12 names them. -/

/-- Meters and settings of SID 0's entry (09 R315): buckets full, rates unlimited. -/
def resetSagger : Sagger :=
  { st := .active, sealed := false, leaving := false, drainDue := false
    par := ⟨0, 0, 64, 64, 0xFFFFFFFF, 0xFFFFFFFF, 65536, 65536, 0, List.replicate 8 0, 7, 0⟩
    tcBlocks := 0, dirBlocks := 0, f := ⟨0, 65536000, 67108864000⟩, l := ⟨0, 65536000, 67108864000⟩
    waiting := [], qdepth := 0, qdelay := 0, qdepthPeak := 0, qdelayPeak := 0, loads := []
    ctr := Counters.zero, breachNext := 0, breachTotal := 0 }

/-- A ring at reset (10 R379). -/
def resetRing : Ring :=
  { base := 0, size := 0, st := .stopped, cause := 0, prod := 0, cons := 0, seq := 0, doorbell := 0, stored := none
    since := none, bells := [], bellAt := 0, inflight := none }

/-- The host path at reset (10 R370, R378 to R381; log 20). -/
def resetHost : HostIf :=
  { rings := List.replicate 7 resetRing, bounceBase := 0, bounceSize := 0, authFail := 0, evtLost := 0
    doorbellErr := 0, irqCause := 0, msix := (List.replicate 64 [0, 0, 0, 1]).flatten, pba := 0, bme := false, d3hot := false
    linkWidth := 0, linkRate := 0, linkUp := false, highs := []
    cfg := ⟨[0, 1, 2, 3, 4], 1, 0, 1, 0, 1⟩, stUnsig := 0, stFirst := 0, evUnsig := 0, evFirst := 0
    statusQ := [], faultQ := [], evBuf := [], evKept := [], evSeq := 0, refault := false }

/-- Translation at reset (02 R48, R74, R76, R84; log 21). -/
def resetXlt : Xlt :=
  { grants := [], libGrants := [], tables := [], leaves := [], epochs := [], holders := [], taken := [], faults := []
    nextFault := 0, batch := [], batchAt := 0, batchWin := 2000, batchNo := 0, batchLast := 0, timeout := 2000000000
    batchWindow := 2000, refused := 0, heatDef := ⟨1000000000, 1, 0, 0⟩, heatCfg := [(0, ⟨1000000000, 1, 0, 0⟩)], migs := [] }

/-- Memory of a die at reset (03 R110, R121). -/
def resetDie : DieMem :=
  { st := .absent, rate := 0, size := 0, mixed := false, ranks := 0, rows := 0, wgen := 0, ce := 0, ue := 0, pos := 0
    passes := 0, applied := 0, exhausted := 0, covered := [], fullPass := false, cfg := ⟨86400000000000, 60000000000, 4, 1⟩
    sweepAt := 0, trained := List.replicate 6 false, attempts := List.replicate 6 0 }

/-- Pool memory at reset: nothing listed (log 7). -/
def resetMem : MemSt :=
  { dies := List.replicate 8 resetDie, fills := [], lines := [], rowMends := [], ueLast := [], softRows := [], hardRows := []
    pendingSppr := [], savedSppr := [], presence := [], spares := [], rowErrs := [], tableAt := 0 }

/-- Coherence at reset (04 R159, R161). -/
def resetDir : Dir :=
  { ents := [], agents := [], lineNacks := [], reserv := [], reservWait := [], wayWait := [], strays := [], recalled := [], answers := [], claims := [], claimWait := [], regions := []
    cohDef := ⟨256, 100000000, 10000000, 10000000, 1024, 65536⟩, cohCfg := [(0, ⟨256, 100000000, 10000000, 10000000, 1024, 65536⟩)]
    nackCnt := 0, leaseEnds := 0, marked := 0, discarded := 0, summaryBad := 0, handleKey := 0 }

/-- A shelf at reset; its spare positions come free at the array test (14 R448). -/
def resetShelf : Shelf :=
  { out := false, marked := false, run := none, window := none, base := 0, idx := 0, rep := 0, ct := List.replicate 4 0
    const := [], lanes := [], unread := [], shadow := [], ctS := List.replicate 4 0, idxS := 0, repS := 0, slots := 0, bra := false, braS := false
    attempts := 0, nine := [], wait := .none, contrib := [], store := [], residue := [], free := [], moved := [], hold := 0
    steps := 0, held := false, stepAt := 0 }

/-- Kilns and movers at reset (05 R192, 06 R234, 07 R274). -/
def resetKiln : Kiln :=
  { shelves := List.replicate 320 resetShelf, dies := List.replicate 8 ⟨0, 0, 0, 0, 0, 0, 0, 0, []⟩, firings := [], nextFid := 0
    nextFiringId := 0, firingWait := [], library := [], ctxs := [], wins := [], runs := [], movers := List.replicate 64 false
    nextMid := 0, nextMoveId := 0, nextChain := 0, chains := [] }

/-- A port at reset (08 R313, R314). -/
def resetPort (p : Nat) : Port :=
  { inSvc := false, outCause := 0, par := ⟨p, 0, 2047, 100000000, 10000, 100000, 16, 0⟩, st := .down, narrow := false
    swapped := 15, txSwap := none, trainNo := 0, fresh := true, attempts := 0, fast := false, trainAt := 0, retryAt := none
    wasUp := false, downAt := 0, txSeq := 0, held := [], resend := 0, lastAck := 4095, replaysNoAck := 0, nakHold := none
    rxE := 0, nakSent := false, txq := [], txLeft := 0, sinceIdle := 0, flits := 0
    grantedTx := List.replicate 16 0, usedTx := List.replicate 16 0, grantedRx := List.replicate 16 0, usedRx := List.replicate 16 0
    crSent := List.replicate 16 0, crAt := List.replicate 16 0, rxOcc := List.replicate 16 0
    lctl := [], codewords := 0, failedLanes := [], rxPart := [], assocs := [], strangerAt := 0, reqs := [], admits := 0
    tagGens := [], gate := none, gateNext := none, ctr := ⟨0, 0, 0, 0, 0, 0, 0, 0, 0, 0, 0⟩, idKey := none }

/-- Peneno at power-on, with blank one-time-programmable memory (12 R408 to R411, R428). -/
def resetPen : Pen :=
  { otp := ⟨0, false, false, 0, List.replicate 4 0, false, 0, none, none, List.replicate 4 none, List.replicate 4 false⟩, started := false
    safelight := 0, slSince := 0, slScope := 0, slDuration := 0, factoryDebug := false, rngFail := false, aliasReady := false
    romError := false, fwAddr := 0, fwLen := 0, fwNext := 1, fwResult := 0, fwLoaded := 0, verifying := false, images := []
    nonce := none, busy := none, inForce := 0, session := false, handshake := false, idKey := none, aliasKey := none, keys := none, exch := none }

/-- A plane at reset (11 R383, R401). -/
def resetPlane (st : PlaneState) (claim : Nat) : Plane :=
  { st := st, claim := claim, losses := 0, fenced := false, missed := 0, pulseAt := 0, windowAt := 0, testing := false }

/-- The state right after power-on, before 64 V is good. -/
def State.reset : State :=
  { pending := [], freeCtr := 0
    glb :=
      { inputGood := false, inputLow := false, pwrFail := false, pwrFailAt := 0, blocked := false, disconnected := false, group := 0
        railFault := false, hubReset := true, board := none, step := 0, arraysTested := false, fwStarted := false
        waitStart := none, readyAt := 0, hostWaitTotal := 0, poolReady := false, readyOff := false, lastLow := none, resetCause := 0
        prevFatal := 0, resetDue := none, mrst := false, memStarted := false, rate := 0, kilnIn := 0, powerStep := 0
        heldPlacement := false, selfRefresh := false }
    host := resetHost, xlt := resetXlt, mem := resetMem, dir := resetDir, kiln := resetKiln
    ports := (List.range 16).map resetPort, outst := []
    sags := { tab := [(0, resetSagger)], shape := ⟨48, 10000, 256, 20000, 1000000⟩, breaches := [], breachCnt := 0, sampleAt := 0 }
    twin :=
      { planes := [resetPlane .active 2, resetPlane .standby 1], mode := .starting, fatalCause := 0, gap := none, gates := []
        passed := [], resyncAt := 0, gaps := 0, lastGap := 0, divLocated := 0, divUnlocated := 0, alarmWire := 0
        alarmMail := 0, pathRec := [], rxWait := [], pauseEnd := 0, pauseLen := 0
        pauseWhy := 0 }
    pen := resetPen
    tal :=
      { now := 0, running := false, refOk := false, locked := false, skew := 0, dies := List.replicate 24 ⟨false, false, false, 0, 0, 0, 0, 0, 0, none, none, [], 0⟩
        gaps := 0, clkStop := 0, crossings := [], stopped := [] }
    obs :=
      { trace := { st := 0, cfg := ⟨0, 0, 0xFFFF, 0x7F, 4095, 0, 0, 1000⟩, banks := 0, bankOut := [], first := 0, recs := [], written := 0, lost := 0
                   lostSince := 0, missed := [], spillPos := 0, spillAck := 0, spillPages := [] }
        contact := { st := 0, pause := 0, count := 0, number := 0, data := false, tStart := 0, tEnd := 0, waitUnits := [], units := [], frozen := []
                     sections := [], resumeTrace := false, ring := 0 }
        global := List.replicate 8 0, mirrors := [] }
    side :=
      { dynAddr := 0, ibiOn := false, pageSel := 0, cml := false, evtResult := 0, timers := List.replicate 16 ⟨0, 255, 0, 0, 0, 0⟩
        pins := List.replicate 8 ⟨0, none, false, false, none, []⟩, tapIr := 2, pwrGood := false, fatalN := true }
    hostOut := [], fabOut := [], sideOut := [] }

/-- Reasons a step faults. No command of the J9P stops the machine: refused commands answer a status (10 R373) and
Module Fatal is a state (11 R399), so nothing raises the one reason named here. Safe: it is never reached. -/
inductive Fault where
  /-- Raised by nothing. -/
  | unreachable
deriving DecidableEq, Repr

/-- Reasons a step is refused. -/
inductive Refusal where
  /-- An arm of `exec` without a meaning raises it, with the row's mnemonic. Safe: the machine stops. -/
  | notModelled (mnemonic : String)
deriving DecidableEq, Repr

end Sys2Proof.Machine
end

