-- ==== Sys2Proof/Machine/Flags.lean ====
section
/-! DEFINITION. The lane's exception flags (05 R185, R186): the flag byte, and a value with the flags its making sets. -/

namespace Sys2Proof.Machine

/-- NV: an invalid operation. -/
def fNV : BitVec 8 := 0x01#8
/-- DZ: a function has a pole at its input. -/
def fDZ : BitVec 8 := 0x02#8
/-- OF: a result overflows. -/
def fOF : BitVec 8 := 0x04#8
/-- UF: a result is tiny after rounding and inexact. -/
def fUF : BitVec 8 := 0x08#8
/-- NX: a result is inexact. -/
def fNX : BitVec 8 := 0x10#8
/-- SAT: a conversion saturated. -/
def fSAT : BitVec 8 := 0x20#8
/-- MXN: a block scale was written 0xFF. -/
def fMXN : BitVec 8 := 0x40#8

/-- Result bits with the flags that their making sets. -/
structure Flagged where
  v : Nat
  f : BitVec 8
deriving DecidableEq, Repr

/-- A flag when a condition holds. -/
def flagIf (b : Bool) (f : BitVec 8) : BitVec 8 := if b then f else 0

/-- Flags of a rounded finite result (R185): overflow sets OF and NX; otherwise UF when tiny and inexact, NX when inexact. -/
def roundFlags (ovf inexact tiny : Bool) : BitVec 8 :=
  if ovf then fOF ||| fNX else flagIf (tiny && inexact) fUF ||| flagIf inexact fNX

end Sys2Proof.Machine
end

