-- ==== Sys2Proof/Machine/Operands.lean ====
section
/-! DEFINITION. Operand forms: the number formats (05 R165 to R168), element packing and stream words (05 R168 to R170,
06 R199, R211), register codes as sources and destinations are in Glaze.lean. -/

namespace Sys2Proof.Machine

/-! ### Formats (05 R165) -/

/-- A value exactly: a NaN (signalling or not), an infinity, or (-1)^neg x m x 2^e. -/
inductive Val where
  | nan (snan : Bool)
  | inf (neg : Bool)
  | fin (neg : Bool) (m : Nat) (e : Int)
deriving DecidableEq, Repr

/-- A binary format: mantissa bits, bias, code of the largest finite magnitude, width, whether it has infinities. -/
structure Fmt where
  mb : Nat
  bias : Int
  maxCode : Nat
  width : Nat
  hasInf : Bool
deriving DecidableEq, Repr

def binary32 : Fmt := ⟨23, 127, 0x7F7FFFFF, 32, true⟩
def binary16 : Fmt := ⟨10, 15, 0x7BFF, 16, true⟩
def bf16 : Fmt := ⟨7, 127, 0x7F7F, 16, true⟩
def e4m3 : Fmt := ⟨3, 7, 0x7E, 8, false⟩
def e5m2 : Fmt := ⟨2, 15, 0x7B, 8, true⟩
def e3m2 : Fmt := ⟨2, 3, 0x1F, 6, false⟩
def e2m3 : Fmt := ⟨3, 1, 0x1F, 6, false⟩
def e2m1 : Fmt := ⟨1, 1, 0x7, 4, false⟩

/-- Format of a FORMAT code (06 R199); INT8 (8), E8M0 (9) and RAW (10) are not of this kind. -/
def fmtOf (code : Nat) : Fmt := [binary32, binary16, bf16, e4m3, e5m2, e3m2, e2m3, e2m1].getD code binary32

/-- Smallest normal exponent. -/
def Fmt.emin (k : Fmt) : Int := 1 - k.bias

/-- Value of a code (R165 to R167). The rules do not tell which NaN codes are signalling: as in binary32, those whose top mantissa bit is 0 in
a format with infinities, and none in E4M3 (DESIGN CHOICE, log 16). -/
def Fmt.decode (k : Fmt) (v : Nat) : Val :=
  let mag := v % 2 ^ (k.width - 1)
  let neg := bitOf v (k.width - 1)
  let f := mag % 2 ^ k.mb
  if k.maxCode < mag then
    if k.hasInf && mag == k.maxCode + 1 then .inf neg else .nan (k.hasInf && !bitOf mag (k.mb - 1))
  else if mag / 2 ^ k.mb = 0 then .fin neg f (k.emin - k.mb)
  else .fin neg (f + 2 ^ k.mb) ((mag / 2 ^ k.mb : Nat) - k.bias - k.mb)

/-- Value of an INT8 element: two's complement with 6 fraction bits (R165, R166). -/
def int8Val (v : Nat) : Val :=
  let x := v % 256
  if x < 128 then .fin false x (-6) else .fin true (256 - x) (-6)

/-- Value of an element in a FORMAT code 0 to 8. -/
def elemVal (code v : Nat) : Val := if code = 8 then int8Val v else (fmtOf code).decode v

/-- Canonical NaN of a format (R167). -/
def Fmt.nan (k : Fmt) : Nat := if k.hasInf then k.maxCode + 1 + 2 ^ (k.mb - 1) else k.maxCode + 1

/-- Bits of an element in memory (R168). -/
def elemBits (code : Nat) : Nat := [32, 16, 16, 8, 8, 6, 6, 4, 8, 8, 32].getD code 32

/-- Bytes that `n` elements take (R168). -/
def elemBytes (code n : Nat) : Nat := elemBits code * n / 8

/-- Elements that `n` bytes hold. -/
def elemCount (code n : Nat) : Nat := 8 * n / elemBits code

/-! ### Stream words (05 R168, R170; 06 R211, R216) -/

/-- Bytes that one stream word takes from memory: 3 for the 6-bit formats, 2 for E2M1 without PACK4, else 4. -/
def wordBytes (code : Nat) (pack4 : Bool) : Nat :=
  if code = 5 ∨ code = 6 then 3 else if code = 7 ∧ pack4 = false then 2 else 4

/-- Elements in one stream word. -/
def wordElems (code : Nat) (pack4 : Bool) : Nat :=
  if code = 0 ∨ code = 10 then 1 else if code = 1 ∨ code = 2 then 2 else if code = 7 ∧ pack4 = true then 8 else 4

/-- Little-endian value of bytes with taint. -/
def leVal (bs : List (Nat × Nat)) : Nat := bs.foldr (fun b a => b.1 + 256 * a) 0

/-- Largest taint of bytes. -/
def leTaint (bs : List (Nat × Nat)) : Nat := bs.foldl (fun t b => max t b.2) 0

/-- The operand word of its bytes: 6-bit elements and single E2M1 elements go into 8-bit slots (R168). -/
def wordValue (code : Nat) (pack4 : Bool) (bs : List (Nat × Nat)) : Nat :=
  let v := leVal bs
  let slots (w : Nat) : Nat := (List.range 4).foldl (fun a i => a + fieldOf v (w * i) w * 2 ^ (8 * i)) 0
  if code = 5 ∨ code = 6 then slots 6 else if code = 7 ∧ pack4 = false then slots 4 else v % 2 ^ 32

/-- The stream words of a sequence of bytes, with the scale byte of each word's block (R169); `n` counts the words done. A block whose scale
byte lies beyond its region takes scale code 127 (DESIGN CHOICE, log 16: no rule states one). -/
def streamWords (code : Nat) (pack4 : Bool) (scales : List (Nat × Nat)) : Nat → Nat → List (Nat × Nat) → List SWord
  | 0, _, _ => []
  | fuel + 1, n, bs =>
    if bs = [] then []
    else
      let k := wordBytes code pack4
      let here := bs.take k
      let sc := scales[n * wordElems code pack4 / 32]?
      let t := max (leTaint here) ((sc.map (·.2)).getD 0)
      ⟨⟨BitVec.ofNat 32 (wordValue code pack4 here), t⟩, (sc.map (·.1)).getD 127⟩
        :: streamWords code pack4 scales fuel (n + 1) (bs.drop k)

/-- Bytes of a line, each with the taint its cause gives (06 R216). -/
def lineBytes (d : LineData) (cause : Nat) : List (Nat × Nat) :=
  (List.range 64).map fun i => ((d.extractLsb' (8 * i) 8).toNat, if cause = 0 then 0 else 1)

end Sys2Proof.Machine
end

