-- ==== Sys2Proof/Machine/Arith.lean ====
section
/-! DEFINITION. Kiln arithmetic (05 R163 to R184): exact sums, rounding, conversion, MX blocks, stochastic rounding,
compensated addition, functions. -/

namespace Sys2Proof.Machine

/-! ### Rounding (R173 to R175) -/

/-- m x 2^e in units of 2^q under a rounding mode (0 RNE, 1 RTZ, 2 RDN, 3 RUP, 4 SR with draw `r16`): the rounded count
and whether it is inexact. -/
def roundUnits (mode : Nat) (neg : Bool) (r16 m : Nat) (e q : Int) : Nat × Bool :=
  if q ≤ e then (m * 2 ^ (e - q).toNat, false)
  else
    let d := 2 ^ (q - e).toNat
    let t := m / d
    let r := m % d
    let up := match mode with
      | 0 => decide (d < 2 * r) || (d == 2 * r && t % 2 == 1)
      | 1 => false
      | 2 => neg && r != 0
      | 3 => !neg && r != 0
      | _ => decide (65536 ≤ r * 65536 / d + r16)
    (t + b2n up, r != 0)

/-- A finite magnitude rounded to a format with an unbounded exponent. -/
structure Rounded where
  code : Nat
  inexact : Bool
  tiny : Bool
deriving DecidableEq, Repr

/-- Rounds m x 2^e, m not 0. The code runs past the largest finite one when the result overflows; tininess is judged after
rounding with an unbounded exponent, as IEEE 754-2019 does (R185). -/
def Fmt.round (k : Fmt) (mode : Nat) (neg : Bool) (r16 m : Nat) (e : Int) : Rounded :=
  let top : Int := (Nat.log2 m : Nat) + e
  let (t, inx) := roundUnits mode neg r16 m e (max top k.emin - k.mb)
  let (u, _) := roundUnits mode neg r16 m e (top - k.mb)
  ⟨(max top k.emin - k.emin).toNat * 2 ^ k.mb + t, inx,
   decide (top + 1 < k.emin) || (decide (top + 1 = k.emin) && decide (u < 2 ^ (k.mb + 1)))⟩

/-- Sign bit of a format. -/
def Fmt.sign (k : Fmt) (neg : Bool) : Nat := if neg then 2 ^ (k.width - 1) else 0

/-- Rounds a finite value into binary32 under RNE (R173, R178). -/
def round32 (neg : Bool) (m : Nat) (e : Int) : Flagged :=
  if m = 0 then ⟨binary32.sign neg, 0⟩
  else
    let r := binary32.round 0 neg 0 m e
    let ovf := decide (binary32.maxCode < r.code)
    ⟨binary32.sign neg + (if ovf then binary32.maxCode + 1 else r.code), roundFlags ovf r.inexact r.tiny⟩

/-- Canonical binary32 NaN with the flags its making sets. -/
def nan32 (nv : Bool) : Flagged := ⟨binary32.nan, flagIf nv fNV⟩

/-! ### Exact sums (R177, R178) -/

/-- A value is a NaN. -/
def Val.isNan : Val → Bool
  | .nan _ => true
  | _ => false

/-- A value is a signalling NaN. -/
def Val.isSnan : Val → Bool
  | .nan b => b
  | _ => false

/-- Sign of an infinity. -/
def Val.infSign : Val → Option Bool
  | .inf n => some n
  | _ => none

/-- An exact product and whether it is 0 x infinity. -/
def Val.mul (a b : Val) : Val × Bool :=
  match a, b with
  | .nan s, .nan t => (.nan (s || t), false)
  | .nan s, _ => (.nan s, false)
  | _, .nan t => (.nan t, false)
  | .inf n, .inf k => (.inf (Bool.xor n k), false)
  | .inf n, .fin k m _ => if m = 0 then (.nan false, true) else (.inf (Bool.xor n k), false)
  | .fin n m _, .inf k => if m = 0 then (.nan false, true) else (.inf (Bool.xor n k), false)
  | .fin n m e, .fin k p f => (.fin (Bool.xor n k) (m * p) (e + f), false)

/-- A value times 2^k. -/
def Val.scale (k : Int) : Val → Val
  | .fin n m e => .fin n m (e + k)
  | v => v

/-- Exact sum of finite terms as an integer count of 2^e. -/
def exactSum (ts : List Val) : Int × Int :=
  let low := ts.foldl (fun (a : Option Int) v => match v with
    | .fin _ m e => if m = 0 then a else some (match a with
      | some x => min x e
      | none => e)
    | _ => a) none
  let e0 := low.getD 0
  (ts.foldl (fun (a : Int) v => match v with
    | .fin n m e => if m = 0 then a else
        let x : Int := (m * 2 ^ (e - e0).toNat : Nat)
        if n then a - x else a + x
    | _ => a) 0, e0)

/-- rnd of the exact sum of terms (R166, R178); `nv` tells that making a term was invalid. -/
def sum32 (nv : Bool) (ts : List Val) : Flagged :=
  if nv || ts.any Val.isNan then nan32 (nv || ts.any Val.isSnan)
  else
    let infs := ts.filterMap Val.infSign
    if infs.contains true && infs.contains false then nan32 true
    else match infs with
      | n :: _ => ⟨binary32.sign n + binary32.maxCode + 1, 0⟩
      | [] =>
        let (x, e) := exactSum ts
        if x = 0 then
          let allNeg := ts.all fun v => match v with
            | .fin n m _ => n && m == 0
            | _ => false
          ⟨binary32.sign allNeg, 0⟩
        else round32 (decide (x < 0)) x.natAbs e

/-- Value of a binary32 word. -/
def val32 (w : Word) : Val := binary32.decode w.toNat

/-- S + the exact products of two lists of elements (R177), each product scaled by 2^k. -/
def dot32 (s : Word) (k : Int) (xs ys : List Val) : Flagged :=
  let ps := List.zipWith Val.mul xs ys
  sum32 (ps.any (·.2)) (val32 s :: ps.map fun p => p.1.scale k)

/-- binary32 addition. -/
def add32f (a b : Word) : Flagged := sum32 false [val32 a, val32 b]

/-- The word with the sign turned. -/
def neg32 (a : Word) : Word := a ^^^ 0x80000000#32

/-- binary32 subtraction; a NaN has no sign to turn. -/
def sub32f (a b : Word) : Flagged := sum32 false [val32 a, val32 (neg32 b)]

/-- One compensated addition (R179): the new S and C, and the flags of its operations. -/
def compAdd (s c x : Word) : Word × Word × BitVec 8 :=
  let w (r : Flagged) : Word := BitVec.ofNat 32 r.v
  let s' := add32f s x
  let z := sub32f (w s') s
  let a := sub32f (w s') (w z)
  let b := sub32f s (w a)
  let d := sub32f x (w z)
  let e := add32f (w b) (w d)
  let c' := add32f c (w e)
  (w s', w c', s'.f ||| z.f ||| a.f ||| b.f ||| d.f ||| e.f ||| c'.f)

/-! ### Conversion (R173, R174) -/

/-- binary32 into binary16, BF16, E4M3 or E5M2. -/
def convert (k : Fmt) (mode : Nat) (sat : Bool) (r16 : Nat) (x : Word) : Flagged :=
  match val32 x with
  | .nan s => ⟨k.nan, flagIf s fNV⟩
  | .inf n =>
    if k.hasInf then ⟨k.sign n + k.maxCode + 1, 0⟩
    else if sat then ⟨k.sign n + k.maxCode, fSAT⟩ else ⟨k.nan, fNV⟩
  | .fin n m e =>
    if m = 0 then ⟨k.sign n, 0⟩
    else
      let r := k.round mode n r16 m e
      if r.code ≤ k.maxCode then ⟨k.sign n + r.code, roundFlags false r.inexact r.tiny⟩
      else if sat then ⟨k.sign n + k.maxCode, fOF ||| fNX ||| fSAT⟩
      else if !k.hasInf then ⟨k.nan, fOF ||| fNX⟩
      else
        let toInf := match mode with
          | 1 => false
          | 2 => n
          | 3 => !n
          | _ => true
        ⟨k.sign n + k.maxCode + b2n toInf, fOF ||| fNX⟩

/-! ### Stochastic rounding (R175, R176) -/

/-- Seed of the lane with a global logical number. -/
def srSeed (seed lane : Nat) : BitVec 64 :=
  let g := BitVec.ofNat 64 seed ^^^ (BitVec.ofNat 64 (lane + 1) * 0x9E3779B97F4A7C15#64)
  if g = 0 then 1 else g

/-- The generator's next state; its upper 16 bits are the draw R. -/
def srNext (g : BitVec 64) : BitVec 64 :=
  let g := g ^^^ (g <<< 13)
  let g := g ^^^ (g >>> 7)
  g ^^^ (g <<< 17)

/-- Draws R when the mode is SR: the draw and the new state. -/
def srDraw (mode : Nat) (g : BitVec 64) : Nat × BitVec 64 :=
  if mode = 4 then ((srNext g >>> 48).toNat, srNext g) else (0, g)

/-! ### MX blocks (R169 to R172) -/

/-- Element exponent E of R171 by FORMAT code 3 to 8. -/
def elemExp (code : Nat) : Int := [8, 15, 4, 2, 2, 0].getD (code - 3) 0

/-- One element of a block with scale exponent `x`: code and flags. -/
def mxElem (code mode : Nat) (x : Int) (r16 : Nat) (w : Word) : Flagged :=
  match val32 w with
  | .fin n m e =>
    if code = 8 then
      if m = 0 then ⟨0, 0⟩
      else
        let (t, inx) := roundUnits mode n r16 m (e - x) (-6)
        let ovf := decide (127 < t)
        let t := if ovf then 127 else t
        ⟨if n && t != 0 then 256 - t else t, (if ovf then fOF ||| fNX ||| fSAT else flagIf inx fNX)⟩
    else
      let k := fmtOf code
      if m = 0 then ⟨k.sign n, 0⟩
      else
        let r := k.round mode n r16 m (e - x)
        if r.code ≤ k.maxCode then ⟨k.sign n + r.code, roundFlags false r.inexact r.tiny⟩
        else ⟨k.sign n + k.maxCode, fOF ||| fNX ||| fSAT⟩
  | _ => ⟨0, 0⟩

/-- Exponent of the largest magnitude of a block, none when all are zeros. -/
def blockExp (ws : List Word) : Option Int :=
  ws.foldl (fun (a : Option Int) w => match val32 w with
    | .fin _ m e => if m = 0 then a else
        let t : Int := (Nat.log2 m : Nat) + e
        some (match a with
          | some x => max x t
          | none => t)
    | _ => a) none

/-- The generator after one draw for each of a list of values, with the draws. -/
def srDraws (mode : Nat) : List Word → BitVec 64 → List (Word × Nat) × BitVec 64
  | [], g => ([], g)
  | w :: r, g =>
    let (d, g1) := srDraw mode g
    let (ds, g2) := srDraws mode r g1
    ((w, d) :: ds, g2)

/-- A block of binary32 values converted (R171, R172): scale code, element codes, flags, generator. -/
def mxBlock (code mode : Nat) (ws : List Word) (g : BitVec 64) : Nat × List Nat × BitVec 8 × BitVec 64 :=
  let (ds, g') := srDraws mode ws g
  let vals := ws.map val32
  if vals.any Val.isNan || vals.any (fun v => v.infSign.isSome) then
    (0xFF, ws.map fun _ => 0, fMXN ||| flagIf (vals.any Val.isNan) fNV, g')
  else match blockExp ws with
    | none => (0, ws.map fun _ => 0, 0, g')
    | some t =>
      let x := max (-127) (min 127 (t - elemExp code))
      let rs := ds.map fun d => mxElem code mode x d.2 d.1
      ((x + 127).toNat, rs.map (·.v), rs.foldl (fun f r => f ||| r.f) 0, g')

/-- Elements of an operand word of an MX dot fire under its block's scale code (R170): NaNs when the scale is 0xFF. -/
def mxElems (code n width : Nat) (w : SWord) : List Val :=
  (List.range n).map fun i =>
    if w.scale = 0xFF then .nan false else elemVal code (fieldOf w.w.v.toNat (width * i) width)

/-- An MX dot fire (R163, R170, R177): a scale of 0xFF sets NV. -/
def mxDot (s : Word) (cx cy n width : Nat) (x y : SWord) : Flagged :=
  let r := dot32 s ((x.scale : Int) + y.scale - 254) (mxElems cx n width x) (mxElems cy n width y)
  if x.scale = 0xFF ∨ y.scale = 0xFF then ⟨r.v, r.f ||| fNV⟩ else r

/-- A plain dot fire whose operand words may come from a block with scale 0xFF (R170). -/
def dotScaled (x y : SWord) (r : Flagged) : Flagged := if x.scale = 0xFF ∨ y.scale = 0xFF then nan32 true else r

/-- Elements of a plain operand word in a FORMAT code. -/
def dotElems (code n width : Nat) (w : Word) : List Val :=
  (List.range n).map fun i => elemVal code (fieldOf w.toNat (width * i) width)

/-! ### Functions and comparisons (R184, 06 R220) -/

/-- The order of two values that are not NaNs, as -1, 0, 1. -/
def cmpVal (a b : Val) : Int :=
  let key (v : Val) : Int × Int := match v with
    | .inf n => (if n then -1 else 1, 0)
    | _ => (0, 0)
  if (key a).1 ≠ (key b).1 then (if (key a).1 < (key b).1 then -1 else 1)
  else
    let d := (exactSum [a, match b with
      | .fin n m e => .fin (!n) m e
      | v => v]).1
    if d < 0 then -1 else if d = 0 then 0 else 1

/-- binary32 compare (FCMP): 0 EQ, 1 LT, 2 LE, 3 unordered. -/
def fcmp (op : Nat) (x y : Word) : Bool × BitVec 8 :=
  let a := val32 x
  let b := val32 y
  let f := flagIf (a.isSnan || b.isSnan) fNV
  if a.isNan || b.isNan then (op == 3, f)
  else
    let c := cmpVal a b
    (match op with
      | 0 => c == 0
      | 1 => decide (c < 0)
      | 2 => decide (c ≤ 0)
      | _ => false, f)

/-- MAX (or MIN) of two words (R184): +0 counts as greater than -0; one NaN gives the other input. -/
def maxMin (isMax : Bool) (x y : Word) : Flagged :=
  let a := val32 x
  let b := val32 y
  let f := flagIf (a.isSnan || b.isSnan) fNV
  if a.isNan && b.isNan then ⟨binary32.nan, f⟩
  else if a.isNan then ⟨y.toNat, f⟩
  else if b.isNan then ⟨x.toNat, f⟩
  else
    let c := cmpVal a b
    let xLess := decide (c < 0) || (c == 0 && x.msb)
    ⟨if xLess == isMax then y.toNat else x.toNat, f⟩

/-- +infinity in binary32. -/
def inf32 : Nat := 0x7F800000

/-! ### Accuracy of the functions (R184) -/

/-- An exact value between a x 2^g and b x 2^g. -/
structure Enclosure where
  a : Int
  b : Int
  g : Int
deriving DecidableEq, Repr

/-- Square root of a number below 2^(2k), rounded down, bit by bit from 2^(k-1) on top of `r`. -/
def sqrtBits : Nat → Nat → Nat → Nat
  | 0, _, r => r
  | k + 1, n, r => sqrtBits k n (if (r + 2 ^ k) * (r + 2 ^ k) ≤ n then r + 2 ^ k else r)

/-- 1 / (m x 2^e). -/
def rcpEnclosure (m : Nat) (e : Int) : Enclosure :=
  let p := Nat.log2 m + 64
  ⟨(2 ^ p / m : Nat), (2 ^ p / m + b2n (2 ^ p % m != 0) : Nat), -p - e⟩

/-- 1 over the square root of m x 2^e, for m below 2^24. -/
def rsqrtEnclosure (m : Nat) (e : Int) : Enclosure :=
  let n := if e % 2 = 0 then m else 2 * m
  let r := sqrtBits 97 (2 ^ 192 / n) 0
  ⟨(r : Nat), (r + b2n (r * r * n != 2 ^ 192) : Nat), -96 - e / 2⟩

/-- 2^f for a fraction f in units of 2^-64, in units of 2^-96 and rounded down: `s` is the root reached, `acc` the product. -/
def exp2Frac : Nat → Nat → Nat → Nat → Nat
  | 0, _, _, acc => acc
  | k + 1, f, s, acc =>
    let s := sqrtBits 97 (s * 2 ^ 96) 0
    exp2Frac k f s (if f.testBit k then acc * s / 2 ^ 96 else acc)

/-- 2 to the power of a finite value. -/
def exp2Enclosure (neg : Bool) (m : Nat) (e : Int) : Enclosure :=
  let d := 2 ^ (-64 - e).toNat
  let x : Int := if -64 ≤ e then ((m * 2 ^ (e + 64).toNat : Nat) : Int) * (if neg then -1 else 1)
    else if neg then -((m + d - 1) / d : Nat) else (m / d : Nat)
  let f := (x % 2 ^ 64).toNat
  let a := exp2Frac 64 f (2 * 2 ^ 96) (2 ^ 96)
  let exact : Bool := f == 0 && (decide (-64 ≤ e) || m % d == 0)
  ⟨(a : Nat), (if exact then a else a + a / 2 ^ 60 + 1 : Nat), x / 2 ^ 64 - 96⟩

/-- Fraction of the base-2 logarithm of y in units of 2^160, in units of 2^-64 and rounded down. -/
def log2Frac : Nat → Nat → Nat → Nat
  | 0, _, acc => acc
  | k + 1, y, acc =>
    let y := y * y / 2 ^ 160
    if 2 ^ 161 ≤ y then log2Frac k (y / 2) (2 * acc + 1) else log2Frac k y (2 * acc)

/-- The base-2 logarithm of m x 2^e, for m below 2^24. -/
def log2Enclosure (m : Nat) (e : Int) : Enclosure :=
  let t := Nat.log2 m
  let a : Int := ((t : Int) + e) * 2 ^ 64 + (log2Frac 64 (m * 2 ^ (160 - t)) 0 : Nat)
  ⟨a, if m = 2 ^ t then a else a + 2, -64⟩

/-- Where R184 encloses the exact result of EXP2, LOG2, RCP or RSQRT (codes 0 to 3) of a finite value. -/
def funcEnclosure (fn : Nat) (neg : Bool) (m : Nat) (e : Int) : Enclosure :=
  match fn with
  | 0 => exp2Enclosure neg m e
  | 1 => log2Enclosure m e
  | 2 => let r := rcpEnclosure m e; if neg then ⟨-r.b, -r.a, r.g⟩ else r
  | _ => rsqrtEnclosure m e

/-- Error that R184 allows a function, as a count of 2^q: 1 or 2 ulp, or the absolute error of EXP2 below 2^-126 and of LOG2 between
-1 and 1. -/
def funcError (fn : Nat) (r : Enclosure) : Nat × Int :=
  let top : Int := (Nat.log2 (max r.a.natAbs r.b.natAbs) : Nat) + r.g
  let ulp := max top binary32.emin - binary32.mb
  match fn with
  | 0 => if -126 ≤ top then (2, ulp) else (1, -149)
  | 1 => if r.a.natAbs ≤ 2 ^ 64 then (1, -22) else (2, ulp)
  | 2 => (1, ulp)
  | _ => (2, ulp)

/-- Place of a binary32 code in the order of the values: the code for a positive one, -1 - code for a negative one. -/
def codePlace (neg : Bool) (code : Nat) : Int := if neg then -1 - (code : Int) else code

/-- The code at a place. -/
def placeCode (k : Int) : Nat := if k < 0 then 2 ^ 31 + (-1 - k).toNat else k.toNat

/-- Code of n x 2^g rounded down or up in magnitude, +infinity beyond the largest. -/
def magCode (up : Bool) (n : Nat) (g : Int) : Nat :=
  if n = 0 then 0 else min (binary32.maxCode + 1) (binary32.round (if up then 3 else 1) false 0 n g).code

/-- Least and greatest place of a result that meets the accuracy of R184 wherever the exact result lies in its enclosure. EXP2 is positive,
so that its zero is +0 (R166); RCP of a value above 2^126 is subnormal or zero. -/
def funcPlaces (fn : Nat) (neg : Bool) (m : Nat) (e : Int) : Int × Int :=
  let r := funcEnclosure fn neg m e
  let (k, q) := funcError fn r
  let g := min r.g q
  let tol : Int := (k * 2 ^ (q - g).toNat : Nat)
  let a := r.b * 2 ^ (r.g - g).toNat - tol
  let b := r.a * 2 ^ (r.g - g).toNat + tol
  let lo := if 0 < a then codePlace false (magCode true a.toNat g) else if fn = 0 then 0 else codePlace true (magCode false a.natAbs g)
  let hi := if b < 0 then codePlace true (magCode true b.natAbs g) else codePlace false (magCode false b.toNat g)
  if fn = 2 ∧ cmpVal (.fin false m e) (.fin false 1 126) > 0 then (max lo (-2 ^ 23), min hi (2 ^ 23 - 1)) else (lo, hi)

/-- Flags of a function whose exact result lies in an enclosure and whose bits are `code` (R185, log 16). -/
def funcFlags (r : Enclosure) (code : Nat) : BitVec 8 :=
  let inexact := !(r.a == r.b && decide (cmpVal (val32 (BitVec.ofNat 32 code)) (.fin (decide (r.a < 0)) r.a.natAbs r.g) = 0))
  if code % 2 ^ 31 = inf32 then fOF ||| fNX
  else if inexact then (if code % 2 ^ 31 < 2 ^ 23 then fUF ||| fNX else fNX) else 0

/-- Bits and flags of a function where no special result applies: some value within its accuracy (R184, log 16). -/
def openFunc (fn : Nat) (x : Word) (neg : Bool) (m : Nat) (e : Int) : Flagged :=
  let (lo, hi) := funcPlaces fn neg m e
  let code := placeCode (lo + (Config.funcBits fn x.toNat % ((hi - lo).toNat + 1) : Nat))
  ⟨code, funcFlags (funcEnclosure fn neg m e) code⟩

/-! ### The functions (R184) -/

/-- EXP2, LOG2, RCP and RSQRT (codes 0 to 3) of a binary32 word (R184). -/
def func32 (fn : Nat) (x : Word) : Flagged :=
  match val32 x, fn with
  | .nan s, _ => nan32 s
  | .inf n, 0 => ⟨if n then 0 else inf32, 0⟩
  | .inf n, 1 => if n then nan32 true else ⟨inf32, 0⟩
  | .inf n, 2 => ⟨binary32.sign n, 0⟩
  | .inf n, _ => if n then nan32 true else ⟨0, 0⟩
  | .fin n m e, 0 =>
    if m = 0 then openFunc 0 x n m e
    else if n && decide (cmpVal (.fin true m e) (.fin true 150 0) < 0) then ⟨0, fUF ||| fNX⟩
    else if !n && decide (0 ≤ cmpVal (.fin false m e) (.fin false 128 0)) then ⟨inf32, fOF ||| fNX⟩
    else openFunc 0 x n m e
  | .fin n m e, 1 =>
    if m = 0 then ⟨0xFF800000, fDZ⟩
    else if n then nan32 true
    else if cmpVal (.fin false m e) (.fin false 1 0) = 0 then ⟨0, 0⟩
    else openFunc 1 x n m e
  | .fin n m e, 2 => if m = 0 then ⟨binary32.sign n + inf32, fDZ⟩ else openFunc 2 x n m e
  | .fin n m e, _ => if m = 0 then ⟨binary32.sign n + inf32, fDZ⟩ else if n then nan32 true else openFunc 3 x n m e

/-- The adders of SRED, FRED and the window: 0 ADD, 1 MAX, 2 MIN (06 R220, R223). -/
def reduce2 (op : Nat) (a b : TWord) : TWord × BitVec 8 :=
  let r := match op with
    | 0 => add32f a.v b.v
    | 1 => maxMin true a.v b.v
    | _ => maxMin false a.v b.v
  (⟨BitVec.ofNat 32 r.v, max a.t b.t⟩, r.f)

/-- One level of a balanced tree. -/
def reduceLevel (op : Nat) : List (Option TWord) → List (Option TWord) × BitVec 8
  | some a :: some b :: r =>
    let (x, f) := reduce2 op a b
    let (y, g) := reduceLevel op r
    (some x :: y, f ||| g)
  | some a :: none :: r => let (y, g) := reduceLevel op r; (some a :: y, g)
  | none :: b :: r => let (y, g) := reduceLevel op r; (b :: y, g)
  | l => (l, 0)

/-- A balanced binary tree over values in order; an absent value contributes nothing (06 R223). -/
def reduceTree (op : Nat) : Nat → List (Option TWord) → BitVec 8 → Option TWord × BitVec 8
  | 0, l, f => ((l.head?).join, f)
  | fuel + 1, l, f =>
    match l with
    | [] => (none, f)
    | [x] => (x, f)
    | _ => let (l', g) := reduceLevel op l; reduceTree op fuel l' (f ||| g)

end Sys2Proof.Machine
end

