-- ==== Sys2Proof/Machine/Ops.lean ====
section
/-! DEFINITION. Shared operations: sparse tables, free values, time, event records, trace records, interrupts, and the
checks and completion of host commands (10 R353 to R374, 15 R463 to R474, 00 R15). -/

namespace Sys2Proof.Machine

/-! ### Sparse tables -/

/-- The value at key `k`. -/
def smGet {α : Type} (k : Nat) : SMap α → Option α
  | [] => none
  | (j, v) :: r => if j = k then some v else if k < j then none else smGet k r

/-- The table with `v` at key `k`. -/
def smSet {α : Type} (k : Nat) (v : α) : SMap α → SMap α
  | [] => [(k, v)]
  | (j, u) :: r => if j = k then (k, v) :: r else if k < j then (k, v) :: (j, u) :: r else (j, u) :: smSet k v r

/-- The table without key `k`. -/
def smDel {α : Type} (k : Nat) : SMap α → SMap α
  | [] => []
  | (j, u) :: r => if j = k then r else if k < j then (j, u) :: r else (j, u) :: smDel k r

/-- The table with the value at `k`, if any, changed by `f`. -/
def smMod {α : Type} (k : Nat) (f : α → α) : SMap α → SMap α
  | [] => []
  | (j, u) :: r => if j = k then (j, f u) :: r else (j, u) :: smMod k f r

/-- The canonical form: keys strictly rising. -/
def smWf {α : Type} (m : SMap α) : Bool := (m.map (·.1)).Pairwise (· < ·)

/-- `f` applied `n` times, stopping nowhere. -/
def times {α : Type} (f : α → α) : Nat → α → α
  | 0, a => a
  | n + 1, a => times f n (f a)

/-! ### Free values and time -/

/-- Draws a fresh value that the manual leaves open (log 6). -/
def draw (s : State) : Nat × State := (Config.freeValue s.freeCtr, { s with freeCtr := s.freeCtr + 1 })

/-- The tally time (13 R432). -/
def State.now (s : State) : Nat := s.tal.now

/-- The hub runs: it is out of reset, the tally counts, power holds and the module is not Fatal (11 R399, 14 R446, R447, R458). -/
def State.on (s : State) : Bool := !s.glb.hubReset && s.tal.running && !s.glb.pwrFail && s.twin.mode != .fatal

/-- The dies, ports and engines run; after READY_OFF they change nothing more (14 R457). -/
def State.powered (s : State) : Bool := s.on && !s.glb.readyOff

/-- The planes take no input: a gap runs or a contact sheet is being cut (11 R388, 15 R475). -/
def State.holds (s : State) : Bool := s.twin.gap.isSome || s.obs.contact.st == 1

/-- The planes execute. -/
def State.alive (s : State) : Bool := s.on && !s.holds

/-- Low and high 32-bit words of a 64-bit number, as a record carries it. -/
def w64 (n : Nat) : List Nat := [n % 2 ^ 32, n / 2 ^ 32 % 2 ^ 32]

/-- The eight words of a 256-bit number. -/
def w256 (n : Nat) : List Nat := w64 n ++ w64 (n / 2 ^ 64) ++ w64 (n / 2 ^ 128) ++ w64 (n / 2 ^ 192)

/-- The low `n` words of a number. -/
def natWords (n v : Nat) : List Nat := (List.range n).map fun i => v / 2 ^ (32 * i) % 2 ^ 32

/-- The `n` low bytes of a number, byte 0 first. -/
def bytesLE : Nat → Nat → List Nat
  | 0, _ => []
  | n + 1, v => v % 256 :: bytesLE n (v / 256)

/-- Bytes of a sequence of words, each little-endian (00 R8). -/
def leBytes (ws : List Nat) : List Nat := ws.flatMap fun w => bytesLE 4 w

/-- Words filled up with zeros to a count. -/
def padWords (n : Nat) (ws : List Nat) : List Nat := ws ++ List.replicate (n - ws.length) 0

/-- POWER_OFF_PREPARE has begun: agents' new work is refused (14 R457). -/
def State.powerOff (s : State) : Bool :=
  s.glb.readyOff || s.host.rings.any fun g => match g.inflight.bind (·.parked) with
    | some (.powerOff _) => true
    | _ => false

/-! ### Status codes (10 R373) -/

def stOK : Nat := 0
def stHELD : Nat := 1
def stTIMEOUT : Nat := 2
def stCRAZED : Nat := 3
def stDENIED : Nat := 4
def stLENGTH : Nat := 5
def stRESERVED : Nat := 6
def stVERSION : Nat := 7
def stBUSY : Nat := 8
def stCONFLICT : Nat := 9
def stCONTESTED : Nat := 10
def stUNSERVICED : Nat := 11
def stLEASELOST : Nat := 12
def stNOTADMITTED : Nat := 13
def stINCOMPLETE : Nat := 14

/-! ### Counters -/

/-- Changes the counter block of a SID, if it has one (15 R462). -/
def modCtr (sid : Nat) (f : Counters → Counters) (s : State) : State :=
  { s with sags.tab := smMod sid (fun g => { g with ctr := f g.ctr }) s.sags.tab }

/-- Counts one DENIED answer for a SID (15 R462). -/
def countDenied (sid : Nat) : State → State := modCtr sid fun c => { c with denied := add64 c.denied 1 }

/-- Adds to OBS_GLOBALn (15 R481). -/
def addGlobal (n k : Nat) (s : State) : State :=
  { s with obs.global := s.obs.global.modify n fun v => add64 v k }

/-- The counters of a SID; all zero when it is Free. -/
def ctrOf (sid : Nat) (s : State) : Counters :=
  match smGet sid s.sags.tab with
  | some g => g.ctr
  | none => Counters.zero

/-- The values a latch takes for a SID now (15 R463, R464). -/
def latchOf (sid : Nat) (s : State) : Latch :=
  let c := ctrOf sid s
  ⟨s.now, c.lLines, c.fires, c.refireTicks⟩

/-! ### The board controller and the event pins (16) -/

/-- Raises an in-band interrupt while ENEC has them enabled (16 R486). -/
def ibi (code : Nat) (s : State) : State := if s.side.ibiOn then { s with sideOut := s.sideOut ++ [.ibi code] } else s

/-- Timers are disarmed, event pins driven low, captures stop (16 R492 row 1). -/
def disarm (s : State) : State :=
  { s with side.timers := List.replicate 16 ⟨0, 255, 0, 0, 0, 0⟩
           side.pins := s.side.pins.map fun (p : EvtPinSt) => ⟨0, none, false, p.input, none, []⟩ }

/-! ### Event records (15 R468, 10 R364) -/

/-- Kinds that wait at their source when the hub buffer is full (10 R364). -/
def keptKind (k : Nat) : Bool :=
  [0x01, 0x2A, 0x02, 0x04, 0x05, 0x06, 0x0F, 0x10, 0x0E, 0x0A, 0x0B].contains k

/-- Place of a region's tally copy: none for the hub and Peneno. -/
def tallyUnit (region unit : Nat) : Option Nat :=
  if region = 1 then some unit else if region = 2 then some (8 + unit) else none

/-- The region is frozen, so that its records are stamped at the hub (13 R441). -/
def regionFrozen (region unit : Nat) (s : State) : Bool :=
  match tallyUnit region unit with
  | some u => match s.tal.dies[u]? with
    | some d => d.freeze != 0
    | none => false
  | none => false

/-- Work of a kiln die waits: its region is dormant, or awake again and not yet synced (13 R442). -/
def regionWaits (die : Nat) (s : State) : Bool :=
  match s.tal.dies[die]? with
  | some d => d.freeze == 1 || (d.freeze != 0 && d.wakeAt.isSome)
  | none => false

/-- A part is placed on a kiln die or a MEM command names it: it is not idle, and a dormant region wakes (13 R440). -/
def touchDie (die : Nat) (s : State) : State :=
  { s with tal.dies := s.tal.dies.modify die fun (d : DieTally) =>
      { d with idleAt := none, wakeAt := if d.freeze = 1 then some (d.wakeAt.getD s.now) else d.wakeAt } }

/-- Counts a record that was stamped at the hub for a frozen region (13 R442). -/
def countStamped (region unit : Nat) (s : State) : State :=
  if regionFrozen region unit s then
    { s with tal.dies := s.tal.dies.modify ((tallyUnit region unit).getD 24) fun (d : DieTally) =>
        { d with hubStamped := satAdd 0xFFFFFFFF d.hubStamped 1 } }
  else s

/-- The tally copy of a region, in which its records are stamped: the hub's own, also while the region is frozen (13 R433, R441). -/
def regionTally (region unit : Nat) (s : State) : Nat :=
  match (tallyUnit region unit).bind fun u => s.tal.dies[u]? with
  | some d => if d.freeze = 0 then (s.now + d.offset).toNat else s.now
  | none => s.now

/-- Creates an event record: EVSEQ counts it, the buffer takes it, it waits at its source, or it is lost and counted. -/
def emitRaw (kind sid region unit : Nat) (body : List Nat) (s : State) : State :=
  let s := countStamped region unit s
  let h := s.host
  let e : Event := ⟨kind, sid, region, unit, regionFrozen region unit s, regionTally region unit s, h.evSeq, body⟩
  let h := { h with evSeq := add64 h.evSeq 1 }
  let h :=
    if h.evBuf.length < 4096 then { h with evBuf := h.evBuf ++ [e] }
    else if keptKind kind then { h with evKept := h.evKept ++ [e] }
    else { h with evtLost := add32 h.evtLost 1 }
  { s with host := h }

/-! ### The trace buffer (15 R471 to R474) -/

/-- Records the buffer holds (R471); a contact sheet takes the first 32 banks (R477, 16 R492). -/
def traceCap (s : State) : Nat := 32768 * (s.obs.trace.banks - if s.obs.contact.st = 0 then 0 else 32)

/-- Moves the trace to a state and writes TRACE_STATE (R474). -/
def traceState (st : Nat) (s : State) : State :=
  let t := s.obs.trace
  let s := { s with obs.trace := { t with st := st, lostSince := 0 } }
  emitRaw 0x28 4095 0 0 [st, t.lostSince] s

/-- The scope bit of TRACE_SAGGER is open (12 R418). -/
def scopeOpen (bit : Nat) (s : State) : Bool := s.pen.safelight == 2 && bitOf s.pen.slScope bit

/-- A record as the trace may show it: masked unless TRACE_SAGGER is configured and open (R474). -/
def maskRec (s : State) (r : TraceRec) : TraceRec :=
  if s.obs.trace.cfg.sagger == 1 && scopeOpen 0 s then r
  else { r with masked := true, sid := 4095, addr := 0, ivc := 0, src := 0, dst := 0 }

/-- Stores one record: WRAP drops the oldest when the buffer is full, STOP stops when it becomes full (R473). -/
def traceStore (r : TraceRec) (s : State) : State :=
  let t := s.obs.trace
  if t.recs.length < traceCap s then
    let s := { s with obs.trace := { t with recs := t.recs ++ [r], written := add64 t.written 1 } }
    if t.cfg.mode == 1 && t.recs.length + 1 == traceCap s then traceState 2 s else s
  else { s with obs.trace := { t with recs := t.recs.drop 1 ++ [r], first := t.first + 1, written := add64 t.written 1 } }

/-- Discards a record of a source and counts it (R473). -/
def traceLose (source : Nat) (s : State) : State :=
  let t := s.obs.trace
  { s with obs.trace := { t with lost := add32 t.lost 1, lostSince := t.lostSince + 1
                                 missed := smSet source ((smGet source t.missed).getD 0 + 1) t.missed } }

/-- A marker record (R471): code 1 lost, 2 paused, 3 resumed, with a count. -/
def markerRec (code count : Nat) (s : State) : TraceRec := ⟨8, 0, false, false, 4095, 0, code, 0, s.now, count, 0, 0, 0, 0⟩

/-- A marker goes into the buffer when its SOURCE bit is set (R472). -/
def traceMarker (code count : Nat) (s : State) : State :=
  if bitOf s.obs.trace.cfg.sources 8 then traceStore (maskRec s (markerRec code count s)) s else s

/-- A record of a source enters the buffer of a running trace, behind the marker that counts what the source lost (R473). In
SPILL a full buffer takes no record. -/
def tracePut (r : TraceRec) (s : State) : State :=
  let t := s.obs.trace
  if t.cfg.mode = 2 ∧ traceCap s ≤ t.recs.length + 1 then traceLose r.source s
  else
    let s := match smGet r.source t.missed with
      | some n => traceMarker 1 n { s with obs.trace := { t with missed := smDel r.source t.missed } }
      | none => s
    if s.obs.trace.st = 1 then traceStore r s else traceLose r.source s

/-- The record passes the filters of R472. -/
def traceWants (r : TraceRec) (t : Trace) : Bool :=
  bitOf t.cfg.sources r.source && (t.cfg.sidFilter == 4095 || t.cfg.sidFilter == r.sid)
    && (!(r.source == 2 || r.source == 3) || (bitOf t.cfg.ports r.unit && bitOf t.cfg.vcs r.arg))

/-- The data record that follows a message's record when TRACE_DATA is in force: the first 24 bytes of the body (R471). -/
def dataRec (r : TraceRec) (body : List Nat) : TraceRec :=
  let w (i : Nat) : Nat := body.getD i 0 % 2 ^ 32 + 2 ^ 32 * (body.getD (i + 1) 0 % 2 ^ 32)
  { r with source := 9, tally := w 0, addr := w 2, ivc := w 4, keygen := 0, src := 0, dst := 0 }

/-- Offers a message's record and body to the trace. While it is paused for a contact sheet records are lost (R478). -/
def traceMsg (r : TraceRec) (body : List Nat) (s : State) : State :=
  let t := s.obs.trace
  if traceWants r t = false then s
  else if t.st = 1 then
    let s := tracePut (maskRec s r) s
    if t.cfg.data = 1 ∧ scopeOpen 0 s = true ∧ scopeOpen 1 s = true ∧ body ≠ [] ∧ s.obs.trace.st = 1 then tracePut (dataRec (maskRec s r) body) s else s
  else if t.st = 3 then traceLose r.source s
  else s

/-- Offers a record of the hub's: source, unit, SID, OP, ARG, TAG, ADDR. -/
def traceHub (source unit sid op arg tag addr : Nat) (s : State) : State :=
  let region := if source = 5 then 1 else 0
  traceMsg ⟨source, unit, regionFrozen region unit s, false, sid, op % 256, arg % 256, tag % 2 ^ 16, regionTally region unit s, addr, 0, 0, 0, 0⟩ [] s

/-- Creates an event record and, when the trace copies events, its trace record (SOURCE 6). -/
def emit (kind sid region unit : Nat) (body : List Nat) (s : State) : State :=
  traceMsg ⟨6, unit, regionFrozen region unit s, false, sid, kind, 0, 0, regionTally region unit s, 0, 0, 0, 0, 0⟩ [] (emitRaw kind sid region unit body s)

/-! ### Interrupts (10 R365, R345) -/

/-- The function may issue DMA and interrupts (10 R345). -/
def State.dma (s : State) : Bool :=
  s.host.bme && !s.host.d3hot && s.host.linkUp && !s.glb.pwrFail && s.twin.mode != .fatal

/-- The vector is masked by the mask bit of its table entry (10 R342, log 20). -/
def vecMasked (v : Nat) (s : State) : Bool := (s.host.msix.getD (4 * v + 3) 0).getLsbD 0

/-- Sends the message of a vector, or leaves it pending (10 R365). -/
def sendVec (v : Nat) (s : State) : State :=
  if s.dma && !vecMasked v s then
    { s with hostOut := s.hostOut ++ [.msix v], host.pba := s.host.pba &&& ~~~(1#64 <<< v) }
  else { s with host.pba := s.host.pba ||| (1#64 <<< v) }

/-- Raises an interrupt source: its IRQ_CAUSE bit and its vector's message (10 R365). -/
def raiseIrq (src : Nat) (s : State) : State :=
  sendVec (s.host.cfg.vec.getD src 0) { s with host.irqCause := s.host.irqCause ||| (1#5 <<< src) }

/-- Sends the pending messages whose vectors can now be sent. -/
def flushVecs (s : State) : State :=
  (List.range 64).foldl (fun s v => if s.host.pba.getLsbD v && s.dma && !vecMasked v s then sendVec v s else s) s

/-! ### Rings (10 R353 to R357) -/

/-- Changes ring `r`. -/
def modRing (r : Nat) (f : Ring → Ring) (s : State) : State := { s with host.rings := s.host.rings.modify r f }

/-- Ring `r`, if `r` names one. -/
def ringOf (r : Nat) (s : State) : Option Ring := s.host.rings[r]?

/-- Number of slots of a ring (R352). -/
def ringSlots (g : Ring) : Nat := 2 ^ g.size

/-- Halts a ring with a cause and raises PATH (R357). CAUSE: 2 DOORBELL, 3 SEQUENCE, 4 AUTH, 5 DMA. -/
def haltRing (r cause : Nat) (s : State) : State :=
  raiseIrq 3 (modRing r (fun g => { g with st := .halted, cause := cause }) s)

/-- The command in flight on ring `r` (R355). -/
def inflightOf (r : Nat) (s : State) : Option Inflight := (ringOf r s).bind (·.inflight)

/-! ### Checks and completion of host commands (00 R15, 10 R361 to R363) -/

/-- One check: whether it fails, the status it gives, its stage in DETAIL, the list index it names. -/
structure Chk where
  bad : Bool
  status : Nat
  stage : Nat
  index : Nat
deriving DecidableEq, Repr

/-- A check without an index. -/
def chk (bad : Bool) (status stage : Nat) : Chk := ⟨bad, status, stage, 0xFFFFF⟩

/-- Check 2: a reserved bit or code (00 R14). -/
def chkResv (bad : Bool) : Chk := chk bad stRESERVED 2

/-- Check 3 with DENIED (00 R15). -/
def chkDeny (bad : Bool) : Chk := chk bad stDENIED 3

/-- Check 4: a length or count exceeds the buffer behind it (00 R17). -/
def chkLen (bad : Bool) : Chk := chk bad stLENGTH 4

/-- A refusal made in execution (00 R15: stage 7). -/
def chkExec (bad : Bool) (status : Nat) : Chk := chk bad status 7

/-- The first check that fails. -/
def firstBad : List Chk → Option Chk
  | [] => none
  | c :: r => if c.bad then some c else firstBad r

/-- Check 3 for list entries: DENIED with the index of the first entry that fails. -/
def chkEach {α : Type} (bad : α → Bool) (l : List α) : Chk :=
  match l.findIdx? bad with
  | some i => ⟨true, stDENIED, 3, i⟩
  | none => chkDeny false

/-- Counts a host command that completes with DENIED for no sagger; builds the reply and frees the ring. -/
def finish (r status stage index : Nat) (res : List Nat) (items : List OutItem) (s : State) : State :=
  match inflightOf r s with
  | none => s
  | some f =>
    let items := if f.latch && stage == 0 then items ++ [.pair f.lsid f.start (latchOf f.lsid s)] else items
    let rep : Reply := ⟨r, f.opcode, status, f.ctag, f.cseq, s.now, min (s.now - f.fetched) 0xFFFFFFFF, stage, index, res, items⟩
    let s := modRing r (fun g => { g with inflight := none }) s
    let s := { s with host.statusQ := s.host.statusQ ++ [rep] }
    let s := traceHub 0 0 4095 f.opcode status f.ctag 0 s
    addGlobal 4 1 s

/-- Completes the command of ring `r` with OK and a result. -/
def ok (r : Nat) (res : List Nat) (s : State) : State := finish r stOK 0 0xFFFFF res [] s

/-- Completes the command of ring `r` with OK and an output item. -/
def okItem (r : Nat) (items : List OutItem) (s : State) : State := finish r stOK 0 0xFFFFF [] items s

/-- Completes the command of ring `r` with another status, as done (stage 0). -/
def okStatus (r status : Nat) (res : List Nat) (s : State) : State := finish r status 0 0xFFFFF res [] s

/-- Refuses the command of ring `r`. -/
def refuse (r status stage : Nat) (s : State) : State := finish r status stage 0xFFFFF [] [] s

/-- Parks the command of ring `r` (R363). -/
def park (r : Nat) (p : Park) (s : State) : State :=
  modRing r (fun g => { g with inflight := g.inflight.map fun f => { f with parked := some p } }) s

/-- Size of the bounce region in bytes (R380). -/
def bounceBytes (s : State) : Nat := 65536 * s.host.bounceSize

/-- Checks of the output item of `need` result bytes (R351, R362): alignment at check 3, lengths at check 4. -/
def outChk3 (f : Inflight) : Chk := chkDeny (f.outLen != 0 && f.outOff % 64 != 0)

/-- Bytes the output item must have room for: the result, then the latched pair at the next multiple of 64 (R362). -/
def outNeed (f : Inflight) (need : Nat) : Nat := if f.latch then ceilDiv need 64 * 64 + 64 else need

/-- Check 4 of an output item (R351, R362). -/
def outChk4 (f : Inflight) (need : Nat) (s : State) : Chk :=
  chkLen (decide (f.outLen < outNeed f need) || (f.outLen != 0 && decide (f.outOff + f.outLen + 16 > bounceBytes s)))

/-- Check 3 of an input item: its alignment (R351). -/
def itemAlign (it : Item) : Chk := chkDeny (it.off % 64 != 0)

/-- Reading an input item of `len` bytes, which comes before every check of its contents (R351; log 74): room in the bounce region (4),
authentication (5), DMA (6). -/
def itemRead (it : Item) (len : Nat) (s : State) : List Chk :=
  [chkLen (decide (it.off + len + 16 > bounceBytes s)), chk (it.auth == .tagFail) stDENIED 5, chk (it.auth == .dmaError) stDENIED 6]

/-- Checks of an input item whose command has no check 3 besides its alignment. -/
def itemChk (it : Item) (len : Nat) (s : State) : List Chk := itemAlign it :: itemRead it len s

/-- The checks with those of the output item that LATCH asks for (R362): its alignment with the others of check 3, its
length with those of check 4, before any refusal in execution. -/
def withLatch (f : Inflight) (s : State) (l : List Chk) : List Chk :=
  let a := l.takeWhile fun c => c.stage ≤ 3
  let b := l.drop a.length
  a ++ outChk3 f :: b.takeWhile (·.stage != 7) ++ outChk4 f 0 s :: b.dropWhile (·.stage != 7)

/-- Opcodes of the commands that change nothing: NOP and the read commands. -/
def readOps : List Nat := [0x00, 0x02, 0x03, 0x05, 0x1A, 0x2C, 0x36, 0x37, 0x56, 0x57, 0x5A, 0x5F, 0x74, 0x80, 0x84, 0x87, 0x89, 0x90, 0xF4]

/-- After POWER_OFF_PREPARE only MODULE_RESET still changes the module (14 R457, log 35). -/
def offRefuses (op : Nat) (s : State) : Bool := s.glb.readyOff && !(readOps.contains op || op == 0x0B)

/-- Runs the atomic step of a host command that names the SID `sid` (0: none): the packet of ring `r` must be fetched, carry
this opcode and not be parked (log 3); the first check that fails ends it; otherwise the SID's counters are latched (15
R464) and `act` runs. -/
def cmdFor (r op sid : Nat) (checks : Inflight → State → List Chk) (act : State → State) (s : State) :
    Host.Outcome State Fault Refusal :=
  .next <| match inflightOf r s with
    | none => s
    | some f =>
      if f.opcode = op ∧ f.parked = none ∧ s.alive = true then
        match firstBad (withLatch f s (checks f s ++ [chkExec (offRefuses op s) stCONFLICT])) with
        | some c => finish r c.status c.stage c.index [] []
            (if c.stage = 5 then { s with host.authFail := add32 s.host.authFail 1 } else s)
        | none => act (modRing r (fun g => { g with inflight := g.inflight.map fun f => { f with lsid := sid, start := latchOf sid s } }) s)
      else s

/-- A host command that names no sagger latches SID 0 (15 R464). -/
def cmd (r op : Nat) (checks : Inflight → State → List Chk) (act : State → State) (s : State) :
    Host.Outcome State Fault Refusal := cmdFor r op 0 checks act s

end Sys2Proof.Machine
end

