-- ==== Sys2Proof/Machine/Mem.lean ====
section
/-! DEFINITION. Pool memory: where a line lives (03 R91), the line code (R92 to R97), reading and writing a line
(R98 to R104), and the canonical memory (log 7). Local lines are numbered by PPA[44:6]. -/

namespace Sys2Proof.Machine

/-! ### Places (02 R45, R46; 03 R91) -/

/-- FORMAT of a PPA (02 R45). -/
def ppaFormat (p : Nat) : Nat := p / 2 ^ 60 % 16

/-- HID of a PPA. -/
def ppaHid (p : Nat) : Nat := p / 2 ^ 48 % 4096

/-- OFFSET of a PPA. -/
def ppaOffset (p : Nat) : Nat := p % 2 ^ 48

/-- The PPA of a local offset (format 0x1, HID 0). -/
def localPpa (off : Nat) : Nat := 2 ^ 60 + off

/-- The Void PPA (R45): format 0xF, HID 4,095, offset 0. -/
def voidPpa : Nat := 15 * 2 ^ 60 + 4095 * 2 ^ 48

/-- Kiln die of a local line number. -/
def lineDie (l : Nat) : Nat := l / 2 ^ 36

/-- Page number of a local line: PPA[44:21], die and page together. -/
def linePage (l : Nat) : Nat := l / 2 ^ 15

/-- Die line number D = PAGE x 32,768 + LINE (R91). -/
def dieLine (l : Nat) : Nat := l % 2 ^ 36

/-- Channel of a line (R91). -/
def lineChannel (l : Nat) : Nat := dieLine l % 6

/-- Channel line address of a line (R91). -/
def lineChanAddr (l : Nat) : Nat := dieLine l / 6

/-- Memory of die `k`. -/
def dieMem (k : Nat) (s : State) : Option DieMem := s.mem.dies[k]?

/-- State of the memory of die `k`; Absent for a number that names no die. -/
def dieState (k : Nat) (s : State) : MemState := ((dieMem k s).map (·.st)).getD .absent

/-- Changes die `k`'s memory. -/
def modDie (k : Nat) (f : DieMem → DieMem) (s : State) : State := { s with mem.dies := s.mem.dies.modify k f }

/-- Current wedge generation G of die `k` (R105). -/
def dieGen (k : Nat) (s : State) : Nat := ((dieMem k s).map (·.wgen)).getD 0

/-- A die that is still training or being wedged, before POOL_READY (14 R451). -/
def warmDie (k : Nat) (s : State) : Bool :=
  !s.glb.poolReady && (dieState k s == .training || dieState k s == .wedging)

/-- A local page on such a die. -/
def warmPage (p : Nat) (s : State) : Bool := ppaFormat p == 1 && warmDie (p / 2 ^ 42 % 8) s

/-- The refusal of R451, made in execution: every command that names such a page or die is answered BUSY (00 R15; log 74). -/
def chkWarm (warm : Bool) : Chk := chkExec warm stBUSY

/-- A die whose memory serves, or is being made ready to (R451 answers for the latter in execution). -/
def dieServes (k : Nat) (s : State) : Bool := dieState k s == .inService || warmDie k s

/-- A PPA is a valid local place (R46): format 1, HID 0, bits [47:45] 0, PAGE below the die's page count, which a die that is being made
ready does not have yet (log 74). -/
def localValid (p : Nat) (s : State) : Bool :=
  ppaFormat p == 1 && ppaHid p == 0 && ppaOffset p / 2 ^ 45 == 0
    && (warmDie (p / 2 ^ 42 % 8) s || decide (p / 2 ^ 21 % 2 ^ 21 < ((dieMem (p / 2 ^ 42 % 8) s).map fun d =>
        if d.st = .inService ∨ d.st = .offline then pagesOf d.size else 0).getD 0))
where
  /-- Pages of a die whose six DIMMs have a SIZE code (R46, R121). -/
  pagesOf (size : Nat) : Nat := 6 * ([0, 64, 96, 128, 192, 256, 384, 512].getD size 0) * 512

/-- Page count of a die (R121: non-zero only In service and Offline). -/
def diePages (k : Nat) (s : State) : Nat :=
  match dieMem k s with
  | some d => if d.st = .inService ∨ d.st = .offline then localValid.pagesOf d.size else 0
  | none => 0

/-- What a range of pages of a die is compared with: its page count, and for a die that is being made ready whatever a PPA can name
(log 74). -/
def pageLimit (k : Nat) (s : State) : Nat := if warmDie k s then 2 ^ 21 else diePages k s

/-! ### CRC-32C and cross-parity (R93 to R97) -/

/-- One bit of the reflected CRC-32C register (R93). -/
def crcBit (c : Nat) : Nat := if c % 2 = 1 then Nat.xor (c / 2) 0x82F63B78 else c / 2

/-- One byte of CRC-32C. -/
def crcByte (c b : Nat) : Nat :=
  crcBit (crcBit (crcBit (crcBit (crcBit (crcBit (crcBit (crcBit (Nat.xor c b))))))))

/-- CRC-32C of a sequence of bytes (R93). -/
def crc32c (bytes : List Nat) : Nat := Nat.xor (bytes.foldl crcByte 0xFFFFFFFF) 0xFFFFFFFF

/-- Side-word bytes 0 to 5: ROWP and COLP. -/
def sideLow (l : Line) : Nat := l.rowp.toNat + 2 ^ 16 * l.colp.toNat

/-- Side-word bytes 10 to 15: CRAZE, TAG, SUMMARY, WGEN and the reserved byte. -/
def sideHigh (l : Line) : Nat :=
  l.craze.toNat + 2 ^ 4 * l.tag.toNat + 2 ^ 16 * l.summary.toNat + 2 ^ 32 * l.wgen.toNat + 2 ^ 40 * l.top.toNat

/-- The line CRC over its 76 bytes (R94). -/
def crcLine (l : Line) : BitVec 32 :=
  BitVec.ofNat 32 (crc32c (bytesLE 64 l.data.toNat ++ bytesLE 6 (sideLow l) ++ bytesLE 6 (sideHigh l)))

/-- Row `r` of the data: the word at byte 4r (R95). -/
def dataRow (d : LineData) (r : Nat) : Word := d.extractLsb' (32 * r) 32

/-- XOR of the 32 bits of a word. -/
def parity32 (w : Word) : Bool := (List.range 32).foldl (fun p i => Bool.xor p (w.getLsbD i)) false

/-- ROWP of the data (R95). -/
def rowParity (d : LineData) : BitVec 16 :=
  (List.range 16).foldl (fun p r => if parity32 (dataRow d r) then p ||| (1#16 <<< r) else p) 0

/-- COLP of the data (R95). -/
def colParity (d : LineData) : BitVec 32 := (List.range 16).foldl (fun p r => p ^^^ dataRow d r) 0

/-- Number of one bits among the low `n` bits. -/
def popCount (n v : Nat) : Nat := (List.range n).foldl (fun k i => if bitOf v i then k + 1 else k) 0

/-- Index of the lowest one bit among the low `n` bits, `n` when there is none. -/
def lowBit (n v : Nat) : Nat := ((List.range n).find? (bitOf v)).getD n

/-- A line with new parities and CRC (R94, R99). -/
def mkLine (d : LineData) (craze : BitVec 4) (tag : BitVec 12) (summary : BitVec 16) (wgen : BitVec 8) : Line :=
  let l : Line := ⟨d, rowParity d, colParity d, 0, craze, tag, summary, wgen, 0⟩
  { l with crc := crcLine l }

/-- Result of decoding a line (R96). -/
inductive Decoded where
  | clean | mended (l : Line) | uncorrectable
deriving DecidableEq, Repr

/-- The line after the correction that its syndromes name, if they name one; the flag tells a change (R96). -/
def correct (l : Line) : Option (Line × Bool) :=
  let rs := (rowParity l.data ^^^ l.rowp).toNat
  let cs := (colParity l.data ^^^ l.colp).toNat
  let nr := popCount 16 rs
  let nc := popCount 32 cs
  if nr = 1 ∧ nc = 1 then
    some ({ l with data := l.data ^^^ BitVec.ofNat 512 (cs * 2 ^ (32 * lowBit 16 rs)) }, true)
  else if nr + nc = 1 then
    some ({ l with rowp := l.rowp ^^^ BitVec.ofNat 16 rs, colp := l.colp ^^^ BitVec.ofNat 32 cs }, true)
  else if nr + nc = 0 then some (l, false)
  else none

/-- Decodes a line as read (R96). -/
def lineDecode (l : Line) : Decoded :=
  match correct l with
  | none => .uncorrectable
  | some (m, changed) => if crcLine m ≠ m.crc then .uncorrectable else if changed then .mended m else .clean

/-! ### The stored lines -/

/-- The wedged state of R105. -/
def wedgedLine : Line := mkLine 0 0 0xFFF#12 0 0

/-- What an unlisted line of a page reads as: its page's fill, or the wedged state (log 7). -/
def lineDefault (l : Nat) (m : MemSt) : Line :=
  match smGet (linePage l) m.fills with
  | some f => mkLine 0 0 f.tag 0 f.wgen
  | none => wedgedLine

/-- The stored line. -/
def lineOf (l : Nat) (m : MemSt) : Line := (smGet l m.lines).getD (lineDefault l m)

/-- Stores a line, keeping the canonical form (log 7). -/
def putLine (l : Nat) (x : Line) (m : MemSt) : MemSt :=
  if x = lineDefault l m then { m with lines := smDel l m.lines } else { m with lines := smSet l x m.lines }

/-- Fills pages `page` to `page + n - 1` (die and page numbers together): every line loses its entry. -/
def fillPages (page n : Nat) (f : Option Fill) (m : MemSt) : MemSt :=
  let lines := m.lines.filter fun e => !(decide (page ≤ linePage e.1) && decide (linePage e.1 < page + n))
  let fills := m.fills.filter fun e => !(decide (page ≤ e.1) && decide (e.1 < page + n))
  let fills := match f with
    | some v => if v = ⟨0xFFF#12, 0⟩ then fills else (List.range n).foldl (fun acc i => smSet (page + i) v acc) fills
    | none => fills
  { m with lines := lines, fills := fills }

/-- The canonical form of memory (log 7): keys strictly rising, no fill equal to the wedged state, no listed line equal
to what its address reads as unlisted. -/
def memWf (m : MemSt) : Bool :=
  smWf m.fills && smWf m.lines && m.fills.all (fun e => e.2 != ⟨0xFFF#12, 0⟩)
    && m.lines.all (fun e => e.2 != lineDefault e.1 m)

/-- A change of side fields that brings no data (R94): a clean or mended line gets a new CRC; an uncorrectable one keeps
its error, its CRC changed by the difference that the fields make. -/
def sideUpdate (f : Line → Line) (x : Line) : Line :=
  match lineDecode x with
  | .clean => let y := f x; { y with crc := crcLine y }
  | .mended m => let y := f m; { y with crc := crcLine y }
  | .uncorrectable => let y := f x; { y with crc := x.crc ^^^ crcLine x ^^^ crcLine y }

/-! ### What a read finds (R96, R98, R104, R115) -/

/-- The location word of a line (15 R470): die and channel (R91), then the internal place. -/
def locationOf (l : Nat) : Nat := lineDie l + 8 * lineChannel l + 64 * (Config.dramLocation l % 2 ^ 37)

/-- The row of a line as bits [31:0] of its location: it lies in that row of both subchannels, which work in lockstep (R86), so their
bit is 0. -/
def rowOf (l : Nat) : Nat := lineDie l + 8 * lineChannel l + 128 * (Config.dramLocation l / 2 % 2 ^ 25)

/-- Counts and reports an uncorrectable find (R104); with AUTO_SPPR the row is to be repaired (R115). -/
def noteUE (l sid finder : Nat) (s : State) : State :=
  let k := lineDie l
  let auto := ((dieMem k s).map fun d => d.cfg.autoSppr == 1).getD false
  let recent := match smGet l s.mem.ueLast with
    | some t => decide (s.now ≤ t + 1000000000)
    | none => false
  let s := modDie k (fun d => { d with ue := add32 d.ue 1 }) s
  let s := if auto && !s.mem.pendingSppr.contains l then { s with mem.pendingSppr := s.mem.pendingSppr ++ [l] } else s
  if recent then s
  else emit 0x07 sid 1 k (w64 (localPpa (64 * l)) ++ w64 (locationOf l) ++ [finder])
    { s with mem.ueLast := smSet l s.now s.mem.ueLast }

/-- Times of a row's mends that lie within the last PERIOD (R115). -/
def recentMends (row period : Nat) (s : State) : List Nat :=
  ((smGet row s.mem.rowMends).getD []).filter fun t => decide (s.now < t + period)

/-- Counts a mend (R104); CE_ROW_LIMIT mends in a row within a PERIOD call for its repair (R115). -/
def noteCE (l : Nat) (s : State) : State :=
  let k := lineDie l
  let cfg := ((dieMem k s).map (·.cfg)).getD ⟨0, 0, 0, 0⟩
  let ts := recentMends (rowOf l) cfg.period s ++ [s.now]
  let s := modDie k (fun d => { d with ce := add32 d.ce 1 }) s
  let s := { s with mem.rowMends := smSet (rowOf l) ts s.mem.rowMends }
  if cfg.autoSppr == 1 && decide (cfg.ceRowLimit ≤ ts.length) && !s.mem.pendingSppr.contains l
    then { s with mem.pendingSppr := s.mem.pendingSppr ++ [l] } else s

/-- A line as it decodes: none when uncorrectable. -/
def readLine (l : Nat) (m : MemSt) : Option Line :=
  match lineDecode (lineOf l m) with
  | .clean => some (lineOf l m)
  | .mended x => some x
  | .uncorrectable => none

/-- Counts what decoding a line found. -/
def noteDecode (l sid finder : Nat) (s : State) : State :=
  match lineDecode (lineOf l s.mem) with
  | .clean => s
  | .mended _ => noteCE l s
  | .uncorrectable => noteUE l sid finder s

/-- Changes side fields of a line, data kept, and counts what decoding it found (R94, R104). -/
def setSide (l : Nat) (f : Line → Line) (s : State) : State :=
  let s' := noteDecode l 4095 0 s
  { s' with mem := putLine l (sideUpdate f (lineOf l s'.mem)) s'.mem }

/-- Writes the directory summary of a line (04 R128, R94). -/
def setSummary (l : Nat) (v : BitVec 16) (s : State) : State := setSide l (fun x => { x with summary := v }) s

/-- Writes a craze cause into a line, data kept (R94). -/
def setCraze (l : Nat) (v : BitVec 4) (s : State) : State := setSide l (fun x => { x with craze := v }) s

/-- A line is unwedged (R98): its WGEN is neither 0 nor G. -/
def unwedged (x : Line) (g : Nat) : Bool := x.wgen != 0 && x.wgen.toNat != g

/-- The read checks of R98 on a line that is on a die In service: none is DENIED. -/
def readChecks (l sid : Nat) (s : State) : Option (LineData × Nat) :=
  match readLine l s.mem with
  | none => some (0, 1)
  | some x =>
    if unwedged x (dieGen (lineDie l) s) then some (0, 2)
    else if sid = 0 then some (x.data, x.craze.toNat)
    else if x.tag = 0xFFF#12 then some (0, x.craze.toNat)
    else if x.tag.toNat ≠ sid then none
    else some (x.data, x.craze.toNat)

/-- A read of a local line for a SID (R98, R118, R120): a lost die reads as zeros with cause 5, an Offline one is DENIED. -/
def readLocal (l sid : Nat) (s : State) : Option (LineData × Nat) × State :=
  match dieState (lineDie l) s with
  | .lost => (some (0, 5), s)
  | .inService =>
    let s' := addGlobal 0 1 (noteDecode l sid 0 s)
    match readChecks l sid s with
    | none => (none, s')
    | some (d, c) => (some (d, c), if c = 0 then s' else modCtr sid (fun k => { k with crazed := add64 k.crazed 1 }) s')
  | _ => (none, s)

/-! ### Writing (R99, R100) -/

/-- The 512-bit mask of a byte mask: bit b stands for byte b. -/
def byteMask (m : BitVec 64) : LineData :=
  (List.range 64).foldl (fun acc b => if m.getLsbD b then acc ||| (0xFF#512 <<< (8 * b)) else acc) 0

/-- New bytes merged under a byte mask. -/
def mergeBytes (old new : LineData) (m : BitVec 64) : LineData :=
  (old &&& ~~~(byteMask m)) ||| (new &&& byteMask m)

/-- All bytes of a line. -/
def fullMask : BitVec 64 := BitVec.allOnes 64

/-- The cause that a carried cause is stored as (R102). -/
def carried (c : Nat) : Nat := if 10 ≤ c ∧ c ≤ 14 then 8 else c % 16

/-- Cause that a write stores (R99). -/
def writeCause (full uncorr unw : Bool) (stored cause : Nat) : Nat :=
  if full then carried cause
  else if uncorr then 1
  else if stored ≠ 0 ∧ unw = false then stored
  else carried cause

/-- Summary that a write outside a directory transaction and outside a claim leaves on an uncorrectable line (R99, 04 R128). -/
def wideAll : BitVec 16 := 0x3FE#16

/-- The line after a write that R99 admits. `tag` is the TAG it stores, `summary` what the directory sets (none: kept). -/
def writtenLine (x : Line) (dec : Option Line) (g tag : Nat) (d : LineData) (m : BitVec 64) (cause : Nat)
    (summary : Option (BitVec 16)) : Line :=
  let unw := match dec with
    | some y => unwedged y g
    | none => false
  let old : LineData := match dec with
    | some y => if unw then 0 else y.data
    | none => 0
  let stored := ((dec.getD x).craze).toNat
  let full := m == fullMask
  let sum := match summary, dec with
    | some v, _ => v
    | none, some y => y.summary
    | none, none => wideAll
  mkLine (if full then d else mergeBytes old d m) (BitVec.ofNat 4 (writeCause full dec.isNone unw stored cause))
    (BitVec.ofNat 12 tag) sum (BitVec.ofNat 8 g)

/-- R99 refuses the write: TAG is neither 4,095 nor the writer's, the line is readable and not unwedged, SID is not 0. -/
def writeRefused (l sid : Nat) (s : State) : Bool :=
  match readLine l s.mem with
  | none => false
  | some x => !(unwedged x (dieGen (lineDie l) s) || x.tag == 0xFFF#12 || x.tag.toNat == sid || sid == 0)

/-- A write of a local line for a SID (R99): none when it is DENIED. `tag` is the SID stored. What the read before the write finds is
counted (R104). -/
def writeLocal (l sid tag : Nat) (d : LineData) (m : BitVec 64) (cause : Nat) (summary : Option (BitVec 16))
    (s : State) : Option State :=
  match dieState (lineDie l) s with
  | .inService =>
    if writeRefused l sid s then none
    else
      let x := lineOf l s.mem
      let y := writtenLine x (readLine l s.mem) (dieGen (lineDie l) s) tag d m cause summary
      let s' := noteDecode l sid 0 s
      some (addGlobal 1 1 { s' with mem := putLine l y s'.mem })
  | _ => none

/-- Writes lines of a page the device owns (tables, library, mirror, spill): TAG, the die's G, cause 0 (02 R51, 15 R465). -/
def ownLine (l tag : Nat) (d : LineData) (s : State) : State :=
  { s with mem := putLine l (mkLine d 0 (BitVec.ofNat 12 tag) 0 (BitVec.ofNat 8 (dieGen (lineDie l) s))) s.mem }

end Sys2Proof.Machine
end

