-- ==== Sys2Proof/Machine/Send.lean ====
section
/-! DEFINITION. What the hub sends to the fabric: messages, answers, tracked requests (08 R297 to R311), and the meters
of saggers (09 R320 to R324). -/

namespace Sys2Proof.Machine

/-! ### Ports and admission -/

/-- Port `p`. -/
def portOf (p : Nat) (s : State) : Option Port := s.ports[p]?

/-- Changes port `p`. -/
def modPort (p : Nat) (f : Port → Port) (s : State) : State := { s with ports := s.ports.modify p f }

/-- Changes the counters of port `p`. -/
def modPortCtr (p : Nat) (f : PortCtr → PortCtr) : State → State := modPort p fun q => { q with ctr := f q.ctr }

/-- Security association of an AID on a port (R308). -/
def assocOf (p aid : Nat) (s : State) : Option Assoc := (portOf p s).bind fun q => smGet aid q.assocs

/-- The AID is Admitted on the port (R308). -/
def admitted (p aid : Nat) (s : State) : Bool :=
  match assocOf p aid s with
  | some a => a.adm == .admitted
  | none => false

/-- SID to which an admitted AID is bound on a port; 4,095 when it is not admitted. -/
def sidOf (p aid : Nat) (s : State) : Nat :=
  match assocOf p aid s with
  | some a => if a.adm = .admitted then a.sid else 4095
  | none => 4095

/-- Changes the association of an AID on a port. -/
def modAssoc (p aid : Nat) (f : Assoc → Assoc) : State → State :=
  modPort p fun q => { q with assocs := smMod aid f q.assocs }

/-- The port die is in service. -/
def portLive (p : Nat) (s : State) : Bool := ((portOf p s).map (·.inSvc)).getD false

/-- The port is Up. -/
def portUp (p : Nat) (s : State) : Bool :=
  match portOf p s with
  | some q => q.inSvc && q.st == .up
  | none => false

/-- The load word of R334 for a SID on a port; SEAL_LOAD for a sealed sagger (R330). -/
def loadWord (sid p : Nat) (s : State) : Nat :=
  match smGet sid s.sags.tab with
  | some g => if g.sealed then g.par.sealLoad else (smGet p g.loads).getD 0
  | none => 0

/-! ### Sealed saggers: partitions and slots (09 R325 to R331) -/

/-- The sagger is sealed. -/
def sagSealed (sid : Nat) (s : State) : Bool := ((smGet sid s.sags.tab).map (·.sealed)).getD false

/-- The sagger holds sealed partitions: also after SAGGER_UNSEAL until its work has ended (R328). -/
def holdsParts (sid : Nat) (s : State) : Bool := ((smGet sid s.sags.tab).map fun g => g.sealed || g.leaving).getD false

/-- Saggers that hold partitions. -/
def partCount (s : State) : Nat := (s.sags.tab.filter fun g => g.2.sealed || g.2.leaving).length

/-- No place is left for a SID in a pool of `total` places of which a sealed sagger holds `each` (R328). `owners` are the
SIDs whose work holds the places in use. -/
def poolFull (owners : List Nat) (sid each total more : Nat) (s : State) : Bool :=
  if holdsParts sid s then decide (each < owners.count sid + more)
  else decide (total - each * partCount s < (owners.filter fun o => !holdsParts o s).length + more)

/-- SIDs of the open-firing slots in use: a firing whose FIRING_DONE record waits at its source keeps its slot (10 R364). -/
def firingSids (s : State) : List Nat := s.kiln.firings.map (·.sid) ++ (s.host.evKept.filter (·.kind == 1)).map (·.sid)

/-- The schedule holds a SLOT of the SID with its RETURN entry (R331). -/
def slotIn (g : GateSched) (sid : Nat) : Bool :=
  g.entries.any fun e => e.kind == 1 && e.sid == sid && match g.entries[e.pair]? with
    | some r => r.kind == 2 && r.sid == sid
    | none => false

/-- The SID is served in slots on a port: it is sealed and the schedule in force has its entries (R331). -/
def slotServed (p sid : Nat) (s : State) : Bool :=
  sagSealed sid s && match (portOf p s).bind (·.gate) with
    | some g => slotIn g sid
    | none => false

/-- Notes a breach of a guarantee: opens its record or adds to the open one (R337, R338). -/
def noteBreach (sid guarantee reason port meter amount : Nat) (s : State) : State :=
  let mine (b : Breach) : Bool := b.sid == sid && b.guarantee == guarantee && b.reason == reason
  let more (b : Breach) : Breach :=
    { b with count := satAdd 65535 b.count 1, last := s.now, shortfall := add64 b.shortfall amount }
  if s.sags.breaches.any mine then
    { s with sags.breaches := s.sags.breaches.map fun b => if mine b then more b else b }
  else { s with sags.breaches := s.sags.breaches ++ [⟨sid, guarantee, reason, port, 255, 1, s.now, s.now, amount, meter⟩] }

/-- An answer of a sealed sagger that misses its RETURN entry, or is served without one, counts (R329, R331). -/
def countLate (sid : Nat) : State → State := modCtr sid fun c => { c with slotLate := add64 c.slotLate 1 }

/-- Virtual channel of a message that the J9P sends (R300). -/
def outVc (op : Nat) : Nat := op / 32

/-- Sends a message; a lost port or an ended admission discards and counts it (R298). `plain` messages are not encrypted and
need no admission. A VC1 answer takes the class, deadline and RETURN entry of the request it answers (09 R323, R329); `due`
is the earliest RETURN entry of any other message. -/
def sendAt (due p : Nat) (plain : Bool) (m : OutMsg) (s : State) : State :=
  if portLive p s && (plain || admitted p m.dst s) then
    let vc := outVc m.op
    let sid := sidOf p m.dst s
    let m := { m with load := if vc = 1 then loadWord sid p s else 0 }
    let r := (portOf p s).bind fun q => q.reqs.find? fun r => vc == 1 && r.aid == m.dst && r.tag == m.tag && r.tgen == m.tgen
    let excess := (r.map (·.excess)).getD false
    let cls := if vc = 2 ∨ vc ≥ 5 then 3 else if excess then 5 else 4
    let x : TxItem := ⟨vc, m, cls, (r.map (·.deadline)).getD (s.now + 1000000), s.now, max due ((r.bind (·.due)).getD 0), (r.map (·.ord)).getD 0, (r.map (·.cost)).getD 0⟩
    let s := modPort p (fun q => { q with txq := q.txq ++ [x] }) s
    if sagSealed sid s && vc == 1 && !slotServed p sid s then noteBreach sid 4 6 p 1 0 (countLate sid s) else s
  else modPortCtr p (fun c => { c with undelivered := add32 c.undelivered 1 }) s

/-- Sends a message that waits for no RETURN entry in particular. -/
def sendOn : Nat → Bool → OutMsg → State → State := sendAt 0

/-- Sends a sealed message without line or handle. -/
def sendWords (p op dst tag tgen status : Nat) (body : List Nat) : State → State :=
  sendOn p false ⟨op, dst, tag, tgen, status, 0, body, none, none⟩

/-- Closes the oldest open VC0 request of an AID with a TAG. -/
def dropReq (aid tag : Nat) : List OpenReq → List OpenReq
  | [] => []
  | x :: r => if x.aid = aid ∧ x.tag = tag ∧ x.fence = false then r else x :: dropReq aid tag r

/-- The fences of `aid` that have passed the meter and that no earlier open request precedes (R301, R311). -/
def ripeFences (aid : Nat) : List OpenReq → List OpenReq
  | [] => []
  | x :: r => if x.aid = aid then (if x.fence && x.passed then x :: ripeFences aid r else []) else ripeFences aid r

/-- Answers the fences of an AID that are ripe. -/
def flushFences (p aid : Nat) (s : State) : State :=
  match portOf p s with
  | none => s
  | some q =>
    let ripe := ripeFences aid q.reqs
    modPort p (fun q => { q with reqs := q.reqs.filter fun x => !ripe.contains x })
      (ripe.foldl (fun s x => sendWords p 0x2D aid x.tag x.tgen 0 [] s) s)

/-- A request of an agent counts as answered. -/
def closeReq (p aid tag : Nat) (s : State) : State :=
  flushFences p aid (modPort p (fun q => { q with reqs := dropReq aid tag q.reqs }) s)

/-- Notes a VC0 request or CONTRIB as open. -/
def openReq (p aid tag tgen : Nat) (fence : Bool) : State → State :=
  modPort p fun q => { q with reqs := q.reqs ++ [⟨aid, tag, tgen, fence, false, false, 0, none, 0, 0⟩] }

/-- An agent got a grant or DONE: its consecutive NACKs start again (04 R136). -/
def clearAgentNacks (aid : Nat) (s : State) : State :=
  { s with dir.agents := smMod aid (fun a => { a with nacks := 0 }) s.dir.agents }

/-- DONE (R300): status, cause, and a line or an old value. A DENIED answer is counted for the SID (15 R462). -/
def done (p aid tag tgen sid status : Nat) (line : Option (LineData × Nat)) (old : List Nat) (s : State) : State :=
  let s := if status = stDENIED then countDenied sid s else s
  let s := clearAgentNacks aid s
  closeReq p aid tag (sendOn p false ⟨0x23, aid, tag, tgen, status, 0, old, line, none⟩ s)

/-- DONE with a status alone. -/
def doneSt (p aid tag tgen sid status : Nat) : State → State := done p aid tag tgen sid status none []

/-! ### Requests to holders and agents (R303, R310, R311) -/

/-- The lowest TAG that is neither outstanding toward the AID on the port nor held back (R311). -/
def freeTag (p aid : Nat) (s : State) : Nat :=
  let used := (s.outst.filter fun o => o.port == p && o.aid == aid).map (·.tag)
  ((List.range (used.length + 1)).find? fun t => !used.contains t).getD 0

/-- Sends HREAD, HWRITE or FENCE with a TAG, TGEN one above its last use, and a completion timer (R310, R311). -/
def sendTracked (p op aid : Nat) (body : List Nat) (line : Option (LineData × Nat)) (pur : Purpose) (s : State) : State :=
  let tag := freeTag p aid s
  let key := aid * 65536 + tag
  let tgen := (match (portOf p s).bind fun q => smGet key q.tagGens with
    | some g => g + 1
    | none => 0) % 16
  let s := modPort p (fun q => { q with tagGens := smSet key tgen q.tagGens }) s
  let s := { s with outst := s.outst ++ [⟨p, aid, tag, tgen, op, s.now, false, pur⟩] }
  sendOn p false ⟨op, aid, tag, tgen, 0, 0, body, line, none⟩ s

/-- Holder-table entry of a HID; the reset entry where none was set (02 R48). -/
def holderOf (hid : Nat) (s : State) : Holder := (smGet hid s.xlt.holders).getD ⟨0, 0, 0, 31, 0, 0⟩

/-- Port that reaches a holder now (02 R49). -/
def holderPort (h : Holder) (s : State) : Nat :=
  if !portUp h.port s && decide (h.altPort < 16) && portUp h.altPort s then h.altPort else h.port

/-- HREAD of one line at a holder. -/
def sendHread (hid off : Nat) (pur : Purpose) (s : State) : State :=
  let h := holderOf hid s
  sendTracked (holderPort h s) 0x0C h.aid (w64 off ++ [1]) none pur s

/-- HWRITE of one line at a holder; `markOnly` stores the cause alone (R303). -/
def sendHwrite (hid off : Nat) (d : LineData) (cause : Nat) (markOnly : Bool) (pur : Purpose) (s : State) : State :=
  let h := holderOf hid s
  let flags := 1 + (if markOnly then 8 else 0) + 16 * cause
  sendTracked (holderPort h s) 0x0D h.aid (w64 off ++ [flags, 0]) (if markOnly then none else some (d, cause)) pur s

/-! ### Meters (09 R320 to R322) -/

/-- What a meter decides for one charge (R321). -/
inductive Admit where
  | wait | committed | excess
deriving DecidableEq, Repr

/-- One meter's decision and new levels (R321): rates in MB/s, bursts in KiB, charge in bytes, levels in 1/1,000 byte. -/
def meterAdmit (m : Meter) (crate cburst prate pburst now charge : Nat) : Admit × Meter :=
  let dt := now - m.t
  let c := min (m.c + (crate * dt : Nat)) (cburst * 1024 * 1000 : Nat)
  let unl := prate = 0xFFFFFFFF
  let p := if unl then m.p else min (m.p + (prate * dt : Nat)) (pburst * 1024 * 1000 : Nat)
  if ¬unl ∧ p < 0 then (.wait, ⟨now, c, p⟩)
  else
    let p := if unl then p else p - (charge * 1000 : Nat)
    if 0 ≤ c then (.committed, ⟨now, c - (charge * 1000 : Nat), p⟩) else (.excess, ⟨now, c, p⟩)

/-- Charges meter F of a SID (R320). A SID without an entry is not charged. -/
def chargeF (sid bytes : Nat) (s : State) : Admit × State :=
  match smGet sid s.sags.tab with
  | none => (.committed, s)
  | some g =>
    let (a, m) := meterAdmit g.f g.par.fCrate g.par.fCburst g.par.fPrate g.par.fPburst s.now bytes
    let pass := a != .wait
    let g := { g with f := m }
    let g := if pass then { g with ctr := { g.ctr with fCharged := add64 g.ctr.fCharged bytes } } else g
    (a, { s with sags.tab := smSet sid g s.sags.tab })

/-- Charges meter L of a SID by lines (R320): false when the engine must pause. -/
def chargeL (sid lines : Nat) (s : State) : Bool × State :=
  match smGet sid s.sags.tab with
  | none => (true, s)
  | some g =>
    let (a, m) := meterAdmit g.l g.par.lCrate g.par.lCburst g.par.lPrate g.par.lPburst s.now (64 * lines)
    let pass := a != .wait
    let g := { g with l := m }
    let g := if pass then { g with ctr := { g.ctr with lLines := add64 g.ctr.lLines lines } } else g
    (pass, { s with sags.tab := smSet sid g s.sags.tab })

/-! ### Gates and admission (09 R322, R323, R327) -/

/-- The port's gate lets a request of a SID in now: a SLOT entry only its owner's, up to LINES; any other entry those that are not
served in slots (R327, R331). -/
def gateLets (p sid lines : Nat) (s : State) : Bool :=
  match (portOf p s).bind (·.gate) with
  | none => true
  | some g => match g.entries[g.cur]? with
    | none => true
    | some e => if slotServed p sid s then e.kind == 1 && e.sid == sid && decide (g.used + lines ≤ e.lines) else e.kind != 1

/-- Sum of the durations of a schedule. -/
def gatePeriod (es : List GateEntry) : Nat := es.foldl (fun n e => n + e.duration) 0

/-- Start of entry `i` within the period. -/
def gateStart (es : List GateEntry) (i : Nat) : Nat := gatePeriod (es.take i)

/-- Offset of the slot at entry `i` (R326). -/
def slotOffset (es : List GateEntry) (i : Nat) (e : GateEntry) : Nat :=
  (gateStart es e.pair + gatePeriod es - gateStart es i) % gatePeriod es + e.lag * gatePeriod es

/-- Marks the newest open request of an agent with a TAG. -/
def markReq (aid tag : Nat) (f : OpenReq → OpenReq) (l : List OpenReq) : List OpenReq :=
  (l.reverse.modify ((l.reverse.findIdx? fun r => r.aid == aid && r.tag == tag && !r.passed).getD l.length) f).reverse

/-- A request that reached its port at `came` passes the gate and meter F, or must wait (R321, R322, R327). -/
def letPass (p aid tag sid cost lines came : Nat) (s : State) : Bool × State :=
  if !gateLets p sid lines s then (false, s)
  else
    let (a, s) := chargeF sid cost s
    if a = .wait then (false, s)
    else
      let lat := ((smGet sid s.sags.tab).map (·.par.latTarget)).getD 0
      let slot := slotServed p sid s
      let due := if slot then ((portOf p s).bind (·.gate)).bind fun g => (g.entries[g.cur]?).map fun e =>
        g.curAt + slotOffset g.entries g.cur e else none
      (true, modPort p (fun q =>
        let f (r : OpenReq) : OpenReq :=
          { r with passed := true, excess := a == .excess, deadline := came + (if lat = 0 then 1000000 else lat), due := due, ord := q.admits + 1, cost := cost }
        { q with admits := q.admits + 1, reqs := markReq aid tag f q.reqs,
                 gate := if slot then q.gate.map fun g => { g with used := g.used + lines } else q.gate }) s)

end Sys2Proof.Machine
end

