-- ==== Sys2Proof/Machine/Walk.lean ====
section
/-! DEFINITION. Translation (02 R43 to R57), page heat (R83, R84), faults and their batches (R70 to R76), and baked runs
(R62). A page is PVA[51:21]. -/

namespace Sys2Proof.Machine

/-! ### Leaf entries -/

/-- Key of a leaf entry: SID and page. -/
def leafKey (sid page : Nat) : Nat := sid * 2 ^ 31 + page

/-- The leaf that covers a page, with its first page: a 2 MiB leaf, or the 1 GiB leaf of its 512 pages (R44). -/
def leafAt (sid page : Nat) (x : Xlt) : Option (Nat × Leaf) :=
  match smGet (leafKey sid page) x.leaves with
  | some l => some (page, l)
  | none => match smGet (leafKey sid (page / 512 * 512)) x.leaves with
    | some l => if l.big then some (page / 512 * 512, l) else none
    | none => none

/-- Changes the leaf whose first page is `base`. -/
def modLeaf (sid base : Nat) (f : Leaf → Leaf) (s : State) : State :=
  { s with xlt.leaves := smMod (leafKey sid base) f s.xlt.leaves }

/-- Pages of a leaf. -/
def leafPages (l : Leaf) : Nat := if l.big then 512 else 1

/-- PPA that a Present leaf gives for a byte address: the Void PPA has no offset added. -/
def leafPpa (l : Leaf) (pva : Nat) : Nat :=
  if ppaFormat l.ppa = 15 then l.ppa else l.ppa + pva % (if l.big then 2 ^ 30 else 2 ^ 21)

/-- Tables that a walk to a page reads (R51): level 1 of the SID, level 2 of PVA[51:39], level 3 of PVA[51:30]. -/
def walkTables (sid page : Nat) (x : Xlt) : List Table :=
  x.tables.filter fun t => t.sid == sid && ((t.level == 1) || (t.level == 2 && t.idx == page / 2 ^ 18)
    || (t.level == 3 && t.idx == page / 2 ^ 9))

/-- The walk needs a table whose die's memory is lost (03 R118). -/
def tableLost (sid page : Nat) (s : State) : Bool :=
  (walkTables sid page s.xlt).any fun t => dieState (t.ppa / 2 ^ 42 % 8) s == .lost

/-- Result of a walk (R53, 03 R118). -/
inductive WalkRes where
  | outside | lost | reserved (base : Nat) (l : Leaf) | present (base : Nat) (l : Leaf)
deriving DecidableEq, Repr

/-- Walks to a page. Where a needed table is lost, a Present leaf translates only while the cache holds it, which the
manual leaves open (log 9), but no longer once a command has removed it (R57). -/
def walk (sid page : Nat) (s : State) : WalkRes :=
  match leafAt sid page s.xlt with
  | none => if tableLost sid page s then .lost else .outside
  | some (b, l) =>
    if tableLost sid page s && !(l.pres && !l.out && Config.cacheHolds sid page s.freeCtr) then .lost
    else if l.pres then .present b l else .reserved b l

/-- Access bits as in WACCESS (R73): 1 RD, 2 WR, 4 AT. The leaf permits them all. -/
def permits (l : Leaf) (acc : Nat) : Bool :=
  (!bitOf acc 0 || l.rd) && (!bitOf acc 1 || l.wr) && (!bitOf acc 2 || l.atm)

/-- The holder serves a bound region that is Contested (04 R156). -/
def holderContested (hid : Nat) (s : State) : Bool :=
  s.dir.regions.any fun e => e.2.hid == some hid && e.2.cont.isSome

/-- What an access to a byte address finds (R47, R49, R53 to R55, R70, R81, 03 R118, 04 R156). -/
inductive Trans where
  | denied
  | zeros (cause : Nat)
  | migrating (base : Nat)
  | fault (base : Nat) (l : Leaf)
  | contested
  | remote (hid off : Nat)
  | here (line : Nat)
  | window (off : Nat)
deriving DecidableEq, Repr

/-- Translates a PVA for a SID and access bits. -/
def translate (sid pva acc : Nat) (s : State) : Trans :=
  match walk sid (pva / 2 ^ 21) s with
  | .outside => .denied
  | .lost => .zeros 5
  | .reserved b l => if !permits l acc then .denied else if l.mig then .migrating b else .fault b l
  | .present b l =>
    if !permits l acc then .denied
    else if l.mig then .migrating b
    else
      let ppa := leafPpa l pva
      match ppaFormat ppa with
      | 1 => .here (ppaOffset ppa / 64)
      | 2 =>
        let hid := ppaHid ppa
        if holderContested hid s then .contested
        else match (holderOf hid s).st with
          | 1 => .remote hid (ppaOffset ppa)
          | 3 => .zeros 4
          | _ => .fault b l
      | 3 => .window (ppaOffset ppa)
      | _ => .zeros 4

/-! ### Fault records and batches (R73, R74) -/

/-- A waiter entry (R73): WKIND, WACCESS and WHO; a descriptor that no mover has taken yet shows number 0 (log 25). -/
def waiterWord (s : State) (w : Waiter × Nat) : Nat :=
  let tag (f : Nat) : Nat := ((s.kiln.firings.find? (·.fid == f)).map (·.desc.tag)).getD 0
  match w.1 with
  | .agent _ p a => 1 + 16 * w.2 + 256 * (a + 2048 * p)
  | .firing f => 3 + 16 * w.2 + 256 * (tag f % 65536)
  | .step f => 3 + 16 * w.2 + 256 * (tag f % 65536)
  | .queued n => 2 + 16 * w.2 + 256 * (((s.kiln.runs.find? (·.mid == n)).bind (·.mover)).getD 0 % 64)

/-- The record of a fault as it stands (R73). -/
def faultRec (kind : Nat) (f : Fault') (s : State) : FaultRec :=
  let lf := leafAt f.sid f.page s.xlt
  let ppa := match lf with
    | some (_, l) => if l.pres then l.ppa else 0
    | none => 0
  let heat := match lf with
    | some (_, l) => l.heat
    | none => 0
  ⟨kind, f.sid, f.id, 0, 0, false, f.waiters.length, f.page * 2 ^ 21, b2n f.big, f.access,
   if ppa = 0 then 4095 else ppaHid ppa, ppaFormat ppa, f.epoch, f.opened, heat, (f.waiters.take 64).map (waiterWord s)⟩

/-- The fault's record in the open batch follows the fault until the batch closes (R73). -/
def refreshRec (f : Fault') (s : State) : State :=
  { s with xlt.batch := s.xlt.batch.map fun r =>
      if r.id = f.id ∧ (r.kind = 1 ∨ r.kind = 2) then faultRec r.kind f s else r }

/-- Closes the open batch: numbers its records, which show the waiters of faults still open and the pages' heat as they are now (R73, R84),
marks the last one, and hands them to the fault ring (R74). -/
def closeBatch (s : State) : State :=
  let n := add32 s.xlt.batchNo 1
  let k := s.xlt.batch.length
  if k = 0 then s
  else
    let heat (r : FaultRec) : Nat := ((leafAt r.sid (r.pva / 2 ^ 21) s.xlt).map (·.2.heat)).getD r.heat
    let cur (r : FaultRec) : FaultRec := match s.xlt.faults.find? fun f => f.id == r.id && (r.kind == 1 || r.kind == 2) with
      | some f => faultRec r.kind f s
      | none => r
    let recs := (s.xlt.batch.map cur).mapIdx fun i r => { r with batch := n, index := i, last := i + 1 == k, heat := heat r }
    { s with xlt.batch := [], xlt.batchNo := n, host.faultQ := s.host.faultQ ++ recs }

/-- A record becomes ready: it joins the open batch or opens one; a batch closes at 64 records or with a window of 0. -/
def readyRec (r : FaultRec) (s : State) : State :=
  let s := if s.xlt.batch.isEmpty then { s with xlt.batchAt := s.now, xlt.batchWin := s.xlt.batchWindow } else s
  let s := { s with xlt.batch := s.xlt.batch ++ [r] }
  if s.xlt.batch.length ≥ 64 ∨ s.xlt.batchWin = 0 then closeBatch s else s

/-- Current epoch of a SID (R60); 0 when it has no level-1 table. -/
def epochOf (sid : Nat) (s : State) : Nat := (smGet sid s.xlt.epochs).getD 0

/-- SIDs of the waiters held on all open faults. -/
def waiterSids (s : State) : List Nat := s.xlt.faults.flatMap fun f => f.waiters.map fun _ => f.sid

/-- A party hits a page: it joins the open fault of the page or opens one (R72, 09 R328); none when no slot is free.
KIND 1 NOT_PRESENT, 2 NOT_LOCAL. -/
def hitFault (w : Waiter) (acc sid page : Nat) (big : Bool) (kind : Nat) (s : State) : Option State :=
  if poolFull (waiterSids s) sid 64 8192 1 s then none
  else match s.xlt.faults.find? (fun f => f.sid == sid && f.page == page && f.big == big) with
    | some f =>
      let f := { f with waiters := f.waiters ++ [(w, acc)], access := Nat.lor f.access acc }
      some (refreshRec f { s with xlt.faults := s.xlt.faults.map fun g => if g.id = f.id then f else g })
    | none =>
      if poolFull (s.xlt.faults.map (·.sid)) sid 8 1024 1 s then none
      else
        let f : Fault' := ⟨s.xlt.nextFault, sid, page, big, kind, s.now, epochOf sid s, acc, [(w, acc)], 0⟩
        let s := { s with xlt.faults := s.xlt.faults ++ [f], xlt.nextFault := add32 s.xlt.nextFault 1 }
        let s := modCtr sid (fun c => { c with faults := add64 c.faults 1 }) s
        some (readyRec (faultRec kind f s) s)

/-! ### Heat (R83, R84) -/

/-- Heat parameters of a SID. -/
def heatOf (sid : Nat) (s : State) : HeatCfg := (smGet sid s.xlt.heatCfg).getD s.xlt.heatDef

/-- Adds use to the leaf at `base`; a HEAT record follows when the count reaches its alert, once a period (R84). -/
def addHeat (sid base n : Nat) (s : State) : State :=
  match smGet (leafKey sid base) s.xlt.leaves with
  | none => s
  | some l =>
    let h := satAdd 65535 l.heat n
    let c := heatOf sid s
    let lim := if ppaFormat l.ppa = 1 then c.localAlert else if ppaFormat l.ppa = 2 then c.remoteAlert else 0
    let alert := lim != 0 && decide (lim ≤ h) && !l.alerted
    let s := modLeaf sid base (fun l => { l with heat := h, alerted := l.alerted || alert }) s
    if alert then
      let f : Fault' := ⟨s.xlt.nextFault, sid, base, l.big, 3, s.now, epochOf sid s, 0, [], 0⟩
      readyRec (faultRec 3 f s) { s with xlt.nextFault := add32 s.xlt.nextFault 1 }
    else s

/-! ### Baked runs (R62) -/

/-- Pages of a region: first page and count; none for a length of 0. -/
def regionPages (pva len : Nat) : List Nat :=
  if len = 0 then [] else
    let a := pva / 2 ^ 21
    (List.range ((pva + len - 1) / 2 ^ 21 - a + 1)).map (a + ·)

/-- What the walk of one page of a region finds. -/
inductive PageRes where
  | bad | contested | migrating | faulting (base : Nat) (l : Leaf) | good (ppa : Nat)
deriving DecidableEq, Repr

/-- Walks one page of a region for a descriptor (R62, R70, 03 R118, 04 R156). Void and Lost pages stay in the run. -/
def bakePage (sid acc page : Nat) (s : State) : PageRes :=
  match walk sid page s with
  | .outside => .bad
  | .lost => .bad
  | .reserved b l => if !permits l acc then .bad else if l.mig then .migrating else .faulting b l
  | .present b l =>
    if !permits l acc then .bad
    else if l.mig then .migrating
    else
      let ppa := leafPpa l (page * 2 ^ 21)
      if ppaFormat ppa = 2 then
        if holderContested (ppaHid ppa) s then .contested
        else match (holderOf (ppaHid ppa) s).st with
          | 0 => .faulting b l
          | 2 => .faulting b l
          | _ => .good ppa
      else .good ppa

/-- The region runs past the end of its extent (R62, R17): some page before its last has END. -/
def pastEnd (sid pva len : Nat) (s : State) : Bool :=
  (regionPages pva len).dropLast.any fun p =>
    match leafAt sid p s.xlt with
    | some (b, l) => l.last && p == b + leafPages l - 1
    | none => false

/-- Walks a region: the pages' results in ascending order. -/
def bakeRegion (sid pva len acc : Nat) (s : State) : List (Nat × PageRes) :=
  (regionPages pva len).map fun p => (p, bakePage sid acc p s)

/-- The run of a region whose pages were walked. -/
def runOf (sid pva len : Nat) (write : Bool) (w : List (Nat × PageRes)) : Run :=
  ⟨sid, pva, len, write, w.map fun p => match p.2 with
    | .good ppa => some ppa
    | _ => none⟩

/-- PPA of byte `off` of a run, when its page is present. -/
def runPpa (r : Run) (off : Nat) : Option Nat :=
  let a := r.pva + off
  match r.pages[a / 2 ^ 21 - r.pva / 2 ^ 21]? with
  | some (some p) => some (if ppaFormat p = 15 then p else p + a % 2 ^ 21)
  | _ => none

end Sys2Proof.Machine
end

