-- ==== Sys2Proof/Machine/Dir.lean ====
section
/-! DEFINITION. The directory engine (04 R126 to R146) and lease ends (R147 to R150). A line is named by PPA[63:6]. -/

namespace Sys2Proof.Machine

/-! ### Line names -/

/-- Directory name of a local line (format 0x1). -/
def localKey (l : Nat) : Nat := 2 ^ 54 + l

/-- The name is of a local line. -/
def isLocal (k : Nat) : Bool := k / 2 ^ 54 == 1

/-- Local line number of a name. -/
def keyLine (k : Nat) : Nat := k % 2 ^ 39

/-- HID of a remote line's name. -/
def keyHid (k : Nat) : Nat := k / 2 ^ 42 % 4096

/-- Holder offset of a remote line's name. -/
def keyOff (k : Nat) : Nat := k % 2 ^ 42 * 64

/-- Directory name of a remote line. -/
def remoteKey (hid off : Nat) : Nat := 2 * 2 ^ 54 + hid * 2 ^ 42 + off / 64

/-- Coherence parameters of a SID (R159). -/
def cohOf (sid : Nat) (s : State) : CohCfg := (smGet sid s.dir.cohCfg).getD s.dir.cohDef

/-- Directory entry of a line. -/
def entOf (k : Nat) (s : State) : Option DirEnt := smGet k s.dir.ents

/-- Changes the entry of a line. -/
def modEnt (k : Nat) (f : DirEnt → DirEnt) (s : State) : State := { s with dir.ents := smMod k f s.dir.ents }

/-- An agent that never joined. -/
def noAgent : Agent := ⟨0, false, 0, 0, 4095, 0xFFFFFFFF, 0, none⟩

/-- Agent `aid`. -/
def agentOf (aid : Nat) (s : State) : Agent := (smGet aid s.dir.agents).getD noAgent

/-- Stores agent `aid`. -/
def setAgent (aid : Nat) (a : Agent) (s : State) : State := { s with dir.agents := smSet aid a s.dir.agents }

/-- Joined as a caching agent, not Lapsed. -/
def isCaching (aid : Nat) (s : State) : Bool := (agentOf aid s).kind == 1 && !(agentOf aid s).lapsed

/-! ### Summaries (R128 to R130) -/

/-- Bit of the port pair of a port. -/
def pairBit (port : Nat) : BitVec 8 := 1#8 <<< (port / 2 % 8)

/-- Port-pair vector of listed agents. -/
def pairsOf (cs : List (Nat × Nat)) (s : State) : BitVec 8 :=
  cs.foldl (fun v c => v ||| pairBit (agentOf c.1 s).port) 0

/-- The summary that a Shared entry leaves (R128, R129). -/
def summaryOf (e : DirEnt) (s : State) : BitVec 16 :=
  if e.st = .uncached then 0
  else match e.wide, e.copies with
    | false, [c] => BitVec.ofNat 16 (1 + 4 * c.1)
    | false, cs => BitVec.ofNat 16 (2 + 4 * (pairsOf cs s).toNat)
    | true, _ => BitVec.ofNat 16 (2 + 4 * e.pp.toNat)

/-- An entry without copies. -/
def freshEnt (sid page : Nat) : DirEnt := ⟨.uncached, sid, [], false, 0, page, 0, 0, [], .idle, [], 0, false, none, false⟩

/-- The side bits of a local line can be read and their TAG counts: the die serves, the line is not unwedged (03 R96, R98). -/
def tagOf (k : Nat) (s : State) : Option Nat :=
  if !isLocal k || dieState (lineDie (keyLine k)) s != .inService then none
  else match readLine (keyLine k) s.mem with
    | none => none
    | some x => if x.tag = 0xFFF#12 ∨ unwedged x (dieGen (lineDie (keyLine k)) s) = true then none else some x.tag.toNat

/-- The sagger of a line (R127): its TAG, and where no TAG says it the SID of the request that meets the line (log 44). -/
def lineSid (k sid : Nat) (s : State) : Nat := (tagOf k s).getD sid

/-- The side bits of a local line on a serving die cannot be read (03 R96). -/
def sidesLost (k : Nat) (s : State) : Bool :=
  isLocal k && dieState (lineDie (keyLine k)) s == .inService && (readLine (keyLine k) s.mem).isNone

/-- The entry that a local line's summary gives (R128, R129); a bad summary counts. The grant of a copy that only a summary names is
older than the current epoch (R145, log 29). Which sagger's agents a line with uncorrectable side bits is snooped at, and so the
entry's SID, is the requester's (DESIGN CHOICE, log 44). -/
def entFromSummary (k sid page : Nat) (s : State) : DirEnt × State :=
  let sid := lineSid k sid s
  let e := freshEnt sid page
  if !isLocal k || dieState (lineDie (keyLine k)) s != .inService then (e, s)
  else
    let wide := { e with st := .shared, wide := true, pp := 0xFF#8 }
    match readLine (keyLine k) s.mem with
    | none => (wide, s)
    | some x =>
      let v := x.summary.toNat
      match v % 4 with
      | 0 => (e, s)
      | 1 => ({ e with st := .shared, copies := [(v / 4 % 2048, (epochOf sid s + (2 ^ 32 - 1)) % 2 ^ 32)] }, s)
      | 2 => ({ e with st := .shared, wide := true, pp := BitVec.ofNat 8 (v / 4) }, s)
      | _ => (wide, { s with dir.summaryBad := add32 s.dir.summaryBad 1 })

/-- Agents that a snoop to every holder of a line reaches (R130). An AID that a summary names but that is no caching agent now holds no
copy. -/
def holdersOf (e : DirEnt) (s : State) : List Nat :=
  if e.wide then
    (s.dir.agents.filter fun a => a.2.kind == 1 && !a.2.lapsed && (a.2.sid == e.sid || a.2.sid == 0)
      && e.pp &&& pairBit a.2.port != 0).map (·.1)
  else (e.copies.map (·.1)).filter fun a => isCaching a s

/-- The request is an agent's. -/
def Req.isAgent (q : Req) : Bool := q.who == .agent

/-- The request is no recall of the directory's own. -/
def Req.asked (q : Req) : Bool := q.who != .own

/-- SID under which a request reads and writes a local line (03 R98, R99): a migration passes every TAG, a host command with SID 0 too. -/
def Req.accSid (q : Req) : Nat :=
  match q.who with
  | .mig _ => 0
  | _ => q.sid

/-- TAG that a request's write stores (03 R99, 10 R372). -/
def Req.newTag (q : Req) : Nat :=
  match q.who with
  | .host _ _ => if q.sid = 0 then 4095 else q.sid
  | _ => q.sid

/-- Agents that must be snooped before the head request is served (R131, R129, R145). -/
def snoopList (k : Nat) (e : DirEnt) (q : Req) (s : State) : List Nat :=
  match e.st, q.op with
  | .uncached, _ => []
  | .shared, .rdShared => []
  | .shared, .rdOnce => []
  | .shared, .recallShare => []
  | .shared, .rdOwn => (holdersOf e s).filter (· != q.src)
  | .shared, .upgrade => (holdersOf e s).filter (· != q.src)
  | .shared, .evict => if isLocal k then [] else holdersOf e s
  | .shared, _ => holdersOf e s
  | .owned, _ => e.copies.map (·.1)

/-- The snoops of a request ask for the copy to be dropped, not shared (R131). -/
def snoopsInv (q : Req) : Bool :=
  match q.op with
  | .rdShared => false
  | .rdOnce => false
  | .recallShare => false
  | _ => true

/-- Sends a snoop to an agent, on the port of its last JOIN (08 R298). -/
def sendSnoop (k : Nat) (inv : Bool) (aid : Nat) (s : State) : State :=
  let a := agentOf aid s
  sendOn a.port false ⟨if inv then 0x41 else 0x40, aid, 0, 0, 0, 0, [], none, some ⟨k, a.sid⟩⟩ s

/-! ### Leaving the cache -/

/-- Frees an entry: the summary of a local line becomes what the entry leaves (R129). -/
def freeEnt (k : Nat) (s : State) : State :=
  match entOf k s with
  | none => s
  | some e =>
    let s := { s with dir.ents := smDel k s.dir.ents }
    if isLocal k && dieState (lineDie (keyLine k)) s == .inService
        && (lineOf (keyLine k) s.mem).summary != summaryOf e s then setSummary (keyLine k) (summaryOf e s) s else s

/-- Message opcode of a request (08 R300), 0 for a recall of the device's own. -/
def opcodeOf : LineOp → Nat
  | .rdShared => 0x01
  | .rdOwn => 0x02
  | .upgrade => 0x03
  | .rdOnce => 0x04
  | .scorch => 0x05
  | .atomic => 0x06
  | _ => 0

/-- Ends the head request of a line; an Uncached entry without requests is freed. -/
def popHead (k : Nat) (s : State) : State :=
  let s := match (entOf k s).bind (·.queue.head?) with
    | some q => traceHub 1 0 q.sid (opcodeOf q.op) 0 q.tag (if isLocal k then localPpa (64 * keyLine k) else keyOff k) s
    | none => s
  let s := modEnt k (fun e => { e with queue := e.queue.drop 1, phase := .idle, snoops := [], back := none, gone := false }) s
  match entOf k s with
  | some e => if e.st = .uncached ∧ e.queue = [] then freeEnt k s else s
  | none => s

/-- Copies and state that a share snoop of an Owned line leaves (R131). -/
def afterShare (e : DirEnt) : DirEnt :=
  if e.st = .owned then
    if e.gone then { e with st := .uncached, copies := [] } else { e with st := .shared }
  else e

/-- An entry without copies, Uncached. -/
def noCopies (e : DirEnt) : DirEnt := { e with st := .uncached, copies := [], wide := false, pp := 0 }

/-- Adds a sharer: the third makes the entry WIDE (R131). A WIDE entry marks the pair of the port of the agent's JOIN, on which it is
snooped (R130). -/
def addSharer (aid epoch : Nat) (e : DirEnt) (s : State) : DirEnt :=
  let port := (agentOf aid s).port
  if e.wide then { e with pp := e.pp ||| pairBit port }
  else if e.copies.any (·.1 == aid) then { e with copies := e.copies.map fun c => if c.1 = aid then (aid, epoch) else c }
  else if e.copies.length < 2 then { e with st := .shared, copies := e.copies ++ [(aid, epoch)] }
  else { e with wide := true, pp := pairsOf e.copies s ||| pairBit port, copies := [] }

/-- An agent got a grant or DONE for a line: its consecutive NACKs start again, those for the line too (R136, R137). -/
def clearNacks (aid k : Nat) (s : State) : State :=
  let s := clearAgentNacks aid s
  { s with dir.lineNacks := smDel (aid * 2 ^ 58 + k) s.dir.lineNacks }

/-- An agent's access of a line is performed: heat of its page (02 R83). -/
def countAccess (q : Req) (s : State) : State :=
  match leafAt q.sid q.page s.xlt with
  | some (b, _) => addHeat q.sid b 1 s
  | none => s

/-- Sets the presence bit of a local line's page (R143). -/
def setPresence (k : Nat) (s : State) : State :=
  if isLocal k && !s.mem.presence.contains (linePage (keyLine k)) then
    { s with mem.presence := linePage (keyLine k) :: s.mem.presence } else s

/-- Sends a grant and starts the hold window (R131, R138). OP 0x20 GRANT_S, 0x21 GRANT_E, 0x22 GRANT_E_NODATA. -/
def grant (k : Nat) (q : Req) (op : Nat) (line : Option (LineData × Nat)) (s : State) : State :=
  let sid := ((entOf k s).map (·.sid)).getD q.sid
  let hold := (cohOf sid s).hold
  let s := modEnt k (fun e => { e with holdEnd := s.now + hold, granted := s.now, page := q.page }) s
  let s := countAccess q (clearNacks q.src k (setPresence k s))
  let body := if op = 0x20 then [] else [(agentOf q.src s).lepoch]
  closeReq q.port q.src q.tag (sendOn q.port false ⟨op, q.src, q.tag, q.tgen, 0, 0, body, line, some ⟨k, q.sid⟩⟩ s)

/-- The party of an access of the device's own still waits for it. -/
def whoWaits (w : Who) (s : State) : Bool :=
  match w with
  | .mover m => s.kiln.runs.any (·.mid == m)
  | .mig m => s.kiln.runs.any (·.mid == m)
  | .host r c => (inflightOf r s).any (·.cseq == c)
  | _ => false

/-- The request is a mover's. -/
def Req.isMover (q : Req) : Bool :=
  match q.who with
  | .mover _ => true
  | _ => false

/-- What an access of the device itself gave (R132): a mover's write to a lost die ends its descriptor with CRAZED (03 R118). -/
def devRes (k : Nat) (q : Req) (status : Nat) (line : Option (LineData × Nat)) (s : State) : DevRes :=
  if status = stOK then
    match line with
    | some (d, c) => .got d c
    | none => .wrote (if isLocal k then (lineOf (keyLine k) s.mem).craze.toNat else q.cause)
  else if q.isMover = true ∧ q.op = .scorch ∧ isLocal k = true ∧ dieState (lineDie (keyLine k)) s = .lost then .failed stCRAZED
  else .failed status

/-- Ends the head request with an answer: DONE to an agent, the result to a party of the device itself (R131, R132). An agent's access
that is performed counts as heat (02 R83). -/
def doneReq (k : Nat) (q : Req) (status : Nat) (line : Option (LineData × Nat)) (old : List Nat) (s : State) : State :=
  match q.who with
  | .own => s
  | .agent =>
    clearNacks q.src k (done q.port q.src q.tag q.tgen q.sid status line old (if status = stOK then countAccess q s else s))
  | w => if whoWaits w s then { s with dir.answers := s.dir.answers ++ [(w, devRes k q status line s)] } else s

/-! ### Atomics (08 R302) -/

/-- New value of an atomic of `w` bits. -/
def atomicNew (aop w : Nat) (old a b : Nat) : Nat :=
  let sgn (x : Nat) : Int := if x < 2 ^ (w - 1) then (x : Int) else (x : Int) - (2 : Int) ^ w
  match aop with
  | 1 => (old + a) % 2 ^ w
  | 2 => Nat.land old a
  | 3 => Nat.lor old a
  | 4 => Nat.xor old a
  | 5 => a
  | 6 => if old = a then b else old
  | 7 => if sgn a < sgn old then a else old
  | 8 => if sgn old < sgn a then a else old
  | 9 => min old a
  | _ => max old a

/-- Old value and new line of an atomic on a line. -/
def atomicApply (q : Req) (d : LineData) : Nat × LineData :=
  let w := if q.size = 0 then 32 else 64
  let old := d.toNat / 2 ^ (8 * q.off) % 2 ^ w
  let new := atomicNew q.aop w old (q.opnd1.toNat % 2 ^ w) (q.opnd2.toNat % 2 ^ w)
  let mask : LineData := BitVec.ofNat 512 ((2 ^ w - 1) * 2 ^ (8 * q.off))
  (old, (d &&& ~~~mask) ||| BitVec.ofNat 512 (new * 2 ^ (8 * q.off)))

/-! ### Serving the head request (R131) -/

/-- The entry after a read-type request whose data could be delivered; a line that was Uncached takes the SID of its TAG (R127). -/
def afterRead (k : Nat) (q : Req) (e : DirEnt) (s : State) : DirEnt :=
  let sid := if e.st = .uncached then lineSid k q.sid s else e.sid
  match q.op with
  | .rdShared => addSharer q.src q.epoch { (if e.gone then { e with copies := [] } else e) with st := .shared, sid := sid } s
  | .rdOwn => { noCopies e with st := .owned, copies := [(q.src, q.epoch)], sid := sid }
  | .upgrade => { noCopies e with st := .owned, copies := [(q.src, q.epoch)], sid := sid }
  | _ => afterShare e

/-- The entry after a request that was refused once its snoops were answered. -/
def afterRefused (q : Req) (e : DirEnt) : DirEnt :=
  match q.op with
  | .rdShared => afterShare e
  | .rdOnce => afterShare e
  | _ => noCopies e

/-- Delivers a line to the head request of a read type and ends it. -/
def deliver (k : Nat) (q : Req) (d : LineData × Nat) (s : State) : State :=
  let s' := modEnt k (fun e => afterRead k q e s) s
  let s' := match q.op with
    | .rdShared => grant k q 0x20 (some d) s'
    | .rdOwn => grant k q 0x21 (some d) s'
    | .upgrade => grant k q 0x21 (some d) s'
    | _ => doneReq k q stOK (some d) [] s'
  popHead k s'

/-- Ends the head request with a refusal. -/
def refuseHead (k : Nat) (q : Req) (status : Nat) (s : State) : State :=
  popHead k (doneReq k q status none [] (modEnt k (afterRefused q) s))

/-- Ends the head request of a write type, its line written. -/
def wrote (k : Nat) (q : Req) (old : List Nat) (s : State) : State :=
  popHead k (doneReq k q stOK none old (modEnt k noCopies s))

/-- Serves the head request of a local line once no snoop is owed (R131, R98 to R100). -/
def serveLocal (k : Nat) (q : Req) (s : State) : State :=
  let l := keyLine k
  match q.op with
  | .scorch =>
    match writeLocal l q.accSid q.newTag q.line q.mask q.cause (some 0) s with
    | some s' => wrote k q [] s'
    | none => refuseHead k q stDENIED s
  | .atomic =>
    match readLocal l q.sid s with
    | (none, s') => refuseHead k q stDENIED s'
    | (some (d, c), s') =>
      if c ≠ 0 then if dieState (lineDie l) s = .inService then refuseHead k q stCRAZED s' else refuseHead k q stDENIED s'
      else
        let (old, new) := atomicApply q d
        match writeLocal l q.sid q.sid new fullMask 0 (some 0) s' with
        | some s'' => wrote k q (w64 old) s''
        | none => refuseHead k q stDENIED s'
  | _ =>
    match readLocal l q.accSid s with
    | (some d, s') => deliver k q d s'
    | (none, s') => refuseHead k q stDENIED s'

/-- New content of a remote line for the head write (R99, R100): none when an atomic meets a marked line. -/
def remoteNew (q : Req) (d : LineData) (c : Nat) : Option (Req × LineData × Nat) :=
  match q.op with
  | .atomic => if c ≠ 0 then none
      else let (old, new) := atomicApply q d; some ({ q with merged := true, opnd1 := BitVec.ofNat 64 old }, new, 0)
  | _ =>
    let c := writeCause (q.mask == fullMask) false false c q.cause
    some ({ q with merged := true, cause := c }, mergeBytes d q.line q.mask, c)

/-- Changes the head request of a line. -/
def modHead (k : Nat) (q : Req) : State → State :=
  modEnt k fun e => { e with queue := match e.queue with
    | [] => []
    | _ :: r => q :: r }

/-- Writes the merged content of the head request to the holder (R303). -/
def writeRemote (k : Nat) (q : Req) (d : LineData) (c : Nat) (s : State) : State :=
  sendHwrite (keyHid k) (keyOff k) d c false (.dirWrite k) (modEnt k (fun e => { e with phase := .remote }) (modHead k q s))

/-- Data of the head request's remote line has come (HDATA, or a snoop's answer). -/
def remoteData (k : Nat) (q : Req) (d : LineData) (c : Nat) (s : State) : State :=
  match q.op with
  | .scorch | .atomic =>
    match remoteNew q d c with
    | some (q', d', c') => writeRemote k q' d' c' s
    | none => refuseHead k q stCRAZED s
  | _ => deliver k q (d, c) s

/-- Serves the head request of a remote line once no snoop is owed (R49, R131, R303); what is not yet forwarded when the holder's region
becomes Contested is answered so (R156). -/
def serveRemote (k : Nat) (e : DirEnt) (q : Req) (s : State) : State :=
  if holderContested (keyHid k) s then refuseHead k q stCONTESTED s
  else if (holderOf (keyHid k) s).st = 3 then
    match q.op with
    | .scorch => refuseHead k q stDENIED s
    | .atomic => refuseHead k q stDENIED s
    | _ => deliver k q (0, 4) s
  else
    match e.back, q.op with
    | some (d, c), _ => remoteData k q d c s
    | none, .scorch =>
      if q.mask = fullMask then writeRemote k { q with merged := true } q.line (carried q.cause) s
      else sendHread (keyHid k) (keyOff k) (.dirRead k) (modEnt k (fun e => { e with phase := .remote }) s)
    | none, _ => sendHread (keyHid k) (keyOff k) (.dirRead k) (modEnt k (fun e => { e with phase := .remote }) s)

/-- The copies of a line with uncorrectable side bits are recalled: its summary, which still cannot be read, names nobody any more. -/
def noteRecalled (k : Nat) (s : State) : State :=
  if sidesLost k s && !s.dir.recalled.contains k then { s with dir.recalled := k :: s.dir.recalled } else s

/-- Serves a head request that owes no snoop. -/
def serveHead (k : Nat) (e : DirEnt) (q : Req) (s : State) : State :=
  match q.op with
  | .recallShare => popHead k (modEnt k afterShare s)
  | .recallInv => popHead k (noteRecalled k (modEnt k noCopies s))
  | .evict =>
    if e.st = .shared ∧ isLocal k = true then
      if e.queue.length ≤ 1 then freeEnt k s else popHead k s
    else popHead k (modEnt k noCopies s)
  | .upgrade =>
    if e.st = .shared ∧ e.wide = false ∧ e.copies.any (·.1 == q.src) = true then
      popHead k (grant k q 0x22 none (modEnt k (fun e => { noCopies e with st := .owned, copies := [(q.src, q.epoch)] }) s))
    else if isLocal k then serveLocal k q s else serveRemote k e q s
  | _ => if isLocal k then serveLocal k q s else serveRemote k e q s

/-- Lease-end action 4 on one line (R150): cause 3 on the memory copy, the entry Uncached. -/
def markOwned (k aid : Nat) (s : State) : State :=
  let s := { s with dir.marked := add32 s.dir.marked 1 }
  let s := match smGet aid s.dir.agents with
    | some a => setAgent aid { a with ending := a.ending.map fun e => (e.1, e.2.1 + 1, e.2.2) } s
    | none => s
  let s := modEnt k noCopies s
  if isLocal k then
    if dieState (lineDie (keyLine k)) s = .inService then setCraze (keyLine k) 3 s else s
  else sendHwrite (keyHid k) (keyOff k) 0 3 true (.mark aid k) s

/-- The owner of an entry whose lease has ended but whose scan has not reached the line (R150). -/
def endedOwner (e : DirEnt) (s : State) : Option Nat :=
  if e.st = .owned then (e.copies.map (·.1)).find? fun a => (agentOf a s).ending.isSome else none

/-- NOWAIT asks for HELD instead of a wait (R140). -/
def holdable (q : Req) : Bool :=
  match q.op with
  | .rdOnce => q.nowait
  | .scorch => q.nowait
  | .atomic => q.nowait
  | _ => false

/-- Serves the requests of a line in order as far as they can go (R131, R138 to R140). -/
def pump : Nat → Nat → State → State
  | 0, _, s => s
  | fuel + 1, k, s =>
    match entOf k s with
    | none => s
    | some e =>
      match e.queue, e.phase with
      | q :: _, .idle =>
        match endedOwner e s with
        | some a => pump fuel k (markOwned k a s)
        | none =>
          let who := snoopList k e q s
          if who = [] then pump fuel k (serveHead k e q s)
          else if s.now < e.holdEnd ∧ q.now = false then
            if holdable q then pump fuel k (popHead k (doneReq k q stHELD none [] s)) else s
          else who.foldl (fun s a => sendSnoop k (snoopsInv q) a s)
            (modEnt k (fun e => { e with phase := .snooping, snoops := who, snoopAt := s.now, snoopInv := snoopsInv q }) s)
      | q :: _, .snooped => pump fuel k (serveHead k e q s)
      | _, _ => s

/-! ### Ways (R126, R133, R134, R137; 09 R328) -/

/-- An entry is pinned (R133). -/
def pinned (e : DirEnt) (s : State) : Bool := !e.queue.isEmpty || !e.snoops.isEmpty || decide (s.now < e.holdEnd)

/-- DIR_BLOCKS that a SID holds alone (09 R328). -/
def dirBlocksOf (sid : Nat) (s : State) : Nat :=
  ((smGet sid s.sags.tab).map fun g => if g.sealed || g.leaving then g.dirBlocks else 0).getD 0

/-- The set in which a line of a SID lies, with the sagger whose blocks it is in, 4,095 for the shared part (R126, 09 R328). -/
def dirSetOf (k sid : Nat) (s : State) : Nat × Nat :=
  let b := dirBlocksOf sid s
  if b = 0 then (4095, Config.dirSet k % (1048576 - 16384 * (s.sags.tab.foldl (fun n g => n + dirBlocksOf g.1 s) 0)))
  else (sid, Config.dirSet k % (16384 * b))

/-- The whole cache holds, with its reservations, less than a set's ways: no set can be full and no hash is needed. -/
def waysFree (s : State) : Bool := decide (s.dir.ents.length + s.dir.reserv.length < 16)

/-- Entries in the set of a line. -/
def setEnts (k sid : Nat) (s : State) : List (Nat × DirEnt) :=
  if waysFree s then [] else s.dir.ents.filter fun e => dirSetOf e.1 e.2.sid s == dirSetOf k sid s

/-- Ways of the set kept for other agents' reservations (R137). -/
def reservedWays (k sid aid : Nat) (s : State) : Nat :=
  if waysFree s then 0
  else (s.dir.reserv.filter fun r => (r.aid != aid || r.line != k) && dirSetOf r.line r.sid s == dirSetOf k sid s).length

/-- The victim among unpinned ways: Shared local first, then Shared remote, then Owned; the least recently granted (R134). -/
def victim (k sid : Nat) (s : State) : Option Nat :=
  let ws := (setEnts k sid s).filter fun e => !pinned e.2 s
  let rank (e : Nat × DirEnt) : Nat × Nat :=
    (if e.2.st = .owned then 2 else if isLocal e.1 then 0 else 1, e.2.granted)
  let best := ws.foldl (fun (b : Option (Nat × DirEnt)) e => match b with
    | none => some e
    | some x => if (rank e).1 < (rank x).1 ∨ ((rank e).1 = (rank x).1 ∧ (rank e).2 < (rank x).2) then some e else b) none
  best.map (·.1)

/-- AID of a request's agent; 4,095 for the device's own. -/
def Req.aid (q : Req) : Nat := if q.isAgent then q.src else 4095

/-- A way of the line's set is free for a request (R126, R137). -/
def wayFree (k : Nat) (q : Req) (s : State) : Bool :=
  decide ((setEnts k (lineSid k q.sid s) s).length + reservedWays k (lineSid k q.sid s) q.aid s < 16)

/-- A recall that the device makes of one line (R145), `now` without waiting for hold windows (R139). -/
def recallReq (op : LineOp) (sid : Nat) (now : Bool) : Req :=
  ⟨op, 0, 4095, 0, 0, sid, 0, 0, false, now, 0, 0, 0, 0, 0, 0, 0, 0, false, .own⟩

/-- Puts a request behind the others of its line; a recall that does not wait goes before those that have not begun (R139). An entry
that a SID 0 agent's request made takes the SID of a sagger's (R127). -/
def pushReq (k : Nat) (q : Req) : State → State := modEnt k fun e =>
  { e with queue := if !q.now then e.queue ++ [q] else if e.phase = .idle then q :: e.queue else e.queue.take 1 ++ q :: e.queue.drop 1
           sid := if e.sid = 0 ∧ q.asked = true ∧ isLocal k = false then q.sid else e.sid }

/-- Makes the entry of a line that has none, from its summary, with a first request. A request ends the note that the copies of a line
with uncorrectable side bits were recalled. -/
def newEnt (k : Nat) (q : Req) (s : State) : State :=
  let (e, s) := entFromSummary k q.sid q.page s
  { s with dir.ents := smSet k { e with queue := [q] } s.dir.ents
           dir.recalled := if q.asked then s.dir.recalled.filter (· != k) else s.dir.recalled }

/-- The SID of the entry of a line. -/
def entSid (k : Nat) (s : State) : Nat := ((entOf k s).map (·.sid)).getD 0

/-- The recall that makes a victim leave the cache (R129, R134). -/
def evictLine (v : Nat) (s : State) : State := pump 256 v (pushReq v (recallReq .evict (entSid v s) false) s)

/-- A waiting request's victim is still being recalled. -/
def evicting (v : Option Nat) (s : State) : Bool :=
  match v.bind fun v => entOf v s with
  | some e => e.queue.any (·.op == .evict)
  | none => false

/-- Tries a request that waits for a way again (R134): its line may have an entry by now, a way may be free, its victim's entry may have
stayed for another request, so that another victim is chosen. -/
def tryWay (w : Nat × Req × Option Nat) (s : State) : State :=
  if !s.dir.wayWait.contains w then s
  else
    let (k, q, v) := w
    let gone (s : State) : State := { s with dir.wayWait := s.dir.wayWait.erase w }
    if (entOf k s).isSome then pump 256 k (pushReq k q (gone s))
    else if wayFree k q s then pump 256 k (newEnt k q (gone s))
    else if evicting v s then s
    else match victim k (lineSid k q.sid s) s with
      | none => s
      | some v' => evictLine v' { s with dir.wayWait := s.dir.wayWait.map fun (x : Nat × Req × Option Nat) => if x = w then (k, q, some v') else x }

/-- Serves the requests that wait for ways, as long as one of them goes on. -/
def serveWays : Nat → State → State
  | 0, s => s
  | n + 1, s =>
    if s.dir.wayWait = [] then s
    else
      let s' := s.dir.wayWait.foldl (fun s w => tryWay w s) s
      if s'.dir.wayWait.length < s.dir.wayWait.length ∨ s'.dir.ents.length < s.dir.ents.length then serveWays n s' else s'

/-- Serves a line, then the requests that waited for a way (R134). -/
def pumpLine (k : Nat) (s : State) : State := serveWays 64 (pump 256 k s)

/-- A request enters the directory: behind the others of its line, or with an entry of its own once a way is free (R129, R131, R134). -/
def dirEnter (k : Nat) (q : Req) (s : State) : State :=
  match entOf k s with
  | some _ => pumpLine k (pushReq k q s)
  | none => serveWays 64 (tryWay (k, q, none) { s with dir.wayWait := s.dir.wayWait ++ [(k, q, none)] })

/-! ### Taking a request (R135 to R137) -/

/-- Requests queued or in service in the whole directory (R135, DIR_OPEN). -/
def openTrans (s : State) : Nat := s.dir.ents.foldl (fun n e => n + e.2.queue.length) s.dir.wayWait.length

/-- The limit of open transactions is reached for a SID: 65,536 on shared lines (R135), 4,096 for each of its blocks (09 R328). -/
def transFull (sid : Nat) (s : State) : Bool :=
  let count (mine : Nat → Bool) : Nat := s.dir.ents.foldl (fun n e => if mine e.2.sid then n + e.2.queue.length else n)
    (s.dir.wayWait.filter fun w => mine w.2.1.sid).length
  let b := dirBlocksOf sid s
  if b = 0 then decide (65536 ≤ count fun i => dirBlocksOf i s == 0) else decide (4096 * b ≤ count (· == sid))

/-- The reason for which a request is not taken now (R135): 1 SET, 2 LINE, 3 TABLE. -/
def nackReason (k : Nat) (q : Req) (s : State) : Option Nat :=
  let n := match entOf k s with
    | some e => e.queue.length
    | none => (s.dir.wayWait.filter (·.1 == k)).length
  if 64 ≤ n then some 2
  else if transFull (lineSid k q.sid s) s then some 3
  else if (entOf k s).isSome || wayFree k q s || (victim k (lineSid k q.sid s) s).isSome then none
  else some 1

/-- A reservation ended: the first agent that waits for one gets it (R137). -/
def nextReserv (s : State) : State :=
  match s.dir.reservWait with
  | [] => s
  | (a, k, sid) :: r => { s with dir.reservWait := r
                                 dir.reserv := s.dir.reserv ++ [⟨a, k, sid, s.now + 2 * (cohOf (agentOf a s).sid s).backoffCap⟩] }

/-- NACK with its BACKOFF (R135, R136); the ninth in a row for one line reserves a way (R137). NACKs of an AID for a line are consecutive
while no grant or DONE for that line comes between, whatever other lines' requests get (DESIGN CHOICE, log 44). -/
def nack (k : Nat) (q : Req) (reason : Nat) (s : State) : State :=
  let a := agentOf q.src s
  let c := cohOf q.sid s
  let backoff := min (c.backoffBase * 2 ^ (min a.nacks 6)) c.backoffCap
  let ln := (smGet (q.src * 2 ^ 58 + k) s.dir.lineNacks).getD 0 + 1
  let sid := lineSid k q.sid s
  let s := { s with dir.nackCnt := add32 s.dir.nackCnt 1
                    dir.lineNacks := smSet (q.src * 2 ^ 58 + k) ln s.dir.lineNacks }
  let s := setAgent q.src { a with nacks := a.nacks + 1 } s
  let s := modCtr q.sid (fun x => { x with nacks := add64 x.nacks 1 }) s
  let s := if ln = 9 then
      if s.dir.reserv.length < 1024 then { s with dir.reserv := s.dir.reserv ++ [⟨q.src, k, sid, s.now + 2 * c.backoffCap⟩] }
      else { s with dir.reservWait := s.dir.reservWait ++ [(q.src, k, sid)] }
    else s
  closeReq q.port q.src q.tag (sendWords q.port 0x24 q.src q.tag q.tgen stBUSY [reason, backoff] s)

/-- A request that is taken uses up its agent's reservation for the line (R137). -/
def useResv (k : Nat) (q : Req) (s : State) : State :=
  if s.dir.reserv.any (fun r => r.aid == q.aid && r.line == k) then
    nextReserv { s with dir.reserv := s.dir.reserv.filter fun r => !(r.aid == q.aid && r.line == k) }
  else s

/-- An agent's request reaches the directory (R129, R131, R134, R135). -/
def dirRequest (k : Nat) (q : Req) (s : State) : State :=
  match nackReason k q s with
  | some reason => nack k q reason s
  | none => dirEnter k q (useResv k q s)

/-- A hold window that ends early is a breach (R139, 09 R337): the ticks that it loses. -/
def holdCut (reason k : Nat) (s : State) : State :=
  match entOf k s with
  | some e => if s.now < e.holdEnd ∧ e.st ≠ .uncached then noteBreach e.sid 6 reason 255 0 (e.holdEnd - s.now) s else s
  | none => s

/-- The stored summary of a local line without an entry may name copies: one of uncorrectable side bits does until a recall has
reached every agent that it could name (R128). -/
def mayHold (k : Nat) (s : State) : Bool :=
  isLocal k && match readLine (keyLine k) s.mem with
    | some x => x.summary != 0
    | none => !s.dir.recalled.contains k

/-- A recall of the same kind is queued already, with no request behind it that it would not serve. -/
def recallQueued (op : LineOp) (now : Bool) (e : DirEnt) : Bool :=
  let same (q : Req) : Bool := !q.asked && q.op == op && q.now == now
  if now then e.queue.any same else e.queue.getLast?.any same

/-- Recalls one line, if it has copies (R145). -/
def recallLine (k : Nat) (op : LineOp) (now : Bool) (s : State) : State :=
  match entOf k s with
  | some e =>
    if (e.st = .uncached ∧ e.queue = []) ∨ recallQueued op now e = true then s
    else pumpLine k (pushReq k (recallReq op e.sid now) s)
  | none => if mayHold k s then dirEnter k (recallReq op (lineOf (keyLine k) s.mem).tag.toNat now) s else s

/-- Lines of a 2 MiB page (by its PPA) that an entry or a stored summary gives copies or requests; summaries are read only where the
page's presence bit is set (R143). -/
def pageKeys (ppa : Nat) (s : State) : List Nat :=
  let inPage (k : Nat) : Bool := k / 2 ^ 15 == ppa / 2 ^ 21
  let cached := ((s.dir.ents.map (·.1)).filter inPage ++ ((s.dir.wayWait.map (·.1)).filter inPage)).eraseDups
  if isLocal (ppa / 64) && s.mem.presence.contains (ppaOffset ppa / 2 ^ 21) then
    let stored := (s.mem.lines.filter fun e => inPage (localKey e.1) && mayHold (localKey e.1) s && !cached.contains (localKey e.1)).map
      fun e => localKey e.1
    cached ++ stored
  else cached

/-- Recalls every copy of a page (R143, R145). -/
def recallPage (ppa : Nat) (op : LineOp) (now : Bool) (s : State) : State :=
  (pageKeys ppa s).foldl (fun s k => recallLine k op now s) s

/-- A page has copies that a recall of this kind would take, or open transactions (R142, R143, R145). -/
def pageBusy (ppa : Nat) (inv : Bool) (s : State) : Bool :=
  (pageKeys ppa s).any fun k => match entOf k s with
    | some e => !e.queue.isEmpty || e.st == .owned || (inv && e.st == .shared)
    | none => inv || s.dir.wayWait.any (·.1 == k)

/-! ### Snoop answers (R130, R131, R146) -/

/-- What a snoop answer's data does: a local write, or a write to the holder (R131, R99, R102). -/
def writeBackData (k sid : Nat) (d : LineData) (cause : Nat) (s : State) : State :=
  if isLocal k then
    match writeLocal (keyLine k) sid sid d fullMask cause none s with
    | some s' => s'
    | none => s
  else sendHwrite (keyHid k) (keyOff k) d (carried cause) false (.writeBack k) s

/-- An agent answered a snoop: `back` is modified data, `gone` RSP_GONE. The last answer lets the line go on. The answer to a snoop
whose line has left the directory closes it, and its data is discarded and counted (R146). -/
def snoopAnswer (k aid : Nat) (back : Option (LineData × Nat)) (gone : Bool) (s : State) : State :=
  match s.dir.strays.find? fun x => x.1 == k && x.2.1 == aid with
  | some x =>
    { s with dir.strays := s.dir.strays.erase x
             dir.discarded := if back.isSome then add32 s.dir.discarded 1 else s.dir.discarded }
  | none =>
  match entOf k s with
  | none => s
  | some e =>
    if e.phase = .snooping ∧ e.snoops.contains aid = true then
      let s := match back with
        | some (d, c) => writeBackData k e.sid d c s
        | none => s
      let rest := e.snoops.filter (· != aid)
      let s := modEnt k (fun e => { e with snoops := rest, gone := e.gone || gone
                                           back := (back.map fun b => (b.1, carried b.2)).or e.back
                                           phase := if rest = [] then .snooped else .snooping }) s
      if rest = [] then pumpLine k s else s
    else s

/-! ### Leases (R147 to R150) -/

/-- AID that sent a message command, if it is one that waits in the hub. -/
def msgSrc : Instr → Option (Nat × Nat × Nat)
  | .rdShared m _ => some (m.port, m.src, m.tag)
  | .rdOwn m _ _ => some (m.port, m.src, m.tag)
  | .upgrade m _ _ => some (m.port, m.src, m.tag)
  | .rdOnce m _ _ => some (m.port, m.src, m.tag)
  | .scorch m _ _ _ _ _ => some (m.port, m.src, m.tag)
  | .atomic m _ _ _ _ _ _ => some (m.port, m.src, m.tag)
  | _ => none

/-- A waiting command is a coherent request of the agent. -/
def isFrom (aid : Nat) (i : Instr) : Bool :=
  match msgSrc i with
  | some x => x.2.1 == aid
  | none => false

/-- The request is of agent `aid`. -/
def Req.isOf (aid : Nat) (q : Req) : Bool := q.isAgent && q.src == aid

/-- Discards the agent's queued and ungranted requests on one line (R150, step 2). -/
def dropFrom (aid : Nat) (e : DirEnt) : DirEnt :=
  let mine : Req → Bool := Req.isOf aid
  match e.queue with
  | [] => e
  | q :: r =>
    let r := r.filter fun x => !mine x
    if mine q then
      if e.phase = .snooping ∨ e.phase = .snooped then
        { e with queue := recallReq (if e.snoopInv then .recallInv else .recallShare) e.sid false :: r }
      else { e with queue := r, phase := .idle }
    else { e with queue := q :: r }

/-- A lease or a cache-less join ends (R147, R150 steps 1 and 2; R122). Causes: 0 PULSE, 1 SNOOP, 2 REVOKED, 3 PORT. -/
def leaseEnd (aid cause : Nat) (s : State) : State :=
  let a := agentOf aid s
  if a.kind = 0 ∨ a.lapsed = true then s
  else
    let s := setAgent aid { a with lapsed := true, ending := some (cause, 0, 0) } s
    let s := if a.kind = 1 then { s with dir.leaseEnds := add32 s.dir.leaseEnds 1 } else s
    let s := if cause = 0 ∨ a.kind ≠ 1 then s else sendWords a.port 0xC4 aid 0 0 0 [a.lepoch, cause] s
    let keys := s.dir.ents.map (·.1)
    let ents : SMap DirEnt := s.dir.ents.map fun (e : Nat × DirEnt) => (e.1, dropFrom aid e.2)
    let tab : SMap Sagger := s.sags.tab.map fun (g : Nat × Sagger) =>
      (g.1, { g.2 with waiting := g.2.waiting.filter fun w => !isFrom aid w.cmd })
    let goes (w : MigWait) : Bool := match w with
      | .cmd i => isFrom aid i
      | _ => false
    let migs := s.xlt.migs.map fun (m : Mig) => { m with waiters := m.waiters.filter fun w => !goes w }
    let stays (w : Waiter × Nat) : Bool := match w.1 with
      | .agent i _ _ => !isFrom aid i
      | _ => true
    let faults := s.xlt.faults.map fun (f : Fault') => { f with waiters := f.waiters.filter stays }
    let fs := s.kiln.firings.map fun (f : Firing) => { f with orphan := f.orphan || (f.sub.map (·.2.1)) == some aid }
    let s := { s with dir.ents := ents, dir.claimWait := s.dir.claimWait.filter (fun x => !x.2.isOf aid)
                      dir.wayWait := s.dir.wayWait.filter (fun x => !x.2.1.isOf aid), dir.strays := s.dir.strays.filter (·.2.1 != aid)
                      xlt.migs := migs, xlt.faults := faults, sags.tab := tab, kiln.firings := fs }
    let s := keys.foldl (fun s k => match entOf k s with
      | some e => if e.snoops.contains aid then
            snoopAnswer k aid none true (match endedOwner e s with
              | some _ => markOwned k aid s
              | none => s)
          else if e.queue = [] ∧ e.st = .uncached then freeEnt k s
          else pumpLine k s
      | none => s) s
    let s := { s with ports := s.ports.map fun q => { q with reqs := q.reqs.filter fun r => r.aid != aid || r.fence } }
    (List.range 16).foldl (fun s p => flushFences p aid s) s

end Sys2Proof.Machine
end

