-- ==== Sys2Proof/Machine/Agent.lean ====
section
/-! DEFINITION. Messages of agents (04 R122 to R125, R131, R147 to R156; 08 R300 to R304): how one arrives, the coherent
requests, snoop answers, joins, pulses, publications and fences. -/

namespace Sys2Proof.Machine

/-- Wraps an effect that cannot stop as an outcome. -/
def act (f : State → State) (s : State) : Host.Outcome State Fault Refusal := .next (f s)

/-! ### Arrival (08 R298, R300; 09 R316, R319 to R322; 11 R388) -/

/-- Sagger entry of a SID. -/
def sagOf (sid : Nat) (s : State) : Option Sagger := smGet sid s.sags.tab

/-- State of a SID's sagger; Free without an entry. -/
def sagState (sid : Nat) (s : State) : SagState := ((sagOf sid s).map (·.st)).getD .free

/-- A sealed message of an admitted AID comes to the hub: another DST is a protocol error (R305), and what comes while the
planes take no input waits. -/
def arrive (m : Mhd) (i : Instr) (serve : Nat → State → State) (s : State) : State :=
  if !s.powered || !portLive m.port s || !admitted m.port m.src s then s
  else if some m.dst ≠ (portOf m.port s).map (·.par.portAid) then
    modPortCtr m.port (fun c => { c with protocol := add32 c.protocol 1 }) s
  else if s.holds then { s with twin.rxWait := s.twin.rxWait ++ [i] }
  else serve (sidOf m.port m.src s) s

/-- A request of the sagger stands before its meter (R322); one that its port's gate holds back does not. -/
def meterBusy (sid : Nat) (s : State) : Bool :=
  ((sagOf sid s).map fun g => g.waiting.any fun w => gateLets w.port sid w.lines s).getD false

/-- A request that meter F charges (09 R320): refused for a reserved bit (R301) or a draining sagger (09 R316), else it
passes the meter in arrival order or waits (R322). -/
def metered (m : Mhd) (i : Instr) (cost : Nat) (fence : Bool) (refuse : Nat → State → State) (serve : State → State)
    (sid : Nat) (s : State) : State :=
  let s := openReq m.port m.src m.tag m.tgen fence s
  if m.resv then refuse stRESERVED s
  else if sagState sid s = .draining ∧ fence = false then refuse stDENIED s
  else if s.powerOff = true then refuse stDENIED s
  else
    let lines := match i with
      | .contrib _ _ _ _ _ => 64
      | _ => 1
    let (pass, s) := if meterBusy sid s then (false, s) else letPass m.port m.src m.tag sid cost lines s.now s
    if pass then serve (addGlobal 5 1 s)
    else { s with sags.tab := smMod sid (fun g => { g with waiting := g.waiting ++ [⟨m.port, s.now, cost, lines, i⟩] }) s.sags.tab }

/-- Charge of a request of one line (09 R320). -/
def lineCharge (s : State) : Nat := 64 + s.sags.shape.fOvh

/-- Refusal of a coherent request: DONE (R301). -/
def refuseLine (m : Mhd) (sid status : Nat) : State → State := doneSt m.port m.src m.tag m.tgen sid status

/-! ### Coherent requests -/

/-- Access bits that a request needs (02 R55): 1 RD, 2 WR, 4 AT. -/
def accOf (op : LineOp) : Nat :=
  match op with
  | .rdShared => 1
  | .rdOnce => 1
  | .rdOwn => 3
  | .upgrade => 3
  | .scorch => 2
  | _ => 4

/-- The request reads a line. -/
def isRead (op : LineOp) : Bool :=
  match op with
  | .rdShared => true
  | .rdOnce => true
  | .rdOwn => true
  | _ => false

/-- Status with which R122, R148 and R150 refuse a request that needs a caching agent's lease; none when it may go on. -/
def leaseRefusal (aid : Nat) (lepoch : Option Nat) (s : State) : Option Nat :=
  let a := agentOf aid s
  if a.kind = 0 then some stDENIED
  else if a.lapsed = true then some stLEASELOST
  else if a.kind = 2 then some stDENIED
  else match lepoch with
    | some e => if e = a.lepoch then none else some stLEASELOST
    | none => none

/-- A claim stands in the way of a request on a local page (R143, step 1). -/
def claimBlocks (page : Nat) (op : LineOp) (s : State) : Bool :=
  s.dir.claims.any fun c => c.page == page && (c.write || !(op == .rdShared || op == .rdOnce))

/-- DONE with 64 zero bytes and a cause for a read, DENIED for a write (02 R47, R49; 03 R118; log 24). -/
def zeroAnswer (m : Mhd) (sid cause : Nat) (op : LineOp) (s : State) : State :=
  if isRead op then
    done m.port m.src m.tag m.tgen sid stOK (some (0, cause)) [] (modCtr sid (fun k => { k with crazed := add64 k.crazed 1 }) s)
  else refuseLine m sid stDENIED s

/-- A party joins the waiters of the migration of the page at `base` (02 R81 step 2). -/
def waitMig (sid base : Nat) (w : MigWait) (s : State) : State :=
  { s with xlt.migs := s.xlt.migs.map fun (g : Mig) =>
      if g.sid = sid ∧ g.page = base ∧ g.waiters.contains w = false then { g with waiters := g.waiters ++ [w] } else g }

/-- Translates an agent request and hands it to the directory (02 R53 to R55, R70 to R72, R81; 04 R140, R143). A read that gets zeros
from a Void page counts as heat here, any other access when the directory performs it (02 R83, R84; log 30). -/
def serveLine (m : Mhd) (i : Instr) (q : Req) (addr sid : Nat) (s : State) : State :=
  let acc := accOf q.op
  let s := if translate sid addr acc s = .zeros 4 ∧ isRead q.op = true then countAccess { q with sid := sid, page := addr / 2 ^ 21 } s else s
  let toDir (k page : Nat) (s : State) : State :=
    dirRequest k { q with sid := sid, page := page, epoch := epochOf sid s } s
  match translate sid addr acc s with
  | .denied => refuseLine m sid stDENIED s
  | .zeros c => zeroAnswer m sid c q.op s
  | .window _ => refuseLine m sid stDENIED s
  | .contested => refuseLine m sid stCONTESTED s
  | .migrating b => waitMig sid b (.cmd i) s
  | .fault b l =>
    match hitFault (.agent i m.port m.src) acc sid b l.big 1 s with
    | some s' => s'
    | none => refuseLine m sid stBUSY { s with xlt.refused := add32 s.xlt.refused 1 }
  | .remote hid off => toDir (remoteKey hid off) (addr / 2 ^ 21) s
  | .here l =>
    if warmDie (lineDie l) s then refuseLine m sid stBUSY s
    else if claimBlocks (linePage l) q.op s then
      if holdable q then refuseLine m sid stHELD s else
        { s with dir.claimWait := s.dir.claimWait ++ [(localKey l, { q with sid := sid, page := addr / 2 ^ 21, epoch := epochOf sid s })] }
    else toDir (localKey l) (addr / 2 ^ 21) s

/-- The coherent request that a command carries: operation, address, alignment, LEPOCH. -/
def lineReq (i : Instr) : Option (Mhd × Req × Nat × Nat × Option Nat) :=
  let base (op : LineOp) (m : Mhd) : Req := ⟨op, m.port, m.src, m.tag, m.tgen, 0, 0, 0, false, false, 0, 0, 0, 0, 0, 0, 0, 0, false, .agent⟩
  match i with
  | .rdShared m a => some (m, base .rdShared m, a, 64, none)
  | .rdOwn m a e => some (m, base .rdOwn m, a, 64, some e)
  | .upgrade m a e => some (m, base .upgrade m, a, 64, some e)
  | .rdOnce m a nw => some (m, { base .rdOnce m with nowait := nw }, a, 64, none)
  | .scorch m a mask c nw d => some (m, { base .scorch m with nowait := nw, mask := mask, cause := c, line := d }, a, 64, none)
  | .atomic m a aop size o1 o2 nw =>
    some (m, { base .atomic m with nowait := nw, aop := aop, size := size, opnd1 := o1, opnd2 := o2, off := a % 64 }, a,
      if size = 0 then 4 else 8, none)
  | _ => none

/-- A coherent request that has passed its meter: reserved codes, alignment, lease, then translation. -/
def serveCoh (i : Instr) (s : State) : State :=
  match lineReq i with
  | none => s
  | some (m, q, addr, align, lepoch) =>
    let sid := sidOf m.port m.src s
    if addr ≥ 2 ^ 52 ∨ (q.op = .atomic ∧ (q.aop = 0 ∨ q.aop ≥ 11)) then refuseLine m sid stRESERVED s
    else if addr % align ≠ 0 then refuseLine m sid stDENIED s
    else
      let lease := match q.op with
        | .rdShared => leaseRefusal m.src none s
        | .rdOwn => leaseRefusal m.src lepoch s
        | .upgrade => leaseRefusal m.src lepoch s
        | _ => none
      match lease with
      | some st => refuseLine m sid st s
      | none => serveLine m i q addr sid s

/-- A coherent request arrives. -/
def arriveCoh (m : Mhd) (i : Instr) : State → State :=
  arrive m i fun sid s => metered m i (lineCharge s) false (refuseLine m sid) (serveCoh i) sid s

/-- RD_SHARED (R131). -/
def execRdShared (m : Mhd) (addr : Nat) : State → Host.Outcome State Fault Refusal :=
  act (arriveCoh m (.rdShared m addr))

/-- RD_OWN (R131). -/
def execRdOwn (m : Mhd) (addr lepoch : Nat) : State → Host.Outcome State Fault Refusal :=
  act (arriveCoh m (.rdOwn m addr lepoch))

/-- UPGRADE (R131). -/
def execUpgrade (m : Mhd) (addr lepoch : Nat) : State → Host.Outcome State Fault Refusal :=
  act (arriveCoh m (.upgrade m addr lepoch))

/-- RD_ONCE (R131, R140). -/
def execRdOnce (m : Mhd) (addr : Nat) (nowait : Bool) : State → Host.Outcome State Fault Refusal :=
  act (arriveCoh m (.rdOnce m addr nowait))

/-- SCORCH (R131, 03 R99). -/
def execScorch (m : Mhd) (addr : Nat) (mask : BitVec 64) (cause : Nat) (nowait : Bool) (line : LineData) :
    State → Host.Outcome State Fault Refusal :=
  act (arriveCoh m (.scorch m addr mask cause nowait line))

/-- ATOMIC (R131, 08 R302). -/
def execAtomic (m : Mhd) (addr aop size : Nat) (o1 o2 : BitVec 64) (nowait : Bool) :
    State → Host.Outcome State Fault Refusal :=
  act (arriveCoh m (.atomic m addr aop size o1 o2 nowait))

/-! ### Copies given back and snoop answers -/

/-- A WRITEBACK reaches the directory (R131). It names its line by handle and is not translated, so it adds no heat (log 30). -/
def serveWriteback (m : Mhd) (h : Handle) (lepoch cause : Nat) (line : LineData) (sid : Nat) (s : State) : State :=
  let fin := refuseLine m sid
  if m.resv then fin stRESERVED s
  else
    let a := agentOf m.src s
    if a.kind = 0 then fin stDENIED s
    else if a.lapsed = true ∨ lepoch ≠ a.lepoch then fin stLEASELOST s
    else match entOf h.line s with
      | none => fin stDENIED s
      | some e =>
        if h.sid ≠ sid ∨ e.st ≠ .owned ∨ e.copies.any (·.1 == m.src) = false then fin stDENIED s
        else
          let r := if isLocal h.line then writeLocal (keyLine h.line) e.sid e.sid line fullMask cause none s
            else some (writeBackData h.line e.sid line cause s)
          match r with
          | none => fin stDENIED s
          | some s' =>
            let s' := clearNacks m.src h.line (fin stOK s')
            if e.snoops.contains m.src then modEnt h.line (fun e => { e with back := some (line, carried cause) }) s'
            else
              let s' := modEnt h.line noCopies s'
              if e.queue = [] then freeEnt h.line s' else pumpLine h.line s'

/-- WRITEBACK (R131). VC1 messages are not metered (09 R320). -/
def execWriteback (m : Mhd) (h : Handle) (lepoch cause : Nat) (line : LineData) : State → Host.Outcome State Fault Refusal :=
  act (arrive m (.writeback m h lepoch cause line) (serveWriteback m h lepoch cause line))

/-- A snoop's answer arrives; one with a reserved bit is discarded and counted (R301). -/
def arriveRsp (m : Mhd) (i : Instr) (h : Handle) (back : Option (LineData × Nat)) (gone : Bool) : State → State :=
  arrive m i fun _ s =>
    if m.resv then modPortCtr m.port (fun c => { c with protocol := add32 c.protocol 1 }) s
    else snoopAnswer h.line m.src back gone s

/-- RSP_DATA (R131). -/
def execRspData (m : Mhd) (h : Handle) (cause : Nat) (line : LineData) : State → Host.Outcome State Fault Refusal :=
  act (arriveRsp m (.rspData m h cause line) h (some (line, cause)) false)

/-- RSP_CLEAN (R131). -/
def execRspClean (m : Mhd) (h : Handle) : State → Host.Outcome State Fault Refusal :=
  act (arriveRsp m (.rspClean m h) h none false)

/-- RSP_GONE (R130, R131). -/
def execRspGone (m : Mhd) (h : Handle) : State → Host.Outcome State Fault Refusal :=
  act (arriveRsp m (.rspGone m h) h none true)

/-! ### Joins and pulses -/

/-- JOIN_ACK (08 R300). -/
def joinAck (m : Mhd) (status lepoch : Nat) (c : CohCfg) : State → State :=
  sendWords m.port 0xC1 m.src m.tag m.tgen status ([lepoch] ++ w64 c.lease ++ w64 c.pulse)

/-- A JOIN (R122, R147, R151). -/
def serveJoin (m : Mhd) (kind sid : Nat) (s : State) : State :=
  let a := agentOf m.src s
  let c := cohOf sid s
  if m.resv = true ∨ (kind ≠ 1 ∧ kind ≠ 2) then joinAck m stRESERVED a.lepoch c s
  else if a.kind ≠ 0 ∧ a.lapsed = false then joinAck m stDENIED a.lepoch c (countDenied sid s)
  else if a.ending.isSome then joinAck m stBUSY a.lepoch c s
  else
    let a' : Agent := { a with kind := kind, lapsed := false, lepoch := add32 a.lepoch 1, expiry := s.now + c.lease,
                               sid := sid, port := m.port }
    joinAck m stOK a'.lepoch c (setAgent m.src a' s)

/-- JOIN (R122). -/
def execJoin (m : Mhd) (kind : Nat) : State → Host.Outcome State Fault Refusal :=
  act (arrive m (.join m kind) (serveJoin m kind))

/-- A PULSE (R148). -/
def servePulse (m : Mhd) (lepoch : Nat) (s : State) : State :=
  let a := agentOf m.src s
  let ack (st : Nat) : State → State := sendWords m.port 0xC3 m.src m.tag m.tgen st [a.lepoch]
  if m.resv then modPortCtr m.port (fun c => { c with protocol := add32 c.protocol 1 }) s
  else if a.kind = 0 ∨ (a.kind = 2 ∧ a.lapsed = false) then ack stDENIED (countDenied (sidOf m.port m.src s) s)
  else if a.lapsed = true ∨ lepoch ≠ a.lepoch ∨ a.expiry < s.now then ack stLEASELOST s
  else ack stOK (setAgent m.src { a with expiry := s.now + (cohOf a.sid s).lease } s)

/-- PULSE (R148). -/
def execPulse (m : Mhd) (lepoch : Nat) : State → Host.Outcome State Fault Refusal :=
  act (arrive m (.pulse m lepoch) fun _ s => servePulse m lepoch s)

/-! ### Fences -/

/-- FENCE from an agent (08 R300, R301, R311): answered after every earlier request of the agent. -/
def execFence (m : Mhd) : State → Host.Outcome State Fault Refusal :=
  act (arrive m (.fence m) fun sid s =>
    metered m (.fence m) s.sags.shape.fOvh true
      (fun st s => sendWords m.port 0x23 m.src m.tag m.tgen st []
        (modPort m.port (fun q => { q with reqs := q.reqs.filter fun r => !(r.aid == m.src && r.tag == m.tag && r.fence) }) s))
      (flushFences m.port m.src) sid s)

/-! ### Published regions (R152 to R156) -/

/-- REGION_SUPERSEDED to a publication's publisher, with the winning EPOCH and VERSION. -/
def superseded (name : Nat) (p : Pub) (win : Pub) : State → State :=
  sendWords p.port 0xA8 p.aid 0 0 0 (w64 name ++ [win.epoch, win.version])

/-- REGION_ACK (08 R300). -/
def regionAck (m : Mhd) (status active : Nat) : State → State :=
  sendWords m.port 0xA7 m.src m.tag m.tgen status [active]

/-- Lines of a holder in the directory cache. -/
def holderKeys (hid : Nat) (s : State) : List Nat :=
  (s.dir.ents.map (·.1)).filter fun k => !isLocal k && keyHid k == hid

/-- A bound region's holder goes to Draining and its copies are recalled (R155 steps 1 and 2, R156). -/
def drainHolder (hid : Nat) (s : State) : State :=
  let h := holderOf hid s
  let s := { s with xlt.holders := smSet hid { h with st := 2 } s.xlt.holders }
  (holderKeys hid s).foldl (fun s k => recallLine k .recallInv false s) s

/-- A region owes a record: with a bound holder it follows the recall (R155, R156). -/
def owe (name kind : Nat) (old new : Pub) (s : State) : State :=
  match smGet name s.dir.regions with
  | none => s
  | some r =>
    match r.hid with
    | none => s
    | some h => drainHolder h { s with dir.regions := smSet name { r with owed := r.owed ++ [⟨kind, h, old, new, 0⟩] } s.dir.regions }

/-- Key of a publication: EPOCH first, then VERSION (R154). -/
def pubKey (epoch version : Nat) : Nat := epoch * 2 ^ 32 + version

/-- A REGION_PUBLISH is judged (R152 to R156). -/
def servePublish (m : Mhd) (p : Publication) (sid : Nat) (s : State) : State :=
  let q : Pub := ⟨p.epoch, p.version, p.base, p.pages, p.digest, p.mode, m.src, m.port⟩
  if m.resv = true ∨ p.mode = 0 ∨ p.mode ≥ 3 ∨ p.sid ≥ 4096 then
    sendWords m.port 0x23 m.src m.tag m.tgen stRESERVED [] s
  else if p.sid ≠ sid ∨ p.base % 2 ^ 21 ≠ 0 ∨ p.pages = 0 then regionAck m stDENIED 0 (countDenied sid s)
  else match smGet p.name s.dir.regions with
    | none =>
      let unbound := (s.dir.regions.filter fun e => e.2.sid == sid && e.2.hid.isNone && e.2.cont.isNone).length
      if s.dir.regions.length ≥ 4096 ∨ unbound ≥ 256 then regionAck m stBUSY 0 s
      else regionAck m stOK 1 { s with dir.regions := smSet p.name ⟨sid, none, q, none, []⟩ s.dir.regions }
    | some r =>
      if r.cont.isSome then regionAck m stCONTESTED 0 s
      else if p.sid ≠ r.sid then regionAck m stDENIED 0 (countDenied sid s)
      else if pubKey p.epoch p.version < pubKey r.act.epoch r.act.version then regionAck m stCONFLICT 0 s
      else if pubKey p.epoch p.version = pubKey r.act.epoch r.act.version then
        if p.digest = r.act.digest then regionAck m stOK (b2n (m.src == r.act.aid)) s
        else
          let s := { s with dir.regions := smSet p.name { r with cont := some q } s.dir.regions }
          regionAck m stCONTESTED 0 (owe p.name 2 r.act q s)
      else
        let s := { s with dir.regions := smSet p.name { r with act := q } s.dir.regions }
        regionAck m stOK 1 (owe p.name 1 r.act q (superseded p.name r.act q s))

/-- REGION_PUBLISH (R152, R154). -/
def execRegionPublish (m : Mhd) (p : Publication) : State → Host.Outcome State Fault Refusal :=
  act (arrive m (.regionPublish m p) (servePublish m p))

/-- The recall that a region's record waits for has ended (R155): no copy and no write-back of the holder is left. -/
def recallOver (hid : Nat) (s : State) : Bool :=
  (holderKeys hid s).all (fun k => match entOf k s with
    | some e => e.st == .uncached && e.queue.isEmpty
    | none => true)
  && (s.dir.wayWait.all fun w => isLocal w.1 || keyHid w.1 != hid || w.2.1.asked)
  && s.outst.all fun o => o.lost || match o.purpose with
    | .writeBack k => isLocal k || keyHid k != hid
    | _ => true

/-- Body words of a publication in an event (15 R470). -/
def pubWords (p : Pub) : List Nat := [p.epoch, p.version, p.aid]

/-- Writes a record that a region owes (15 R470). -/
def owedRecord (name sid : Nat) (o : Owed) : State → State :=
  emit (if o.kind = 1 then 0x0F else 0x10) sid 0 0
    (w64 name ++ [o.hid, if o.kind = 1 then o.discarded else 0] ++ pubWords o.old ++ pubWords o.new)

/-- The oldest owed record of a region, once its recall is over. -/
def regionRecord (name kind : Nat) (s : State) : State :=
  match smGet name s.dir.regions with
  | none => s
  | some r => match r.owed with
    | [] => s
    | o :: rest =>
      if !s.alive || o.kind != kind || !(recallOver o.hid s) then s
      else owedRecord name r.sid o { s with dir.regions := smSet name { r with owed := rest } s.dir.regions }

/-- REGION_CHANGE record (R155, step 3). -/
def execRegionChange (name : Nat) : State → Host.Outcome State Fault Refusal := act (regionRecord name 1)

/-- REGION_CONTESTED record (R156). -/
def execRegionContested (name : Nat) : State → Host.Outcome State Fault Refusal := act (regionRecord name 2)

end Sys2Proof.Machine
end

