-- ==== Sys2Proof/Machine/Coh.lean ====
section
/-! DEFINITION. Coherence commands (04 R158, R159, R157; 10 R369) and the lease, hold and reservation events
(04 R137, R138, R147, R150). -/

namespace Sys2Proof.Machine

/-- The SID names a sagger that is not Free. -/
def sagThere (sid : Nat) (s : State) : Bool := sagState sid s != .free

/-- COH_CONFIG's ranges and constraints hold (R159). -/
def cohOk (c : CohCfg) : Bool :=
  decide (c.hold ≤ 16000) && decide (1000000 ≤ c.lease) && decide (c.lease ≤ 10000000000)
    && decide (100000 ≤ c.pulse) && decide (c.pulse * 4 ≤ c.lease)
    && decide (1000000 ≤ c.snoopLimit) && decide (c.snoopLimit ≤ c.lease)
    && decide (64 ≤ c.backoffBase) && decide (c.backoffBase ≤ c.backoffCap) && decide (c.backoffCap ≤ 1048576)

/-- COH_CONFIG (R158, R159). -/
def execCohConfig (r sid : Nat) (c : CohCfg) : State → Host.Outcome State Fault Refusal :=
  cmdFor r 0x28 sid (fun _ s => [chkDeny (sid != 4095 && !sagThere sid s), chkDeny (!cohOk c)]) fun s =>
    ok r [] (if sid = 4095 then { s with dir.cohDef := c, dir.cohCfg := [] }
      else { s with dir.cohCfg := smSet sid c s.dir.cohCfg })

/-- AGENT_REVOKE (R158): ends the lease, or a cache-less agent's join, with cause 2. -/
def execAgentRevoke (r aid : Nat) : State → Host.Outcome State Fault Refusal :=
  cmd r 0x29 (fun _ s => [chkDeny ((agentOf aid s).kind == 0 || (agentOf aid s).lapsed)]) fun s =>
    ok r [] (leaseEnd aid 2 s)

/-- The HID is tied to a region (R153). -/
def hidTied (hid : Nat) (s : State) : Bool := s.dir.regions.any fun e => e.2.hid == some hid

/-- Ties a region to a holder or, with HID 4,095, unties it (R153); the holder of a Contested region drains, and its record follows the
recall (R156). -/
def bindRegion (name hid : Nat) (s : State) : State :=
  let s := { s with dir.regions := smMod name (fun g => { g with hid := if hid = 4095 then none else some hid }) s.dir.regions }
  match smGet name s.dir.regions with
  | none => s
  | some g => match g.hid, g.cont with
    | some _, some c => owe name 2 g.act c s
    | _, _ => s

/-- REGION_BIND (R153, R158). -/
def execRegionBind (r name sid hid : Nat) : State → Host.Outcome State Fault Refusal :=
  cmdFor r 0x2A sid (fun _ s =>
    let g := smGet name s.dir.regions
    [chkDeny (hid == 0 || decide (hid > 4095)),
     chkDeny ((g.map (·.sid)) != some sid),
     chkExec (hid != 4095 && (((g.bind (·.hid)).isSome) || hidTied hid s)) stCONFLICT]) fun s =>
    ok r [] (bindRegion name hid s)

/-- Ends a contest (R157): the new active publication, the loser superseded, REGION_CHANGE. With WITHDRAW nobody wins, and the
REGION_SUPERSEDED of both name the active publication's EPOCH and VERSION (DESIGN CHOICE, log 42); what the entry still owes is
written before it goes. -/
def resolveRegion (name choice : Nat) (s : State) : State :=
  match smGet name s.dir.regions with
  | none => s
  | some g => match g.cont with
    | none => s
    | some c =>
      if choice = 2 then
        let s := g.owed.foldl (fun s o => owedRecord name g.sid o s) s
        superseded name c g.act (superseded name g.act g.act { s with dir.regions := smDel name s.dir.regions })
      else
        let win := if choice = 0 then g.act else c
        let lose := if choice = 0 then c else g.act
        let s := superseded name lose win { s with dir.regions := smSet name { g with act := win, cont := none } s.dir.regions }
        if g.hid.isSome then owe name 1 g.act win s
        else emit 0x0F g.sid 0 0 (w64 name ++ [4095, 0] ++ pubWords g.act ++ pubWords win) s

/-- REGION_RESOLVE (R157, R158). -/
def execRegionResolve (r name choice : Nat) : State → Host.Outcome State Fault Refusal :=
  cmd r 0x2B (fun _ s => [chkResv (decide (choice ≥ 3)),
    chkExec (((smGet name s.dir.regions).bind (·.cont)).isNone) stCONFLICT]) fun s => ok r [] (resolveRegion name choice s)

/-- The 128-bit directory entry of R127. NSH counts the agents in AID_A and AID_B, so it is 1 for an Owned line (DESIGN CHOICE, log 44). -/
def entWord (k : Nat) (e : DirEnt) (s : State) : Nat :=
  let st := match e.st with
    | .uncached => 0
    | .shared => 1
    | .owned => 2
  let aid (i : Nat) : Nat := ((e.copies[i]?).map (·.1)).getD 0
  1 + 2 * st + 8 * b2n (!e.queue.isEmpty) + 16 * b2n (decide (s.now < e.holdEnd)) + 32 * b2n e.wide
    + 64 * e.copies.length + 2 ^ 8 * (e.holdEnd % 2 ^ 15) + 2 ^ 24 * e.sid + 2 ^ 36 * k
    + 2 ^ 94 * aid 0 + 2 ^ 105 * aid 1 + 2 ^ 116 * e.pp.toNat

/-- COH_READ RESULT for a PPA (10 R369). -/
def cohReadPpa (ppa : Nat) (s : State) : List Nat :=
  let k := ppa / 64
  let e := entOf k s
  let w := (e.map fun e => entWord k e s).getD 0
  let sum := if isLocal k then (lineOf (keyLine k) s.mem).summary.toNat else 0
  w64 w ++ w64 (w / 2 ^ 64) ++ [sum + 2 ^ 16 * ((e.map fun e => e.queue.length).getD 0), 0, 0, 0]

/-- COH_READ RESULT for an AID (10 R369). -/
def cohReadAid (aid : Nat) (s : State) : List Nat :=
  let a := agentOf aid s
  let st := if a.kind = 0 then 0 else if a.lapsed then 3 else a.kind
  let owned := (s.dir.ents.filter fun e => e.2.st == .owned && e.2.copies.any (·.1 == aid)).length
  [a.lepoch, st] ++ w64 (if st = 1 then a.expiry else 0) ++ [a.sid, a.port, owned, 0]

/-- COH_READ (R158, 10 R369). -/
def execCohRead (r select val : Nat) : State → Host.Outcome State Fault Refusal :=
  cmd r 0x2C (fun _ s => [chkResv (decide (select ≥ 2)),
    chkDeny (select == 0 && !(localValid val s
      || (ppaFormat val == 2 && decide (1 ≤ ppaHid val) && decide (ppaHid val ≤ 4094)))),
    chkDeny (select == 1 && decide (val > 2047)), chkWarm (select == 0 && warmPage val s)]) fun s =>
    ok r (if select = 0 then cohReadPpa val s else cohReadAid val s) s

/-! ### Events -/

/-- LEASE_EXPIRY: the tally has passed a caching agent's expiry (R147, R148). -/
def execLeaseExpiry (aid : Nat) : State → Host.Outcome State Fault Refusal :=
  act fun s => if s.alive = true ∧ isCaching aid s = true ∧ (agentOf aid s).expiry < s.now then leaseEnd aid 0 s else s

/-- A snoop to the agent has waited for the SNOOP_LIMIT of the agent's own sagger (R147). -/
def snoopLate (aid : Nat) (s : State) : Bool :=
  let late (t : Nat) : Bool := decide (t + (cohOf (agentOf aid s).sid s).snoopLimit ≤ s.now)
  (s.dir.ents.any fun e => e.2.snoops.contains aid && late e.2.snoopAt) || s.dir.strays.any fun x => x.2.1 == aid && late x.2.2

/-- SNOOP_TIMEOUT (R147). -/
def execSnoopTimeout (aid : Nat) : State → Host.Outcome State Fault Refusal :=
  act fun s => if s.alive = true ∧ snoopLate aid s = true then leaseEnd aid 1 s else s

/-- Scan of one entry after a lease end (R150, step 3). -/
def scanEntry (aid k : Nat) (s : State) : State :=
  match entOf k s with
  | none => s
  | some e =>
    if e.copies.any (·.1 == aid) = false then s
    else if e.st = .owned then
      let s := markOwned k aid s
      if e.queue = [] then freeEnt k s else pumpLine k s
    else
      let rest := e.copies.filter (·.1 != aid)
      let a := agentOf aid s
      let s := setAgent aid { a with ending := a.ending.map fun x => (x.1, x.2.1, x.2.2 + 1) } s
      let s := modEnt k (fun e => { e with copies := rest, st := if rest = [] then .uncached else e.st }) s
      if rest = [] ∧ e.queue = [] then freeEnt k s else s

/-- LEASE_EXPIRED: the scan ends and the record is written, unless a remote mark waits on its timer (R150). -/
def execLeaseExpired (aid : Nat) : State → Host.Outcome State Fault Refusal :=
  act fun s =>
    if s.alive = false ∨ (agentOf aid s).ending.isNone then s
    else
      let s := (s.dir.ents.map (·.1)).foldl (fun s k => scanEntry aid k s) s
      let waits := s.outst.any fun o => !o.lost && match o.purpose with
        | .mark a _ => a == aid
        | _ => false
      if waits then s
      else
        let a := agentOf aid s
        let (cause, marked, removed) := a.ending.getD (0, 0, 0)
        emit 0x0E a.sid 0 0 ([aid, a.lepoch, cause, marked, removed, 0] ++ w64 s.now) (setAgent aid { a with ending := none } s)

/-- HOLD_END: a line's hold window ends and its queue goes on (R138). -/
def execHoldEnd (line : Nat) : State → Host.Outcome State Fault Refusal :=
  act fun s => match entOf line s with
    | some e => if s.alive = true ∧ e.holdEnd ≤ s.now then pumpLine line s else s
    | none => s

/-- RESERVATION_EXPIRY (R137). -/
def execReservationExpiry (aid line : Nat) : State → Host.Outcome State Fault Refusal :=
  act fun s =>
    let ended (x : Resv) : Bool := x.aid == aid && x.line == line && decide (x.till ≤ s.now)
    if s.alive && s.dir.reserv.any ended then nextReserv { s with dir.reserv := s.dir.reserv.filter fun x => !ended x }
    else s

end Sys2Proof.Machine
end

