-- ==== Sys2Proof/Machine/Mover.lean ====
section
/-! DEFINITION. Mover descriptors (02 R64 to R69, 01 R36): submission, chains, lines moved through the directory as a
cache-less agent (04 R132), completion records. A mover's whole progress up to a point where it must wait is one step
(log 11). -/

namespace Sys2Proof.Machine

/-! ### Lines accessed by the device itself (01 R30, 04 R132) -/

/-- A party's access is queued or in service. -/
def devQueued (w : Who) (s : State) : Bool :=
  (s.dir.ents.any fun e => e.2.queue.any (·.who == w)) || s.dir.wayWait.any (·.2.1.who == w) || s.dir.claimWait.any (·.2.who == w)

/-- Takes the answer that a party's access has got. -/
def takeAnswer (w : Who) (s : State) : Option DevRes × State :=
  match s.dir.answers.find? (·.1 == w) with
  | some a => (some a.2, { s with dir.answers := s.dir.answers.filter (·.1 != w) })
  | none => (none, s)

/-- A read of one line for a party of the device, as RD_ONCE (R132). -/
def devRead (w : Who) (sid page epoch : Nat) : Req :=
  ⟨.rdOnce, 0, 4095, 0, 0, sid, page, epoch, false, false, 0, 0, 0, 0, 0, 0, 0, 0, false, w⟩

/-- A write of one line for a party of the device, as SCORCH (R132). -/
def devWrite (w : Who) (sid page epoch : Nat) (d : LineData) (m : BitVec 64) (cause : Nat) : Req :=
  ⟨.scorch, 0, 4095, 0, 0, sid, page, epoch, false, false, m, cause, d, 0, 0, 0, 0, 0, false, w⟩

/-- Meter L is charged for a mover's line before it is accessed (09 R320, R322). -/
def devCharge (q : Req) (s : State) : Bool × State := if q.isMover then chargeL q.sid 1 s else (true, s)

/-- A party's access of a line goes to the directory, unless it is there already, and waits behind claims and the earlier requests of the
line like an agent's (R143). One that the directory cannot take now is sent again at the party's next try. -/
def devAsk (k : Nat) (q : Req) (s : State) : Option DevRes × State :=
  match takeAnswer q.who s with
  | (some r, s) => (some r, s)
  | (none, s) =>
    let claimed := isLocal k && claimBlocks (linePage (keyLine k)) q.op s
    if devQueued q.who s || (!claimed && (nackReason k q s).isSome) then (none, s)
    else
      match devCharge q s with
      | (false, s) => (none, s)
      | (true, s) =>
        if claimed then (none, { s with dir.claimWait := s.dir.claimWait ++ [(k, q)] }) else takeAnswer q.who (dirEnter k q s)

/-- A party's access of the line at a PPA; Void reads as zeros and is not written (02 R47). -/
def devAt (ppa : Nat) (q : Req) (s : State) : Option DevRes × State :=
  match ppaFormat ppa with
  | 1 => devAsk (localKey (ppaOffset ppa / 64)) q s
  | 2 => devAsk (remoteKey (ppaHid ppa) (ppaOffset ppa)) q s
  | _ => (some (if q.op = .rdOnce then .got 0 4 else .failed stDENIED), s)

/-! ### Completion records (02 R69, 06 R230, 15 R463) -/

/-- The sixteen words of a latched counter pair (15 R463). -/
def pairWords (sid : Nat) (a b : Latch) : List Nat :=
  [1 + 2 ^ 16 * sid, 0] ++ w64 a.tally ++ w64 a.lLines ++ w64 a.fires ++ [a.refire % 2 ^ 32, b.refire % 2 ^ 32]
    ++ w64 b.tally ++ w64 b.lLines ++ w64 b.fires

/-- The first half of a completion record (06 R230). -/
def recHead (kind tag status sid w2 w3 seed submitted started ended written crazed w14 w15 : Nat) : List Nat :=
  [1 + 16 * kind + 2 ^ 16 * tag, status + 2 ^ 16 * sid, w2, w3] ++ w64 seed ++ w64 submitted ++ w64 started ++ w64 ended
    ++ [written, crazed, w14, w15]

/-- Completion record of a mover descriptor (02 R69). -/
def moveRecord (x : MRun) (status : Nat) (s : State) : List Nat :=
  let stop := latchOf x.sid s
  recHead (8 + x.desc.op) x.desc.tag status x.sid 0 (2 ^ 8 * x.causes) 0 x.submitted x.started s.now x.written x.crazed x.pos 0
    ++ pairWords x.sid (if x.started = 0 then stop else x.latch) stop

/-- COMPLETION to the agent that sent a request (08 R300, R301); a sealed sagger gets it no sooner than `due` (09 R330). -/
def sendCompletion (due : Nat) (sub : Nat × Nat × Nat × Nat) (status : Nat) (rec : List Nat) (s : State) : State :=
  closeReq sub.1 sub.2.1 sub.2.2.1 (sendAt due sub.1 false ⟨0x29, sub.2.1, sub.2.2.1, sub.2.2.2, status, 0, rec, none, none⟩ s)

/-- Run `mid`. -/
def runBy (mid : Nat) (s : State) : Option MRun := s.kiln.runs.find? (·.mid == mid)

/-- Changes run `mid`. -/
def modRun (mid : Nat) (f : MRun → MRun) (s : State) : State :=
  { s with kiln.runs := s.kiln.runs.map fun x => if x.mid = mid then f x else x }

/-- Status of a run that ended (02 R69). -/
def moveStatus (x : MRun) : Nat := x.stop.getD (if x.crazed = 0 then stOK else stCRAZED)

/-- Ends one run: counters, the record to its submitter, the mover idle. -/
def endRun (x : MRun) (s : State) : State :=
  let st := moveStatus x
  let rest := s.kiln.runs.filter (·.mid != x.mid)
  let s := { s with kiln.runs := rest
                    kiln.chains := s.kiln.chains.filter fun c => c.port != 16 || rest.any (·.chain == c.id)
                    kiln.movers := match x.mover with
                      | some m => s.kiln.movers.set m false
                      | none => s.kiln.movers
                    dir.answers := s.dir.answers.filter fun a => a.1 != .mover x.mid && a.1 != .mig x.mid
                    xlt.faults := s.xlt.faults.map fun f => { f with waiters := f.waiters.filter (·.1 != Waiter.queued x.mid) } }
  if x.mig then s
  else
    let s := modCtr x.sid (fun c => { c with moves := add64 c.moves 1 }) s
    let s := addGlobal 7 1 (if st = stDENIED then countDenied x.sid s else s)
    match x.sub with
    | some a => sendCompletion 0 a st (moveRecord x st s) s
    | none => emit 0x2A x.sid 0 0 (moveRecord x st s) s

/-- A descriptor of a chain failed: the queued rest of the chain completes INCOMPLETE without running (02 R67). -/
def breakChain (id : Nat) (s : State) : State :=
  if id = 0 then s
  else
    let s := { s with kiln.chains := s.kiln.chains.map fun (c : Chain) => if c.id = id then { c with broken := true } else c }
    (s.kiln.runs.filter (·.chain == id)).foldl (fun s x => endRun { x with stop := some stINCOMPLETE } s) s

/-- Ends a run and, when it failed, the rest of its chain. -/
def completeRun (x : MRun) (s : State) : State :=
  let s := endRun x s
  match x.stop with
  | some _ => breakChain x.chain s
  | none => s

/-! ### Submission (02 R62 to R67) -/

/-- Two byte ranges overlap. -/
def overlap (a la b lb : Nat) : Bool := decide (a < b + lb) && decide (b < a + la)

/-- Checks 1 to 4 of a mover descriptor (00 R15, 02 R62, R64 to R66); `tooMany` tells a 64th descriptor with CHAIN (R67). -/
def moveChks (sid : Nat) (d : MoveDesc) (host tooMany : Bool) (s : State) : List Chk :=
  let src := bakeRegion sid d.src d.length 1 s
  let dst := bakeRegion sid d.dst d.length 2 s
  let rs := if d.op = 2 then src else []
  [chk (d.fmt != 1) stVERSION 1,
   chkResv (d.resv || d.op == 0 || decide (d.op ≥ 4) || decide (d.src ≥ 2 ^ 52) || decide (d.dst ≥ 2 ^ 52)),
   chkDeny (!host && sagSealed sid s), chkDeny (d.op == 3), chkDeny (host && (d.notify || d.chain)),
   chkDeny ((d.op == 1 && d.src != 0) || (d.op == 2 && d.pattern != 0)),
   chk (d.op == 2 && overlap d.src d.length d.dst d.length) stCONFLICT 3,
   chkDeny ((rs ++ dst).any (fun p => p.2 == .bad)),
   chk ((rs ++ dst).any (fun p => p.2 == .contested)) stCONTESTED 3,
   chkLen (tooMany || (d.op == 2 && pastEnd sid d.src d.length s) || pastEnd sid d.dst d.length s)]

/-- A bake meets a page that is being migrated and waits: its leaf's first page (02 R81). -/
def bakeWaits (sid : Nat) (d : MoveDesc) (s : State) : Option Nat :=
  (((if d.op = 2 then bakeRegion sid d.src d.length 1 s else []) ++ bakeRegion sid d.dst d.length 2 s).find?
    fun p => p.2 == .migrating).map fun p => ((leafAt sid p.1 s.xlt).map (·.1)).getD p.1

/-- A waiter that hits a page again adds its access to its entry (02 R73). -/
def hitMore (w : Waiter) (acc : Nat) (f : Fault') (s : State) : State :=
  let f := { f with waiters := f.waiters.map (fun x => if x.1 = w then (w, Nat.lor x.2 acc) else x), access := Nat.lor f.access acc }
  refreshRec f { s with xlt.faults := s.xlt.faults.map fun g => if g.id = f.id then f else g }

/-- The faulting pages of a walk join or open their faults for a waiter (02 R70, R72); a page without a slot waits for the
next attempt. A page that is being migrated is waited for (R81). -/
def hitPages (w : Waiter) (sid acc kind : Nat) (ps : List (Nat × PageRes)) (s : State) : State :=
  ps.foldl (fun s p => match p.2 with
    | .faulting b l =>
      match s.xlt.faults.find? fun f => f.sid == sid && f.page == b && f.waiters.any (·.1 == w) with
      | some f => hitMore w acc f s
      | none => (hitFault w acc sid b l.big kind s).getD s
    | .migrating => waitMig sid (((leafAt sid p.1 s.xlt).map (·.1)).getD p.1) (.work w) s
    | _ => s) s

/-- The run of an accepted descriptor. -/
def newRun (sid : Nat) (d : MoveDesc) (sub : Option (Nat × Nat × Nat × Nat)) (chain : Nat) (s : State) : MRun :=
  ⟨s.kiln.nextMid, if sub.isNone then s.kiln.nextMoveId else 0, sub, false, chain, sid, d, epochOf sid s,
   if d.op = 2 then some (runOf sid d.src d.length false (bakeRegion sid d.src d.length 1 s)) else none,
   runOf sid d.dst d.length true (bakeRegion sid d.dst d.length 2 s), s.now, 0, latchOf sid s, 0, 0, 0, 0, [], [], none, none⟩

/-- Takes an accepted descriptor into the submission queue; its faulting pages raise their faults at once (02 R70). A
LENGTH of 0 completes at once (00 R16). -/
def acceptMove (x : MRun) (s : State) : State :=
  let d := x.desc
  let s := { s with kiln.nextMid := s.kiln.nextMid + 1
                    kiln.nextMoveId := if x.sub.isNone then add32 s.kiln.nextMoveId 1 else s.kiln.nextMoveId }
  if d.length = 0 then endRun x s
  else
    let s := { s with kiln.runs := s.kiln.runs ++ [x] }
    let s := if d.op = 2 then hitPages (.queued x.mid) x.sid 1 1 (bakeRegion x.sid d.src d.length 1 s) s else s
    hitPages (.queued x.mid) x.sid 2 1 (bakeRegion x.sid d.dst d.length 2 s) s

/-- Host submission (02 R68): MOVE_SUBMIT. -/
def execMoveSubmit (r sid : Nat) (item : Item) (d : MoveDesc) : State → Host.Outcome State Fault Refusal :=
  cmdFor r 0x43 sid (fun _ s =>
    [chkDeny (sagState sid s != .active || (smGet sid s.xlt.epochs).isNone)] ++ itemChk item 64 s ++ moveChks sid d true false s)
    fun s => match bakeWaits sid d s with
      | some b => waitMig sid b (.host r) (park r (.retry (.moveSubmit r sid item d)) s)
      | none =>
        let x := newRun sid d none 0 s
        acceptMove x (ok r [x.moveId] s)

/-- Refusal of a MOVE or FIRE: one COMPLETION with the check's status and STARTED 0 (08 R301); KIND, TAG and GLAZE are echoed (06 R230). -/
def refuseWork (m : Mhd) (sid kind tag glaze status : Nat) (s : State) : State :=
  let s := if status = stDENIED then countDenied sid s else s
  let l := latchOf sid s
  sendCompletion 0 (m.port, m.src, m.tag, m.tgen) status
    (recHead (kind % 16) tag status sid (glaze % 2 ^ 16) 0 0 s.now 0 s.now 0 0 0 0 ++ pairWords sid l l) s

/-- The chain of an agent on a port, if one is open (02 R67). -/
def chainOf (p aid : Nat) (s : State) : Option Chain := s.kiln.chains.find? fun c => c.port == p && c.aid == aid

/-- Stores or, with none, ends the chain of an agent. -/
def setChain (p aid : Nat) (c : Option Chain) (s : State) : State :=
  { s with kiln.chains := s.kiln.chains.filter (fun x => !(x.port == p && x.aid == aid)) ++ c.toList }

/-- The last descriptor of chain `c` has come: the agent's next one starts a new chain, and the chain's queued descriptors keep
their mover (R67). -/
def endChain (p aid : Nat) (c : Chain) (s : State) : State :=
  let s := setChain p aid none s
  if 1 < c.count ∧ s.kiln.runs.any (·.chain == c.id) = true then { s with kiln.chains := s.kiln.chains ++ [{ c with port := 16 }] } else s

/-- CHAIN of a waiting MOVE of the agent. -/
def chainWait (m : Mhd) : MigWait → Option Bool
  | .cmd (.move m' d') => if m'.port = m.port ∧ m'.src = m.src then some d'.chain else none
  | _ => none

/-- The migration on which an earlier descriptor of the agent's sequence waits: the next one waits behind it (R67, R81). -/
def chainMig (m : Mhd) (s : State) : Option Mig := s.xlt.migs.find? fun g => (g.waiters.filterMap (chainWait m)).getLast? == some true

/-- A MOVE that has passed its meter (02 R62, R67). -/
def serveMove (m : Mhd) (d : MoveDesc) (s : State) : State :=
  let sid := sidOf m.port m.src s
  let c0 := chainOf m.port m.src s
  match chainMig m s with
  | some g => waitMig g.sid g.page (.cmd (.move m d)) s
  | none =>
  match c0 with
  | some c =>
    if c.broken then
      refuseWork m sid (8 + d.op) d.tag 0 stINCOMPLETE (if d.chain then s else endChain m.port m.src c s)
    else serve1 m d sid c s
  | none => serve1 m d sid ⟨s.kiln.nextChain + 1, m.port, m.src, 0, false, none⟩ s
where
  /-- Checks and accepts one descriptor as the next of chain `c`. -/
  serve1 (m : Mhd) (d : MoveDesc) (sid : Nat) (c : Chain) (s : State) : State :=
    let linked := d.chain || decide (c.count > 0)
    let c := { c with count := c.count + 1 }
    let tooMany := d.chain && c.count == 64
    let d' := { d with resv := d.resv || m.resv }
    match firstBad (moveChks sid d' false tooMany s) with
    | some b =>
      let s := if d.chain && !tooMany then setChain m.port m.src (some { c with broken := true }) s else endChain m.port m.src c s
      refuseWork m sid (8 + d.op) d.tag 0 b.status s
    | none =>
      match bakeWaits sid d s with
      | some b => waitMig sid b (.cmd (.move m d)) s
      | none =>
        let s := { s with kiln.nextChain := max s.kiln.nextChain c.id }
        let s := acceptMove (newRun sid d (some (m.port, m.src, m.tag, m.tgen)) (if linked then c.id else 0) s) s
        if d.chain then setChain m.port m.src (some c) s else endChain m.port m.src c s

/-- MOVE (02 R62, R64). -/
def execMove (m : Mhd) (d : MoveDesc) : State → Host.Outcome State Fault Refusal :=
  act (arrive m (.move m d) fun sid s =>
    metered m (.move m d) s.sags.shape.fOvh false (fun st s => refuseWork m sid (8 + d.op) d.tag 0 st s) (serveMove m d) sid s)

/-! ### Running (01 R36, 02 R65, R71) -/

/-- Missing pages of a run on which the descriptor waits with no fault and no migration: slots were lacking (02 R72). -/
def unheld (x : MRun) (s : State) : List Nat :=
  let lacking (r : Run) : List Nat := (List.range r.pages.length).filterMap fun i =>
    if (r.pages.getD i none).isNone then some (r.pva / 2 ^ 21 + i) else none
  let w : Waiter := .queued x.mid
  (lacking x.runD ++ (x.runS.map lacking).getD []).filter fun p =>
    !(s.xlt.faults.any fun f => f.sid == x.sid && f.waiters.any (·.1 == w) && decide (f.page ≤ p) && decide (p < f.page + if f.big then 512 else 1))
    && !(s.xlt.migs.any fun g => g.sid == x.sid && g.waiters.contains (.work w))

/-- MOVER_START: an idle mover takes the first descriptor that no earlier one of its chain holds back (02 R67) and whose faults all have
their slots (02 R72). -/
def execMoverStart (n : Nat) : State → Host.Outcome State Fault Refusal :=
  act fun s =>
    if s.alive = false ∨ s.kiln.movers[n]? ≠ some false then s
    else
      let ready (x : MRun) : Bool := x.mover.isNone && !x.mig && unheld x s == []
        && !(s.kiln.runs.any fun y => x.chain != 0 && y.chain == x.chain && decide (y.mid < x.mid))
        && (match s.kiln.chains.find? (·.id == x.chain) with
          | some c => x.chain == 0 || c.mover.isNone || c.mover == some n
          | none => true)
      match s.kiln.runs.find? ready with
      | none => s
      | some x =>
        let s := { s with kiln.movers := s.kiln.movers.set n true
                          kiln.chains := s.kiln.chains.map fun (c : Chain) => if c.id = x.chain then { c with mover := some n } else c }
        modRun x.mid (fun y => if y.started = 0 then { y with mover := some n, started := s.now, latch := latchOf x.sid s }
          else { y with mover := some n }) s

/-- A byte mask of bytes `lo` to `lo + n - 1`. -/
def rangeMask (lo n : Nat) : BitVec 64 := BitVec.ofNat 64 ((2 ^ n - 1) * 2 ^ lo)

/-- The party as which a run accesses lines. -/
def MRun.who (x : MRun) : Who := if x.mig then .mig x.mid else .mover x.mid

/-- Bytes of the run's next destination line. -/
def MRun.bytes (x : MRun) : Nat := min (64 - (x.desc.dst + x.pos) % 64) (x.desc.length - x.pos)

/-- The source lines of the next destination line: PVA line number and an offset in the run. -/
def MRun.sources (x : MRun) : List (Nat × Nat) :=
  match x.runS with
  | none => []
  | some r => [((r.pva + x.pos) / 64, x.pos), ((r.pva + x.pos + x.bytes - 1) / 64, x.pos + x.bytes - 1)].eraseDups

/-- The next source line that the run's buffer lacks. -/
def MRun.lacks (x : MRun) : Option (Nat × Nat) := x.sources.find? fun p => (smGet p.1 x.buf).isNone

/-- A line of a page was read or written for run `mid`: each 64th adds 1 to the page's heat (02 R83, log 26). -/
def countMoved (mid page : Nat) (s : State) : State :=
  match runBy mid s with
  | none => s
  | some x =>
    let b := ((leafAt x.sid page s.xlt).map (·.1)).getD page
    let n := (smGet b x.heat).getD 0 + 1
    let s := modRun mid (fun x => { x with heat := if n = 64 then smDel b x.heat else smSet b n x.heat }) s
    if n = 64 then addHeat x.sid b 1 s else s

/-- The line is one that the run has not read before: an earlier destination line read the others. -/
def MRun.fresh (x : MRun) (l : Nat) : Bool := x.pos == 0 || decide ((x.desc.src + x.pos - 1) / 64 < l)

/-- A source line has come into the run's buffer. -/
def gotSource (x : MRun) (l : Nat) (v : LineData × Nat) (s : State) : State :=
  let s := modRun x.mid (fun x => { x with buf := smSet l v x.buf }) s
  if x.fresh l then countMoved x.mid (l / 2 ^ 15) s else s

/-- Stops a run with a status; it ends when nothing of its own is under way. -/
def failRun (mid status : Nat) : State → State := modRun mid fun x => { x with stop := x.stop.or (some status) }

/-- Reads a source line into the run's buffer; false when the run must wait. A refusal ends the descriptor; a migration takes the line as
lost with its holder, or asks again where the refusal may pass (02 R82, log 26, log 31). -/
def readSource (x : MRun) (l off : Nat) (s : State) : Bool × State :=
  match x.runS.bind fun r => runPpa r off with
  | none => (false, s)
  | some p =>
    match devAt p (devRead x.who x.sid (l / 2 ^ 15) x.epoch) s with
    | (some (.got d c), s) => (true, gotSource x l (d, c) s)
    | (some (.failed st), s) =>
      if x.mig = false then (true, failRun x.mid st s)
      else if ppaFormat p = 1 ∨ st = stTIMEOUT ∨ st = stCONTESTED then (false, s)
      else (true, gotSource x l (0, 4) s)
    | (_, s) => (false, s)

/-- The bytes of one destination line as a source line gives them: `n` bytes up or down. -/
def shiftBytes (d : LineData) (up : Bool) (n : Nat) : LineData := if up then d <<< (8 * n) else d >>> (8 * n)

/-- Data and cause of the next destination line: the pattern, or the bytes of one or two source lines (02 R65, 03 R102). -/
def MRun.line (x : MRun) : LineData × Nat :=
  let lo := (x.desc.dst + x.pos) % 64
  match x.runS with
  | none =>
    let pat : LineData := (List.range 8).foldl (fun a i => a ||| (x.desc.pattern.zeroExtend 512 <<< (64 * i))) 0
    let k := (lo + 64 - x.pos % 8) % 8
    (if k = 0 then pat else (pat <<< (8 * k)) ||| (pat >>> (8 * (8 - k))), 0)
  | some r =>
    let a := (r.pva + x.pos) % 64
    let from_ (i : Nat) : LineData × Nat := ((x.sources[i]?).bind fun p => smGet p.1 x.buf).getD (0, 0)
    let d1 := from_ 0
    let low := if a ≤ lo then shiftBytes d1.1 true (lo - a) else shiftBytes d1.1 false (a - lo)
    if x.sources.length ≤ 1 then (low, d1.2)
    else
      let d2 := from_ 1
      let k := 64 - a
      let m1 := byteMask (rangeMask lo k)
      ((low &&& m1) ||| (shiftBytes d2.1 true (lo + k) &&& ~~~m1), if d1.2 = 0 then d2.2 else d1.2)

/-- A destination line of a run is done, with the cause that stands there now: position and counts (02 R69); a migration counts only the
lines that it reads as heat (log 26). -/
def moveOn (x : MRun) (c : Nat) (s : State) : State :=
  let s := traceHub 4 0 x.sid x.desc.op c x.desc.tag (x.desc.dst + x.pos) s
  let s := if x.mig then s else countMoved x.mid ((x.desc.dst + x.pos) / 2 ^ 21) s
  modRun x.mid (fun y => { y with pos := x.pos + x.bytes, written := x.written + 1, crazed := x.crazed + b2n (c != 0)
                                  causes := Nat.lor x.causes (2 ^ c), buf := [] }) s

/-- Writes the next destination line; false when the run must wait. A migration leaves out a line that its destination refuses (log 26),
and a write whose timer expires is discarded and counted without ending the descriptor (08 R310). -/
def writeDest (x : MRun) (s : State) : Bool × State :=
  match runPpa x.runD x.pos with
  | none => (false, s)
  | some p =>
    let (d, c) := x.line
    let n := x.bytes
    let mask := if n = 64 then fullMask else rangeMask ((x.desc.dst + x.pos) % 64) n
    match devAt p (devWrite x.who x.sid ((x.desc.dst + x.pos) / 2 ^ 21) x.epoch d mask c) s with
    | (some (.wrote c'), s) => (true, moveOn x c' s)
    | (some (.failed st), s) =>
      if x.mig = true ∨ st = stTIMEOUT then (true, moveOn x (if c = 0 then 0 else carried c) s) else (true, failRun x.mid st s)
    | (_, s) => (false, s)

/-- One line access of a run; false when it must wait or has ended. -/
def moveLine (mid : Nat) (s : State) : Bool × State :=
  match runBy mid s with
  | none => (false, s)
  | some x =>
    if x.stop.isSome ∨ x.pos ≥ x.desc.length ∨ (runPpa x.runD x.pos).isNone = true then (false, s)
    else match x.lacks with
      | some (l, off) => readSource x l off s
      | none => writeDest x s

/-- Moves lines until the run ends or must wait. -/
def moveLines : Nat → Nat → State → State
  | 0, _, s => s
  | fuel + 1, mid, s =>
    match moveLine mid s with
    | (false, s) => s
    | (true, s) => moveLines fuel mid s

/-- Line accesses that a run of `n` bytes can take: two reads and a write for each destination line. -/
def moveFuel (n : Nat) : Nat := 3 * (n / 64 + 2)

/-- An access of the run is under way. -/
def moveOwes (mid : Nat) (s : State) : Bool := devQueued (.mover mid) s || devQueued (.mig mid) s

/-- MOVE_DONE: the mover's descriptor moves on as far as it can and, at its end, completes (02 R69). -/
def execMoveDone (n : Nat) : State → Host.Outcome State Fault Refusal :=
  act fun s =>
    if s.alive = false then s
    else match s.kiln.runs.find? (fun x => x.mover == some n && !x.mig) with
      | none => s
      | some x =>
        let s := moveLines (moveFuel x.desc.length) x.mid s
        match runBy x.mid s with
        | none => s
        | some y =>
          if (y.stop.isSome ∨ y.pos ≥ y.desc.length) ∧ moveOwes y.mid s = false then completeRun y s else s

/-- MOVER_LOST: a mover leaves service; its descriptor continues on another mover from the first line not yet written
(11 R396). -/
def execMoverLost (n : Nat) : State → Host.Outcome State Fault Refusal :=
  act fun s =>
    if s.alive = false ∨ s.kiln.movers[n]?.isNone then s
    else
      { s with kiln.movers := s.kiln.movers.set n true
               kiln.runs := s.kiln.runs.map fun (x : MRun) => if x.mover = some n then { x with mover := none } else x
               kiln.chains := s.kiln.chains.map fun (c : Chain) => if c.mover = some n then { c with mover := none } else c }

end Sys2Proof.Machine
end

