-- ==== Sys2Proof/Machine/Fire.lean ====
section
/-! DEFINITION. Firings (06 R198 to R210, R230 to R232; 07 R239 to R247, R267 to R269): the submission checks, the baked
runs, parts, faults, claims and the end of a firing. -/

namespace Sys2Proof.Machine

/-! ### Slots (06 R199, R200, R203) -/

/-- The slot of a role. -/
def slotOf (role : Nat) (d : FireDesc) : Option Slot := d.slots.find? (·.role == role)

/-- The element region of a role is MX: its scale role is present. -/
def isMx (d : FireDesc) (role : Nat) : Bool := (slotOf (role + 6) d).isSome

/-- Bytes of a grain of a SPLIT element region (R203). -/
def grainBytes (sl : Slot) : Nat := 64 * (if sl.format = 5 ∨ sl.format = 6 then 3 else 1) * 2 ^ sl.grain

/-- Grains of a SPLIT element region; the last may be partial. -/
def grainCount (sl : Slot) : Nat := ceilDiv sl.length (grainBytes sl)

/-- The lead region: the first of IN0 to IN3, OUT0, OUT1 that is SPLIT (R203). -/
def leadSlot (d : FireDesc) : Option Slot :=
  [1, 2, 3, 4, 5, 6].findSome? fun r => match slotOf r d with
    | some sl => if sl.dist = 0 then some sl else none
    | none => none

/-- The role is an element role: IN0 to IN3, OUT0, OUT1. -/
def elemRole (r : Nat) : Bool := decide (1 ≤ r) && decide (r ≤ 6)

/-- The role is a scale role. -/
def sclRole (r : Nat) : Bool := decide (7 ≤ r) && decide (r ≤ 12)

/-- The role writes results: OUT or OSCL. -/
def outRole (r : Nat) : Bool := r == 5 || r == 6 || r == 11 || r == 12

/-- Grain size in bytes of a SPLIT element or scale role (R203, R204). -/
def roleGrain (d : FireDesc) (r : Nat) : Nat :=
  if sclRole r then match slotOf (r - 6) d with
    | some sl => max 1 (elemCount sl.format (grainBytes sl) / 32)
    | none => 1
  else match slotOf r d with
    | some sl => grainBytes sl
    | none => 1

/-- The roles in use. -/
def usedSlots (d : FireDesc) : List Slot := d.slots.filter (·.role != 0)

/-- A slot with ROLE 0 is all zeros. -/
def slotZero (sl : Slot) : Bool :=
  sl.role != 0 || (sl.pva == 0 && sl.length == 0 && sl.format == 0 && sl.dist == 0 && sl.grain == 0 && !sl.pack4 && !sl.push)

/-! ### The library and allocations -/

/-- The installed glaze of an ID. -/
def glazeOf (id : Nat) (s : State) : Option Glaze := s.kiln.library.find? (·.id == id)

/-- A glaze is permitted to a SID (R228): MODE 0 operator only, 1 all saggers, 2 listed saggers. -/
def glazePermitted (g : Glaze) (sid : Nat) : Bool :=
  match g.mode with
  | 0 => sid == 0
  | 1 => true
  | _ => g.sids.contains sid

/-- The glaze a descriptor names. -/
def descGlaze (d : FireDesc) (s : State) : Option Glaze := if d.kind = 1 then glazeOf d.glaze s else none

/-- Shelf `sh`. -/
def shelfOf (sh : Nat) (s : State) : Option Shelf := s.kiln.shelves[sh]?

/-- Changes shelf `sh`. -/
def modShelf (sh : Nat) (f : Shelf → Shelf) (s : State) : State := { s with kiln.shelves := s.kiln.shelves.modify sh f }

/-- Changes the counters of kiln die `k`. -/
def modKiln (k : Nat) (f : KilnDie → KilnDie) (s : State) : State := { s with kiln.dies := s.kiln.dies.modify k f }

/-- Shelves of a mask on die `k`, as global shelf numbers. -/
def maskShelves (m k : Nat) : List Nat := ((List.range 40).filter (bitOf m)).map (40 * k + ·)

/-- A sagger's shelf masks. -/
def masksOf (sid : Nat) (s : State) : List Nat := ((sagOf sid s).map fun g => g.par.shelves).getD []

/-- Shelves of a sagger's allocation on die `k`. -/
def allocOf (sid k : Nat) (s : State) : List Nat := maskShelves ((masksOf sid s).getD k 0) k

/-- The shelf is in service, on a die in service. -/
def inService (sh : Nat) (s : State) : Bool := s.glb.kilnIn.getLsbD (sh / 40) && ((shelfOf sh s).map fun x => !x.out).getD false

/-- The power governor holds placement on the shelf: not on those of sealed saggers (01 R42). -/
def govHeld (sid : Nat) (s : State) : Bool := s.glb.heldPlacement && !((sagOf sid s).map (·.sealed)).getD false

/-- The shelf is free for a part of a sagger (R208): in service, without part or window. -/
def shelfFree (sid sh : Nat) (s : State) : Bool :=
  (match shelfOf sh s with
    | some x => !x.out && !x.marked && x.run.isNone && x.window.isNone
    | none => false) && s.glb.kilnIn.getLsbD (sh / 40) && !govHeld sid s

/-- In-service shelves of the allocation on die `k` (A_k of R207). -/
def availOf (sid k : Nat) (s : State) : List Nat := (allocOf sid k s).filter fun sh => inService sh s

/-- Shelves on die `k` of the allocation under which a firing was submitted (01 R31). -/
def firingAlloc (f : Firing) (k : Nat) : List Nat := maskShelves (f.alloc.getD k 0) k

/-- Those of them that are in service. -/
def firingAvail (f : Firing) (k : Nat) (s : State) : List Nat := (firingAlloc f k).filter fun sh => inService sh s

/-- The die with the most free shelves of a firing's allocation, the lowest of equals (R206), among those on which R201 lets a part be
while there is one (log 45). -/
def bestDie (f : Firing) (s : State) : Nat :=
  let n (k : Nat) : Nat := if f.avail.getD k 0 = 0 then 0 else 1 + ((firingAlloc f k).filter fun sh => shelfFree f.sid sh s).length
  (List.range 8).foldl (fun b k => if n b < n k then k else b) 0

/-! ### Contexts (07 R235, R240 to R247) -/

/-- Context `n`. -/
def ctxOf (n : Nat) (s : State) : Option CtxSt := smGet n s.kiln.ctxs

/-- The contexts a descriptor names, with their numbers. -/
def namedCtxs (d : FireDesc) (s : State) : List (Nat × Option CtxSt) :=
  (List.range d.ctxCount).map fun i => (d.ctxBase + i, ctxOf (d.ctxBase + i) s)

/-- BLOCK_TOKENS of a KV context. -/
def blockTokens (e : Ctx) : Nat := 2 ^ e.btLog

/-- Blocks of a KV context (R241). -/
def blockCount (e : Ctx) : Nat := ceilDiv e.count (blockTokens e)

/-- Bytes of one KV block (R240). -/
def blockBytes (e : Ctx) : Nat := blockTokens e * e.kvHeads * 2 * elemBytes e.format e.width

/-- Bytes of one row: of a table, or of a head's token. -/
def rowBytes (e : Ctx) : Nat := elemBytes e.format e.width

/-- Bytes of the block table or the bag list (R241, R243); an empty block table still has its first page. -/
def listBytes (e : Ctx) : Nat :=
  if e.kind = 1 then max 1 (8 * blockCount e) else 4 * (e.count + 1) + 4 * e.nnz + (if e.weighted then 4 * e.nnz else 0)

/-- SECTION of a BLOCKS slot (R246). -/
def sectionOf (sl : Slot) : Nat := sl.pva % 4

/-- A BLOCKS slot breaks R246 for contexts of this kind (DENIED). -/
def sectionBad (e : Ctx) (sl : Slot) : Bool :=
  match sectionOf sl with
  | 0 => sl.pva % 2 ^ 52 / 4 != 0
  | 1 => sl.pva % 2 ^ 52 / 4 != 0 || (e.kind == 2 && !e.weighted)
  | 2 => e.kind == 2 || fieldOf sl.pva 2 4 != 0
  | _ => true

/-- A BLOCKS slot's LENGTH is not the one required (R246). -/
def sectionLenBad (e : Ctx) (sl : Slot) : Bool :=
  match sectionOf sl with
  | 0 => sl.length != (if e.kind = 1 then blockTokens e * rowBytes e else rowBytes e)
  | 1 => sl.length != (if e.kind = 1 then blockTokens e * rowBytes e else 4)
  | _ => sl.length % 4 != 0 || decide (65536 < sl.length)

/-- Two contexts that one firing may name together (R244). -/
def sameShape (a b : Ctx) : Bool :=
  a.kind == b.kind && a.format == b.format && a.btLog == b.btLog && a.kvHeads == b.kvHeads && a.g == b.g
    && a.width == b.width && a.weighted == b.weighted

/-- Check 3 of R244 fails. -/
def ctxDeny (gctx : Bool) (sid : Nat) (d : FireDesc) (s : State) : Bool :=
  let blocks := (usedSlots d).any (·.dist == 3)
  if !gctx then blocks
  else
    let cs := namedCtxs d s
    let es := cs.filterMap (·.2)
    !blocks || (usedSlots d).any (fun sl => decide (sl.role ≤ 4) && sl.dist == 0)
      || cs.any (fun c => decide (c.1 < 4096) && match c.2 with
        | some x => x.e.st != 2 || x.e.sid != sid
        | none => true)
      || (match es with
        | a :: r => r.any fun b => !sameShape a.e b.e
        | [] => false)
      || (match es with
        | a :: _ => (usedSlots d).any fun sl => sl.dist == 3 && sectionBad a.e sl
        | [] => false)

/-! ### Regions and their baking (02 R62) -/

/-- Regions a firing walks: key, first byte, length, access bits. Keys 1 to 13 are roles, 100 + n the list of context n. -/
def regionsOf (d : FireDesc) (cs : List (Nat × CtxSt)) : List (Nat × Nat × Nat × Nat) :=
  let heads := ((cs.head?).map fun c => c.2.e.kvHeads).getD 1
  ((usedSlots d).filterMap fun sl =>
    if sl.push then none
    else if sl.dist = 3 then
      if sectionOf sl = 2 then some (sl.role, sl.pva / 64 * 64, d.ctxCount * heads * sl.length, 1) else none
    else some (sl.role, sl.pva, sl.length, if outRole sl.role then 2 else 1))
  ++ cs.map fun c => (100 + c.1, c.2.e.list, listBytes c.2.e, 1)

/-- What walking the regions finds, page by page. -/
def walkRegions (sid : Nat) (rs : List (Nat × Nat × Nat × Nat)) (s : State) : List PageRes :=
  rs.flatMap fun r => (bakeRegion sid r.2.1 r.2.2.1 r.2.2.2 s).map (·.2)

/-- The baked runs of the regions: every present page keeps its PPA, whatever its holder's state; a page that is not
Present has none. -/
def bakeRuns (sid : Nat) (rs : List (Nat × Nat × Nat × Nat)) (s : State) : List (Nat × Run) :=
  rs.map fun r => (r.1, ⟨sid, r.2.1, r.2.2.1, r.2.2.2 == 2, (bakeRegion sid r.2.1 r.2.2.1 r.2.2.2 s).map fun p => match p.2 with
    | .good ppa => some ppa
    | .faulting b l => if l.pres then some (leafPpa l ((p.1 - b) * 2 ^ 21)) else none
    | _ => none⟩)

/-- Firing `fid`. -/
def firingBy (fid : Nat) (s : State) : Option Firing := s.kiln.firings.find? (·.fid == fid)

/-- Changes firing `fid`. -/
def modFiring (fid : Nat) (g : Firing → Firing) (s : State) : State :=
  { s with kiln.firings := s.kiln.firings.map fun (f : Firing) => if f.fid = fid then g f else f }

/-- A stream engine reads or writes the line at `pva` for a firing: each 64 lines of a page add 1 to its heat (02 R83; log 26). -/
def streamLine (fid sid pva : Nat) (s : State) : State :=
  match leafAt sid (pva / 2 ^ 21) s.xlt with
  | none => s
  | some (b, _) =>
    let k := (((firingBy fid s).bind fun f => smGet b f.heat).getD 0) + 1
    let s := modFiring fid (fun f => { f with heat := smSet b (k % 64) f.heat }) s
    if k < 64 then s else addHeat sid b 1 s

/-- Bytes of a run from `off`, `n` of them, read for a firing under the checks of 03 R98: none on a tag mismatch. -/
def readBytes (fid sid : Nat) (r : Run) (off n : Nat) (s : State) : Option (List (Nat × Nat)) × State :=
  if n = 0 then (some [], s)
  else
    let a := r.pva + off
    let lines := List.range ((a + n - 1) / 64 - a / 64 + 1)
    let res := lines.foldl (fun (acc : Option (List (Nat × Nat)) × State) i => match acc.1 with
      | none => acc
      | some bs => match runPpa r (max off ((a / 64 + i) * 64 - r.pva)) with
        | none => (none, acc.2)
        | some p =>
          if ppaFormat p = 1 then match readLocal (ppaOffset p / 64) sid (streamLine fid sid ((a / 64 + i) * 64) acc.2) with
            | (some (d, c), s') => (some (bs ++ lineBytes d c), s')
            | (none, s') => (none, s')
          else (none, acc.2)) (some [], s)
    (res.1.map fun bs => (bs.drop (a % 64)).take n, res.2)

/-- The block PVAs of a KV context, from its block table (R241, R242): none while a page is missing or not readable. -/
def readTable (fid sid n : Nat) (e : Ctx) (runs : List (Nat × Run)) (s : State) : Option (List Nat) × State :=
  match runs.find? (·.1 == 100 + n) with
  | none => (none, s)
  | some r =>
    match readBytes fid sid r.2 0 (8 * blockCount e) s with
    | (some bs, s') => (some ((List.range (blockCount e)).map fun b => leVal ((bs.drop (8 * b)).take 8)), s')
    | (none, s') => (none, s')

/-- What walking one KV block finds (R242): a check-3 failure, a page crossing, or its PPA (none on a Reserved page). -/
inductive BlockRes where
  | denied | crosses | at_ (ppa : Option Nat)
deriving DecidableEq, Repr

/-- Walks a block. -/
def bakeBlock (sid : Nat) (e : Ctx) (pva : Nat) (s : State) : BlockRes :=
  if pva ≥ 2 ^ 52 ∨ pva % 64 ≠ 0 then .denied
  else match bakePage sid 1 (pva / 2 ^ 21) s with
    | .bad => .denied
    | .contested => .denied
    | .good ppa => if pva % 2 ^ 21 + blockBytes e > 2 ^ 21 then .crosses
      else .at_ (some (if ppaFormat ppa = 15 then ppa else ppa + pva % 2 ^ 21))
    | _ => if pva % 2 ^ 21 + blockBytes e > 2 ^ 21 then .crosses else .at_ none

/-! ### Checks of R201 -/

/-- Check 2 (00 R14, R173, R198, R199; 02 R43). -/
def fireResv (d : FireDesc) (gctx gwin : Bool) : Bool :=
  d.resv || d.kind == 0 || decide (6 ≤ d.kind) || decide (5 ≤ d.rmode) || decide (41 ≤ d.spread)
    || (!gctx && (d.ctxBase != 0 || d.ctxCount != 0)) || (!gwin && d.window != 0)
    || d.slots.any fun sl => sl.resv || decide (14 ≤ sl.role) || decide (11 ≤ sl.format) || sl.dist == 2
        || decide (13 ≤ sl.grain) || !slotZero sl || (!sl.push && sl.role != 0 && decide (2 ^ 52 ≤ sl.pva))

/-- The rules of R199, R200, R201 and R203 on one slot are broken. The address of a PUSH slot is not checked; a scale region's grain holds
the scales of its element region's grain (R204). -/
def slotDeny (host : Bool) (d : FireDesc) (sl : Slot) : Bool :=
  let r := sl.role
  let mx := elemRole r && isMx d r
  (d.slots.filter (·.role == r)).length != 1
  || (sl.grain != 0 && (sl.dist != 0 || sclRole r))
  || (sl.dist == 3 && !(decide (r ≤ 4) || (decide (7 ≤ r) && decide (r ≤ 10))))
  || (sl.pack4 && sl.format != 7)
  || (sl.push && (host || !(r == 5 || r == 6)))
  || (r == 13 && (sl.format != 10 || sl.dist == 3))
  || (sclRole r && (sl.format != 9 || (match slotOf (r - 6) d with
      | some e => e.dist != sl.dist
      | none => true)))
  || (elemRole r && decide (5 ≤ sl.format) && decide (sl.format ≤ 8) && !mx)
  || (mx && (decide (sl.format < 3) || decide (8 < sl.format) || elemCount sl.format sl.length % 32 != 0
      || sl.length * 8 % elemBits sl.format != 0))
  || ((sl.format == 5 || sl.format == 6) && sl.length % 3 != 0)
  || ((elemRole r || sclRole r) && sl.dist == 0 && !sl.push && sl.pva % roleGrain d r != 0)

/-- Elements of a role's region. -/
def roleElems (d : FireDesc) (r : Nat) : Nat := ((slotOf r d).map fun sl => elemCount sl.format sl.length).getD 0

/-- The regions are not those of the built-in KIND (R224). -/
def builtinDeny (d : FireDesc) : Bool :=
  let has (r f dist : Nat) : Bool := match slotOf r d with
    | some sl => sl.format == f && sl.dist == dist && !sl.pack4
    | none => false
  let only (rs : List Nat) : Bool := (usedSlots d).all fun sl => rs.contains sl.role
  match d.kind with
  | 2 => !(has 5 10 0 && only [5])
  | 3 => !(has 1 10 0 && has 5 10 0 && only [1, 5])
  | 4 => !(has 1 10 0 && has 2 10 0 && only [1, 2, 5] && (match slotOf 5 d with
      | some sl => sl.dist == 1 && sl.length == 8
      | none => false))
  | 5 =>
    let ins := (usedSlots d).filter fun sl => decide (sl.role ≤ 4)
    !(decide (2 ≤ ins.length) && ins.all (fun sl => decide (sl.format ≤ 2) && sl.dist == 0) && only [1, 2, 3, 4, 5]
      && (match slotOf 5 d with
        | some sl => decide (sl.format ≤ 4) && sl.dist == 0
        | none => false))
  | _ => false

/-- Unequal lengths or element counts of a built-in (R224). -/
def builtinLen (d : FireDesc) : Bool :=
  let len (r : Nat) : Nat := ((slotOf r d).map (·.length)).getD 0
  match d.kind with
  | 3 => len 1 != len 5
  | 4 => len 1 != len 2
  | 5 => (usedSlots d).any fun sl => roleElems d sl.role != roleElems d 5
  | _ => false

/-- An IN and an OUT region overlap in a way R269 and R224 do not allow. -/
def inOutClash (d : FireDesc) : Bool :=
  (usedSlots d).any fun i => (decide (i.role ≤ 4) || (decide (7 ≤ i.role) && decide (i.role ≤ 10)) || i.role == 13) && i.dist != 3
    && (usedSlots d).any fun o => outRole o.role && !o.push && overlap i.pva i.length o.pva o.length
      && !(d.kind != 3 && i.pva == o.pva && i.length == o.length && i.format == o.format && i.dist == 0 && o.dist == 0
        && i.grain == o.grain)

/-- Die of byte `off` of a role's run, when its page is present and local. -/
def runDie (runs : List (Nat × Run)) (key off : Nat) : Option Nat :=
  match runs.find? (·.1 == key) with
  | none => none
  | some r => match runPpa r.2 off with
    | some p => if ppaFormat p = 1 then some (p / 2 ^ 42 % 8) else none
    | none => none

/-- Die of a context (R241, R243): of its block table's first page, or of its rows. -/
def ctxDie (runs : List (Nat × Run)) (c : Nat × CtxSt) : Option Nat :=
  if c.2.e.kind = 1 then runDie runs (100 + c.1) 0 else some (c.2.base / 2 ^ 42 % 8)

/-- The pieces of a firing with contexts (R245). -/
def piecesOf (runs : List (Nat × Run)) (cs : List (Nat × CtxSt)) : List Piece :=
  cs.flatMap fun c =>
    let e := c.2.e
    let die := (ctxDie runs c).getD 0
    if e.kind = 1 then
      let b := e.nnz % 65536
      let step := if b = 0 then e.count else b * blockTokens e
      (List.range (if b = 0 then 1 else max 1 (ceilDiv (blockCount e) b))).flatMap fun j =>
        (List.range e.kvHeads).map fun h => ⟨c.1, j, h, j * step, min step (e.count - j * step), die⟩
    else (List.range e.count).map fun b => ⟨c.1, b, 0, 0, 0, die⟩

/-- Grains or pieces that a firing deals. -/
def dealCount (f : Firing) : Nat :=
  if f.ctxs.isEmpty then match leadSlot f.desc with
    | some sl => grainCount sl
    | none => 0
  else f.pieces.length

/-- Die on which lead grain or piece `i` is worked: of the window, of the piece, or of the grain's first byte. -/
def dealDie (f : Firing) (i : Nat) (s : State) : Option Nat :=
  match f.win with
  | some w => (smGet w s.kiln.wins).map (·.blk.die)
  | none =>
    if f.ctxs.isEmpty then match leadSlot f.desc with
      | some sl => if sl.push then none else runDie f.runs sl.role (i * grainBytes sl)
      | none => none
    else (f.pieces[i]?).map (·.die)

/-- Shelves of a part, from A_k at submission (R207). -/
def partShelves (f : Firing) (k grains : Nat) : Nat :=
  if 1 ≤ f.desc.spread then f.desc.spread else min 40 (min (f.avail.getD k 0) (max 1 (ceilDiv grains 256)))

/-- The parts of a firing (R206, R207; 07 R245, R267). -/
def partsOf (f : Firing) (s : State) : List Part :=
  let n := dealCount f
  let mk (k : Nat) (gs : List Nat) (shelves : Nat) : Part := ⟨k, shelves, gs, [], false, false, []⟩
  match f.win with
  | some w => match smGet w s.kiln.wins with
    | some x => [mk x.blk.die (List.range n) x.shelves.length]
    | none => []
  | none =>
    let split := !f.ctxs.isEmpty || (match leadSlot f.desc with
      | some sl => !sl.push
      | none => false)
    if split then
      (List.range 8).filterMap fun k =>
        let gs := (List.range n).filter fun i => dealDie f i s == some k
        if gs.isEmpty then none else some (mk k gs (partShelves f k gs.length))
    else
      let k := bestDie f s
      [mk k (List.range n) (partShelves f k n)]

/-- A part breaks the SPREAD or allocation row of R201. -/
def partDeny (f : Firing) (s : State) : Bool :=
  (partsOf f s).any fun p => f.avail.getD p.die 0 == 0 || decide ((firingAlloc f p.die).length < f.desc.spread)

/-- A waiting part of a firing can no longer get its shelves (11 R398). -/
def noShelves (f : Firing) (s : State) : Bool :=
  f.win.isNone && f.parts.any fun p => !p.placed && !p.ended && decide ((firingAvail f p.die s).length < p.n)

/-- Pages that the walked regions span. -/
def regionsPages (rs : List (Nat × Nat × Nat × Nat)) : Nat := rs.foldl (fun n r => n + (regionPages r.2.1 r.2.2.1).length) 0

/-- A firing as first built from a descriptor. -/
def newFiring (sid : Nat) (d : FireDesc) (sub : Option (Nat × Nat × Nat × Nat)) (win : Option Nat) (s : State) : Firing :=
  let cs := (namedCtxs d s).filterMap fun c => c.2.map fun x => (c.1, x)
  let runs := bakeRuns sid (regionsOf d cs) s
  ⟨s.kiln.nextFid, 0, sub, win, sid, d, .faulting, epochOf sid s, runs, [], cs, [], piecesOf runs cs, d.seed, s.now, 0, 0,
   latchOf sid s, 0, 0, 0, 0, 0, 0, 0, none, false, [], masksOf sid s, (List.range 8).map fun k => (availOf sid k s).length⟩

/-- Submitter of a firing: the host, an agent by its AID or a window (R198 TAG, R233). -/
def sameSub (f : Firing) (sub : Option (Nat × Nat × Nat × Nat)) (win : Option Nat) : Bool :=
  f.win == win && f.sub.map (·.2.1) == sub.map (·.2.1)

/-- Checks 1 to 3 of a descriptor (R201, R202, R244, R267), then check 4 unless it is empty. `win` is the window whose
STEP it is. -/
def fireChks (sid : Nat) (d : FireDesc) (sub : Option (Nat × Nat × Nat × Nat)) (win : Option Nat) (s : State) : List Chk :=
  let gl := descGlaze d s
  let gctx := (gl.map (·.ctx)).getD false
  let gwin := (gl.map (·.win)).getD false
  let f := newFiring sid d sub win s
  let rs := regionsOf d f.ctxs
  let walked := walkRegions sid rs s
  let tables := f.ctxs.map fun c => (c, if c.2.e.kind = 1 then (readTable f.fid sid c.1 c.2.e f.runs s).1.getD [] else [])
  let blocks := tables.flatMap fun t => t.2.map fun p => bakeBlock sid t.1.2.e p s
  let blockPages := (tables.flatMap fun t => t.2.map (· / 2 ^ 21)).eraseDups
  let empty := (usedSlots d).any (·.length == 0) || (gctx && d.ctxCount == 0)
  [chk (d.fmt != 1) stVERSION 1,
   chkResv (fireResv d gctx gwin),
   chkDeny (sub.isSome && sagSealed sid s && d.limit == 0), chkDeny (d.seed == 0 && s.pen.rngFail),
   chkDeny (d.kind == 1 && (match gl with
     | some g => !glazePermitted g sid
     | none => true)),
   chkDeny ((d.kind != 1 && d.glaze != 0) || builtinDeny d || (usedSlots d).any (slotDeny (sub.isNone && win.isNone) d)
     || (match gl with
       | some g => (List.range 14).any fun r => bitOf g.requires r && (slotOf r d).isNone
       | none => false)),
   chkDeny (gwin != win.isSome), chkDeny (gwin && decide (1024 ≤ d.window)),
   chkDeny (ctxDeny gctx sid d s),
   chk (s.kiln.firings.any fun g => sameSub g sub win && g.desc.tag == d.tag) stCONFLICT 3,
   chkDeny (partDeny f s),
   chkDeny (walked.any (· == .bad)), chk (walked.any (· == .contested)) stCONTESTED 3,
   chkDeny (!gwin && f.runs.any fun r => r.2.pages.any fun p => match p with
     | some x => ppaFormat x == 3
     | none => false),
   chkDeny (blocks.any (· == .denied)),
   chk (inOutClash d) stCONFLICT 3]
  ++ if empty then [] else
  [chkLen (rs.any fun r => pastEnd sid r.2.1 r.2.2.1 s),
   chkLen (match slotOf 13 d with
     | some sl => decide (2 ^ 20 < sl.length)
     | none => false),
   chkLen (decide (8192 < regionsPages rs)),
   chkLen ((usedSlots d).any fun sl => elemRole sl.role && sl.dist == 0 && decide (dealCount f < grainCount sl)),
   chkLen (builtinLen d),
   chkLen (gctx && decide (4096 < d.ctxBase + d.ctxCount)),
   chkLen ((usedSlots d).any fun sl => sl.dist == 3 && (match f.ctxs with
     | c :: _ => sectionLenBad c.2.e sl
     | [] => false)),
   chkLen (blocks.any (· == .crosses)),
   chkLen (decide (1048576 < f.pieces.length) || decide (2097152 < blocks.length) || decide (32768 < blockPages.length)),
   chkExec (poolFull (firingSids s) sid 64 4096 1 s) stBUSY]

/-- The firing has nothing to do (R202). -/
def fireEmpty (d : FireDesc) (s : State) : Bool :=
  (usedSlots d).any (·.length == 0) || (((descGlaze d s).map (·.ctx)).getD false && d.ctxCount == 0)

/-- A bake meets a page that is being migrated: its leaf's first page (02 R81). -/
def fireWaits (sid : Nat) (d : FireDesc) (s : State) : Option Nat :=
  let cs := (namedCtxs d s).filterMap fun c => c.2.map fun x => (c.1, x)
  ((regionsOf d cs).flatMap fun r => bakeRegion sid r.2.1 r.2.2.1 r.2.2.2 s).findSome? fun p =>
    if p.2 = .migrating then some (((leafAt sid p.1 s.xlt).map (·.1)).getD p.1) else none

/-! ### Pages a firing still needs (02 R70, 06 R204, R205, 07 R241, R242) -/

/-- Kind of fault of a page, none when it is Present and local on die `die` (any die: none). A page of an Absent holder faults as if it were
not present (02 R49). -/
def pageKind (ppa : Option Nat) (die : Option Nat) (s : State) : Nat :=
  match ppa with
  | none => 1
  | some p => if ppaFormat p ≠ 1 then (if ppaFormat p = 2 ∧ (holderOf (ppaHid p) s).st = 0 then 1 else 2) else match die with
    | some k => if p / 2 ^ 42 % 8 = k then 0 else 2
    | none => 0

/-- Pages of a run from byte `off`, `n` bytes, that are missing or on another die: page, kind, access bits. -/
def runNeeds (r : Run) (off n : Nat) (die : Option Nat) (s : State) : List (Nat × Nat × Nat) :=
  if n = 0 then [] else
  let first := r.pva / 2 ^ 21
  ((List.range ((r.pva + off + n - 1) / 2 ^ 21 - (r.pva + off) / 2 ^ 21 + 1)).map ((r.pva + off) / 2 ^ 21 + ·)).filterMap fun p =>
    let k := pageKind ((r.pages[p - first]?).join) die s
    if k = 0 then none else some (p, k, if r.write then 2 else 1)

/-- The pages a firing waits for: page, kind, access bits. -/
def firingNeeds (f : Firing) (s : State) : List (Nat × Nat × Nat) :=
  let regions := f.runs.flatMap fun r =>
    if r.1 ≥ 100 then
      runNeeds r.2 0 r.2.len ((f.ctxs.find? (fun c => 100 + c.1 == r.1)).bind (ctxDie f.runs)) s
    else
      let split := match slotOf r.1 f.desc with
        | some sl => sl.dist == 0 && r.1 != 13
        | none => false
      if split then
        let gs := roleGrain f.desc r.1
        (List.range (ceilDiv r.2.len gs)).flatMap fun i => runNeeds r.2 (i * gs) (min gs (r.2.len - i * gs)) (dealDie f i s) s
      else runNeeds r.2 0 r.2.len none s
  let blocks := f.blocks.flatMap fun b =>
    let die := (f.ctxs.find? (·.1 == b.1)).bind (ctxDie f.runs)
    b.2.filterMap fun x =>
      let k := pageKind x.2 die s
      if k = 0 then none else some (x.1 / 2 ^ 21, k, 1)
  (regions ++ blocks).eraseDups

/-- Who waits on a firing's faults. -/
def firingWaiter (f : Firing) : Waiter :=
  match f.win with
  | some _ => .step f.fid
  | none => .firing f.fid

/-- Raises or joins the faults of the pages a firing needs (02 R70 to R72), and waits for those that are being migrated (02 R81). -/
def firingFaults (f : Firing) (s : State) : State :=
  (firingNeeds f s).foldl (fun s n =>
    match leafAt f.sid n.1 s.xlt with
    | none => s
    | some (b, l) =>
      match s.xlt.faults.find? fun x => x.sid == f.sid && x.page == b && x.waiters.any (·.1 == firingWaiter f) with
      | some x => hitMore (firingWaiter f) n.2.2 x s
      | none =>
        if l.mig then waitMig f.sid b (.work (firingWaiter f)) s
        else (hitFault (firingWaiter f) n.2.2 f.sid b l.big n.2.1 s).getD s) s

/-- Walks a page again for a firing and patches it into its runs and blocks (02 R75). `bad` tells a page that is Outside
or lost its permission. -/
def patchFiring (f : Firing) (base pages : Nat) (s : State) : Firing × Bool :=
  let mine (p : Nat) : Bool := decide (base ≤ p) && decide (p < base + pages)
  let look (acc p : Nat) : PageRes := bakePage f.sid acc p s
  let ppaOf (acc p : Nat) : Option Nat := match look acc p with
    | .good x => some x
    | .faulting b l => if l.pres then some (leafPpa l ((p - b) * 2 ^ 21)) else none
    | _ => none
  let repage (r : Run) (i : Nat) (x : Option Nat) : Option Nat :=
    let p := r.pva / 2 ^ 21 + i
    if mine p then ppaOf (if r.write then 2 else 1) p else x
  let runs := f.runs.map fun r => (r.1, { r.2 with pages := r.2.pages.mapIdx (repage r.2) })
  let blocks := f.blocks.map fun b => (b.1, b.2.map fun x =>
    if mine (x.1 / 2 ^ 21) then (x.1, (ppaOf 1 (x.1 / 2 ^ 21)).map fun p => if ppaFormat p = 15 then p else p + x.1 % 2 ^ 21) else x)
  let bad := (f.runs.any fun r => (List.range r.2.pages.length).any fun i =>
      let p := r.2.pva / 2 ^ 21 + i
      mine p && look (if r.2.write then 2 else 1) p == .bad)
    || f.blocks.any fun b => b.2.any fun x => mine (x.1 / 2 ^ 21) && look 1 (x.1 / 2 ^ 21) == .bad
  ({ f with runs := runs, blocks := blocks }, bad)

/-! ### The end of a firing (06 R209, R230, R231) -/

/-- The requests that waited behind claims proceed in arrival order where no claim stands in their way now (04 R143). -/
def flushClaims (s : State) : State :=
  let w := s.dir.claimWait
  w.foldl (fun s x => if claimBlocks (linePage (keyLine x.1)) x.2.op s then { s with dir.claimWait := s.dir.claimWait ++ [x] }
    else if x.2.isAgent then dirRequest x.1 x.2 s else dirEnter x.1 x.2 s) { s with dir.claimWait := [] }

/-- Completion record of a firing (R230). -/
def fireRecord (f : Firing) (status : Nat) (s : State) : List Nat :=
  let stop := latchOf f.sid s
  let shelves := f.parts.foldl (fun n p => n + p.shelves.length) 0
  let placed := f.parts.length
  recHead f.desc.kind f.desc.tag status f.sid (f.desc.glaze + 2 ^ 16 * placed + 2 ^ 20 * shelves)
      (f.flags % 256 + 2 ^ 8 * f.causes) f.seed f.submitted f.started s.now f.written f.crazed (f.refires % 2 ^ 32)
      (f.retired % 2 ^ 16 + 2 ^ 16 * min 65535 f.overrun)
    ++ pairWords f.sid (if f.started = 0 then stop else f.latch) stop

/-- Status of a firing that ended (R231); a lost die makes it CRAZED whatever it wrote (11 R398). -/
def fireStatus (f : Firing) : Nat := f.stop.getD (if f.crazed = 0 ∧ bitOf f.causes 5 = false then stOK else stCRAZED)

/-- Frees a shelf from its part; a marked one is left for SHELF_OUT (05 R190). -/
def freeShelf (sh : Nat) : State → State :=
  modShelf sh fun x => { x with run := none, wait := .none, slots := 0, rep := 0, attempts := 0, nine := [], bra := false, braS := false,
                                lanes := [], unread := [], shadow := [], const := [] }

/-- Changes window `w`. -/
def modWin (w : Nat) (f : Window → Window) (s : State) : State := { s with kiln.wins := smMod w f s.kiln.wins }

/-- Opens a round: accumulators, marks and the ledger are cleared (07 R259). -/
def openRound (round : Nat) (x : Window) : Window :=
  { x with st := .opened, opened := true, round := round % 65536, ledger := [], accs := [], received := 0, dups := 0,
           late := 0, refused := 0, firstAt := 0, closedAt := 0, extra := 0 }

/-- A shelf of the window is marked to leave service (07 R265). -/
def winLeaving (x : Window) (s : State) : Bool := x.shelves.any fun sh => ((shelfOf sh s).map (·.marked)).getD false

/-- Where a window goes once its round and step are over (07 R265): `rearm` where the step ran or the sums were dropped. -/
def winRest (w : Nat) (rearm : Bool) (s : State) : State :=
  match smGet w s.kiln.wins with
  | none => s
  | some x =>
    if x.st = .lost then s
    else if winLeaving x s then modWin w (fun x => { x with st := .lost, opened := false, accs := [] }) s
    else if rearm && x.blk.autoRearm then modWin w (fun x => openRound (x.round + 1) x) s
    else modWin w (fun x => { x with st := .parked, opened := false, accs := [] }) s

/-- Ends a firing (R209 Done): its claims released, its record sent, its shelves free. -/
def endFiring (f : Firing) (s : State) : State :=
  let st := fireStatus f
  let s := { s with kiln.firings := s.kiln.firings.filter (·.fid != f.fid)
                    kiln.dies := s.kiln.dies.map fun (k : KilnDie) => { k with queue := k.queue.filter (·.1 != f.fid) }
                    xlt.faults := s.xlt.faults.map fun (x : Fault') => { x with waiters := x.waiters.filter (·.1 != firingWaiter f) }
                    dir.claims := s.dir.claims.filter (·.firing != f.fid) }
  let s := (f.parts.flatMap (·.shelves)).foldl (fun s sh =>
    if ((shelfOf sh s).bind (·.run)) = some f.fid then freeShelf sh s else s) s
  let s := modCtr f.sid (fun c => { c with firings := add64 c.firings 1 }) s
  let s := addGlobal 6 1 (if st = stDENIED then countDenied f.sid s else s)
  let words := fireRecord f st s
  let s := match f.sub with
    | some a =>
      if f.orphan then closeReq a.1 a.2.1 a.2.2.1 (modPortCtr a.1 (fun c => { c with undelivered := add32 c.undelivered 1 }) s)
      else sendCompletion (f.submitted + f.desc.limit * 1000) a st words s
    | none => emit 0x01 f.sid 0 0 words s
  let s := match f.win with
    | some w => winRest w (f.started != 0) s
    | none => s
  flushClaims s

/-! ### Claims (04 R142, R143) -/

/-- Pages a firing claims, with WRITE where it is a result page (R142; 07 R242, R243). Block-table pages, rows and records
need none. -/
def claimPages (f : Firing) : List (Nat × Bool) :=
  let of (r : Nat × Run) : List (Nat × Bool) := r.2.pages.filterMap fun p => p.map fun x => (ppaOffset x / 2 ^ 21, r.2.write)
  let runs := f.runs.filter fun r => r.1 < 100 || (match f.ctxs.find? (fun c => 100 + c.1 == r.1) with
    | some c => c.2.e.kind == 2
    | none => false)
  let all := runs.flatMap of ++ f.blocks.flatMap fun b => b.2.filterMap fun x => x.2.map fun p => (ppaOffset p / 2 ^ 21, false)
  ((all.map (·.1)).eraseDups).map fun p => (p, all.any fun c => c.1 == p && c.2)

/-- An earlier firing has not yet requested its claims, for want of room: later ones do not overtake it (R142). -/
def claimQueue (fid : Nat) (s : State) : Bool :=
  (s.kiln.firings.takeWhile (·.fid != fid)).any fun g => g.st == .claiming && !(claimPages g).isEmpty && !(s.dir.claims.any (·.firing == g.fid))

/-- Requests the claims of a firing, when the claim tables have room (R142): new conflicting requests now wait, and the
pages' copies are recalled. -/
def requestClaims (fid : Nat) (s : State) : State :=
  match firingBy fid s with
  | none => s
  | some f =>
    let ps := claimPages f
    if s.dir.claims.any (·.firing == fid) || claimQueue fid s || poolFull (s.dir.claims.map fun c => ((firingBy c.firing s).map (·.sid)).getD 0) f.sid 1024 65536 ps.length s then s
    else
      let s := { s with dir.claims := s.dir.claims ++ ps.map fun p => ⟨p.1, p.2, fid, false⟩ }
      ps.foldl (fun s p => recallPage (localPpa (p.1 * 2 ^ 21)) (if p.2 then .recallInv else .recallShare) false s) s

/-- An earlier claim of another firing stands in the way of a claim (R142). -/
def claimClash (before : List Claim) (c : Claim) : Bool :=
  before.any fun b => b.page == c.page && b.firing != c.firing && (b.write || c.write)

/-- All claims of a firing can be held now: every earlier request is granted, no claim that is held stands in the way, and the recalls are
over (R142, R143, 06 R208). -/
def claimsReady (fid : Nat) (s : State) : Bool :=
  let mine := s.dir.claims.filter (·.firing == fid)
  let before := s.dir.claims.takeWhile (·.firing != fid)
  !mine.isEmpty && before.all (·.held) && mine.all fun c => !claimClash before c && !pageBusy (localPpa (c.page * 2 ^ 21)) c.write s

/-! ### States up to Queued (06 R208, R209) -/

/-- Reads the block tables whose pages are all present and bakes their blocks (07 R242). The flag tells a failure. -/
def bakeTables (f : Firing) (s : State) : Firing × Option Nat × State :=
  f.ctxs.foldl (fun (acc : Firing × Option Nat × State) c =>
    let (f, bad, s) := acc
    if c.2.e.kind ≠ 1 ∨ f.blocks.any (·.1 == c.1) = true then acc
    else match readTable f.fid f.sid c.1 c.2.e f.runs s with
      | (none, s') => (f, bad, s')
      | (some ps, s') =>
        let rs := ps.map fun p => (p, bakeBlock f.sid c.2.e p s')
        let st := if rs.any (·.2 == .denied) then some stDENIED else if rs.any (·.2 == .crosses) then some stLENGTH else none
        ({ f with blocks := f.blocks ++ [(c.1, rs.map fun r => (r.1, match r.2 with
            | .at_ p => p
            | _ => none))] }, bad.or st, s')) (f, none, s)

/-- Replaces firing `fid`. -/
def setFiring (f : Firing) : State → State := modFiring f.fid fun _ => f

/-- Moves a Faulting firing on: with every page Present and local it enters Claiming (R208), else it waits on its faults. -/
def advanceFiring (fid : Nat) (s : State) : State :=
  match firingBy fid s with
  | none => s
  | some f =>
    if f.st ≠ .faulting then s
    else
      let (f, bad, s) := bakeTables f s
      match bad with
      | some st => endFiring { f with stop := some st } s
      | none =>
        let f := { f with pieces := piecesOf f.runs f.ctxs, heat := ((firingBy fid s).map (·.heat)).getD [] }
        let s := setFiring f s
        if (firingNeeds f s).isEmpty then
          let f := { f with st := .claiming, parts := partsOf f s }
          if f.win.isNone ∧ (partDeny f s || noShelves f s) = true then endFiring { f with stop := some stDENIED } (setFiring f s)
          else requestClaims fid (setFiring f s)
        else firingFaults f s

/-- Takes an accepted firing: one with nothing to do completes at once (R202). -/
def acceptFiring (f : Firing) (s : State) : State :=
  let s := { s with kiln.nextFid := s.kiln.nextFid + 1 }
  let (v, s) := if f.desc.seed = 0 ∧ f.win.isNone then draw s else (0, s)
  let f := if f.desc.seed = 0 ∧ f.win.isNone then { f with seed := v % (2 ^ 64 - 1) + 1 } else f
  if fireEmpty f.desc s then endFiring { f with runs := [] } s
  else advanceFiring f.fid { s with kiln.firings := s.kiln.firings ++ [f] }

/-- Stops a firing early (R209, R217, R231, 02 R79): before Running it ends at once; running parts stop at their next
commit, queued parts leave their queues. -/
def stopFiring (fid status : Nat) (s : State) : State :=
  match firingBy fid s with
  | none => s
  | some f =>
    if f.st = .running then
      let s := { s with kiln.dies := s.kiln.dies.map fun (k : KilnDie) => { k with queue := k.queue.filter (·.1 != fid) } }
      modFiring fid (fun f => { f with stop := f.stop.or (some status) }) s
    else endFiring { f with stop := some status } s

/-- Waiting parts that can no longer get their shelves complete DENIED (11 R398). -/
def starveParts (s : State) : State :=
  (s.kiln.firings.filter fun f => noShelves f s).foldl (fun s f => stopFiring f.fid stDENIED s) s

end Sys2Proof.Machine
end

