-- ==== Sys2Proof/Machine/Lanes.lean ====
section
/-! DEFINITION. What a shelf does around its instructions: streams (06 R203 to R205, R211 to R213; 07 R245 to R247), lane
set-up (06 R196, R197, R209), output conversion and commits (06 R213 to R216, R222), residue mismatches (05 R188 to R190). -/

namespace Sys2Proof.Machine

/-! ### Reading streams -/

/-- Runs a read after another unless it met a tag mismatch. -/
def thenRead {α β : Type} (x : Option α × State) (g : α → State → Option β × State) : Option β × State :=
  match x with
  | (some a, s) => g a s
  | (none, s) => (none, s)

/-- Runs a read for each of a list, in order. -/
def readEach {α β : Type} (g : α → State → Option β × State) : List α → State → Option (List β) × State
  | [], s => (some [], s)
  | a :: r, s => thenRead (g a s) fun b s => thenRead (readEach g r s) fun bs s => (some (b :: bs), s)

/-- Baked run of a key. -/
def runAt (f : Firing) (key : Nat) : Run := ((f.runs.find? (·.1 == key)).map (·.2)).getD ⟨f.sid, 0, 0, false, []⟩

/-- A run over `n` bytes from a PVA and its PPA, whose pages follow each other. -/
def directRun (sid pva ppa n : Nat) : Run :=
  let base := ppa / 2 ^ 21 * 2 ^ 21
  ⟨sid, pva, n, false, (List.range ((ppa % 2 ^ 21 + n) / 2 ^ 21 + 1)).map fun i => some (base + i * 2 ^ 21)⟩

/-- Grains that lane `j` of a part of `n` lanes holds, in order (R203). -/
def laneGrains (grains : List Nat) (n j : Nat) : List Nat :=
  (List.range (ceilDiv (grains.length - j) n)).filterMap fun i => grains[j + i * n]?

/-- Words that a stream engine reads at once and keeps at most for one stream of a lane: four streams make 2 KiB (R211, log 11). -/
def chunkWords : Nat := 64
def aheadWords : Nat := 128

/-- The pieces in which a lane's grains of a SPLIT stream are read: grain, offset in it, bytes (R203, R211). -/
def streamChunks (f : Firing) (sl : Slot) (gr : List Nat) : List (Nat × Nat × Nat) :=
  let gs := grainBytes sl
  let cb := chunkWords * wordBytes sl.format sl.pack4
  let len := (runAt f sl.role).len
  gr.flatMap fun i => let n := min gs (len - i * gs); (List.range (ceilDiv n cb)).map fun k => (i, k * cb, min cb (n - k * cb))

/-- Words of a piece of a SPLIT stream, with its scale bytes (R204, R211). -/
def splitWords (f : Firing) (sl : Slot) (c : Nat × Nat × Nat) (s : State) : Option (List SWord) × State :=
  thenRead (readBytes f.fid f.sid (runAt f sl.role) (c.1 * grainBytes sl + c.2.1) c.2.2 s) fun bs s =>
    let r := runAt f (sl.role + 6)
    let a := c.1 * roleGrain f.desc (sl.role + 6) + elemCount sl.format c.2.1 / 32
    thenRead (if isMx f.desc sl.role then readBytes f.fid f.sid r a (min (ceilDiv (elemCount sl.format c.2.2) 32) (r.len - a)) s
        else (some [], s)) fun sc s =>
      (some (streamWords sl.format sl.pack4 sc (bs.length + 1) 0 bs), s)

/-- Words of a stream's pieces that are not yet read. -/
def unreadWords (sl : Option Slot) (cs : List (Nat × Nat × Nat)) : Nat :=
  match sl with
  | some sl => cs.foldl (fun n c => n + ceilDiv c.2.2 (wordBytes sl.format sl.pack4)) 0
  | none => 0

/-- Reads on in one stream while `have` words and the next piece still fit (R211): the words read and the pieces left. -/
def readAhead (f : Firing) (sl : Slot) : Nat → List (Nat × Nat × Nat) → State → Option (List SWord × List (Nat × Nat × Nat)) × State
  | _, [], s => (some ([], []), s)
  | n, c :: cs, s =>
    if n + chunkWords ≤ aheadWords then
      thenRead (splitWords f sl c s) fun ws s =>
        thenRead (readAhead f sl (n + ws.length) cs s) fun r s => (some (ws ++ r.1, r.2), s)
    else (some ([], c :: cs), s)

/-- Appends words to stream IN`n` of a lane. -/
def addWords (n : Nat) (ws : List SWord) (l : Lane) : Lane := { l with ins := l.ins.modify n (· ++ ws) }

/-- Reads on for stream IN`n` of lane `j` of a shelf: the words join the lane's and its shadow's, so that a step fired again finds them
(R211, 05 R188). -/
def feedStream (f : Firing) (x : Shelf) (p : Nat × Nat) (s : State) : Option Shelf × State :=
  match slotOf (p.2 + 1) f.desc, (x.unread[p.1]?).bind (·[p.2]?), x.lanes[p.1]? with
  | some sl, some (c :: cs), some l =>
    if l.fin then (some x, s)
    else thenRead (readAhead f sl (l.ins.getD p.2 []).length (c :: cs) s) fun r s =>
      (some { x with lanes := x.lanes.modify p.1 (addWords p.2 r.1), shadow := x.shadow.modify p.1 (addWords p.2 r.1),
                     unread := x.unread.modify p.1 (·.set p.2 r.2) }, s)
  | _, _, _ => (some x, s)

/-- Reads on for all streams of a shelf. -/
def feedAll (f : Firing) : List (Nat × Nat) → Shelf → State → Option Shelf × State
  | [], x, s => (some x, s)
  | p :: r, x, s => thenRead (feedStream f x p s) fun x s => feedAll f r x s

/-- Words of a BCAST stream (R205). -/
def bcastWords (f : Firing) (sl : Slot) (s : State) : Option (List SWord) × State :=
  thenRead (readBytes f.fid f.sid (runAt f sl.role) 0 sl.length s) fun bs s =>
    thenRead (if isMx f.desc sl.role then
        readBytes f.fid f.sid (runAt f (sl.role + 6)) 0 (runAt f (sl.role + 6)).len s else (some [], s)) fun sc s =>
      (some (streamWords sl.format sl.pack4 sc (bs.length + 1) 0 bs), s)

/-- A plain stream word. -/
def plainWord (v t : Nat) : SWord := ⟨⟨BitVec.ofNat 32 v, t⟩, 127⟩

/-- The first token and the token count of a piece's tokens that block `b` holds, as offset in the block and count. -/
def pieceBlocks (e : Ctx) (p : Piece) : List (Nat × Nat × Nat) :=
  let bt := blockTokens e
  if p.count = 0 then []
  else (List.range ((p.first + p.count - 1) / bt - p.first / bt + 1)).map fun i =>
    let b := p.first / bt + i
    let lo := max p.first (b * bt)
    let hi := min (p.first + p.count) ((b + 1) * bt)
    (b, lo - b * bt, hi - lo)

/-- Rows of a KV piece in section 0 (K) or 1 (V) (R240, R247). -/
def kvRows (f : Firing) (e : Ctx) (p : Piece) (sec : Nat) (s : State) : Option (List SWord) × State :=
  let ppas := ((f.blocks.find? (·.1 == p.ctx)).map (·.2)).getD []
  let sect := blockTokens e * rowBytes e
  thenRead (readEach (fun b s =>
      let ppa := ((ppas[b.1]?).bind (·.2)).getD voidPpa
      let pva := ((ppas[b.1]?).map (·.1)).getD 0
      readBytes f.fid f.sid (directRun f.sid pva ppa (blockBytes e)) ((2 * p.head + sec) * sect + b.2.1 * rowBytes e) (b.2.2 * rowBytes e) s)
    (pieceBlocks e p) s) fun bs s => (some (streamWords e.format false [] (bs.flatten.length + 1) 0 bs.flatten), s)

/-- Little-endian words of bytes, each with its taint; a last word with fewer bytes ends in zeros. -/
def bytesWords (bs : List (Nat × Nat)) : List (Nat × Nat) :=
  (List.range (ceilDiv bs.length 4)).map fun i => let b := (bs.drop (4 * i)).take 4; (leVal b, leTaint b)

/-- First index, count and taint of a bag; a count of 0 with a tainted header where the offsets decrease or pass NNZ (R243). -/
def bagSpan (f : Firing) (e : Ctx) (p : Piece) (s : State) : Option (Nat × Nat × Nat) × State :=
  thenRead (readBytes f.fid f.sid (runAt f (100 + p.ctx)) (4 * p.chunk) 8 s) fun bs s =>
    let ws := bytesWords bs
    let a := ((ws[0]?).map (·.1)).getD 0
    let b := ((ws[1]?).map (·.1)).getD 0
    let t := leTaint bs
    (some (if b < a ∨ e.nnz < b then (a, 0, 1) else (a, b - a, t)), s)

/-- Rows of a bag, in index order; an index of ROWS or above gives a tainted row of zeros (R243). -/
def bagRows (f : Firing) (c : CtxSt) (p : Piece) (first n : Nat) (s : State) : Option (List SWord) × State :=
  let e := c.e
  thenRead (readBytes f.fid f.sid (runAt f (100 + p.ctx)) (4 * (e.count + 1) + 4 * first) (4 * n) s) fun bs s =>
    thenRead (readEach (fun i s =>
        if i.1 < e.rows then
          thenRead (readBytes f.fid f.sid (directRun f.sid (e.aux + i.1 * rowBytes e) (c.base + i.1 * rowBytes e) (rowBytes e)) 0 (rowBytes e) s) fun row s =>
            (some ((streamWords e.format false [] (row.length + 1) 0 row).map fun w =>
              { w with w := ⟨w.w.v, max w.w.t i.2⟩ }), s)
        else (some (List.replicate (rowBytes e / 4) (plainWord 0 1)), s)) (bytesWords bs) s) fun rows s => (some rows.flatten, s)

/-- Words of one piece in a BLOCKS stream: its eight header words, then its data (R246, R247). -/
def pieceWords (f : Firing) (sl : Slot) (i : Nat) (s : State) : Option (List SWord) × State :=
  match f.pieces[i]?, (f.pieces[i]?).bind fun p => f.ctxs.find? (·.1 == p.ctx) with
  | some p, some (_, c) =>
    let e := c.e
    if e.kind = 1 then
      let head := [p.ctx, p.chunk, p.head, p.count, p.first, e.aux % 2 ^ 32, e.aux / 2 ^ 32, i].map (plainWord · 0)
      thenRead (if sectionOf sl = 2 then
          thenRead (readBytes f.fid f.sid (runAt f sl.role) (((p.ctx - f.desc.ctxBase) * e.kvHeads + p.head) * sl.length) sl.length s)
            fun bs s => (some (streamWords sl.format sl.pack4 [] (bs.length + 1) 0 bs), s)
        else kvRows f e p (sectionOf sl) s) fun ws s => (some (head ++ ws), s)
    else
      thenRead (bagSpan f e p s) fun b s =>
        let t := if b.2.1 = 0 then b.2.2 else 0
        let head := [p.ctx, p.chunk, 0, b.2.1, b.1, 0, 0, i].map (plainWord · t)
        thenRead (if sectionOf sl = 0 then bagRows f c p b.1 b.2.1 s
          else thenRead (readBytes f.fid f.sid (runAt f (100 + p.ctx)) (4 * (e.count + 1) + 4 * e.nnz + 4 * b.1) (4 * b.2.1) s)
            fun bs s => (some (streamWords 0 false [] (bs.length + 1) 0 bs), s)) fun ws s => (some (head ++ ws), s)
  | _, _ => (some [], s)

/-- Words of stream IN`n` that a lane has as its part starts; `bc` holds the BCAST streams, read once for the part. A SPLIT stream is read as
the lane goes on (R211). -/
def laneStream (f : Firing) (bc : List (List SWord)) (gr : List Nat) (n : Nat) (s : State) : Option (List SWord) × State :=
  match slotOf (n + 1) f.desc with
  | none => (some [], s)
  | some sl =>
    match sl.dist with
    | 0 => (some [], s)
    | 3 => thenRead (readEach (pieceWords f sl) gr s) fun ws s => (some ws.flatten, s)
    | _ => (some (bc.getD n []), s)

/-! ### Lanes at the start of a part (R194, R197) -/

/-- A word without taint. -/
def clean (v : Word) : TWord := ⟨v, 0⟩

/-- Elements that a lane's grains of an OUT region take (R213). -/
def laneRoom (f : Firing) (role : Nat) (gr : List Nat) : Nat :=
  match slotOf role f.desc with
  | none => 0
  | some sl =>
    if sl.dist ≠ 0 then 0
    else
      let gs := grainBytes sl
      elemCount sl.format (gr.foldl (fun n i => n + min gs (sl.length - i * gs)) 0)

/-- Elements of a window that lane `l` of `n` lanes holds, in order (07 R259). -/
def winElems (ge total n l : Nat) : List Nat :=
  let grains := ceilDiv total ge
  (List.range (ceilDiv (grains - l) n)).flatMap fun i => (List.range ge).map fun k => (l + i * n) * ge + k

/-- Private words that a window step finds: rnd(S + C) and +0 for each element (07 R267). -/
def winPriv (x : Window) (n l : Nat) : SMap TWord :=
  let es := winElems (16 * 2 ^ x.blk.gw) x.blk.elements n l
  (es.mapIdx fun k e => (2 * k, match smGet e x.accs with
    | some a => ⟨BitVec.ofNat 32 (add32f a.s.v a.c.v).v, max a.s.t a.c.t⟩
    | none => clean 0)).filter fun w => w.2 != clean 0

/-- A lane at the start of a part (R197): `n` lanes, die `k`, index `j`, global logical number `g`. -/
def startLane (f : Firing) (n k g : Nat) (gr : List Nat) (ins : List (List SWord)) (priv : SMap TWord) : Lane :=
  let w := List.replicate 14 (clean 0) ++ [clean (BitVec.ofNat 32 n), clean (BitVec.ofNat 32 k)]
    ++ (List.range 8).map fun i => clean (f.desc.args.getD i 0)
  ⟨w, List.replicate 8 (false, 0), clean 0, clean 0, 0, srSeed f.seed g, priv, ins, [[], [], [], []], [0, 0, 0, 0], [[], []],
   [laneRoom f 5 gr, laneRoom f 6 gr], 0, false, 0, 0, 0, 0, 0⟩

/-- A shelf at the start of a part; `unread` are the pieces its lanes' streams have to read. -/
def startShelf (f : Firing) (base : Nat) (lanes : List Lane) (unread : List (List (List (Nat × Nat × Nat)))) (const : SMap TWord) (now : Nat) (x : Shelf) : Shelf :=
  { x with run := some f.fid, base := base, idx := 0, rep := 0, ct := [0, 0, 0, 0], const := const, lanes := lanes, unread := unread,
           shadow := lanes, ctS := [0, 0, 0, 0], idxS := 0, repS := 0, slots := 0, bra := false, braS := false, attempts := 0, nine := [],
           wait := .none, contrib := [], stepAt := now }

/-! ### Glaze residency (R195, R209) -/

/-- Bytes a glaze takes in a store: its code in units of 4 KiB. -/
def storeBytes (code : Nat) : Nat := ceilDiv (4 * code) 4096 * 4096

/-- Bytes the residents of a store take, by the library's sizes. -/
def storeUsed (st : List Resident) : Nat := st.foldl (fun n r => n + r.size) 0

/-- Evicts the least recently used residents until `need` bytes fit in 256 KiB. -/
def evictStore (need : Nat) : Nat → List Resident → List Resident
  | 0, st => st
  | fuel + 1, st =>
    if storeUsed st + need ≤ 262144 then st
    else match st.foldl (fun (b : Option Resident) r => match b with
        | none => some r
        | some x => if r.used < x.used then some r else b) none with
      | none => st
      | some v => evictStore need fuel (st.erase v)

/-- Words of a glaze image as the library pages hold it: header, then code (R226, R228). -/
def imageWords (g : Glaze) : List Nat :=
  [1 + 2 ^ 16 * g.id, g.version, g.code.length, g.requires + 2 ^ 14 * b2n g.ctx + 2 ^ 15 * b2n g.win]
    ++ [g.key] ++ List.replicate 11 0 ++ g.code.map (·.toNat)

/-- Sixteen words as a line. -/
def wordsLine (ws : List Nat) : LineData := BitVec.ofNat 512 (ws.foldr (fun w a => w + 2 ^ 32 * a) 0)

/-- Lines of a list of words. -/
def wordLines (ws : List Nat) : List LineData := (List.range (ceilDiv ws.length 16)).map fun i => wordsLine ((ws.drop (16 * i)).take 16)

/-- Pool line that holds line `i` of a glaze's image. -/
def imageLine (g : Glaze) (i : Nat) : Nat := (g.units.getD (i / 64) 0) + i % 64

/-- The digest check on load passes: the library's pages still hold the image (R209, log 18). What its reads find is counted (03 R104). -/
def glazeIntact (g : Glaze) (s : State) : Bool × State :=
  ((wordLines (imageWords g)).zipIdx).foldl (fun (a : Bool × State) p =>
    let r := readLocal (imageLine g p.2) 0 a.2
    (a.1 && (match r.1 with
      | some (d, c) => c == 0 && d == p.1
      | none => false), r.2)) (true, s)

/-- Makes a glaze resident on a shelf; false when its digest check fails (R209). -/
def loadGlaze (g : Glaze) (sh : Nat) (s : State) : Bool × State :=
  match shelfOf sh s with
  | none => (true, s)
  | some x =>
    if x.store.any (fun r => r.id == g.id && r.version == g.version) then
      (true, modShelf sh (fun x => { x with store := x.store.filter (·.id != g.id)
          ++ (x.store.filter (·.id == g.id)).map fun (r : Resident) => { r with used := s.now } }) s)
    else
      let (good, s) := glazeIntact g s
      if good then
      let st := evictStore (storeBytes g.code.length) 65 (x.store.filter (·.id != g.id))
      (true, modKiln (sh / 40) (fun k => { k with glazeLoads := add32 k.glazeLoads 1 })
        (modShelf sh (fun x => { x with store := st ++ [⟨g.id, g.version, storeBytes g.code.length, s.now⟩] }) s))
      else (false, emit 0x0D 4095 1 (sh / 40) [g.id, sh, 0] s)

/-! ### Output conversion (R213, R168) -/

/-- The codes of elements packed into bytes. -/
def packCodes (bits : Nat) (codes : List Nat) : List Nat :=
  bytesLE (bits * codes.length / 8) (codes.foldr (fun c a => c + 2 ^ bits * a) 0)

/-- Appends bytes with a taint to output list `n`. -/
def putBytes (n : Nat) (bs : List Nat) (t : Nat) (l : Lane) : Lane :=
  { l with outs := l.outs.modify n fun o => o ++ bs.map fun b => (b, t) }

/-- A push to OUT`n` (R213): discarded and counted when the lane's grains are full. -/
def pushOut (d : FireDesc) (n : Nat) (v : TWord) (l : Lane) : Lane :=
  let l := { l with pushes := l.pushes + 1 }
  let room := l.room.getD n 0
  match slotOf (5 + n) d with
  | none => l
  | some sl =>
    if room = 0 then { l with lost := l.lost + 1 }
    else
      let l := { l with room := l.room.set n (room - 1) }
      if isMx d (5 + n) then
        let blk := l.blk.getD n [] ++ [v]
        if blk.length < 32 then { l with blk := l.blk.set n blk }
        else
          let (sc, codes, f, g) := mxBlock sl.format d.rmode (blk.map (·.v)) l.g
          let t := blk.foldl (fun t w => max t w.t) 0
          putBytes (2 + n) [sc] t (putBytes n (packCodes (elemBits sl.format) codes) t
            { l with blk := l.blk.set n [], g := g, f := l.f ||| f })
      else if sl.format = 0 ∨ sl.format = 10 then putBytes n (bytesLE 4 v.v.toNat) v.t l
      else
        let (r16, g) := srDraw d.rmode l.g
        let r := convert (fmtOf sl.format) d.rmode d.sat r16 v.v
        putBytes n (bytesLE (elemBits sl.format / 8) r.v) v.t { l with g := g, f := l.f ||| r.f }

/-! ### Writing result lines (R214, R215) -/

/-- Result bytes that lie together in one line: line number of the region's address space, first byte, bytes, taint. -/
structure OutLine where
  line : Nat
  first : Nat
  bytes : List Nat
  t : Nat
deriving DecidableEq, Repr

/-- Groups addressed bytes into lines. -/
def groupLines (bs : List (Nat × Nat × Nat)) : List OutLine :=
  bs.foldr (fun b acc => match acc with
    | o :: r => if o.line = b.1 / 64 ∧ o.first = b.1 % 64 + 1 then ⟨o.line, b.1 % 64, b.2.1 :: o.bytes, max o.t b.2.2⟩ :: r
      else ⟨b.1 / 64, b.1 % 64, [b.2.1], b.2.2⟩ :: acc
    | [] => [⟨b.1 / 64, b.1 % 64, [b.2.1], b.2.2⟩]) []

/-- Cause of a taint level (R214, 07 R263). -/
def taintCause (t : Nat) : Nat := [0, 8, 7, 9].getD t 9

/-- Counts a result line written with a cause. -/
def countLine (fid cause : Nat) (s : State) : State :=
  modFiring fid (fun f => { f with written := f.written + 1, crazed := f.crazed + b2n (cause != 0)
                                   causes := Nat.lor f.causes (2 ^ cause) }) s

/-- The bytes of an output line as data, and their mask. -/
def outData (o : OutLine) : LineData := BitVec.ofNat 512 (leVal (o.bytes.map fun b => (b, 0)) * 2 ^ (8 * o.first))

/-- Sends a PUSH (08 R300, R304) for result bytes at an address of the agent. -/
def sendPush (f : Firing) (o : OutLine) (cause : Nat) (s : State) : State :=
  match f.sub with
  | none => s
  | some a =>
    let pad := o.bytes ++ List.replicate ((4 - o.bytes.length % 4) % 4) 0
    let ws := (List.range (pad.length / 4)).map fun i => leVal (((pad.drop (4 * i)).take 4).map fun b => (b, 0))
    if f.orphan then modPortCtr a.1 (fun c => { c with undelivered := add32 c.undelivered 1 }) s
    else
      let s := (chargeF f.sid (64 * ceilDiv o.bytes.length 64 + s.sags.shape.fOvh) s).2
      sendWords a.1 0x80 a.2.1 0 0 0 (w64 (64 * o.line + o.first) ++ [cause, o.bytes.length] ++ ws) s

/-- A result line went out with a cause on die `k`: KLN_CAUSE9 counts those with cause 9 (05 R192). -/
def countNine (k cause : Nat) (s : State) : State :=
  if cause = 9 then modKiln k (fun d => { d with cause9 := add32 d.cause9 1 }) s else s

/-- A tag mismatch on an operand line, or a result line that 03 R99 or R120 refuses: the firing stops DENIED (R217). -/
def tagStop (fid : Nat) (s : State) : State := stopFiring fid stDENIED s

/-- Writes a result line of a role with a cause (R99, R214), for a part on die `k`: on a lost die it counts with cause 5 (03 R118); where
the pool refuses it the firing stops DENIED. -/
def writeOut (f : Firing) (k role : Nat) (o : OutLine) (cause : Nat) (s : State) : State :=
  let push := ((slotOf role f.desc).map (·.push)).getD false
  if push then sendPush f o cause (countNine k cause (countLine f.fid cause s))
  else
    let r := runAt f role
    match runPpa r (64 * o.line + o.first - r.pva) with
    | none => s
    | some p =>
      let l := ppaOffset p / 64
      match writeLocal l f.sid f.sid (outData o) (if o.bytes.length = 64 then fullMask else rangeMask o.first o.bytes.length) cause
          (some 0) s with
      | some s' => streamLine f.fid f.sid (64 * o.line) (countNine (lineDie l) cause (countLine f.fid cause s'))
      | none => if dieState (lineDie l) s = .lost then countLine f.fid 5 s else tagStop f.fid s

/-- Writes bytes of a lane's output list, the first of them at byte `sent` of the lane's grains. -/
def commitOut (f : Firing) (k : Nat) (gr : List Nat) (role sent : Nat) (bs : List (Nat × Nat)) (nine : Bool) (s : State) : State :=
  if bs.isEmpty then s
  else
    let pva := ((slotOf role f.desc).map (·.pva)).getD 0
    let gs := roleGrain f.desc role
    let addr (i : Nat) : Nat := pva + (gr.getD (i / gs) 0) * gs + i % gs
    let lines := groupLines (bs.mapIdx fun i b => (addr (sent + i), b.1, if nine then 3 else b.2))
    let n := lines.length
    let s := (chargeL f.sid n s).2
    lines.foldl (fun s o => writeOut f k role o (taintCause o.t) s) s

/-- Role of an output list. -/
def outList (n : Nat) : Nat := [5, 6, 11, 12].getD n 5

/-- Marks the words of an MX block that is not full when some of them come from a step written with cause 9 (R214); `old` is the room of the
lane's outputs as that step began. -/
def markBlocks (old : List Nat) (l : Lane) : Lane :=
  { l with blk := l.blk.mapIdx fun n b => if l.room[n]? = old[n]? then b else b.map fun w => { w with t := 3 } }

/-- Commits one lane's results on die `k`. -/
def commitLane (f : Firing) (k : Nat) (gr old : List Nat) (nine : Bool) (l : Lane) (s : State) : Lane × State :=
  let l := if nine then markBlocks old l else l
  let s := (List.range 4).foldl (fun s n => commitOut f k gr (outList n) (l.sent.getD n 0) (l.outs.getD n []) nine s) s
  let sent := (List.range 4).map fun n => l.sent.getD n 0 + (l.outs.getD n []).length
  ({ l with outs := [[], [], [], []], sent := sent, pops := 0, stps := 0, pushes := 0 }, s)

/-! ### Positions and residue states (05 R189) -/

/-- Position on which a logical lane stands. -/
def posOf (x : Shelf) (l : Nat) : Nat := ((x.moved.find? (·.1 == l)).map (·.2)).getD l

/-- The lane is Retired and no spare took its number. -/
def laneRetired (x : Shelf) (l : Nat) : Bool := smGet (posOf x l) x.residue == some 2

/-- The lane's results of the running step get cause 9 (05 R189, R190). -/
def laneNine (x : Shelf) (l : Nat) : Bool := x.nine.contains l || laneRetired x l

/-! ### Parts (06 R222, R209) -/

/-- The part of a firing that a shelf runs, with its index. -/
def partOf (f : Firing) (sh : Nat) : Option (Nat × Part) :=
  (f.parts.zipIdx.find? fun p => p.1.shelves.contains sh).map fun p => (p.2, p.1)

/-- All lanes of the shelf have ended. -/
def shelfEnded (sh : Nat) (s : State) : Bool := ((shelfOf sh s).map fun x => x.lanes.all (·.fin)).getD true

/-- Ends a part: flags and discarded pushes join the record, its shelves are free (05 R186, 06 R209). -/
def endPart (fid i : Nat) (s : State) : State :=
  match firingBy fid s with
  | none => s
  | some f => match f.parts[i]? with
    | none => s
    | some p =>
      let lanes := p.shelves.flatMap fun sh => ((shelfOf sh s).map (·.lanes)).getD []
      let flags := lanes.foldl (fun a l => a ||| l.f) 0
      let lost := lanes.foldl (fun a l => a + l.lost) 0
      let s := modFiring fid (fun f => { f with flags := Nat.lor f.flags flags.toNat, overrun := f.overrun + lost
                                                parts := f.parts.modify i fun p => { p with ended := true } }) s
      let s := modKiln p.die (fun k => { k with partsDone := add32 k.partsDone 1 }) s
      p.shelves.foldl (fun s sh => freeShelf sh s) s

/-- Ends the part of a shelf once all lanes of its shelves have ended. -/
def checkPart (fid sh : Nat) (s : State) : State :=
  match firingBy fid s with
  | none => s
  | some f => match partOf f sh with
    | some (i, p) => if p.shelves.all fun x => shelfEnded x s then endPart fid i s else s
    | none => s

/-- Counts the time of a step that ends or is discarded, when it was a repeat (05 R191). -/
def countRepeat (sid : Nat) (x : Shelf) (s : State) : State :=
  if x.attempts = 0 then s
  else addGlobal 3 (s.now - x.stepAt) (modCtr sid (fun c => { c with refireTicks := add64 c.refireTicks (s.now - x.stepAt) }) s)

/-- Commits a shelf's step (R222, 05 R188): results to DRAM, the shadow taken, the hold of 15 R480 observed. A firing that
is to stop ends here (R209). -/
def commitShelf (sh : Nat) (s : State) : State :=
  match shelfOf sh s with
  | none => s
  | some x => match x.run.bind fun fid => firingBy fid s with
    | none => s
    | some f => match partOf f sh with
      | none => s
      | some (_, p) =>
        let n := 256 * p.shelves.length
        let (lanes, s) := x.lanes.zipIdx.foldl (fun (acc : List Lane × State) l =>
          let old := ((x.shadow[l.2]?).map (·.room)).getD []
          let (l', s') := commitLane f p.die (laneGrains p.grains n (x.base + l.2)) old (laneNine x l.2) l.1 acc.2
          (acc.1 ++ [l'], s')) ([], s)
        let stopped := ((firingBy f.fid s).bind (·.stop)).isSome
        let lanes : List Lane := if stopped then lanes.map fun (l : Lane) => { l with fin := true } else lanes
        let s := countRepeat f.sid x s
        let steps := x.steps - 1
        let held := x.hold = 1 ∨ (x.hold = 2 ∧ steps = 0)
        let s := modShelf sh (fun x => { x with lanes := lanes, shadow := lanes, ctS := x.ct, idxS := x.idx, repS := x.rep, braS := x.bra
                                                slots := 0, attempts := 0, nine := [], stepAt := s.now, steps := steps
                                                held := x.held || decide held }) s
        checkPart f.fid sh (traceHub 5 (sh / 40) f.sid x.idx 0 f.desc.tag 0 s)

/-- Discards a shelf's step and fires it again for a firing of a sagger (05 R188, 06 R222): counters, stream positions and the taint of
branches go back with the lanes. -/
def restoreShelf (sh sid : Nat) (s : State) : State :=
  let s := ((shelfOf sh s).map fun x => countRepeat sid x s).getD s
  modShelf sh (fun x => { x with lanes := x.shadow, ct := x.ctS, idx := x.idxS, rep := x.repS, bra := x.braS, slots := 0, wait := .none
                                 contrib := [], attempts := x.attempts + 1, stepAt := s.now }) s

/-- Elements of a segment (07 R257). -/
def segElems (cfmt : Nat) : Nat := if cfmt = 0 then 1024 else 2048

/-- Logical lane and shelf on which element `e` of a window lies (07 R259). -/
def elemLane (x : Window) (e : Nat) : Nat × Nat :=
  let n := 256 * x.shelves.length
  let j := e / (16 * 2 ^ x.blk.gw) % n
  (x.shelves.getD (j / 256) 0, j % 256)

/-- The contribution last accumulated in a window is written with cause 9 in one lane (05 R188, R189): its step is that contribution. -/
def markContrib (sh l : Nat) (x : Window) : Window :=
  match x.ledger.head? with
  | none => x
  | some (_, g) =>
    let mark (m : SMap Acc) (e : Nat) : SMap Acc :=
      if elemLane x e = (sh, l) then let a := (smGet e m).getD ⟨clean 0, clean 0⟩; smSet e ⟨⟨a.s.v, 3⟩, a.c⟩ m else m
    { x with accs := ((List.range (segElems x.blk.cfmt)).map (g * segElems x.blk.cfmt + ·)).foldl mark x.accs }

/-- Marks a shelf to leave service (05 R190); a Parked window on it has no round or step to finish and becomes Lost (07 R265). -/
def markShelf (sh : Nat) (s : State) : State :=
  let s := modShelf sh (fun x => { x with marked := true }) s
  match (shelfOf sh s).bind (·.window) with
  | some w => modWin w (fun y => if y.st = .parked then { y with st := .lost } else y) s
  | none => s

/-- A residue mismatch of logical lane `l` in the running step (05 R189, R190); a step on a window's shelf that runs no part is the
contribution last taken. The fourth attempt, like a lane that finds no spare, also marks the shelf to leave service (06 R232). -/
def mismatch (sh l : Nat) (s : State) : State :=
  match shelfOf sh s with
  | none => s
  | some x =>
    let pos := posOf x l
    let st := (smGet pos x.residue).getD 0
    if st = 2 ∨ 256 ≤ l then s
    else
      let k := sh / 40
      let s := modKiln k (fun d => { d with residueFails := add32 d.residueFails 1 }) s
      let last : Bool := decide (3 ≤ x.attempts)
      let (dead, s) :=
        if st = 0 then (false, modShelf sh (fun x => { x with residue := smSet pos 1 x.residue }) s)
        else
          let s := modKiln k (fun d => { d with retired := d.retired + 1 }) s
          let s := match x.run with
            | some fid => modFiring fid (fun f => { f with retired := f.retired + 1 }) s
            | none => s
          let s := modShelf sh (fun x => { x with residue := smSet pos 2 x.residue }) s
          match x.free with
          | p :: r =>
            (false, emit 0x0C 4095 1 k [256 * sh + l, p]
              (modShelf sh (fun x => { x with free := r, moved := x.moved.filter (·.1 != l) ++ [(l, p)] }) s))
          | [] => (true, emit 0x0C 4095 1 k [256 * sh + l, 0xFFFFFFFF] s)
      let s := if dead || last then markShelf sh s else s
      match x.run.bind fun fid => firingBy fid s, x.window with
      | some f, _ =>
        if dead || last then modShelf sh (fun x => { x with nine := l :: x.nine }) s
        else restoreShelf sh f.sid (modFiring f.fid (fun f => { f with refires := f.refires + 1 }) s)
      | none, some w =>
        if dead || last then modWin w (markContrib sh l) s
        else modShelf sh (fun x => { x with attempts := x.attempts + 1 }) s
      | none, none => s

/-! ### Reading ahead (06 R211, R217) -/

/-- A part meets a tag mismatch: the firing stops DENIED and the part at once, without the step that is not committed (R217). -/
def refusePart (f : Firing) (sh : Nat) (s : State) : State :=
  let s := tagStop f.fid s
  match partOf f sh with
  | some (i, _) => endPart f.fid i s
  | none => s

/-- The stream engine of a shelf reads on for its lanes, a lane's four streams at most 2 KiB ahead of what they have popped (R211). -/
def feed (sh : Nat) (s : State) : State :=
  match shelfOf sh s with
  | none => s
  | some x =>
    if x.unread.all (fun l => l.all (·.isEmpty)) then s
    else match x.run.bind fun fid => firingBy fid s with
      | none => s
      | some f =>
        let before := s.obs.global.getD 0 0
        let r := feedAll f ((List.range 256).flatMap fun j => (List.range 4).map fun n => (j, n)) x s
        let s := (chargeL f.sid (r.2.obs.global.getD 0 0 - before) r.2).2
        match r.1 with
        | some x => modShelf sh (fun _ => x) s
        | none => refusePart f sh s

/-! ### Placement (06 R208, R209) -/

/-- Lanes of one shelf of a part with their streams; none on a tag mismatch. -/
def buildLanes (f : Firing) (p : Part) (bc : List (List SWord)) (sh base : Nat) (s : State) : Option (List Lane) × State :=
  let n := 256 * p.shelves.length
  readEach (fun l s =>
    let gr := laneGrains p.grains n (base + l)
    thenRead (readEach (laneStream f bc gr) [0, 1, 2, 3] s) fun ins s =>
      let priv := match f.win with
        | some w => ((smGet w s.kiln.wins).map fun x => winPriv x n (base + l)).getD []
        | none => []
      (some (startLane f n p.die (256 * sh + l) gr ins priv), s)) (List.range 256) s

/-- Pieces that the SPLIT streams of one shelf's lanes have to read. -/
def partUnread (f : Firing) (p : Part) (base : Nat) : List (List (List (Nat × Nat × Nat))) :=
  let n := 256 * p.shelves.length
  (List.range 256).map fun l => (List.range 4).map fun i => match slotOf (i + 1) f.desc with
    | some sl => if sl.dist = 0 then streamChunks f sl (laneGrains p.grains n (base + l)) else []
    | none => []

/-- Starts part `i` of a glaze firing on its shelves (R209); on a tag mismatch it stops at once (R217). -/
def startPart (f : Firing) (i : Nat) (p : Part) (s : State) : State :=
  let before := s.obs.global.getD 0 0
  let bcast := readEach (fun n s => match slotOf (n + 1) f.desc with
    | some sl => if sl.dist = 1 then bcastWords f sl s else (some [], s)
    | none => (some [], s)) [0, 1, 2, 3] s
  let all := thenRead bcast fun bc s =>
    thenRead (match slotOf 13 f.desc with
      | some sl => readBytes f.fid f.sid (runAt f 13) 0 sl.length s
      | none => (some [], s)) fun cb s =>
    let const : SMap TWord := ((bytesWords cb).zipIdx.map fun w => (w.2, ⟨BitVec.ofNat 32 w.1.1, w.1.2⟩)).filter fun w => w.2 != clean 0
    readEach (fun q s => thenRead (buildLanes f p bc q.1 (256 * q.2) s) fun lanes s =>
      (some (), modShelf q.1 (startShelf f (256 * q.2) lanes (partUnread f p (256 * q.2)) const s.now) s)) p.shelves.zipIdx s
  let s := all.2
  let s := (chargeL f.sid (s.obs.global.getD 0 0 - before) s).2
  let s := if f.ctxs.isEmpty then s else modKiln p.die (fun k => { k with pieces := add32 k.pieces p.grains.length }) s
  match all.1 with
  | some _ => p.shelves.foldl (fun s sh => feed sh s) s
  | none => endPart f.fid i (tagStop f.fid s)

/-- Places part `i` of a firing on given shelves (R208, R209). -/
def placePart (fid i : Nat) (shelves : List Nat) (s : State) : State :=
  match firingBy fid s with
  | none => s
  | some f => match f.parts[i]? with
    | none => s
    | some p =>
      let p := { p with shelves := shelves, placed := true }
      let f := { f with st := .running, parts := f.parts.set i p
                        started := if f.started = 0 then s.now else f.started
                        latch := if f.started = 0 then latchOf f.sid s else f.latch }
      let s := touchDie p.die (setFiring f s)
      let s := shelves.foldl (fun s sh => modShelf sh (startShelf f 0 [] [] [] s.now) s) s
      if f.desc.kind ≠ 1 then s
      else match descGlaze f.desc s with
        | none => endPart fid i (tagStop fid s)
        | some g =>
          let (good, s) := shelves.foldl (fun (a : Bool × State) sh =>
            if a.1 then loadGlaze g sh a.2 else a) (true, s)
          if good then startPart f i p s else endPart fid i (tagStop fid s)

/-- The first part of a die's queue that its shelves allow, no earlier waiting part being able to use them (R208). -/
def pickPart (s : State) : List (Nat × Nat) → List Nat → Option (Nat × Nat × List Nat)
  | [], _ => none
  | (fid, i) :: r, kept =>
    match (firingBy fid s).bind fun f => (f.parts[i]?).map fun p => (f, p) with
    | none => pickPart s r kept
    | some (f, p) =>
      let mine := firingAlloc f p.die
      let free := mine.filter fun sh => shelfFree f.sid sh s && !kept.contains sh
      if p.n ≤ free.length then some (fid, i, free.take p.n) else pickPart s r (kept ++ mine)

end Sys2Proof.Machine
end

