-- ==== Sys2Proof/Machine/Glaze.lean ====
section
/-! DEFINITION. The glaze instructions (06 R196, R218 to R223). A row issues on a shelf when the word of the glaze at the
shelf's place is the row's encoding; it acts on every lane that has not ended and whose predicate holds. -/

namespace Sys2Proof.Machine

/-! ### Encodings (R218) -/

/-- Word of layout G. -/
def wordG (op : Nat) (g : GArgs) : Nat :=
  op * 2 ^ 26 + b2n g.pn * 2 ^ 25 + g.ps * 2 ^ 22 + g.d * 2 ^ 17 + g.x * 2 ^ 12 + g.y * 2 ^ 7 + g.md

/-- Word of layout I. -/
def wordI (op : Nat) (pn : Bool) (ps d : Nat) (src : Bool) (imm : Nat) : Nat :=
  op * 2 ^ 26 + b2n pn * 2 ^ 25 + ps * 2 ^ 22 + d * 2 ^ 17 + b2n src * 2 ^ 16 + imm

/-- Word of layout B. -/
def wordB (op cond m target : Nat) : Nat := op * 2 ^ 26 + cond * 2 ^ 20 + m * 2 ^ 17 + target

/-! ### Issue -/

/-- The firing whose part the shelf runs, when it can issue the word: running, not waiting, not held. -/
def issuing (sh w : Nat) (s : State) : Option (Firing × Shelf) :=
  match shelfOf sh s with
  | none => none
  | some x =>
    if s.powered = false ∨ regionWaits (sh / 40) s = true ∨ x.wait ≠ .none ∨ x.held = true ∨ x.lanes.all (·.fin) = true then none
    else match x.run.bind fun fid => firingBy fid s with
      | none => none
      | some f => match descGlaze f.desc s with
        | some g => if (g.code[x.idx]?).map (·.toNat) = some w then some (f, x) else none
        | none => none

/-- The shelf goes past its instruction, or repeats it (R219, REP). -/
def advance (x : Shelf) : Shelf :=
  if 1 < x.rep then { x with rep := x.rep - 1 } else { x with rep := 0, idx := x.idx + 1 }

/-- A limit of a step is reached in some lane (R222). -/
def stepFull (x : Shelf) : Bool :=
  decide (4096 ≤ x.slots) || x.lanes.any fun l => decide (64 ≤ l.stps) || decide (64 ≤ l.pushes) || decide (512 ≤ l.pops)

/-- Shelves of the part on which `sh` runs. -/
def partMates (f : Firing) (sh : Nat) : List Nat := ((partOf f sh).map fun p => p.2.shelves).getD []

/-! ### Registers (R196, R216) -/

/-- What a lane's instruction sees beside its own registers: the descriptor, the lane's index in its part, CONST, and the
taint of its predicate and of a tainted branch, and the words that each stream has still to read. -/
structure LaneCtx where
  d : FireDesc
  id : Nat
  const : SMap TWord
  t0 : Nat
  more : List Nat

/-- Context of lane `j` of a shelf with a taint. -/
def ctxLane (f : Firing) (x : Shelf) (j t : Nat) : LaneCtx :=
  ⟨f.desc, x.base + j, x.const, t, (List.range 4).map fun n => unreadWords (slotOf (n + 1) f.desc) ((x.unread.getD j []).getD n [])⟩

/-- Value and taint of predicate `m`; M0 is true. -/
def predOf (m : Nat) (l : Lane) : Bool × Nat := if m = 0 then (true, 0) else l.m.getD m (false, 0)

/-- The predicate of an instruction after PN. -/
def predTrue (pn : Bool) (ps : Nat) (l : Lane) : Bool := Bool.xor pn (predOf ps l).1

/-- Pops the next word of stream IN`n`; an ended stream gives +0 (R212). -/
def popIn (n : Nat) (l : Lane) : SWord × Lane :=
  match l.ins.getD n [] with
  | [] => (plainWord 0 0, l)
  | w :: r => (w, { l with ins := l.ins.set n r, pops := l.pops + 1 })

/-- Reads the register of a source code. -/
def readSrc (c : Nat) (k : LaneCtx) (l : Lane) : SWord × Lane :=
  if c < 24 then (⟨l.w.getD c (clean 0), 127⟩, l)
  else if c < 28 then popIn (c - 24) l
  else if c = 28 then (⟨l.s, 127⟩, l)
  else if c = 29 then (⟨l.c, 127⟩, l)
  else if c = 30 then (plainWord 0 0, l)
  else (plainWord k.id 0, l)

/-- The old content of a destination that an instruction keeps a part of (LDH, CVT); OUT and a discarded result have none
that the manual states (log 16). -/
def oldDst (what d : Nat) (l : Lane) : TWord :=
  if d < 24 then l.w.getD d (clean 0) else if d = 28 then l.s else if d = 29 then l.c
  else ⟨Config.openWord what d, 0⟩

/-- Writes a result; `v.t` already joins the sources, the context's taint is added. -/
def writeDst (d : Nat) (v : TWord) (k : LaneCtx) (l : Lane) : Lane :=
  let v : TWord := ⟨v.v, max v.t k.t0⟩
  if d < 24 then { l with w := l.w.set d v }
  else if d = 24 then pushOut k.d 0 v l
  else if d = 25 then pushOut k.d 1 v l
  else if d = 28 then { l with s := v }
  else if d = 29 then { l with c := v }
  else l

/-- Writes a predicate; M0 is no destination. -/
def writePred (d : Nat) (b : Bool) (t : Nat) (k : LaneCtx) (l : Lane) : Lane :=
  if d % 8 = 0 then l else { l with m := l.m.set (d % 8) (b, max t k.t0) }

/-- Adds flags. -/
def addFlags (f : BitVec 8) (l : Lane) : Lane := { l with f := l.f ||| f }

/-- D <- op(X). -/
def op1 (g : GArgs) (op : Word → Word) (k : LaneCtx) (l : Lane) : Lane :=
  let (x, l) := readSrc g.x k l
  writeDst g.d ⟨op x.w.v, x.w.t⟩ k l

/-- D <- op(X, Y). -/
def op2 (g : GArgs) (op : Word → Word → Word) (k : LaneCtx) (l : Lane) : Lane :=
  let (x, l) := readSrc g.x k l
  let (y, l) := readSrc g.y k l
  writeDst g.d ⟨op x.w.v y.w.v, max x.w.t y.w.t⟩ k l

/-- A fire S <- op(S, X, Y). -/
def fireOp (g : GArgs) (op : Word → SWord → SWord → Flagged) (k : LaneCtx) (l : Lane) : Lane :=
  let (x, l) := readSrc g.x k l
  let (y, l) := readSrc g.y k l
  let r := op l.s.v x y
  addFlags r.f { l with s := ⟨BitVec.ofNat 32 r.v, max (max l.s.t k.t0) (max x.w.t y.w.t)⟩, a := x.w.v, b := y.w.v }

/-! ### Running a lane-wise instruction -/

/-- Lanes that execute: not ended, predicate true. -/
def executes (pn : Bool) (ps : Nat) (l : Lane) : Bool := !l.fin && predTrue pn ps l

/-- The shelf after the lane-wise effect of one slot. -/
def lanesAfter (f : Firing) (pn : Bool) (ps cost : Nat) (op : LaneCtx → Lane → Lane) (x : Shelf) : Shelf :=
  let one (p : Lane × Nat) : Lane :=
    if executes pn ps p.1 then
      op (ctxLane f x p.2 (max (predOf ps p.1).2 (b2n x.bra))) p.1
    else p.1
  advance { x with lanes := x.lanes.zipIdx.map one, slots := x.slots + cost }

/-- Counts fires for a firing's sagger (15 R462) and the module. -/
def countFires (sid n : Nat) (s : State) : State :=
  addGlobal 2 n (modCtr sid (fun c => { c with fires := add64 c.fires n }) s)

/-- Issues a lane-wise instruction: its effect on every executing lane, then the step's limits (R222); the stream engine reads on (R211). -/
def lanewise (sh w : Nat) (pn : Bool) (ps cost : Nat) (isFire : Bool) (op : LaneCtx → Lane → Lane) (s : State) : State :=
  match issuing sh w s with
  | none => s
  | some (f, x) =>
    let s := if isFire then countFires f.sid (x.lanes.filter (executes pn ps)).length s else s
    let y := lanesAfter f pn ps cost op x
    let s := modShelf sh (fun _ => y) s
    feed sh (if stepFull y then commitShelf sh s else s)

/-- A lane-wise instruction of layout G that takes one slot. -/
def laneG (sh op : Nat) (g : GArgs) (isFire : Bool) (body : LaneCtx → Lane → Lane) : State → State :=
  lanewise sh (wordG op g) g.pn g.ps 1 isFire body

/-- NOP (R220). -/
def execGlazeNop (sh : Nat) (g : GArgs) : State → Host.Outcome State Fault Refusal :=
  act (laneG sh 0x00 g false fun _ l => l)

/-! ### Uniform instructions -/

/-- Issues a uniform instruction that takes one slot; the stream engine reads on. -/
def uniform (sh w : Nat) (body : Firing → Shelf → Shelf) (s : State) : State :=
  match issuing sh w s with
  | none => s
  | some (f, x) =>
    let y := body f { x with slots := x.slots + 1 }
    let s := modShelf sh (fun _ => y) s
    feed sh (if stepFull y then commitShelf sh s else s)

/-- Commits the shelf at a COMMIT. -/
def doCommit (sh : Nat) (s : State) : State :=
  match issuing sh (wordG 0x01 ⟨false, 0, 0, 0, 0, 0⟩) s with
  | none => s
  | some _ => commitShelf sh (modShelf sh (fun x => { x with slots := x.slots + 1, idx := x.idx + 1 }) s)

/-- COMMIT (R220, R222). `bad` names a lane whose checks failed in the running step (05 R187 to R189): the step is discarded
and fired again, or its results are written with cause 9. A mismatch may strike wherever the step has got to, and on a
shelf that a window holds. -/
def execCommit (sh : Nat) (bad : Option Nat) : State → Host.Outcome State Fault Refusal :=
  act fun s => match bad with
    | none => doCommit sh s
    | some l =>
      let glaze : Bool := match shelfOf sh s with
        | some x => (match x.run.bind fun fid => firingBy fid s with
          | some f => f.desc.kind == 1 && !x.lanes.isEmpty
          | none => x.window.isSome)
        | none => false
      if s.powered && glaze then
        let s := mismatch sh l s
        match shelfOf sh s with
        | some x => if x.nine.contains l then doCommit sh s else s
        | none => s
      else s

/-- BRA (R220): conditions over the active lanes; a tainted predicate taints all later results (R216). -/
def execBra (sh cond m target : Nat) : State → Host.Outcome State Fault Refusal :=
  act (uniform sh (wordB 0x03 cond m target) fun _ x =>
    let live := x.lanes.filter fun l => !l.fin
    let vals := live.map fun l => (predOf m l).1
    let go : Bool := match cond with
      | 0 => true
      | 1 => vals.any id
      | 2 => vals.all id
      | _ => !vals.any id
    { x with idx := if go then target else x.idx + 1
             bra := x.bra || (cond != 0 && live.any fun l => (predOf m l).2 != 0) })

/-- LOOP (R220). -/
def execLoop (sh n target : Nat) : State → Host.Outcome State Fault Refusal :=
  act (uniform sh (wordI 0x04 false 0 n false target) fun _ x =>
    let c := x.ct.getD n 0 - 1
    { x with ct := x.ct.set n c, idx := if c = 0 then x.idx + 1 else target })

/-- REP (R219, R220): no slot; a count of 0 skips the next instruction. -/
def execRep (sh : Nat) (src : Bool) (imm : Nat) : State → Host.Outcome State Fault Refusal :=
  act fun s => match issuing sh (wordI 0x05 false 0 0 src imm) s with
    | none => s
    | some (_, x) =>
      let n := if src then (x.ct.getD (imm % 4) 0).toNat else imm
      modShelf sh (fun x => if n = 0 then { x with idx := x.idx + 2 } else { x with idx := x.idx + 1, rep := n }) s

/-- SETCT (R220): from IMM, or from a register of the lowest-numbered active lane. -/
def execSetct (sh n : Nat) (src : Bool) (imm : Nat) : State → Host.Outcome State Fault Refusal :=
  act (uniform sh (wordI 0x06 false 0 n src imm) fun f x =>
    let y := { x with idx := x.idx + 1 }
    if src then
      match x.lanes.zipIdx.find? fun p => !p.1.fin with
      | none => y
      | some (l, i) =>
        let (v, l') := readSrc (imm % 32) (ctxLane f x i 0) l
        { y with ct := y.ct.set n v.w.v, lanes := y.lanes.set i l' }
    else { y with ct := y.ct.set n (BitVec.ofNat 32 imm) })

/-! ### Meeting points: BARRIER, SRED, FRED, END (R220, R222, R223) -/

/-- The shelf has arrived at the meeting point, or all its lanes have ended. -/
def arrived (w : ShWait) (sh : Nat) (s : State) : Bool :=
  match shelfOf sh s with
  | some x => x.wait == w || x.lanes.all (·.fin)
  | none => true

/-- The active lanes of a shelf after a meeting: SRED's result goes to each of them, tainted by its own predicate too (R216). -/
def meetLanes (f : Firing) (res : Option (Nat × Nat × TWord × BitVec 8)) (x : Shelf) : List Lane :=
  match res with
  | none => x.lanes
  | some (d, ps, v, fl) => x.lanes.zipIdx.map fun (p : Lane × Nat) =>
    if p.1.fin then p.1
    else addFlags fl (writeDst d v (ctxLane f x p.2 (max (predOf ps p.1).2 (b2n x.bra))) p.1)

/-- The value and flags of SRED over the part, in lane order (R223). -/
def sredValue (op : Nat) (mates : List Nat) (s : State) : TWord × BitVec 8 :=
  let vals := mates.flatMap fun sh => ((shelfOf sh s).map fun x => if x.contrib.isEmpty then List.replicate 256 none else x.contrib).getD []
  let (v, f) := reduceTree op 16 vals 0
  (v.getD (clean 0), f)

/-- The value of FRED in a part: that of its lowest-numbered active lane, none where FRED's predicate is false there (R223). -/
def fredValue (mates : List Nat) (s : State) : Option TWord :=
  (mates.findSome? fun m => (shelfOf m s).bind fun x =>
    (x.lanes.zipIdx.find? fun p => !p.1.fin).map fun p => (x.contrib[p.2]?).join).join

/-- Releases a meeting point once every shelf of the part with active lanes has arrived; the step ends after it (R222). -/
def release (fid sh : Nat) (w : ShWait) (s : State) : State :=
  match firingBy fid s with
  | none => s
  | some f =>
    let mates := partMates f sh
    if mates.all (fun m => arrived w m s) = false then s
    else
      let res := match w with
        | .sred op d ps => let r := sredValue op mates s; some (d, ps, r.1, r.2)
        | _ => none
      let s := match w, partOf f sh with
        | .fred op out, some (i, _) =>
          modFiring fid (fun f => { f with parts := f.parts.modify i fun p => { p with freds := p.freds ++ [(out, op, fredValue mates s)] } }) s
        | _, _ => s
      (mates.filter fun m => ((shelfOf m s).map fun x => x.wait == w).getD false).foldl (fun s m =>
        commitShelf m (modShelf m (fun x => advance { x with lanes := meetLanes f res x, wait := .none, contrib := [] }) s)) s

/-- Meeting points of the part that may be complete now that a shelf's lanes ended. -/
def releaseMates (fid sh : Nat) (s : State) : State :=
  match (firingBy fid s).bind fun f => (partMates f sh).findSome? fun m => match shelfOf m s with
      | some x => if x.wait = .none then none else some (m, x.wait)
      | none => none with
  | some (m, w) => release fid m w s
  | none => s

/-- A shelf reaches a meeting point: the step before it ends, each executing lane gives its value of X, if asked. -/
def meet (sh w : Nat) (pn : Bool) (ps : Nat) (wait : ShWait) (x? : Option Nat) (s : State) : State :=
  match issuing sh w s with
  | none => s
  | some (f, _) =>
    let s := commitShelf sh s
    match issuing sh w s with
    | none => s
    | some (_, x) =>
      let give (p : Lane × Nat) : Option TWord × Lane :=
        match x? with
        | some c => if executes pn ps p.1 then
              let k := ctxLane f x p.2 (max (predOf ps p.1).2 (b2n x.bra))
              let (v, l) := readSrc c k p.1
              (some ⟨v.w.v, max (max v.w.t k.t0) (if laneNine x p.2 then 3 else 0)⟩, l)
            else (none, p.1)
        | none => (none, p.1)
      let r := x.lanes.zipIdx.map give
      let s := modShelf sh (fun x => { x with lanes := r.map (·.2), contrib := r.map (·.1), wait := wait, slots := x.slots + 1 }) s
      feed sh (release f.fid sh wait s)

/-- BARRIER (R220). -/
def execBarrier (sh : Nat) : State → Host.Outcome State Fault Refusal :=
  act (meet sh (wordG 0x07 ⟨false, 0, 0, 0, 0, 0⟩) false 0 .barrier none)

/-- SRED (R220, R223). -/
def execSred (sh : Nat) (g : GArgs) : State → Host.Outcome State Fault Refusal :=
  act (meet sh (wordG 0x22 g) g.pn g.ps (.sred (g.md % 4) g.d g.ps) (some g.x))

/-- FRED (R220, R223): the part's value is kept until the firing ends, when the hub combines the parts'. -/
def execFred (sh : Nat) (g : GArgs) : State → Host.Outcome State Fault Refusal :=
  act (meet sh (wordG 0x23 g) g.pn g.ps (.fred (g.md % 4) (g.d - 24)) (some g.x))

/-- END (R220): the lane does no more work; when all lanes of the shelf have ended, the step ends (R222). -/
def execEndLane (sh : Nat) (g : GArgs) : State → Host.Outcome State Fault Refusal :=
  act fun s => match issuing sh (wordG 0x02 g) s with
    | none => s
    | some (f, _) =>
      let s := laneG sh 0x02 g false (fun _ l => { l with fin := true }) s
      if shelfEnded sh s then releaseMates f.fid sh (commitShelf sh s) else s

/-! ### Integer, move and predicate instructions -/

/-- LDI (R220). -/
def execLdi (sh : Nat) (pn : Bool) (ps d imm : Nat) : State → Host.Outcome State Fault Refusal :=
  act (lanewise sh (wordI 0x08 pn ps d false imm) pn ps 1 false fun k l => writeDst d (clean (BitVec.ofNat 32 imm)) k l)

/-- LDH (R220): the upper half; the lower half keeps D's. -/
def execLdh (sh : Nat) (pn : Bool) (ps d imm : Nat) : State → Host.Outcome State Fault Refusal :=
  act (lanewise sh (wordI 0x09 pn ps d false imm) pn ps 1 false fun k l =>
    let o := oldDst 1 d l
    writeDst d ⟨BitVec.ofNat 32 (imm * 2 ^ 16 + o.v.toNat % 2 ^ 16), o.t⟩ k l)

/-- MOV (R220). -/
def execMov (sh : Nat) (g : GArgs) : State → Host.Outcome State Fault Refusal := act (laneG sh 0x0A g false (op1 g id))

/-- IADD (R220). -/
def execIadd (sh : Nat) (g : GArgs) : State → Host.Outcome State Fault Refusal :=
  act (laneG sh 0x0B g false (op2 g (· + ·)))

/-- ISUB (R220). -/
def execIsub (sh : Nat) (g : GArgs) : State → Host.Outcome State Fault Refusal :=
  act (laneG sh 0x0C g false (op2 g (· - ·)))

/-- IMUL (R220). -/
def execImul (sh : Nat) (g : GArgs) : State → Host.Outcome State Fault Refusal :=
  act (laneG sh 0x0D g false (op2 g (· * ·)))

/-- The bitwise operation of LOGIC. -/
def logicOp (md : Nat) (x y : Word) : Word :=
  match md % 4 with
  | 0 => x &&& y
  | 1 => x ||| y
  | 2 => x ^^^ y
  | _ => x &&& ~~~y

/-- LOGIC (R220). -/
def execLogic (sh : Nat) (g : GArgs) : State → Host.Outcome State Fault Refusal :=
  act (laneG sh 0x0E g false (op2 g (logicOp g.md)))

/-- The shift of SHIFT by Y[4:0]. -/
def shiftOp (md : Nat) (x y : Word) : Word :=
  let n := y.toNat % 32
  match md % 4 with
  | 0 => x <<< n
  | 1 => x >>> n
  | _ => x.sshiftRight n

/-- SHIFT (R220). -/
def execShift (sh : Nat) (g : GArgs) : State → Host.Outcome State Fault Refusal :=
  act (laneG sh 0x0F g false (op2 g (shiftOp g.md)))

/-- The comparison of ICMP. -/
def icmpOp (md : Nat) (x y : Word) : Bool :=
  match md % 8 with
  | 0 => x == y
  | 1 => x != y
  | 2 => x.slt y
  | 3 => x.sle y
  | 4 => x.ult y
  | _ => x.ule y

/-- ICMP (R220). -/
def execIcmp (sh : Nat) (g : GArgs) : State → Host.Outcome State Fault Refusal :=
  act (laneG sh 0x10 g false fun k l =>
    let (x, l) := readSrc g.x k l
    let (y, l) := readSrc g.y k l
    writePred g.d (icmpOp g.md x.w.v y.w.v) (max x.w.t y.w.t) k l)

/-- FCMP (R220). -/
def execFcmp (sh : Nat) (g : GArgs) : State → Host.Outcome State Fault Refusal :=
  act (laneG sh 0x11 g false fun k l =>
    let (x, l) := readSrc g.x k l
    let (y, l) := readSrc g.y k l
    let (b, f) := fcmp (g.md % 4) x.w.v y.w.v
    addFlags f (writePred g.d b (max x.w.t y.w.t) k l))

/-- SEL (R220). -/
def execSel (sh : Nat) (g : GArgs) : State → Host.Outcome State Fault Refusal :=
  act (laneG sh 0x12 g false fun k l =>
    let (b, t) := predOf (g.md % 8) l
    let (x, l) := readSrc g.x k l
    let (y, l) := readSrc g.y k l
    writeDst g.d ⟨if b then x.w.v else y.w.v, max t (max x.w.t y.w.t)⟩ k l)

/-- PLOG (R220). -/
def execPlog (sh : Nat) (g : GArgs) : State → Host.Outcome State Fault Refusal :=
  act (laneG sh 0x13 g false fun k l =>
    let (a, t) := predOf (g.x % 8) l
    let (b, u) := predOf (g.y % 8) l
    let r := match g.md % 4 with
      | 0 => a && b
      | 1 => a || b
      | 2 => Bool.xor a b
      | _ => a && !b
    writePred g.d r (max t u) k l)

/-- LDP (R220). -/
def execLdp (sh : Nat) (g : GArgs) : State → Host.Outcome State Fault Refusal :=
  act (laneG sh 0x14 g false fun k l =>
    let (x, l) := readSrc g.x k l
    let v := (smGet ((x.w.v.toNat + g.md) % 4096) l.priv).getD (clean 0)
    writeDst g.d ⟨v.v, max v.t x.w.t⟩ k l)

/-- LDC (R220). -/
def execLdc (sh : Nat) (g : GArgs) : State → Host.Outcome State Fault Refusal :=
  act (laneG sh 0x15 g false fun k l =>
    let (x, l) := readSrc g.x k l
    let v := (smGet ((x.w.v.toNat + g.md) % 262144) k.const).getD (clean 0)
    writeDst g.d ⟨v.v, max v.t x.w.t⟩ k l)

/-- STP (R220): the private word keeps its taint (R216). -/
def execStp (sh : Nat) (g : GArgs) : State → Host.Outcome State Fault Refusal :=
  act (laneG sh 0x16 g false fun k l =>
    let (x, l) := readSrc g.x k l
    let (y, l) := readSrc g.y k l
    let a := (x.w.v.toNat + g.md) % 4096
    let v : TWord := ⟨y.w.v, max k.t0 (max x.w.t y.w.t)⟩
    { l with priv := if v = clean 0 then smDel a l.priv else smSet a v l.priv, stps := l.stps + 1 })

/-- AVAIL (R220): the words that remain are those read ahead and those still to read (R212). -/
def execAvail (sh : Nat) (g : GArgs) : State → Host.Outcome State Fault Refusal :=
  act (laneG sh 0x17 g false fun k l =>
    writePred g.d (decide (g.md / 4 % 32 + 1 ≤ (l.ins.getD (g.md % 4) []).length + k.more.getD (g.md % 4) 0)) 0 k l)

/-! ### Fires (05 R163, R177 to R179) -/

/-- FMA32 (R220). -/
def execFma32 (sh : Nat) (g : GArgs) : State → Host.Outcome State Fault Refusal :=
  act (laneG sh 0x18 g true (fireOp g fun s x y => dot32 s 0 [val32 x.w.v] [val32 y.w.v]))

/-- DOT2 (R220): binary16, or BF16 when MOD[0] is 1. -/
def execDot2 (sh : Nat) (g : GArgs) : State → Host.Outcome State Fault Refusal :=
  act (laneG sh 0x19 g true (fireOp g fun s x y =>
    let c := 1 + g.md % 2
    dotScaled x y (dot32 s 0 (dotElems c 2 16 x.w.v) (dotElems c 2 16 y.w.v))))

/-- DOT4 (R220): E4M3, or E5M2 when the operand's MOD bit is 1. -/
def execDot4 (sh : Nat) (g : GArgs) : State → Host.Outcome State Fault Refusal :=
  act (laneG sh 0x1A g true (fireOp g fun s x y =>
    dotScaled x y (dot32 s 0 (dotElems (3 + g.md % 2) 4 8 x.w.v) (dotElems (3 + g.md / 2 % 2) 4 8 y.w.v))))

/-- FORMAT code of a DOT4X element type (R220). -/
def dotxType (t : Nat) : Nat := [3, 4, 5, 6, 8, 7].getD t 3

/-- DOT4X (R220). -/
def execDot4x (sh : Nat) (g : GArgs) : State → Host.Outcome State Fault Refusal :=
  act (laneG sh 0x1B g true (fireOp g fun s x y => mxDot s (dotxType (g.md % 8)) (dotxType (g.md / 8 % 8)) 4 8 x y))

/-- DOT8X (R220). -/
def execDot8x (sh : Nat) (g : GArgs) : State → Host.Outcome State Fault Refusal :=
  act (laneG sh 0x1C g true (fireOp g fun s x y => mxDot s 7 7 8 4 x y))

/-- ADD32 (R220): S + X, or the COMP step when MOD[0] is 1. -/
def execAdd32f (sh : Nat) (g : GArgs) : State → Host.Outcome State Fault Refusal :=
  act (laneG sh 0x1D g true fun k l =>
    let (x, l) := readSrc g.x k l
    let l := { l with a := x.w.v }
    if g.md % 2 = 1 then
      let (s, c, f) := compAdd l.s.v l.c.v x.w.v
      let t := max k.t0 (max x.w.t l.s.t)
      addFlags f { l with s := ⟨s, t⟩, c := ⟨c, max t l.c.t⟩ }
    else
      let r := add32f l.s.v x.w.v
      addFlags r.f { l with s := ⟨BitVec.ofNat 32 r.v, max k.t0 (max x.w.t l.s.t)⟩ })

/-- FUNC (R220, 05 R184): four slots for EXP2, LOG2, RCP and RSQRT (R219). -/
def execFunc (sh : Nat) (g : GArgs) : State → Host.Outcome State Fault Refusal :=
  act (lanewise sh (wordG 0x1E g) g.pn g.ps (if g.md % 8 < 4 then 4 else 1) true fun k l =>
    let fn := g.md % 8
    let (x, l) := readSrc g.x k l
    let l := { l with a := x.w.v }
    if fn < 4 then
      let r := func32 fn x.w.v
      addFlags r.f (writeDst g.d ⟨BitVec.ofNat 32 r.v, x.w.t⟩ k l)
    else
      let (y, l) := readSrc g.y k l
      let l := { l with b := y.w.v }
      let r := maxMin (fn == 4) x.w.v y.w.v
      addFlags r.f (writeDst g.d ⟨BitVec.ofNat 32 r.v, max x.w.t y.w.t⟩ k l))

/-! ### Accumulator reads and conversions -/

/-- CREAD (R220, 05 R179): C is +0 afterwards, also where D names it. -/
def execCread (sh : Nat) (g : GArgs) : State → Host.Outcome State Fault Refusal :=
  act (laneG sh 0x1F g false fun k l =>
    let r := add32f l.s.v l.c.v
    let t := max l.s.t l.c.t
    addFlags r.f { writeDst g.d ⟨BitVec.ofNat 32 r.v, t⟩ k l with c := ⟨0, k.t0⟩ })

/-- CVT (R220, 05 R173, R174). -/
def execCvt (sh : Nat) (g : GArgs) : State → Host.Outcome State Fault Refusal :=
  act (laneG sh 0x20 g false fun k l =>
    let (x, l) := readSrc g.x k l
    let fmt := fmtOf (g.md % 16)
    let mode := if g.md / 16 % 8 = 7 then k.d.rmode else g.md / 16 % 8
    let (r16, gen) := srDraw mode l.g
    let r := convert fmt mode (g.y % 2 == 1) r16 x.w.v
    let o := oldDst 2 g.d l
    let v : Word := (o.v >>> fmt.width) ||| (BitVec.ofNat 32 r.v <<< (32 - fmt.width))
    addFlags r.f (writeDst g.d ⟨v, max x.w.t o.t⟩ k { l with g := gen }))

/-- The binary32 value of an element, exactly (UNPK). -/
def unpack32 (code v : Nat) : Flagged :=
  match elemVal code v with
  | .nan s => nan32 s
  | .inf n => ⟨binary32.sign n + inf32, 0⟩
  | .fin n m e => round32 n m e

/-- UNPK (R220): element MOD[6:4] of X; an element beyond the word has no value that the manual states (log 16). -/
def execUnpk (sh : Nat) (g : GArgs) : State → Host.Outcome State Fault Refusal :=
  act (laneG sh 0x21 g false fun k l =>
    let (x, l) := readSrc g.x k l
    let code := g.md % 16
    let w := elemBits code
    let i := g.md / 16 % 8
    if w * (i + 1) ≤ 32 then
      let r := unpack32 code (fieldOf x.w.v.toNat (w * i) w)
      addFlags r.f (writeDst g.d ⟨BitVec.ofNat 32 r.v, x.w.t⟩ k l)
    else writeDst g.d ⟨Config.openWord 3 (x.w.v.toNat * 8 + i), x.w.t⟩ k l)

/-- FLAGS (R220). -/
def execFlags (sh : Nat) (g : GArgs) : State → Host.Outcome State Fault Refusal :=
  act (laneG sh 0x24 g false fun k l =>
    let v : Word := l.f.zeroExtend 32
    writeDst g.d (clean v) k (if g.md % 2 = 1 then { l with f := 0 } else l))

end Sys2Proof.Machine
end

