-- ==== Sys2Proof/Machine/KilnCmd.lean ====
section
/-! DEFINITION. Kiln commands and firing events (06 R221, R224 to R233): the glaze library, submission, claims, placement,
limits, built-in firings and the end of a firing. -/

namespace Sys2Proof.Machine

/-! ### Page grants (02 R51) -/

/-- A page (PPA[44:21]) is granted by any of the three commands. -/
def pageGranted (page : Nat) (s : State) : Bool :=
  s.xlt.grants.contains page || s.xlt.libGrants.contains page || s.obs.trace.spillPages.contains page

/-- A PPA of a grant's list fails R51; `i` is its place in the list. -/
def grantBad (ppas : List Nat) (s : State) (p : Nat × Nat) : Bool :=
  ppaFormat p.1 != 1 || p.1 % 2 ^ 21 != 0 || !localValid p.1 s || !dieServes (p.1 / 2 ^ 42 % 8) s
    || pageGranted (ppaOffset p.1 / 2 ^ 21) s || (ppas.take p.2).contains p.1

/-- Checks of a grant (02 R51, 10 R360): the list at check 3, its count at check 4, the refusal of 14 R451 in execution. -/
def grantChks (n : Nat) (ppas : List Nat) (s : State) : List Chk :=
  [chkEach (grantBad ppas s) ((ppas.take n).zipIdx), chkLen (decide (12 < n)), chkWarm ((ppas.take n).any fun p => warmPage p s)]

/-- The pages a grant names. -/
def grantPages (n : Nat) (ppas : List Nat) : List Nat := (ppas.take n).map fun p => ppaOffset p / 2 ^ 21

/-- Writes the lines of granted pages: zeros, TAG 0, the die's WGEN (02 R51). -/
def wipePages (pages : List Nat) (s : State) : State :=
  pages.foldl (fun s p => { s with mem := fillPages p 1 (some ⟨0, BitVec.ofNat 8 (dieGen (p / 2 ^ 21) s)⟩) s.mem }) s

/-- KLN_LIB_GRANT (R228, R233). -/
def execKlnLibGrant (r n : Nat) (ppas : List Nat) : State → Host.Outcome State Fault Refusal :=
  cmd r 0x55 (fun _ s => grantChks n ppas s) fun s =>
    let ps := grantPages n ppas
    ok r [] (wipePages ps { s with xlt.libGrants := s.xlt.libGrants ++ ps })

/-! ### The rules of R221 -/

/-- OP of an instruction word. -/
def opOf (w : Word) : Nat := w.toNat / 2 ^ 26

/-- The instruction is uniform (R220). -/
def isUniform (op : Nat) : Bool := [0x01, 0x03, 0x04, 0x05, 0x06, 0x07].contains op

/-- Fields of a word: D, X, Y, MOD. -/
def fD (w : Word) : Nat := fieldOf w.toNat 17 5
def fX (w : Word) : Nat := fieldOf w.toNat 12 5
def fY (w : Word) : Nat := fieldOf w.toNat 7 5
def fMod (w : Word) : Nat := w.toNat % 128

/-- The instruction reads X as a register. -/
def usesX (op : Nat) : Bool :=
  (decide (0x0A ≤ op) && decide (op ≤ 0x12)) || op == 0x14 || op == 0x15 || op == 0x16
    || (decide (0x18 ≤ op) && decide (op ≤ 0x1E)) || decide (0x20 ≤ op) && decide (op ≤ 0x23)

/-- The instruction reads Y as a register. -/
def usesY (w : Word) : Bool :=
  let op := opOf w
  (decide (0x0B ≤ op) && decide (op ≤ 0x12)) || op == 0x16 || (decide (0x18 ≤ op) && decide (op ≤ 0x1C))
    || (op == 0x1E && decide (4 ≤ fMod w % 8))

/-- The instruction has a word register as destination. -/
def hasDst (op : Nat) : Bool :=
  (decide (0x08 ≤ op) && decide (op ≤ 0x0F)) || op == 0x12 || op == 0x14 || op == 0x15
    || (decide (0x1E ≤ op) && decide (op ≤ 0x24) && op != 0x23)

/-- Roles that an instruction uses (R199 codes): streams it pops, OUTs it pushes, CONST. -/
def rolesUsed (w : Word) : List Nat :=
  let op := opOf w
  let src (c : Nat) : List Nat := if 24 ≤ c ∧ c ≤ 27 then [c - 23] else []
  (if usesX op then src (fX w) else []) ++ (if usesY w then src (fY w) else [])
    ++ (if (hasDst op || op == 0x23) && (fD w == 24 || fD w == 25) then [fD w - 19] else [])
    ++ (if op = 0x15 then [13] else []) ++ (if op = 0x17 then [fMod w % 4 + 1] else [])
    ++ (if op == 0x06 && bitOf w.toNat 16 then src (w.toNat % 32) else [])

/-- Reserved bits of an instruction word are not zero (R218, R220, R221). -/
def codeResv (w : Word) : Bool :=
  let v := w.toNat
  match opOf w with
  | 0x01 => v % 2 ^ 22 != 0
  | 0x07 => v % 2 ^ 22 != 0
  | 0x03 => bitOf v 16
  | 0x04 => bitOf v 16 || fieldOf v 19 3 != 0
  | 0x05 => fD w != 0
  | 0x06 => fieldOf v 19 3 != 0
  | 0x08 => bitOf v 16
  | 0x09 => bitOf v 16
  | 0x0E => decide (4 ≤ fMod w)
  | 0x0F => decide (4 ≤ fMod w)
  | 0x10 => decide (8 ≤ fD w)
  | 0x16 => fD w != 0
  | 0x20 => decide (2 ≤ fY w)
  | _ => false

/-- An instruction word breaks a rule of R221 that DENIED answers; `prev` is the OP before it, `len` the glaze's length. -/
def codeDeny (len requires : Nat) (prev : Option Nat) (w : Word) : Bool :=
  let v := w.toNat
  let op := opOf w
  decide (0x24 < op)
  || (isUniform op && v / 2 ^ 22 % 16 != 0)
  || (isUniform op && prev == some 0x05)
  || (hasDst op && (fD w == 26 || fD w == 27 || fD w == 31))
  || (decide (0x18 ≤ op) && decide (op ≤ 0x1D) && fD w != 28)
  || ((op == 0x1B || op == 0x1C) && !(decide (24 ≤ fX w) && decide (fX w ≤ 27) && decide (24 ≤ fY w) && decide (fY w ≤ 27)))
  || ((op == 0x03 || op == 0x04) && decide (len ≤ v % 2 ^ 16))
  || (op == 0x0F && fMod w % 4 == 3) || (op == 0x10 && decide (6 ≤ fMod w % 8))
  || ((op == 0x10 || op == 0x11 || op == 0x13 || op == 0x17) && fD w % 8 == 0)
  || (op == 0x1B && (decide (6 ≤ fMod w % 8) || decide (6 ≤ fMod w / 8 % 8)))
  || (op == 0x1E && decide (6 ≤ fMod w % 8))
  || (op == 0x20 && (!(decide (1 ≤ fMod w % 16) && decide (fMod w % 16 ≤ 4)) || fMod w / 16 % 8 == 5 || fMod w / 16 % 8 == 6))
  || (op == 0x21 && !List.contains [1, 2, 3, 4, 7, 8] (fMod w % 16))
  || ((op == 0x22 || op == 0x23) && fMod w % 4 == 3)
  || (op == 0x23 && fD w != 24 && fD w != 25)
  || (rolesUsed w).any fun r => !bitOf requires r

/-- Some instruction of a glaze breaks R221. -/
def imageDeny (g : GlazeImg) : Bool :=
  (g.code.zipIdx).any fun p =>
    codeDeny g.code.length g.requires (if p.2 = 0 then none else (g.code[p.2 - 1]?).map opOf) p.1

/-! ### The library (R226 to R229) -/

/-- The generation record in force (12 R410); none once OWNER_KILL is burned (12 R412). -/
def genNow (s : State) : Option GenRec :=
  if s.pen.otp.killOwner ∨ s.pen.inForce = 0 then none else (s.pen.otp.slots[s.pen.inForce - 1]?).join

/-- Bytes of a glaze image (R226). -/
def imageBytes (words : Nat) : Nat := 64 + 4 * words + 114

/-- 4 KiB units of the granted library pages that no glaze takes, as line numbers (R228). -/
def freeUnits (lib : List Glaze) (s : State) : List Nat :=
  let used := lib.flatMap (·.units)
  (s.xlt.libGrants.flatMap fun p => (List.range 512).map fun u => p * 32768 + u * 64).filter fun u => !used.contains u

/-- An open firing names the glaze. -/
def glazeInUse (id : Nat) (s : State) : Bool := s.kiln.firings.any fun f => f.desc.kind == 1 && f.desc.glaze == id

/-- Installs or replaces a glaze whose signature is good. -/
def installGlaze (r : Nat) (img : GlazeImg) (s : State) : State :=
  let old := glazeOf img.id s
  let need := ceilDiv (imageBytes img.codeWords) 4096
  let rest := s.kiln.library.filter (·.id != img.id)
  let units := (freeUnits rest s).take need
  match old with
  | some g => if img.version ≤ g.version then refuse r stCONFLICT 7 s
    else if glazeInUse img.id s ∨ units.length < need then refuse r stBUSY 7 s
    else put units rest s
  | none => if units.length < need ∨ 1024 ≤ s.kiln.library.length then refuse r stBUSY 7 s else put units rest s
where
  /-- Adds the glaze and writes its image to the library's lines. -/
  put (units : List Nat) (rest : List Glaze) (s : State) : State :=
    let g : Glaze := ⟨img.id, img.version, img.requires, img.ctx, img.win, img.key, img.code,
      Config.shake256 ([1 + 2 ^ 16 * img.id, img.version, img.codeWords,
        img.requires + 2 ^ 14 * b2n img.ctx + 2 ^ 15 * b2n img.win, img.key] ++ List.replicate 11 0 ++ img.code.map (·.toNat)),
      0, [], units⟩
    let s := { s with kiln.library := rest ++ [g] }
    let s := ((wordLines (imageWords g)).zipIdx).foldl (fun s p => ownLine (imageLine g p.2) 0 p.1 s) s
    ok r [] s

/-- Checks of a glaze image once the item is read (R221, R226, R227). -/
def imageChks (len : Nat) (img : GlazeImg) (sigOk : Bool) (s : State) : List Chk :=
  [chk (img.fmt != 1) stVERSION 1, chkResv (img.resv || img.code.any codeResv),
     chkDeny (img.id == 0 || decide (65535 < img.id) || decide (16384 < img.codeWords) || !((genNow s).map fun g => bitOf g.glazeValid img.key).getD false
        || imageDeny img)]
    ++ (if img.codeWords = 0 then [] else [chkLen (decide (len < imageBytes img.codeWords)), chkExec (!sigOk) stDENIED])

/-- GLAZE_INSTALL (R221, R226 to R228): the packet's own check 3, then the item, then what it holds (10 R351); LENGTH 0 reads nothing (00
R16). -/
def execGlazeInstall (r len : Nat) (item : Item) (img : GlazeImg) (sigOk : Bool) : State → Host.Outcome State Fault Refusal :=
  cmd r 0x52 (fun _ s =>
    [chkDeny (s.pen.otp.lc != 2), itemAlign item] ++ (if len = 0 then [] else itemRead item len s ++ imageChks len img sigOk s))
    fun s => if len = 0 ∨ img.codeWords = 0 then ok r [] s else installGlaze r img s

/-- GLAZE_REMOVE (R233). -/
def execGlazeRemove (r id : Nat) : State → Host.Outcome State Fault Refusal :=
  cmd r 0x53 (fun _ s => [chkDeny (glazeOf id s).isNone, chkExec (glazeInUse id s) stBUSY]) fun s =>
    ok r [] { s with kiln.library := s.kiln.library.filter (·.id != id) }

/-- The SID list of a glaze after GLAZE_PERMIT: ACTION 0 ADD, 1 REMOVE. -/
def permitList (old sids : List Nat) (action : Nat) : List Nat :=
  if action = 0 then (old ++ sids).eraseDups else old.filter fun x => !sids.contains x

/-- GLAZE_PERMIT (R228, R233). -/
def execGlazePermit (r id mode action n : Nat) (sids : List Nat) : State → Host.Outcome State Fault Refusal :=
  cmd r 0x54 (fun _ s =>
    [chkResv (decide (3 ≤ mode) || decide (2 ≤ action)), chkDeny (glazeOf id s).isNone,
     chkEach (fun x => decide (4094 < x)) (sids.take n), chkLen (decide (32 < n)),
     chkExec (decide (64 < (permitList (((glazeOf id s).map (·.sids)).getD []) (sids.take n) action).length)) stBUSY]) fun s =>
    ok r [] { s with kiln.library := s.kiln.library.map fun (g : Glaze) =>
      if g.id = id then { g with mode := mode, sids := permitList g.sids (sids.take n) action } else g }

/-- GLAZE_READ (R233, 10 R368). -/
def execGlazeRead (r index : Nat) : State → Host.Outcome State Fault Refusal :=
  cmd r 0x56 (fun f s => [chkDeny (s.kiln.library[index]?).isNone, outChk3 f, outChk4 f 48 s]) fun s =>
    match s.kiln.library[index]? with
    | some g => okItem r [.words ([g.id, g.version, g.code.length, g.mode] ++ w256 g.digest)] s
    | none => s

/-! ### Submission (R198 to R202) -/

/-- KILN_FIRE (R233). -/
def execKilnFire (r sid : Nat) (item : Item) (d : FireDesc) : State → Host.Outcome State Fault Refusal :=
  cmdFor r 0x50 sid (fun _ s => [chkDeny (!sagThere sid s)] ++ itemChk item 256 s ++ fireChks sid d none none s) fun s =>
    match fireWaits sid d s with
    | some b => waitMig sid b (.host r) (park r (.retry (.kilnFire r sid item d)) s)
    | none =>
      let f := { newFiring sid d none none s with firingId := s.kiln.nextFiringId }
      acceptFiring f (ok r [f.firingId] { s with kiln.nextFiringId := add32 s.kiln.nextFiringId 1 })

/-- A FIRE that has passed its meter (08 R301). -/
def serveFire (m : Mhd) (d : FireDesc) (s : State) : State :=
  let sid := sidOf m.port m.src s
  let sub := some (m.port, m.src, m.tag, m.tgen)
  match firstBad (fireChks sid d sub none s) with
  | some b => refuseWork m sid d.kind d.tag d.glaze b.status s
  | none => match fireWaits sid d s with
    | some b => waitMig sid b (.cmd (.fire m d)) s
    | none => acceptFiring (newFiring sid d sub none s) s

/-- FIRE (R198, 08 R301). -/
def execFire (m : Mhd) (d : FireDesc) : State → Host.Outcome State Fault Refusal :=
  act (arrive m (.fire m d) fun sid s =>
    metered m (.fire m d) s.sags.shape.fOvh false (fun st s => refuseWork m sid d.kind d.tag d.glaze st s) (serveFire m d) sid s)

/-- The open firing of a submitter with a TAG. -/
def openFiring (sid : Nat) (aid : Option Nat) (tag : Nat) (s : State) : Option Firing :=
  s.kiln.firings.find? fun f => f.sid == sid && f.desc.tag == tag && f.win.isNone && f.sub.map (·.2.1) == aid

/-- SUBMITTER of FIRING_CANCEL and FIRING_READ: an AID, or 4,095 the host. -/
def submitter (x : Nat) : Option Nat := if x = 4095 then none else some x

/-- SUBMITTER is a reserved code. -/
def submitterResv (x : Nat) : Bool := decide (2047 < x) && x != 4095

/-- FIRING_CANCEL (R233). -/
def execFiringCancel (r sid sub tag : Nat) : State → Host.Outcome State Fault Refusal :=
  cmdFor r 0x51 sid (fun _ s => [chkResv (submitterResv sub), chkDeny (openFiring sid (submitter sub) tag s).isNone]) fun s =>
    match openFiring sid (submitter sub) tag s with
    | some f => stopFiring f.fid stINCOMPLETE (ok r [] s)
    | none => s

/-- FIRE_CANCEL (R233, 08 R300). -/
def execFireCancel (m : Mhd) (ftag : Nat) : State → Host.Outcome State Fault Refusal :=
  act (arrive m (.fireCancel m ftag) fun sid s =>
    metered m (.fireCancel m ftag) s.sags.shape.fOvh false (refuseLine m sid) (serveCancel m ftag) sid s)
where
  /-- A FIRE_CANCEL that has passed its meter. -/
  serveCancel (m : Mhd) (ftag : Nat) (s : State) : State :=
    let sid := sidOf m.port m.src s
    match openFiring sid (some m.src) ftag s with
    | some f => stopFiring f.fid stINCOMPLETE (refuseLine m sid stOK s)
    | none => refuseLine m sid stDENIED s

/-- FIRING_READ RESULT (10 R369). -/
def firingWords (f : Firing) (s : State) : List Nat :=
  let st := match f.st with
    | .faulting => 1
    | .claiming => 2
    | .queued => 3
    | .running => 4
  let faults := (s.xlt.faults.filter fun x => x.waiters.any (·.1 == firingWaiter f)).length
  [st, f.firingId, f.parts.length + 16 * (f.parts.filter (·.placed)).length, faults] ++ w64 f.submitted ++ w64 f.started

/-- FIRING_READ (R233, 10 R369). -/
def execFiringRead (r sid sub tag : Nat) : State → Host.Outcome State Fault Refusal :=
  cmdFor r 0x57 sid (fun _ s => [chkResv (submitterResv sub), chkDeny (openFiring sid (submitter sub) tag s).isNone]) fun s =>
    match openFiring sid (submitter sub) tag s with
    | some f => ok r (firingWords f s) s
    | none => s

/-! ### Claims and placement (R208, R209) -/

/-- All claims of a firing are held now: pages under WRITE claims lose their presence bits (04 R143), the parts join their
dies' queues, a window's step goes to the window's shelves at once (07 R265). -/
def holdClaims (f : Firing) (s : State) : State :=
  let wr := (s.dir.claims.filter fun c => c.firing == f.fid && c.write).map (·.page)
  let s := { s with dir.claims := s.dir.claims.map fun (c : Claim) => if c.firing = f.fid then { c with held := true } else c
                    mem.presence := s.mem.presence.filter fun p => !wr.contains p }
  let s := modFiring f.fid (fun f => { f with st := .queued }) s
  match f.win.bind fun w => smGet w s.kiln.wins with
  | some x => placePart f.fid 0 x.shelves s
  | none => (f.parts.zipIdx.filter (!·.1.ended)).foldl (fun s p => modKiln p.1.die (fun k => { k with queue := k.queue ++ [(f.fid, p.2)] }) s) s

/-- CLAIM_GRANTED (R208, 04 R142, R143): claims are granted all together, in request order, once the recalls are over. -/
def execClaimGranted (fid : Nat) : State → Host.Outcome State Fault Refusal :=
  act fun s => match firingBy fid s with
    | none => s
    | some f =>
      if s.alive = false ∨ f.st ≠ .claiming then s
      else
        let s := requestClaims fid s
        if claimsReady fid s || (claimPages f).isEmpty then holdClaims f s else s

/-- PART_PLACED (R208, R209): the next part that a die's free shelves allow. -/
def execPartPlaced (die : Nat) : State → Host.Outcome State Fault Refusal :=
  act fun s =>
    if s.alive = false then s
    else match (s.kiln.dies[die]?).bind fun k => pickPart s k.queue [] with
      | none => s
      | some (fid, i, shelves) =>
        placePart fid i shelves (modKiln die (fun k => { k with queue := k.queue.filter (· != (fid, i)) }) s)

/-- FIRING_LIMIT: LIMIT has passed since the first placement (R209). -/
def execFiringLimit (fid : Nat) : State → Host.Outcome State Fault Refusal :=
  act fun s => match firingBy fid s with
    | none => s
    | some f =>
      if s.alive ∧ f.st = .running ∧ f.desc.limit ≠ 0 ∧ f.started + f.extra + 1000 * f.desc.limit < s.now ∧ f.stop = none
      then stopFiring fid stTIMEOUT s else s

/-- SHELF_OUT: a marked shelf that finished its parts leaves service (05 R190). -/
def execShelfOut (sh : Nat) : State → Host.Outcome State Fault Refusal :=
  act fun s => match shelfOf sh s with
    | none => s
    | some x =>
      let inWindow : Bool := match x.window.bind fun w => smGet w s.kiln.wins with
        | some w => w.st != .lost
        | none => false
      if s.alive && x.marked && x.run.isNone && !inWindow then
        starveParts (emit 0x0B 4095 1 (sh / 40) [sh, 1] (modShelf sh (fun x => { x with out := true, marked := false }) s))
      else s

/-! ### Built-in firings (R224, R225) -/

/-- Reads line `i` of a role's region, `n` bytes: the data at the line's start and its cause; none on a tag mismatch. -/
def regionLine (f : Firing) (role i : Nat) (s : State) : Option (LineData × Nat) × State :=
  match runPpa (runAt f role) (64 * i) with
  | some p => readLocal (ppaOffset p / 64) f.sid (streamLine f.fid f.sid ((runAt f role).pva + 64 * i) s)
  | none => (some (0, 0), s)

/-- Lines of a region that starts on a line boundary. -/
def regionLines (len : Nat) : List (Nat × Nat) := (List.range (ceilDiv len 64)).map fun i => (i, min 64 (len - 64 * i))

/-- Length of a role's region. -/
def roleLen (f : Firing) (role : Nat) : Nat := ((slotOf role f.desc).map (·.length)).getD 0

/-- The first `n` bytes of a line as an output line of a role. -/
def lineOut (f : Firing) (role i n : Nat) (d : LineData) : OutLine :=
  let pva := ((slotOf role f.desc).map (·.pva)).getD 0
  ⟨pva / 64 + i, 0, ((lineBytes d 0).take n).map (·.1), 0⟩

/-- Writes a line of a built-in firing, unless a line before it stopped the firing (R217). -/
def builtinOut (f : Firing) (role : Nat) (o : OutLine) (cause : Nat) (s : State) : State :=
  if ((firingBy f.fid s).bind (·.stop)).isSome then s else writeOut f 0 role o cause s

/-- FILL: the 8-byte pattern ARG1:ARG0 from the region's start. -/
def runFill (f : Firing) (s : State) : Option Unit × State :=
  let pat : LineData := (List.range 8).foldl (fun a i =>
    a ||| (((f.desc.args.getD 0 0).zeroExtend 512) <<< (64 * i)) ||| (((f.desc.args.getD 1 0).zeroExtend 512) <<< (64 * i + 32))) 0
  (some (), (regionLines (roleLen f 5)).foldl (fun s l => builtinOut f 5 (lineOut f 5 l.1 l.2 pat) 0 s) s)

/-- COPY: byte copy, each line with its source's cause (03 R102). -/
def runCopy (f : Firing) (s : State) : Option Unit × State :=
  thenRead (readEach (fun l s => thenRead (regionLine f 1 l.1 s) fun d s =>
    (some (), builtinOut f 5 (lineOut f 5 l.1 l.2 d.1) (carried d.2) s)) (regionLines (roleLen f 1)) s) fun _ s => (some (), s)

/-- Number of leading equal bytes of two lines. -/
def equalBytes (n : Nat) (a b : LineData) : Nat :=
  ((List.range n).find? fun i => a.extractLsb' (8 * i) 8 != b.extractLsb' (8 * i) 8).getD n

/-- COMPARE's scan: leading equal bytes, STOP and the cause (R225). -/
def compareScan (f : Firing) : List (Nat × Nat) → State → Option (Nat × Nat × Nat) × State
  | [], s => (some (roleLen f 1, 0, 0), s)
  | l :: r, s =>
    thenRead (regionLine f 1 l.1 s) fun a s => thenRead (regionLine f 2 l.1 s) fun b s =>
      if a.2 ≠ 0 ∨ b.2 ≠ 0 then (some (64 * l.1, 2, if a.2 ≠ 0 then a.2 else b.2), s)
      else
        let n := equalBytes l.2 a.1 b.1
        if n < l.2 then (some (64 * l.1 + n, 1, 0), s) else compareScan f r s

/-- COMPARE (R225). -/
def runCompare (f : Firing) (s : State) : Option Unit × State :=
  thenRead (compareScan f (regionLines (roleLen f 1)) s) fun x s =>
    let v := x.1 + 2 ^ 32 * x.2.1 + 2 ^ 36 * x.2.2
    let pva := ((slotOf 5 f.desc).map (·.pva)).getD 0
    (some (), (groupLines ((bytesLE 8 v).mapIdx fun i b => (pva + i, b, 0))).foldl (fun s o => builtinOut f 5 o 0 s) s)

/-- `k` elements of a REDUCE input from element `e`, as binary32 with their taints, and the flags of widening them (05 R167). -/
def reduceElems (f : Firing) (role e k : Nat) (s : State) : Option (List (TWord × BitVec 8)) × State :=
  match slotOf role f.desc with
  | none => (some (List.replicate k (clean 0, 0)), s)
  | some sl =>
    let n := elemBits sl.format / 8
    thenRead (readBytes f.fid f.sid (runAt f role) (e * n) (k * n) s) fun bs s =>
      (some ((List.range k).map fun i =>
        let b := (bs.drop (i * n)).take n
        let r := unpack32 sl.format (leVal b)
        (⟨BitVec.ofNat 32 r.v, leTaint b⟩, r.f)), s)

/-- One element of REDUCE: the sum in order, in binary32, and its flags. -/
def reduceSum (vs : List (TWord × BitVec 8)) : TWord × BitVec 8 :=
  match vs with
  | [] => (clean 0, 0)
  | v :: r => r.foldl (fun a w => let x := reduce2 0 a.1 w.1; (x.1, a.2 ||| w.2 ||| x.2)) v

/-- REDUCE on one lane's grains of OUT0: the lane converts and stores its results. -/
def reduceLane (f : Firing) (k : Nat) (gr : List Nat) (g : Nat) (s : State) : Option (BitVec 8) × State :=
  match slotOf 5 f.desc with
  | none => (some 0, s)
  | some sl =>
    let per := elemCount sl.format (grainBytes sl)
    let total := elemCount sl.format sl.length
    let ins := [1, 2, 3, 4].filter fun r => (slotOf r f.desc).isSome
    thenRead (readEach (fun i s =>
        let k := min per (total - i * per)
        thenRead (readEach (fun r s => reduceElems f r (i * per) k s) ins s) fun cols s =>
          (some ((List.range k).map fun j => cols.map fun c => c.getD j (clean 0, 0)), s)) gr s) fun rows s =>
      let vs := rows.flatten
      let lane := vs.foldl (fun l v => let x := reduceSum v; pushOut f.desc 0 x.1 (addFlags x.2 l))
        (startLane f 0 0 g gr [] [])
      let (l, s) := commitLane f k gr [] false lane s
      (some l.f, s)

/-- REDUCE over all parts (R224). -/
def runReduce (f : Firing) (s : State) : Option Unit × State :=
  thenRead (readEach (fun p s =>
      let n := 256 * p.shelves.length
      thenRead (readEach (fun j s => reduceLane f p.die (laneGrains p.grains n j) (256 * (p.shelves.getD (j / 256) 0) + j % 256) s)
        (List.range (min n p.grains.length)) s) fun fs s =>
        (some (), modFiring f.fid (fun f => { f with flags := Nat.lor f.flags (fs.foldl (fun a b => a ||| b) 0).toNat }) s))
      (f.parts.filter fun p => !p.ended) s)
    fun _ s => (some (), s)

/-- Runs a built-in firing (R224). -/
def runBuiltin (f : Firing) (s : State) : Option Unit × State :=
  match f.desc.kind with
  | 2 => runFill f s
  | 3 => runCopy f s
  | 4 => runCompare f s
  | _ => runReduce f s

/-! ### FRED and the end (R209, R223, R230) -/

/-- Combines the parts' values of the `k`-th FRED to OUT`out` over die number (R223). -/
def fredCombine (parts : List Part) (out k : Nat) : Option TWord × BitVec 8 :=
  let mine (p : Part) : List (Nat × Nat × Option TWord) := p.freds.filter (·.1 == out)
  let op := ((parts.findSome? fun p => (mine p)[k]?).map (·.2.1)).getD 0
  reduceTree op 4 (parts.map fun p => ((mine p)[k]?).bind (·.2.2)) 0

/-- A part of the firing stood on a kiln die that has left service. -/
def partGone (f : Firing) (s : State) : Bool := f.parts.any fun p => !(s.glb.kilnIn.getLsbD p.die)

/-- Writes bytes of a role in order from the region's first byte, as a result of the lowest die's part; with cause 5 when a part was lost (11
R398). -/
def writeSeq (f : Firing) (role : Nat) (bs : List (Nat × Nat)) (s : State) : State :=
  let pva := ((slotOf role f.desc).map (·.pva)).getD 0
  (groupLines (bs.mapIdx fun i b => (pva + i, b.1, b.2))).foldl (fun s o => writeOut f ((f.parts.head?.map (·.die)).getD 0) role o (if partGone f s then 5 else taintCause o.t) s) s

/-- The hub's combining for OUT`n` of a firing (R223): results converted as R213 states; the draws of stochastic rounding
there are free values (log 6). -/
def fredOut (f : Firing) (n : Nat) (s : State) : State :=
  let count := f.parts.foldl (fun m p => max m (p.freds.filter (·.1 == n)).length) 0
  match slotOf (5 + n) f.desc with
  | none => s
  | some sl =>
    if count = 0 ∨ sl.dist ≠ 1 then s
    else
      let (g, s) := draw s
      let lane := { startLane f 0 0 0 [] [] [] with g := BitVec.ofNat 64 g, room := [0, 0].set n (elemCount sl.format sl.length) }
      let lane := (List.range count).foldl (fun l k =>
        let r := fredCombine f.parts n k
        match r.1 with
        | some v => pushOut f.desc n v (addFlags r.2 l)
        | none => l) lane
      let s := modFiring f.fid (fun f => { f with flags := Nat.lor f.flags lane.f.toNat, overrun := f.overrun + lane.lost }) s
      writeSeq f (11 + n) (lane.outs.getD (2 + n) []) (writeSeq f (5 + n) (lane.outs.getD n []) s)

/-- Ends the parts of a firing that have not ended. -/
def endParts (f : Firing) (s : State) : State :=
  f.parts.zipIdx.foldl (fun s p => if p.1.placed && !p.1.ended then endPart f.fid p.2 s else s) s

/-- Ends firing `fid` as it now stands. -/
def closeFiring (fid : Nat) (s : State) : State :=
  match firingBy fid s with
  | some f => endFiring f s
  | none => s

/-- A part of a firing that is to stop has reached a commit on each of its shelves (R209, R217): its lanes there have ended, or the shelf
stands at a meeting point or is held there (15 R480). -/
def partStopped (p : Part) (s : State) : Bool :=
  !p.placed || p.ended || p.shelves.all fun sh => ((shelfOf sh s).map fun x => x.wait != .none || x.held || x.lanes.all (·.fin)).getD true

/-- FIRING_DONE (R209, R223, R224, R230): all parts have ended, or have stopped with the firing, or a built-in has its shelves. -/
def execFiringDone (fid : Nat) : State → Host.Outcome State Fault Refusal :=
  act fun s => match firingBy fid s with
    | none => s
    | some f =>
      if s.alive = false ∨ f.st ≠ .running then s
      else if f.stop.isSome then
        if f.parts.all fun p => partStopped p s then closeFiring fid (endParts f s) else s
      else if f.desc.kind ≠ 1 then
        if f.parts.all (fun p => p.placed || p.ended) then
          let moved (s : State) : Nat := s.obs.global.getD 0 0 + (if f.desc.kind = 5 then 0 else s.obs.global.getD 1 0)
          let before := moved s
          match runBuiltin f s with
          | (some _, s) => closeFiring fid (endParts f (chargeL f.sid (moved s - before) s).2)
          | (none, s) => closeFiring fid (endParts f (tagStop fid s))
        else s
      else if f.parts.all (·.ended) then closeFiring fid (fredOut f 1 (fredOut f 0 s))
      else s

end Sys2Proof.Machine
end

