-- ==== Sys2Proof/Machine/Window.lean ====
section
/-! DEFINITION. Contexts (07 R235 to R239) and kiln windows (07 R256 to R273). -/

namespace Sys2Proof.Machine

/-! ### Contexts -/

/-- A context that is Free. -/
def freeCtx : Ctx := ⟨1, 0, 0, 4095, 0, 0, 0, false, 0, 0, 0, 0, 0, 0, 0, false⟩

/-- A context that is Granted to a SID. -/
def grantedCtx (sid : Nat) : CtxSt := ⟨{ freeCtx with st := 1, sid := sid }, 0, 0⟩

/-- SID that owns a context; 4,095 when Free. -/
def ctxOwner (n : Nat) (s : State) : Nat := ((ctxOf n s).map (·.e.sid)).getD 4095

/-- An open firing names a context of the range. -/
def ctxInUse (base count : Nat) (s : State) : Bool :=
  s.kiln.firings.any fun f => f.ctxs.any fun c => decide (base ≤ c.1) && decide (c.1 < base + count)

/-- CTX_GRANT (R236, R273); SID 4,095 frees the range. -/
def execCtxGrant (r sid base count : Nat) : State → Host.Outcome State Fault Refusal :=
  cmdFor r 0x58 sid (fun _ s =>
    [chkDeny (decide (4095 < sid) || (sid != 4095 && !sagThere sid s) || decide (4095 < base)),
     chkLen (decide (4096 < base + count)),
     chkExec (sid != 4095 && (List.range count).any fun i => ctxOwner (base + i) s != 4095 && ctxOwner (base + i) s != sid) stCONFLICT,
     chkExec (sid == 4095 && ctxInUse base count s) stBUSY]) fun s =>
    ok r [] { s with kiln.ctxs := (List.range count).foldl (fun m i =>
      if sid = 4095 then smDel (base + i) m else smSet (base + i) (grantedCtx sid) m) s.kiln.ctxs }

/-- Check 2 of a context entry: reserved codes, fields that the KIND does not have, PVAs (R235, R237). -/
def ctxResv (e : Ctx) : Bool :=
  e.resv || decide (3 ≤ e.kind) || decide (11 ≤ e.format) || match e.kind with
    | 0 => e.format != 0 || e.btLog != 0 || e.kvHeads != 0 || e.weighted || e.g != 0 || e.width != 0 || e.count != 0
        || e.nnz != 0 || e.list != 0 || e.aux != 0 || e.rows != 0
    | 1 => e.weighted || e.rows != 0 || decide (65536 ≤ e.nnz) || decide (2 ^ 52 ≤ e.list)
    | _ => e.btLog != 0 || e.kvHeads != 0 || e.g != 0 || decide (2 ^ 52 ≤ e.list) || decide (2 ^ 52 ≤ e.aux)

/-- A binary32 pattern is finite. -/
def finite32 (v : Nat) : Bool := fieldOf v 23 8 != 255

/-- Check 3 of a context entry's ranges (R235, R237). -/
def ctxRangeBad (e : Ctx) : Bool :=
  match e.kind with
  | 0 => false
  | 1 => !(decide (1 ≤ e.format) && decide (e.format ≤ 4)) || !(decide (4 ≤ e.btLog) && decide (e.btLog ≤ 8))
      || !(decide (1 ≤ e.kvHeads) && decide (e.kvHeads ≤ 64)) || !(decide (1 ≤ e.g) && decide (e.g ≤ 8))
      || !(decide (32 ≤ e.width) && decide (e.width ≤ 256) && e.width % 32 == 0) || decide (2 ^ 24 ≤ e.count)
      || e.list % 64 != 0 || !finite32 e.aux || !finite32 (e.aux / 2 ^ 32)
  | _ => decide (4 < e.format) || !(decide (1 ≤ e.width) && decide (e.width ≤ 2048)) || decide (2 ^ 24 ≤ e.count)
      || decide (2 ^ 24 < e.nnz) || e.rows == 0 || decide (2 ^ 32 ≤ e.rows) || e.list % 64 != 0 || e.aux % 64 != 0
      || rowBytes e % 4 != 0

/-- Bytes of a table's rows (R237). -/
def rowsLen (e : Ctx) : Nat := e.rows * rowBytes e

/-- PPA of a page of a table's rows, when it is Present and local with RD = 1 and WR = 0 (R237). -/
def rowPpa (sid page : Nat) (s : State) : Option Nat :=
  match walk sid page s with
  | .present b l =>
    let p := leafPpa l ((page - b) * 2 ^ 21)
    if l.rd && !l.wr && ppaFormat p == 1 then some p else none
  | _ => none

/-- The walk of a table's rows meets a page that is being migrated: its leaf's first page (02 R81). -/
def rowsWait (sid : Nat) (e : Ctx) (s : State) : Option Nat :=
  if e.kind ≠ 2 then none
  else (regionPages e.aux (rowsLen e)).findSome? fun p => match walk sid p s with
    | .present b l => if l.mig then some b else none
    | _ => none

/-- The pages of a table's rows are one run of consecutive local PPAs on one die (R237): the PPA of row 0's page. -/
def rowsBase (sid : Nat) (e : Ctx) (s : State) : Option Nat :=
  let ps := (regionPages e.aux (rowsLen e)).map fun p => rowPpa sid p s
  match ps.head?.join with
  | none => none
  | some p0 =>
    if ps.zipIdx.all fun x => x.1 == some (p0 + x.2 * 2 ^ 21) && (p0 + x.2 * 2 ^ 21) / 2 ^ 42 == p0 / 2 ^ 42 then some p0 else none

/-- Checks of CTX_SET (R236, R237) for a context whose owner must satisfy `mine`. -/
def ctxSetChks (mine : Nat → Bool) (n : Nat) (e : Ctx) (s : State) : List Chk :=
  let own := ctxOwner n s
  [chk (e.fmt != 1) stVERSION 1, chkResv (ctxResv e),
   chkDeny (decide (4095 < n) || own == 4095 || !mine own || e.sid != own), chkDeny (ctxRangeBad e),
   chkDeny (e.kind == 2 && (rowsWait own e s).isNone && (rowsBase own e s).isNone),
   chkLen (e.kind == 2 && pastEnd own e.aux (rowsLen e) s)]

/-- Fills a context (R236, R237): KIND 0 returns it to Granted; a TABLE takes its baked run and the epoch in force (R238). -/
def setCtx (n : Nat) (e : Ctx) (s : State) : State :=
  let own := ctxOwner n s
  let x : CtxSt := if e.kind = 0 then grantedCtx own
    else ⟨{ e with st := 2, resv := false },
      if e.kind = 2 then ((rowsBase own e s).map fun p => p + e.aux % 2 ^ 21).getD 0 else 0, epochOf own s⟩
  { s with kiln.ctxs := smSet n x s.kiln.ctxs }

/-- CTX_SET of the host (R236, R273). -/
def execCtxSet (r n : Nat) (e : Ctx) : State → Host.Outcome State Fault Refusal :=
  cmd r 0x59 (fun _ s => ctxSetChks (fun _ => true) n e s) fun s =>
    match rowsWait (ctxOwner n s) e s with
    | some b => waitMig (ctxOwner n s) b (.host r) (park r (.retry (.ctxSet r n e)) s)
    | none => ok r [] (setCtx n e s)

/-- A CTX_SET of an agent that has passed its meter (R236, 08 R301). -/
def serveCtxSet (m : Mhd) (n : Nat) (e : Ctx) (s : State) : State :=
  let sid := sidOf m.port m.src s
  match firstBad (ctxSetChks (· == sid) n e s) with
  | some b => refuseLine m sid b.status s
  | none => match rowsWait sid e s with
    | some b => waitMig sid b (.cmd (.agentCtxSet m n e)) s
    | none => refuseLine m sid stOK (setCtx n e s)

/-- CTX_SET of an agent (R236, 08 R300). -/
def execAgentCtxSet (m : Mhd) (n : Nat) (e : Ctx) : State → Host.Outcome State Fault Refusal :=
  act (arrive m (.agentCtxSet m n e) fun sid s =>
    metered m (.agentCtxSet m n e) s.sags.shape.fOvh false (refuseLine m sid) (serveCtxSet m n e) sid s)

/-- The twelve words of a context entry (R235). -/
def ctxWords (e : Ctx) : List Nat :=
  [1 + 2 ^ 4 * e.st + 2 ^ 6 * e.kind + 2 ^ 8 * e.sid + 2 ^ 20 * e.format + 2 ^ 24 * e.btLog,
   e.kvHeads + 2 ^ 7 * b2n e.weighted + 2 ^ 8 * e.g + 2 ^ 16 * e.width, e.count, e.nnz]
    ++ w64 e.list ++ w64 e.aux ++ [e.rows, 0, 0, 0]

/-- CTX_READ (R235, R273). -/
def execCtxRead (r n : Nat) : State → Host.Outcome State Fault Refusal :=
  cmd r 0x5A (fun f s => [chkDeny (decide (4095 < n)), outChk3 f, outChk4 f 48 s]) fun s =>
    okItem r [.words (ctxWords (((ctxOf n s).map (·.e)).getD freeCtx))] s

/-! ### Windows: opening (R257, R258, R267, R272) -/

/-- Segments of a window. -/
def winSegs (b : WinBlock) : Nat := b.elements / segElems b.cfmt

/-- The STEP descriptor breaks the step rules of R267 or R272. -/
def stepBad (b : WinBlock) (s : State) : Bool :=
  let d := b.step
  let ge := 16 * 2 ^ b.gw
  !((descGlaze d s).map (·.win)).getD false || d.window != b.window || d.spread != b.shelves
    || (match leadSlot d with
      | some sl => elemCount sl.format sl.length != b.elements || elemCount sl.format (grainBytes sl) != ge
          || (isMx d sl.role && ge % 32 != 0)
      | none => true)

/-- Free shelves of the allocation on the window's die, lowest numbers first. -/
def winShelves (b : WinBlock) (s : State) : List Nat := (allocOf b.sid b.die s).filter fun sh => shelfFree b.sid sh s

/-- A window as it opens. -/
def newWindow (b : WinBlock) (shelves : List Nat) : Window :=
  openRound b.round ⟨b, .opened, shelves, b.round, true, [], [], 0, 0, 0, 0, 0, 0, 0, 0, false⟩

/-- Checks of a window block once its item is read (R257, R258, 14 R451). -/
def winChks (len : Nat) (b : WinBlock) (s : State) : List Chk :=
    [chk (b.fmt != 1) stVERSION 1, chkResv (b.resv || decide (3 ≤ b.cfmt) || b.short == 3 || decide (5 ≤ b.gw)),
     chkDeny (decide (1023 < b.window) || (smGet b.window s.kiln.wins).isSome || !dieServes b.die s
        || b.sid == 0 || sagState b.sid s != .active || b.shelves == 0 || decide (40 < b.shelves)
        || b.contrib == 0 || decide (1024 < b.contrib)
        || !(b.deadline == 0 || (decide (1000000 ≤ b.deadline) && decide (b.deadline ≤ 600000000000)))
        || b.elements % segElems b.cfmt != 0 || !b.aids.Nodup || b.aids.any fun a => decide (2047 < a)),
     chkDeny (stepBad b s || (firstBad (fireChks b.sid b.step none (some b.window) s)).isSome)]
    ++ (if b.elements = 0 then [] else
      [chkLen (decide (b.shelves * 256 * 1920 < b.elements) || decide (len < 320 + 2 * b.contrib)), chkWarm (warmDie b.die s),
       chkExec (decide ((winShelves b s).length < b.shelves)) stBUSY])

/-- WINDOW_OPEN (R257, R258, R265); LENGTH 0 reads nothing (00 R16). -/
def execWindowOpen (r len : Nat) (item : Item) (b : WinBlock) : State → Host.Outcome State Fault Refusal :=
  cmdFor r 0x5B b.sid (fun _ s => itemAlign item :: (if len = 0 then [] else itemRead item len s ++ winChks len b s)) fun s =>
    if len = 0 ∨ b.elements = 0 then ok r [] s
    else
      let shelves := (winShelves b s).take b.shelves
      let s := shelves.foldl (fun s sh => modShelf sh (fun x => { x with window := some b.window }) s) s
      ok r [] { s with kiln.wins := smSet b.window (newWindow b shelves) s.kiln.wins }

/-! ### Closing a round (R262 to R265) -/

/-- Segments that contributor `i` still lacks in the round. -/
def missingOf (x : Window) (i : Nat) : List Nat := (List.range (winSegs x.blk)).filter fun sgm => !x.ledger.contains (i, sgm)

/-- The 48 words of a WINDOW_ROUND record (R264). -/
def roundWords (w outcome firing now : Nat) (x : Window) : List Nat :=
  let b := x.blk
  let expect := b.contrib * winSegs b
  let missing := (List.range b.contrib).filter fun i => !(missingOf x i).isEmpty
  let bits := missing.foldl (fun a i => a + 2 ^ i) 0
  [1 + 2 ^ 4 * outcome + 2 ^ 16 * x.round, w + 2 ^ 16 * b.sid, expect % 2 ^ 32, x.received, x.dups, x.late, x.refused, missing.length]
    ++ w64 (if x.received = 0 then 0 else x.firstAt) ++ w64 now ++ [firing, (expect - x.received) % 2 ^ 32, 0, 0]
    ++ (List.range 32).map fun i => bits / 2 ^ (32 * i) % 2 ^ 32

/-- Port for a message that answers nothing: of the agent's most recent JOIN, else of its most recent admission (08 R298). -/
def aidPort (aid : Nat) (s : State) : Nat :=
  if (agentOf aid s).kind ≠ 0 then (agentOf aid s).port
  else
    let at_ (p : Nat) : Nat := ((assocOf p aid s).map (·.admAt)).getD 0
    let ps := (List.range 16).filter fun p => admitted p aid s
    ps.foldl (fun a b => if at_ a < at_ b then b else a) (ps.headD 0)

/-- Writes a round's record to the event ring and to NOTIFY_AID (R264). -/
def roundRecord (w outcome firing : Nat) (s : State) : State :=
  match smGet w s.kiln.wins with
  | none => s
  | some x =>
    let ws := roundWords w outcome firing s.now x
    let s := modWin w (fun x => { x with opened := false, closedAt := s.now }) (emit 0x02 x.blk.sid 0 0 ws s)
    if x.blk.notify then sendWords (aidPort x.blk.notifyAid s) 0x2A x.blk.notifyAid 0 0 0 ws s else s

/-- FIRING_DONE of a step that could not run (R268), then Parked with the sums discarded. -/
def failStep (w status : Nat) (f : Firing) (s : State) : State :=
  let f := { f with stop := some status }
  winRest w false (emit 0x01 f.sid 0 0 (fireRecord f status s) (if status = stDENIED then countDenied f.sid s else s))

/-- Fires the window's step (R265, R267, R268). -/
def startStep (w id : Nat) (s : State) : State :=
  match smGet w s.kiln.wins with
  | none => s
  | some x =>
    let s := modWin w (fun x => { x with st := .stepping, steps := x.steps + 1 }) s
    let (v, s) := if x.blk.step.seed = 0 then draw s else (0, s)
    let seed := if x.blk.step.seed = 0 then v % (2 ^ 64 - 1) + 1 else (x.blk.step.seed + x.round) % 2 ^ 64
    let args := (List.range 8).map fun i => if i = 7 then BitVec.ofNat 32 (x.steps + 1) else x.blk.step.args.getD i 0
    let d := { x.blk.step with args := args }
    let f := { newFiring x.blk.sid d none (some w) s with firingId := id, seed := seed }
    let rs := regionsOf d []
    let walked := walkRegions x.blk.sid rs s
    if walked.any (· == .bad) ∨ walked.any (· == .contested) then failStep w stDENIED f s
    else if rs.any fun r => pastEnd x.blk.sid r.2.1 r.2.2.1 s then failStep w stLENGTH f s
    else acceptFiring f s

/-- Marks the accumulators of segments that lack a contribution with cause 7 (R262). -/
def markShort (x : Window) : Window :=
  let se := segElems x.blk.cfmt
  let lacking := (List.range (winSegs x.blk)).filter fun g => (List.range x.blk.contrib).any fun i => !x.ledger.contains (i, g)
  let mark (m : SMap Acc) (e : Nat) : SMap Acc :=
    let a := (smGet e m).getD ⟨clean 0, clean 0⟩
    smSet e ⟨⟨a.s.v, max 2 a.s.t⟩, a.c⟩ m
  { x with accs := (lacking.flatMap fun g => (List.range se).map (g * se + ·)).foldl mark x.accs }

/-- Closes the open round of a window (R262, R265). -/
def closeRound (w : Nat) (s : State) : State :=
  match smGet w s.kiln.wins with
  | none => s
  | some x =>
    let full := x.received == x.blk.contrib * winSegs x.blk
    if !full && x.blk.short == 0 then winRest w true (roundRecord w 4 0 s)
    else
      let id := s.kiln.nextFiringId
      let s := { s with kiln.nextFiringId := add32 id 1 }
      let s := roundRecord w (if full then 1 else if x.blk.short = 1 then 2 else 3) id s
      let s := if !full && x.blk.short == 1 then modWin w markShort s else s
      startStep w id s

/-! ### Contributions (R256, R260, R261) -/

/-- Row of R260 that a contribution meets: status, and whether it is accumulated. -/
inductive Verdict where
  | outside | notListed | taken | duplicate | late | early | other
deriving DecidableEq, Repr

/-- Judges a contribution at byte `off` of a window's image. -/
def judge (x : Option Window) (aid off round : Nat) : Verdict :=
  match x with
  | none => .outside
  | some x =>
    if x.st = .lost ∨ off % 4096 ≠ 0 ∨ winSegs x.blk ≤ off / 4096 then .outside
    else match x.blk.aids.idxOf? aid with
      | none => .notListed
      | some i =>
        if round = x.round ∧ x.opened = true then
          if x.ledger.contains (i, off / 4096) then .duplicate else .taken
        else if round = x.round ∨ (round + 1) % 65536 = x.round then .late
        else if round = (x.round + 1) % 65536 then .early
        else .other

/-- Status of a verdict (R260). -/
def verdictStatus : Verdict → Nat
  | .outside => stDENIED
  | .notListed => stDENIED
  | .taken => stOK
  | .duplicate => stCONFLICT
  | .late => stTIMEOUT
  | .early => stBUSY
  | .other => stDENIED

/-- The binary32 elements of a contribution's data in CFMT (05 R180). -/
def contribElems (cfmt : Nat) (data : List Word) : List Word :=
  if cfmt = 0 then data
  else data.flatMap fun w => [BitVec.ofNat 32 (unpack32 cfmt (w.toNat % 65536)).v, BitVec.ofNat 32 (unpack32 cfmt (w.toNat / 65536)).v]

/-- Accumulates an accepted segment in COMP mode (R261): taint for a carried cause, cause 9 for a lane that is Retired. -/
def accumulate (x : Window) (seg cause : Nat) (data : List Word) (s : State) : Window :=
  let base := seg * segElems x.blk.cfmt
  let one (m : SMap Acc) (p : Word × Nat) : SMap Acc :=
    let e := base + p.2
    let a := (smGet e m).getD ⟨clean 0, clean 0⟩
    let (sh, l) := elemLane x e
    let nine := ((shelfOf sh s).map fun y => laneRetired y l).getD false
    let t := if nine then 3 else if cause = 0 then 0 else 1
    let (sv, cv, _) := compAdd a.s.v a.c.v p.1
    smSet e ⟨⟨sv, max a.s.t t⟩, ⟨cv, max a.c.t t⟩⟩ m
  { x with accs := ((contribElems x.blk.cfmt data).zipIdx).foldl one x.accs }

/-- A contribution to a window page is judged, answered and accumulated (R260, R261, 08 R304). -/
def serveSegment (m : Mhd) (off round cause : Nat) (data : List Word) (s : State) : State :=
  let sid := sidOf m.port m.src s
  let w := off / 2 ^ 38 % 1024
  let img := off % 2 ^ 38
  let x := smGet w s.kiln.wins
  let v := judge x m.src img round
  let s := match x with
    | none => modCtr sid (fun c => { c with contribRef := add64 c.contribRef 1 }) s
    | some x =>
      if v = .taken then
        let i := (x.blk.aids.idxOf? m.src).getD 0
        let y := accumulate x (img / 4096) cause data s
        let y := { y with ledger := (i, img / 4096) :: y.ledger, received := y.received + 1
                          firstAt := if y.received = 0 then s.now else y.firstAt }
        modCtr sid (fun c => { c with contribAcc := add64 c.contribAcc 1 })
          (modKiln x.blk.die (fun k => { k with winAccepted := add32 k.winAccepted 1 })
            (modWin w (fun _ => y) (x.shelves.foldl (fun s sh => modShelf sh (fun y => { y with attempts := 0 }) s) s)))
      else
        let cnt (y : Window) : Window := match v with
          | .duplicate => { y with dups := add32 y.dups 1 }
          | .late => { y with late := add32 y.late 1 }
          | _ => { y with refused := add32 y.refused 1 }
        modCtr sid (fun c => { c with contribRef := add64 c.contribRef 1 })
          (modKiln x.blk.die (fun k => { k with winRefused := add32 k.winRefused 1 }) (modWin w cnt s))
  let s := refuseLine m sid (verdictStatus v) s
  match smGet w s.kiln.wins with
  | some y => if v = .taken ∧ y.received = y.blk.contrib * winSegs y.blk then closeRound w s else s
  | none => s

/-- A CONTRIB that has passed its meter: translated as a write (02 R55); anything but a window page is DENIED (R256). Its
segment is 64 lines of the page, and counts as heat so (02 R83, R84; log 26). -/
def serveContrib (m : Mhd) (addr round cause : Nat) (data : List Word) (s : State) : State :=
  let sid := sidOf m.port m.src s
  let i : Instr := .contrib m addr round cause data
  if addr ≥ 2 ^ 52 then refuseLine m sid stRESERVED s
  else match translate sid addr 2 s with
    | .window off => serveSegment m off round cause data (addHeat sid (((leafAt sid (addr / 2 ^ 21) s.xlt).map (·.1)).getD 0) 64 s)
    | .migrating b => waitMig sid b (.cmd i) s
    | .fault b l => match hitFault (.agent i m.port m.src) 2 sid b l.big 1 s with
      | some s' => s'
      | none => refuseLine m sid stBUSY { s with xlt.refused := add32 s.xlt.refused 1 }
    | .contested => refuseLine m sid stCONTESTED s
    | _ => refuseLine m sid stDENIED s

/-- CONTRIB (R260, 08 R300, R304, 09 R320). -/
def execContrib (m : Mhd) (addr round cause : Nat) (data : List Word) : State → Host.Outcome State Fault Refusal :=
  act (arrive m (.contrib m addr round cause data) fun sid s =>
    metered m (.contrib m addr round cause data) (4096 + s.sags.shape.fOvh) false (refuseLine m sid)
      (serveContrib m addr round cause data) sid s)

/-! ### Window commands and the deadline (R262, R265, R273) -/

/-- WINDOW_ARM (R265, R273). -/
def execWindowArm (r w : Nat) : State → Host.Outcome State Fault Refusal :=
  cmd r 0x5C (fun _ s => [chkDeny (decide (1023 < w)),
    chkExec ((smGet w s.kiln.wins).map (·.st) != some .parked) stCONFLICT]) fun s =>
    ok r [] (modWin w (fun x => openRound (x.round + 1) x) s)

/-- WINDOW_FORCE (R262, R265, R273). -/
def execWindowForce (r w : Nat) : State → Host.Outcome State Fault Refusal :=
  cmd r 0x5D (fun _ s => [chkDeny (decide (1023 < w)),
    chkExec ((smGet w s.kiln.wins).map (·.st) == some .stepping) stBUSY,
    chkExec (!((smGet w s.kiln.wins).map (·.opened)).getD false) stCONFLICT]) fun s => ok r [] (closeRound w s)

/-- WINDOW_CLOSE (R265, R273). -/
def execWindowClose (r w : Nat) : State → Host.Outcome State Fault Refusal :=
  cmd r 0x5E (fun _ s => [chkDeny (decide (1023 < w) || (smGet w s.kiln.wins).isNone),
    chkExec ((smGet w s.kiln.wins).map (·.st) == some .stepping) stBUSY]) fun s =>
    match smGet w s.kiln.wins with
    | none => s
    | some x =>
      let s := if x.st = .opened then roundRecord w 6 0 s else s
      let s := x.shelves.foldl (fun s sh => modShelf sh (fun y => { y with window := none }) s) s
      ok r [] { s with kiln.wins := smDel w s.kiln.wins }

/-- WINDOW_READ RESULT (10 R369). -/
def windowWords (x : Option Window) (i : Nat) : List Nat :=
  match x with
  | none => [0, 0, 0, 0, 0, 0xFFFFFFFF, 4095, 0]
  | some x =>
    let st := match x.st with
      | .opened => 1
      | .stepping => 2
      | .parked => 3
      | .lost => 4
    let miss := if x.opened then missingOf x i else []
    [st, x.round, x.steps, if x.opened then x.received else 0, miss.length, (miss.head?).getD 0xFFFFFFFF, x.blk.sid, 0]

/-- WINDOW_READ (R273, 10 R369). -/
def execWindowRead (r w contrib : Nat) : State → Host.Outcome State Fault Refusal :=
  cmd r 0x5F (fun _ s => [chkDeny (decide (1023 < w) || (match smGet w s.kiln.wins with
    | some x => decide (x.blk.contrib ≤ contrib)
    | none => false))]) fun s => ok r (windowWords (smGet w s.kiln.wins) contrib) s

/-- WINDOW_DEADLINE (R262): DEADLINE ticks after the round's first accepted contribution, gaps added. -/
def execWindowDeadline (w : Nat) : State → Host.Outcome State Fault Refusal :=
  act fun s => match smGet w s.kiln.wins with
    | none => s
    | some x =>
      if s.alive ∧ x.opened = true ∧ 0 < x.received ∧ x.blk.deadline ≠ 0 ∧ x.firstAt + x.blk.deadline + x.extra ≤ s.now
      then closeRound w s else s

end Sys2Proof.Machine
end

