-- ==== Sys2Proof/Machine/Xlt.lean ====
section
/-! DEFINITION. Translation commands (02 R48 to R61, R77 to R82, R498), work in flight, withdrawal, migration, heat, and
the holder table; the events WITHDRAW_ACK and HEAT_DECAY. -/

namespace Sys2Proof.Machine

/-! ### Tables (R51, R52) -/

/-- Bytes that a table takes: 128 KiB at level 1, else 8 KiB. -/
def tableBytes (level : Nat) : Nat := if level = 1 then 131072 else 8192

/-- The first free place for a table of a level in the granted pages, in order of grant (log 27). -/
def freePlace (level : Nat) (x : Xlt) : Option Nat :=
  let n := tableBytes level
  let spots := x.grants.flatMap fun p => (List.range (2097152 / n)).map fun i => p * 2097152 + i * n
  spots.find? fun o => !(x.tables.any fun t => overlap o n (ppaOffset t.ppa) (tableBytes t.level))

/-- The table of a level with its index. -/
def tableOf (level sid idx : Nat) (x : Xlt) : Option Table :=
  x.tables.find? fun t => t.level == level && t.sid == sid && t.idx == idx

/-- Writes entry `i` of a table to its line in pool memory, with TAG 0 (R51). -/
def tableEntry (t : Table) (i v : Nat) (s : State) : State :=
  let l := (ppaOffset t.ppa + 16 * i) / 64
  let d : LineData := ((readLine l s.mem).map (·.data)).getD 0
  let sh := 128 * (i % 4)
  let keep : LineData := d &&& ~~~(BitVec.ofNat 512 ((2 ^ 128 - 1) * 2 ^ sh))
  if dieState (lineDie l) s = .inService then ownLine l 0 (keep ||| BitVec.ofNat 512 (v * 2 ^ sh)) s else s

/-- The 128 bits of a leaf entry (R52). -/
def leafWord (sid : Nat) (l : Leaf) : Nat :=
  1 + 2 ^ 4 + 2 ^ 5 * b2n l.pres + 2 ^ 6 * b2n l.last + 2 ^ 7 + 2 ^ 8 * b2n l.rd + 2 ^ 9 * b2n l.wr + 2 ^ 10 * b2n l.atm
    + 2 ^ 11 * b2n l.pin + 2 ^ 12 * b2n l.mig + 2 ^ 16 * sid + 2 ^ 32 * l.heat + 2 ^ 64 * l.ppa

/-- The 128 bits of an entry that names the next table (R52). -/
def nextWord (sid ppa : Nat) : Nat := 1 + 2 ^ 5 + 2 ^ 16 * sid + 2 ^ 64 * ppa

/-- Writes the entry of a leaf to its table; `none` writes zeros, Outside. -/
def syncLeaf (sid base : Nat) (big : Bool) (l : Option Leaf) (s : State) : State :=
  let v := (l.map (leafWord sid)).getD 0
  match tableOf (if big then 2 else 3) sid (if big then base / 2 ^ 18 else base / 2 ^ 9) s.xlt with
  | some t => tableEntry t (if big then base / 2 ^ 9 % 512 else base % 512) v s
  | none => s

/-- A command changed a leaf entry of the SID: proofs that are being made show it as not stable (12 R421). -/
def markChanged (sid : Nat) (s : State) : State :=
  { s with host.rings := s.host.rings.map fun (g : Ring) => { g with inflight := g.inflight.map fun (f : Inflight) =>
      match f.parked with
      | some (.proof n c) => { f with parked := some (.proof n (if c.contains sid then c else c ++ [sid])) }
      | _ => f } }

/-- A leaf entry without HEAT and MIG (12 R420). -/
def bareLeaf (l : Leaf) : Leaf := { l with heat := 0, alerted := false, due := 0, mig := false, out := false }

/-- A command stores a leaf in the tables and removes its entry from the caches (R57). -/
def putLeaf (sid base : Nat) (l : Leaf) (s : State) : State :=
  let s := if (smGet (leafKey sid base) s.xlt.leaves).map bareLeaf = some (bareLeaf l) then s else markChanged sid s
  let l := { l with out := l.out || tableLost sid base s }
  syncLeaf sid base l.big (some l) { s with xlt.leaves := smSet (leafKey sid base) l s.xlt.leaves }

/-- Removes a leaf: the page is Outside. -/
def dropLeaf (sid base : Nat) (big : Bool) (s : State) : State :=
  let s := markChanged sid s
  syncLeaf sid base big none { s with xlt.leaves := smDel (leafKey sid base) s.xlt.leaves }

/-- The lines of a table hold zeros again, TAG 0 (R51). Lines that nothing has written since their page was granted hold them. -/
def wipeTable (t : Table) (s : State) : State :=
  let l := ppaOffset t.ppa / 64
  let n := tableBytes t.level / 64
  let clean := smGet (linePage l) s.mem.fills = some ⟨0, BitVec.ofNat 8 (dieGen (lineDie l) s)⟩
  let ls := if clean then (s.mem.lines.map (·.1)).filter fun k => decide (l ≤ k) && decide (k < l + n) else (List.range n).map (l + ·)
  if dieState (lineDie l) s = .inService then ls.foldl (fun s k => ownLine k 0 0 s) s else s

/-- Enters a table of level 2 or 3 in the table above it (R52). -/
def enterTable (t : Table) (s : State) : State :=
  match tableOf (t.level - 1) t.sid (if t.level = 3 then t.idx / 512 else 0) s.xlt with
  | some p => if t.level = 1 then s else tableEntry p (if t.level = 3 then t.idx % 512 else t.idx) (nextWord t.sid t.ppa) s
  | none => s

/-- Takes space for a table, empties it and enters it in the table above: none when no granted space is free (R51). A table that
stands is entered again, since a 1 GiB leaf may have stood in its place (log 27). -/
def newTable (level sid idx : Nat) (s : State) : Option State :=
  match tableOf level sid idx s.xlt with
  | some t => some (enterTable t s)
  | none => match freePlace level s.xlt with
    | none => none
    | some o =>
      let t : Table := ⟨level, sid, idx, localPpa o⟩
      some (enterTable t (wipeTable t { s with xlt.tables := s.xlt.tables ++ [t] }))

/-- Every table that `n` pages from `page` need; none when granted space runs out. -/
def needTables (sid page n : Nat) (big : Bool) (s : State) : Option State :=
  let upTo (d : Nat) : List Nat := (List.range ((page + n - 1) / d - page / d + 1)).map (page / d + ·)
  let two := (upTo (2 ^ 18)).foldl (fun o i => o.bind (newTable 2 sid i)) (some s)
  if big then two else (upTo (2 ^ 9)).foldl (fun o i => o.bind (newTable 3 sid i)) two

/-! ### Checks shared by the commands (R45, R50, R59, R498) -/

/-- The SID is 4,095, Free, or has no level-1 table (R498). -/
def sidBad (sid : Nat) (s : State) : Bool :=
  decide (4094 < sid) || !sagThere sid s || (smGet sid s.xlt.epochs).isNone

/-- A PPA that a leaf of `size` bytes may not hold (R45, R46, R52; 07 R256). -/
def ppaBad (size ppa : Nat) (s : State) : Bool :=
  match ppaFormat ppa with
  | 1 => ppaHid ppa != 0 || ppaOffset ppa % size != 0 || !localValid ppa s || !localValid (ppa + size - 2097152) s
  | 2 => ppaHid ppa == 0 || ppaHid ppa == 4095 || ppaOffset ppa % size != 0
  | 3 => ppaHid ppa != 0 || ppaOffset ppa % 2097152 != 0 || size != 2097152
  | 15 => ppa != voidPpa
  | _ => true

/-- A remote page whose last byte is not below its holder's LIMIT (R50). -/
def ppaOver (size ppa : Nat) (s : State) : Bool :=
  ppaFormat ppa == 2 && decide ((holderOf (ppaHid ppa) s).limit < ppaOffset ppa + size)

/-- A check that names the first entry of a list that fails. -/
def chkFirst {α : Type} (status stage : Nat) (bad : α → Bool) (l : List α) : Chk :=
  match l.findIdx? bad with
  | some i => ⟨true, status, stage, i⟩
  | none => chk false status stage

/-- The PPA parameter names a page list (R498). -/
def isList (ppa : Nat) : Bool := ppaFormat ppa == 0

/-- The PPAs of `n` pages of `size` bytes: from the list, or consecutive from the base; Void everywhere from a Void base. -/
def pagePpas (n size ppa : Nat) (list : List Nat) : List Nat :=
  (List.range n).map fun i =>
    if isList ppa then list.getD i 0 else if ppaFormat ppa = 15 then ppa else ppa + i * size

/-- Checks of a page list's item (R498, R351). -/
def listChks (n ppa : Nat) (item : Item) (s : State) : List Chk :=
  if isList ppa ∧ n ≠ 0 then itemRead { item with off := ppa % 2 ^ 32 } (8 * n) s else []

/-- The leaves of `n` pages from `page` within one extent: none when the range leaves it or meets an Outside page (R59). -/
def rangeLeaves (sid : Nat) (x : Xlt) : Nat → Nat → Option (List (Nat × Leaf))
  | 0, _ => some []
  | n + 1, p => match smGet (leafKey sid p) x.leaves with
    | none => none
    | some l => if n ≠ 0 ∧ l.last = true then none
      else (rangeLeaves sid x n (p + leafPages l)).map ((p, l) :: ·)

/-- A PVA is not aligned to the page size of its range (R59). -/
def rangeMisaligned (sid pva : Nat) (s : State) : Bool :=
  pva % 2097152 != 0 || match leafAt sid (pva / 2 ^ 21) s.xlt with
    | some (b, _) => b != pva / 2 ^ 21
    | none => false

/-- Checks of the range of XLT_PRESENT, XLT_WITHDRAW and XLT_PROTECT before its length. -/
def rangeChks (sid pva : Nat) (s : State) : List Chk :=
  [chkResv (decide (2 ^ 52 ≤ pva)), chkDeny (sidBad sid s || rangeMisaligned sid pva s)]

/-- The leaves of a command's range. -/
def rangeOf (sid pva n : Nat) (s : State) : List (Nat × Leaf) :=
  (rangeLeaves sid s.xlt n (pva / 2 ^ 21)).getD []

/-- Length check of a range (R59); a COUNT of 0 passes (00 R16). -/
def rangeLen (sid pva n : Nat) (s : State) : Chk := chkLen (rangeLeaves sid s.xlt n (pva / 2 ^ 21)).isNone

/-! ### Grants, roots, mapping (R51, R58, R59) -/

/-- XLT_TABLE_GRANT (R51). -/
def execXltTableGrant (r n : Nat) (ppas : List Nat) : State → Host.Outcome State Fault Refusal :=
  cmd r 0x30 (fun _ s => grantChks n ppas s) fun s =>
    let ps := grantPages n ppas
    ok r [] (wipePages ps { s with xlt.grants := s.xlt.grants ++ ps })

/-- XLT_ROOT_SET (R58). -/
def execXltRootSet (r sid : Nat) : State → Host.Outcome State Fault Refusal :=
  cmdFor r 0x31 sid (fun _ s => [chkDeny (decide (4094 < sid) || !sagThere sid s),
    chkExec (smGet sid s.xlt.epochs).isSome stCONFLICT, chkExec (freePlace 1 s.xlt).isNone stBUSY]) fun s =>
    match newTable 1 sid 0 s with
    | some s => ok r [] { s with xlt.epochs := smSet sid 1 s.xlt.epochs }
    | none => s

/-- Time of a page's next decay after `now`: once in every PERIOD, at the page number modulo PERIOD (R84, log 28). -/
def nextDecay (page period now : Nat) : Nat := now + 1 + (page % period + period - (now + 1) % period) % period

/-- Some page of `n` pages of `size` bytes from `page` is not Outside. -/
def rangeTaken (sid page n : Nat) (s : State) : Bool :=
  s.xlt.leaves.any fun e => e.1 / 2 ^ 31 == sid && overlap (e.1 % 2 ^ 31) (leafPages e.2) page n

/-- A PPA base names no place for a first page, also when COUNT is 0; the offset of a page list is no multiple of 64 (00 R16, R351). -/
def baseBad (size ppa : Nat) (s : State) : Bool := if isList ppa then ppa % 64 != 0 else ppaBad size ppa s

/-- The PPAs that an XLT_MAP gives its pages. -/
def mapPpas (count size ppa : Nat) (reserve : Bool) (list : List Nat) : List Nat :=
  if reserve then [] else pagePpas count (if size = 0 then 2097152 else 2 ^ 30) ppa list

/-- The leaves of an XLT_MAP, once their tables stand: the last one ends the extent, heat is 0 (R52, R59, R84). -/
def mapLeaves (sid pva count size : Nat) (ppas : List Nat) (rd wr att pin reserve : Bool) (s : State) : State :=
  let per := if size = 0 then 1 else 512
  let period := (heatOf sid s).period
  (List.range count).foldl (fun s i =>
    let base := pva / 2 ^ 21 + i * per
    putLeaf sid base ⟨size == 1, !reserve, i + 1 == count, rd, wr, att, pin, false, 0, false,
      nextDecay base period s.now, if reserve then 0 else ppas.getD i 0, false⟩ s) s

/-- XLT_MAP (R45, R50, R52, R58, R59, R498). -/
def execXltMap (r sid pva count size ppa : Nat) (rd wr att pin reserve : Bool) (item : Item) (list : List Nat) :
    State → Host.Outcome State Fault Refusal :=
  let bytes := if size = 0 then 2097152 else 2 ^ 30
  let pages := count * if size = 0 then 1 else 512
  let ppas := mapPpas count size ppa reserve list
  cmdFor r 0x32 sid (fun _ s =>
    [chkResv (decide (2 ^ 52 ≤ pva) || decide (2 ≤ size) || (reserve && ppa != 0)
        || (!reserve && isList ppa && decide (2 ^ 32 ≤ ppa))),
     chkDeny (sidBad sid s || pva % bytes != 0 || (!reserve && (isList ppa || count == 0) && baseBad bytes ppa s))]
    ++ (if reserve then [] else listChks count ppa item s ++
      [chkFirst stDENIED 3 (fun p => ppaBad bytes p s) ppas, chkFirst stLENGTH 4 (fun p => ppaOver bytes p s) ppas])
    ++ [chkLen (count != 0 && decide (2 ^ 52 < pva + count * bytes)), chkWarm (ppas.any fun p => warmPage p s),
        chkExec (count != 0 && rangeTaken sid (pva / 2 ^ 21) pages s) stCONFLICT,
        chkExec (count != 0 && (needTables sid (pva / 2 ^ 21) pages (size == 1) s).isNone) stBUSY]) fun s =>
    if count = 0 then ok r [] s
    else match needTables sid (pva / 2 ^ 21) pages (size == 1) s with
      | none => s
      | some s => ok r [] (mapLeaves sid pva count size ppas rd wr att pin reserve s)

/-- Bytes of the pages of a range: those of its first leaf. -/
def leafBytes (sid pva : Nat) (s : State) : Nat :=
  match leafAt sid (pva / 2 ^ 21) s.xlt with
  | some (_, l) => if l.big then 2 ^ 30 else 2097152
  | none => 2097152

/-- Reserved leaves become Present at their PPAs (R58). -/
def presentLeaves (sid : Nat) (ls : List (Nat × Leaf)) (ppas : List Nat) (s : State) : State :=
  (ls.zip ppas).foldl (fun s x => putLeaf sid x.1.1 { x.1.2 with pres := true, ppa := x.2 } s) s

/-- XLT_PRESENT (R45, R50, R58, R59). -/
def execXltPresent (r sid pva count ppa : Nat) (item : Item) (list : List Nat) : State → Host.Outcome State Fault Refusal :=
  cmdFor r 0x33 sid (fun _ s =>
    let bytes := leafBytes sid pva s
    let ppas := pagePpas count bytes ppa list
    [chkResv (isList ppa && decide (2 ^ 32 ≤ ppa))] ++ rangeChks sid pva s
    ++ [chkDeny ((isList ppa || count == 0) && baseBad bytes ppa s)] ++ listChks count ppa item s ++
      [chkFirst stDENIED 3 (fun p => ppaBad bytes p s) ppas, rangeLen sid pva count s,
       chkFirst stLENGTH 4 (fun p => ppaOver bytes p s) ppas, chkWarm (ppas.any fun p => warmPage p s),
       chkExec ((rangeOf sid pva count s).any (·.2.pres)) stCONFLICT]) fun s =>
    ok r [] (presentLeaves sid (rangeOf sid pva count s) (pagePpas count (leafBytes sid pva s) ppa list) s)

/-! ### Work in flight (R60, R61; 04 R145; 07 R238) -/

/-- Epoch `a` is below epoch `b`, modulo 2^32 (R60). -/
def epochBelow (a b : Nat) : Bool :=
  let d := (b + 2 ^ 32 - a % 2 ^ 32) % 2 ^ 32
  d != 0 && decide (d < 2 ^ 31)

/-- A request or copy of the directory of a SID on one of the PPA pages counts under an epoch below `epoch` (04 R145). A
WIDE entry's grants have no epoch of their own and count (log 29). -/
def dirWork (sid epoch : Nat) (ppas : List Nat) (s : State) : Bool :=
  let inPages (k : Nat) : Bool := ppas.any fun p => p != 0 && p / 2 ^ 21 == k / 2 ^ 15
  let old (q : Req) : Bool := !q.asked || (q.sid == sid && epochBelow q.epoch epoch)
  (s.dir.ents.any fun e => inPages e.1
      && ((e.2.sid == sid && (e.2.wide || e.2.copies.any fun c => epochBelow c.2 epoch)) || e.2.queue.any old))
  || (s.dir.wayWait.any fun x => inPages x.1 && old x.2.1) || (s.dir.claimWait.any fun x => inPages x.1 && old x.2)
  || s.outst.any fun o => !o.lost && match o.purpose with
    | .writeBack k => inPages k
    | .mark _ k => inPages k
    | _ => false

/-- Pages of a run that it has not passed, from byte `pos` on. -/
def runAhead (r : Run) (pos : Nat) : List Nat :=
  let first := r.pva / 2 ^ 21
  (List.range r.pages.length).filterMap fun i =>
    if (r.pva + pos) / 2 ^ 21 ≤ first + i ∧ (r.pages.getD i none).isSome then some (first + i) else none

/-- A party waits on an open fault of the page (R61): it does not count there. -/
def waitsOn (w : Waiter) (sid page : Nat) (s : State) : Bool :=
  s.xlt.faults.any fun f => f.sid == sid && f.waiters.any (·.1 == w) && decide (f.page ≤ page) && decide (page < f.page + if f.big then 512 else 1)

/-- Pages on which a mover descriptor counts: those ahead (R61). Its accesses under way are of its next line. -/
def movePages (x : MRun) : List Nat := runAhead x.runD x.pos ++ (x.runS.map fun r => runAhead r x.pos).getD []

/-- Pages of a result region that a part may still write (R61): of a SPLIT region those of the grains of parts that have not ended. -/
def resultPages (f : Firing) (r : Nat × Run) (s : State) : List Nat :=
  if ((slotOf r.1 f.desc).any (·.dist == 0)) = false then runAhead r.2 0
  else
    let gs := roleGrain f.desc r.1
    let live (i : Nat) : Bool := f.parts.any fun p => !p.ended && dealDie f i s == some p.die
    ((List.range (ceilDiv r.2.len gs)).filter live).flatMap fun i => regionPages (r.2.pva + i * gs) (min gs (r.2.len - i * gs))

/-- Pages on which a firing counts: those of its runs and blocks that are Present; operand pages no longer once every part
has loaded its streams, result pages no longer once the parts that write them have ended, and no page on whose open fault it waits
(R61). -/
def firingPages (f : Firing) (s : State) : List Nat :=
  let loaded := f.desc.kind == 1 && f.st == .running && f.parts.all (·.placed)
  let all := (f.runs.flatMap fun r => if loaded then (if r.2.write then resultPages f r s else []) else runAhead r.2 0)
    ++ if loaded then [] else f.blocks.flatMap fun b => b.2.filterMap fun x => x.2.map fun _ => x.1 / 2 ^ 21
  if f.st = .faulting then all.filter fun p => !waitsOn (firingWaiter f) f.sid p s else all

/-- Row pages of a Ready TABLE context (07 R238). -/
def tablePages (c : CtxSt) : List Nat := if c.e.st = 2 ∧ c.e.kind = 2 then regionPages c.e.aux (rowsLen c.e) else []

/-- Pages and epoch of a parked host transfer (10 R372). -/
def poolPages (f : Inflight) : Option (Nat × Nat × List Nat) :=
  match f.parked with
  | some (.poolRead sid e run d) => some (sid, e, runAhead run (64 * d.length))
  | some (.poolWrite sid e run l) => some (sid, e, runAhead run (run.len - 64 * l.length))
  | _ => none

/-- Work of a SID admitted under an epoch below `epoch` is in flight on some of the pages (pairs of page and PPA). -/
def workOn (sid epoch : Nat) (pages : List (Nat × Nat)) (s : State) : Bool :=
  let ps := pages.map (·.1)
  let hits (l : List Nat) : Bool := l.any ps.contains
  dirWork sid epoch (pages.map (·.2)) s
  || (s.kiln.runs.any fun x => !x.mig && x.sid == sid && epochBelow x.epoch epoch && hits (movePages x))
  || (s.kiln.firings.any fun f => f.sid == sid && epochBelow f.epoch epoch && hits (firingPages f s))
  || (s.kiln.ctxs.any fun c => c.2.e.sid == sid && epochBelow c.2.epoch epoch && hits (tablePages c.2))
  || s.host.rings.any fun g => match g.inflight.bind poolPages with
    | some (i, e, l) => i == sid && i != 0 && epochBelow e epoch && hits l
    | none => false

/-- A change took pages on which older work is still in flight. -/
def takenBusy (s : State) (t : Taken) : Bool := workOn t.sid t.epoch t.pages s

/-- A fourth epoch with such work would open (R80). -/
def epochsFull (sid : Nat) (s : State) : Bool :=
  decide (3 ≤ ((s.xlt.taken.filter fun t => t.sid == sid).filter (takenBusy s)).length)

/-- The 2 MiB pages of a leaf with their PPAs; 0 where it is Reserved. -/
def leafPairs (x : Nat × Leaf) : List (Nat × Nat) :=
  (List.range (leafPages x.2)).map fun i =>
    (x.1 + i, if x.2.pres then if ppaFormat x.2.ppa = 15 then 0 else x.2.ppa + i * 2097152 else 0)

/-- Raises the SID's epoch for a change that takes pages away (R60, R77). -/
def bumpEpoch (sid : Nat) (ack : Bool) (pages : List (Nat × Nat)) (s : State) : State :=
  let e := add32 (epochOf sid s) 1
  { s with xlt.epochs := smSet sid e s.xlt.epochs, xlt.taken := s.xlt.taken ++ [⟨sid, e, ack, pages⟩] }

/-- Recalls the copies of the pages of leaves (04 R145). -/
def recallLeaves (op : LineOp) (ls : List (Nat × Leaf)) (s : State) : State :=
  (ls.flatMap leafPairs).foldl (fun s p =>
    if ppaFormat p.2 = 1 ∨ ppaFormat p.2 = 2 then recallPage p.2 op false s else s) s

/-! ### Parties that wait on a fault (R75) -/

/-- Ends a mover descriptor early; one that a holder still owes an answer ends at its mover's next MOVE_DONE. -/
def stopRun (mid status : Nat) (s : State) : State :=
  match runBy mid s with
  | none => s
  | some x =>
    if x.mig then s
    else if moveOwes mid s then modRun mid (fun x => { x with stop := x.stop.or (some status) }) s
    else completeRun { x with stop := x.stop.or (some status) } s

/-- Refuses a waiting agent request. -/
def refuseAgent (i : Instr) (status : Nat) (s : State) : State :=
  match i with
  | .contrib m _ _ _ _ => refuseLine m (sidOf m.port m.src s) status s
  | i => match lineReq i with
    | some (m, _) => refuseLine m (sidOf m.port m.src s) status s
    | none => s

/-- The waiters of a fault end with a status (R75): DENIED, or FAULT_UNSERVICED when it timed out, where reads get zeros
with cause 6. -/
def failWaiter (timeout : Bool) (w : Waiter) (s : State) : State :=
  let st := if timeout then stUNSERVICED else stDENIED
  match w with
  | .agent i _ _ =>
    match lineReq i with
    | some (m, q, _) => if timeout && isRead q.op then zeroAnswer m (sidOf m.port m.src s) 6 q.op s else refuseAgent i st s
    | none => refuseAgent i st s
  | .queued mid => stopRun mid st s
  | .firing f => stopFiring f st s
  | .step f => stopFiring f st s

/-- Removes a fault from the open ones. -/
def dropFault (id : Nat) (s : State) : State := { s with xlt.faults := s.xlt.faults.filter (·.id != id) }

/-- Ends a fault whose waiters fail. -/
def failFault (timeout : Bool) (f : Fault') (s : State) : State :=
  f.waiters.foldl (fun s w => failWaiter timeout w.1 s) (dropFault f.id s)

/-- The run with those of its missing pages that `sel` picks walked again, and what was found (R75). -/
def refill (acc : Nat) (sel : Nat → Bool) (r : Run) (s : State) : Run × List (Nat × PageRes) :=
  let first := r.pva / 2 ^ 21
  let found := (List.range r.pages.length).filterMap fun i =>
    if (r.pages.getD i none).isSome || !sel (first + i) then none else some (first + i, bakePage r.sid acc (first + i) s)
  ({ r with pages := r.pages.mapIdx fun i x => match x with
      | some p => some p
      | none => match found.find? (·.1 == first + i) with
        | some (_, .good p) => some p
        | _ => none }, found)

/-- Missing pages of a mover descriptor that `sel` picks are walked again: the run is patched there and nowhere else, or it ends, or waits
on new faults (R63, R75). -/
def refillRun (mid : Nat) (sel : Nat → Bool) (s : State) : State :=
  match runBy mid s with
  | none => s
  | some x =>
    if x.mig ∨ x.stop.isSome then s
    else
      let (d, fd) := refill 2 sel x.runD s
      let src := x.runS.map fun r => refill 1 sel r s
      let fs := (src.map (·.2)).getD []
      if (fd ++ fs).any (·.2 == .bad) then stopRun mid stDENIED s
      else if (fd ++ fs).any (·.2 == .contested) then stopRun mid stCONTESTED s
      else
        let s := modRun mid (fun x => { x with runD := d, runS := src.map (·.1) }) s
        hitPages (.queued mid) x.sid 2 1 fd (hitPages (.queued mid) x.sid 1 1 fs s)

/-- The pages from `base`, `n` of them. -/
def inPages (base n p : Nat) : Bool := decide (base ≤ p) && decide (p < base + n)

/-- A firing's page is walked again (R75). -/
def refillFiring (fid base pages : Nat) (s : State) : State :=
  match firingBy fid s with
  | none => s
  | some f =>
    if f.st ≠ .faulting then s
    else match patchFiring f base pages s with
      | (_, true) => stopFiring fid stDENIED s
      | (g, false) => advanceFiring fid (setFiring g s)

/-- Serves a waiting command again from its translation on. -/
def serveAgain (i : Instr) (s : State) : State :=
  match i with
  | .move m d => serveMove m d s
  | .fire m d => serveFire m d s
  | .fireCancel m t => execFireCancel.serveCancel m t s
  | .agentCtxSet m n e => serveCtxSet m n e s
  | .contrib m a rd c d => serveContrib m a rd c d s
  | .fence m => flushFences m.port m.src s
  | i => serveCoh i s

/-- Replays a waiter after RETRY (R75). -/
def retryWaiter (base pages : Nat) (w : Waiter) (s : State) : State :=
  match w with
  | .agent i _ _ => serveAgain i s
  | .queued mid => refillRun mid (inPages base pages) s
  | .firing f => refillFiring f base pages s
  | .step f => refillFiring f base pages s

/-- Descriptors and firings that found no slot for a fault try again now that one is free (R72). -/
def retryUnheld (s : State) : State :=
  let s := s.kiln.runs.foldl (fun s x => refillRun x.mid (unheld x s).contains s) s
  (s.kiln.firings.filter (·.st == .faulting)).foldl (fun s f => advanceFiring f.fid s) s

/-! ### Fault service (R74 to R76) -/

/-- An open fault. -/
def faultBy (id : Nat) (s : State) : Option Fault' := s.xlt.faults.find? (·.id == id)

/-- One entry of FAULT_RESOLVE with the counts so far: RESOLVED and IGNORED (R75). -/
def resolveOne (acc : Nat × Nat × State) (p : Nat × Nat) : Nat × Nat × State :=
  let (res, ign, s) := acc
  match faultBy p.1 s with
  | none => (res, ign + 1, s)
  | some f =>
    if p.2 = 1 then
      (res + 1, ign, f.waiters.foldl (fun s w => retryWaiter f.page (if f.big then 512 else 1) w.1 s) (dropFault f.id s))
    else if p.2 = 2 then (res + 1, ign, failFault false f s)
    else (res, ign + 1, s)

/-- FAULT_RESOLVE (R58, R75). -/
def execFaultResolve (r n : Nat) (pairs : List (Nat × Nat)) : State → Host.Outcome State Fault Refusal :=
  cmd r 0x38 (fun _ _ => [chkLen (decide (12 < n))]) fun s =>
    let (res, ign, s) := (pairs.take n).foldl resolveOne (0, 0, s)
    retryUnheld (ok r [res, ign] s)

/-- A fault times out (R75): its waiters fail and a TIMED_OUT record with its ID becomes ready. -/
def timeOut (f : Fault') (s : State) : State :=
  retryUnheld (readyRec (faultRec 4 f s) (failFault true f s))

/-- FAULT_TIMEOUT (R76). -/
def execFaultTimeout (id : Nat) : State → Host.Outcome State Fault Refusal :=
  act fun s => match faultBy id s with
    | some f => if s.alive = true ∧ f.opened + f.extra + s.xlt.timeout ≤ s.now then timeOut f s else s
    | none => s

/-- FAULT_CONFIG (R74, R76): a fault whose time has passed under the new TIMEOUT times out at once. -/
def execFaultConfig (r timeout batchWindow : Nat) : State → Host.Outcome State Fault Refusal :=
  cmd r 0x39 (fun _ _ => [chkDeny (!(decide (1000000 ≤ timeout) && decide (timeout ≤ 60000000000)) || decide (1000000 < batchWindow))]) fun s =>
    let s := ok r [] { s with xlt.timeout := timeout, xlt.batchWindow := batchWindow }
    (s.xlt.faults.filter fun f => decide (f.opened + f.extra + timeout ≤ s.now)).foldl (fun s f => timeOut f s) s

/-- FAULT_BATCH_CLOSE: BATCH_WINDOW has passed since the batch opened (R74). -/
def execFaultBatchClose : State → Host.Outcome State Fault Refusal :=
  act fun s => if s.alive = true ∧ s.xlt.batchAt + s.xlt.batchWin ≤ s.now then closeBatch s else s

/-! ### Withdrawal and protection (R57 to R60, R77 to R80) -/

/-- CUT: descriptors and firings of the sagger whose baked runs include a withdrawn page stop (R79). -/
def cutWork (sid : Nat) (pages : List Nat) (s : State) : State :=
  let hit (r : Run) : Bool := (List.range r.pages.length).any fun i => pages.contains (r.pva / 2 ^ 21 + i)
  let runs := s.kiln.runs.filter fun x => !x.mig && x.sid == sid && (hit x.runD || (x.runS.map hit).getD false)
  let fs := s.kiln.firings.filter fun f => f.sid == sid
    && (f.runs.any (fun r => hit r.2) || f.blocks.any fun b => b.2.any fun x => pages.contains (x.1 / 2 ^ 21))
  let s := runs.foldl (fun s x => stopRun x.mid stDENIED s) s
  fs.foldl (fun s f => stopFiring f.fid stDENIED s) s

/-- The pages of a withdrawal go: Outside, or Reserved with KEEP; the epoch rises, the faults on them fail, their copies are recalled,
and with CUT the work that bakes them stops (R77 to R79). -/
def withdrawRange (sid : Nat) (ls : List (Nat × Leaf)) (mode : Nat) (keep : Bool) (s : State) : State :=
  let s := ls.foldl (fun s x =>
    if keep then putLeaf sid x.1 { x.2 with pres := false, ppa := 0 } s else dropLeaf sid x.1 x.2.big s) s
  let s := bumpEpoch sid true (ls.flatMap leafPairs) s
  let fs := s.xlt.faults.filter fun f => f.sid == sid && ls.any fun x => x.1 == f.page && x.2.big == f.big
  let s := recallLeaves .recallInv (ls.filter (·.2.pres)) (fs.foldl (fun s f => failFault false f s) s)
  if mode = 1 then cutWork sid ((ls.flatMap leafPairs).map (·.1)) s else s

/-- XLT_WITHDRAW (R57, R59, R77 to R80, R76 fault states; 04 R145). -/
def execXltWithdraw (r sid pva count mode : Nat) (keep : Bool) : State → Host.Outcome State Fault Refusal :=
  cmdFor r 0x34 sid (fun _ s => [chkResv (decide (2 ≤ mode))] ++ rangeChks sid pva s ++ [rangeLen sid pva count s,
    chkExec ((rangeOf sid pva count s).any (·.2.mig)) stCONFLICT, chkExec (count != 0 && epochsFull sid s) stBUSY]) fun s =>
    if count = 0 then ok r [epochOf sid s] s
    else
      let t := withdrawRange sid (rangeOf sid pva count s) mode keep s
      retryUnheld (ok r [add32 (epochOf sid s) 1] t)

/-- A Ready TABLE context stands on one of the pages (07 R238). -/
def underTable (sid : Nat) (pages : List Nat) (s : State) : Bool :=
  s.kiln.ctxs.any fun c => c.2.e.sid == sid && (tablePages c.2).any pages.contains

/-- The change takes read permission from the leaf. -/
def losesRead (rd : Bool) (x : Nat × Leaf) : Bool := x.2.rd && !rd

/-- The change takes write or atomic permission from the leaf. -/
def losesWrite (wr att : Bool) (x : Nat × Leaf) : Bool := (x.2.wr && !wr) || (x.2.atm && !att)

/-- The leaves of an XLT_PROTECT get their new bits; where one loses a permission the epoch rises and the copies that need it are
recalled (R60, 04 R145). -/
def protectRange (sid : Nat) (ls : List (Nat × Leaf)) (rd wr att pin : Bool) (s : State) : State :=
  let gone := ls.filter fun x => losesRead rd x || losesWrite wr att x
  let s := ls.foldl (fun s x => putLeaf sid x.1 { x.2 with rd := rd, wr := wr, atm := att, pin := pin } s) s
  let s := if gone.isEmpty then s else bumpEpoch sid false (gone.flatMap leafPairs) s
  let s := recallLeaves .recallInv (ls.filter fun x => x.2.pres && losesRead rd x) s
  recallLeaves .recallShare (ls.filter fun x => x.2.pres && !losesRead rd x && losesWrite wr att x) s

/-- XLT_PROTECT (R58 to R60, R80; 04 R145; 07 R238). -/
def execXltProtect (r sid pva count : Nat) (rd wr att pin : Bool) : State → Host.Outcome State Fault Refusal :=
  cmdFor r 0x35 sid (fun _ s =>
    let ls := rangeOf sid pva count s
    rangeChks sid pva s ++ [rangeLen sid pva count s,
      chkExec (wr && underTable sid (((ls.filter fun x => !x.2.wr).flatMap leafPairs).map (·.1)) s) stCONFLICT,
      chkExec (ls.any (fun x => losesRead rd x || losesWrite wr att x) && epochsFull sid s) stBUSY]) fun s =>
    ok r [] (protectRange sid (rangeOf sid pva count s) rd wr att pin s)

/-- Pages that the sagger's changes took away under epochs up to `epoch`. -/
def takenUpTo (sid epoch : Nat) (s : State) : List (Nat × Nat) :=
  (s.xlt.taken.filter fun t => t.sid == sid && !epochBelow epoch t.epoch).flatMap (·.pages)

/-- The condition an XLT_FENCE waits for (R58). -/
def fenceOpen (sid epoch : Nat) (s : State) : Bool := !workOn sid epoch (takenUpTo sid epoch s) s

/-- XLT_FENCE (R58). -/
def execXltFence (r sid epoch : Nat) : State → Host.Outcome State Fault Refusal :=
  cmdFor r 0x36 sid (fun _ s => [chkDeny (sidBad sid s)]) fun s =>
    if fenceOpen sid epoch s then ok r [] s else park r (.xltFence sid epoch) s

/-- XLT_READ RESULT (10 R369). -/
def xltReadWords (sid pva : Nat) (s : State) : List Nat :=
  let (v, level) := match leafAt sid (pva / 2 ^ 21) s.xlt with
    | some (_, l) => (leafWord sid l, if l.big then 2 else 3)
    | none => (0, 0)
  w64 v ++ w64 (v / 2 ^ 64) ++ [level, epochOf sid s, 0, 0]

/-- XLT_READ (R58, 10 R369). -/
def execXltRead (r sid pva : Nat) : State → Host.Outcome State Fault Refusal :=
  cmdFor r 0x37 sid (fun _ s => [chkResv (decide (2 ^ 52 ≤ pva)), chkDeny (sidBad sid s)]) fun s => ok r (xltReadWords sid pva s) s

/-- WITHDRAW_ACK: no older work is left on a withdrawal's pages (R78). -/
def execWithdrawAck (sid epoch : Nat) : State → Host.Outcome State Fault Refusal :=
  act fun s => match s.xlt.taken.find? (fun t => t.sid == sid && t.epoch == epoch && t.ack) with
    | none => s
    | some t =>
      if s.alive = true ∧ takenBusy s t = false then
        emit 0x04 sid 0 0 [epoch] { s with xlt.taken := s.xlt.taken.map fun (x : Taken) => if x = t then { x with ack := false } else x }
      else s

/-! ### Heat (R83, R84, R498) -/

/-- HEAT_CONFIG's ranges hold (R84). -/
def heatOk (c : HeatCfg) : Bool :=
  decide (1000000 ≤ c.period) && decide (c.period ≤ 60000000000) && decide (1 ≤ c.shift) && decide (c.shift ≤ 4)
    && decide (c.localAlert ≤ 65535) && decide (c.remoteAlert ≤ 65535)

/-- The next decay of a leaf follows the PERIOD that is in force now (R84). -/
def timeDecay (k period : Nat) (s : State) : State :=
  { s with xlt.leaves := smMod k (fun (l : Leaf) => { l with due := nextDecay (k % 2 ^ 31) period s.now }) s.xlt.leaves }

/-- HEAT_CONFIG (R84, R498); a counter that stands at its new threshold gives its record at once (log 30). -/
def execHeatConfig (r : Nat) (c : HeatCfg) (sid : Nat) : State → Host.Outcome State Fault Refusal :=
  cmd r 0x3A (fun _ s => [chkDeny (!heatOk c || (sid != 4095 && !sagThere sid s))]) fun s =>
    let s := if sid = 4095 then { s with xlt.heatDef := c, xlt.heatCfg := [] }
      else { s with xlt.heatCfg := smSet sid c s.xlt.heatCfg }
    let keys := (s.xlt.leaves.map (·.1)).filter fun k => sid == 4095 || k / 2 ^ 31 == sid
    ok r [] (keys.foldl (fun s k => addHeat (k / 2 ^ 31) (k % 2 ^ 31) 0 (timeDecay k c.period s)) s)

/-- HEAT_DECAY of the leaf at `page` (R84): shifted once in every PERIOD; a new period may report it again. -/
def execHeatDecay (sid page : Nat) : State → Host.Outcome State Fault Refusal :=
  act fun s => match smGet (leafKey sid page) s.xlt.leaves with
    | none => s
    | some l =>
      if s.alive = false ∨ s.now < l.due then s
      else
        let c := heatOf sid s
        let l := { l with heat := l.heat / 2 ^ c.shift, alerted := false, due := l.due + c.period }
        addHeat sid page 0 (syncLeaf sid page l.big (some l) (modLeaf sid page (fun _ => l) s))

/-! ### Holders (R48, R49; 04 R146; 11 R397) -/

/-- Snoops whose answers are still to come when a line leaves the directory with its holder or die (04 R146): those sent before, and the
SNP_INV that goes to an owner now. -/
def strayLine (k : Nat) (e : DirEnt) (s : State) : State :=
  let s := { s with dir.strays := s.dir.strays ++ e.snoops.map fun a => (k, a, e.snoopAt) }
  if e.st = .owned then e.copies.foldl (fun s c =>
    if e.snoopInv && e.snoops.contains c.1 then s
    else sendSnoop k true c.1 { s with dir.strays := s.dir.strays ++ [(k, c.1, s.now)] }) s
  else s

/-- The lines of a lost holder or die leave the directory (04 R146): their owners are asked to drop them, what comes back is
discarded, sharers stay, and the requests queued for them go on without those copies. -/
def loseLines (lost : Nat → Bool) (s : State) : State :=
  let keys := (s.dir.ents.map (·.1)).filter lost
  keys.foldl (fun s k => match entOf k s with
    | none => s
    | some e =>
      let s := strayLine k e (holdCut 7 k s)
      let ph : Phase := match e.phase with
        | .remote => .remote
        | _ => .idle
      let s := modEnt k (fun e => { noCopies e with phase := ph, snoops := [], back := none, gone := false, holdEnd := 0 }) s
      if e.queue = [] then { s with dir.ents := smDel k s.dir.ents } else pumpLine k s) s

/-- HOLDER_SET (R48, R49; 11 R397). -/
def execHolderSet (r hid : Nat) (h : Holder) : State → Host.Outcome State Fault Refusal :=
  cmd r 0x3C (fun _ _ => [chkDeny (hid == 0 || decide (4095 ≤ hid) || decide (3 ≤ h.kind) || (h.kind == 0 && h.st != 0)
      || decide (4 ≤ h.st) || decide (16 ≤ h.port) || decide (32 ≤ h.altPort) || decide (2048 ≤ h.aid) || decide (2 ^ 48 ≤ h.limit))]) fun s =>
    let was := (holderOf hid s).st
    let s := { s with xlt.holders := smSet hid h s.xlt.holders }
    let s := if h.st = 3 ∧ was ≠ 3 then loseLines (fun k => !isLocal k && keyHid k == hid) s else s
    ok r [] s

/-! ### Migration (R81, R82) -/

/-- A destination that PAGE_MIGRATE may write to the leaf: local or remote, valid for the page's size (R45, log 26). -/
def destBad (size ppa : Nat) (s : State) : Bool :=
  ppaBad size ppa s || ppaOver size ppa s || !(ppaFormat ppa == 1 || ppaFormat ppa == 2)

/-- PAGE_MIGRATE of the page that PVA lies in (R59 asks no alignment of it, log 26): checks, MIG set, epoch raised, copies recalled (R81 steps 1 to 4). -/
def execPageMigrate (r sid pva dst : Nat) : State → Host.Outcome State Fault Refusal :=
  let lf (s : State) : Option (Nat × Leaf) := leafAt sid (pva / 2 ^ 21) s.xlt
  let size (s : State) : Nat := match lf s with
    | some (_, l) => if l.big then 2 ^ 30 else 2097152
    | none => 2097152
  cmdFor r 0x3B sid (fun _ s =>
    [chkResv (decide (2 ^ 52 ≤ pva)), chkDeny (sidBad sid s), chkDeny (match lf s with
      | some (_, l) => !l.pres || l.pin || ppaFormat l.ppa == 3
      | none => true),
     chkDeny (destBad (size s) dst s), chkWarm (warmPage dst s),
     chkExec (match lf s with
      | some (b, l) => l.mig || s.xlt.faults.any fun f => f.sid == sid && f.page == b && f.big == l.big && f.kind != 2
      | none => false) stCONFLICT,
     chkExec (epochsFull sid s) stBUSY]) fun s =>
    match lf s with
    | none => s
    | some (b, l) =>
      let s := bumpEpoch sid false (leafPairs (b, l)) (putLeaf sid b { l with mig := true } s)
      let s := { s with xlt.migs := s.xlt.migs ++ [⟨sid, b, l.ppa, dst, epochOf sid s, []⟩] }
      ok r [] (recallLeaves .recallInv [(b, l)] s)

/-- The run with which a mover copies a migrating page (R81 step 5). -/
def migRun (g : Mig) (n : Nat) (s : State) : MRun :=
  let at_ (p i : Nat) : Nat := if ppaFormat p = 15 then p else p + i * 2097152
  let run (p : Nat) (w : Bool) : Run :=
    ⟨g.sid, g.page * 2 ^ 21, n * 2097152, w, (List.range n).map fun i => some (at_ p i)⟩
  ⟨s.kiln.nextMid, 0, none, true, 0, g.sid, ⟨1, 3, false, false, 0, n * 2097152, g.page * 2 ^ 21, g.page * 2 ^ 21, 0, false⟩,
   g.epoch, some (run g.src false), run g.dst true, s.now, s.now, latchOf g.sid s, 0, 0, 0, 0, [], [], none, none⟩

/-- The drain of step 4 is over: no copy, no older work on the page. -/
def migDrained (g : Mig) (l : Leaf) (s : State) : Bool :=
  let ps := leafPairs (g.page, { l with ppa := g.src })
  !workOn g.sid g.epoch ps s && ps.all fun p => p.2 = 0 ∨ pageBusy p.2 true s = false

/-- A host submission that waited on a migration starts again (R81 step 2). -/
def unparkRetry (r : Nat) (s : State) : State :=
  match (inflightOf r s).bind (·.parked) with
  | some (.retry (.moveSubmit _ sid _ d)) =>
    match bakeWaits sid d s with
    | some b => waitMig sid b (.host r) s
    | none =>
      let x := newRun sid d none 0 s
      match firstBad (moveChks sid d true false s) with
      | some c => finish r c.status c.stage c.index [] [] s
      | none => acceptMove x (ok r [x.moveId] s)
  | some (.retry (.kilnFire _ sid _ d)) =>
    match fireWaits sid d s with
    | some b => waitMig sid b (.host r) s
    | none => match firstBad (fireChks sid d none none s) with
      | some c => finish r c.status c.stage c.index [] [] s
      | none =>
        let f := { newFiring sid d none none s with firingId := s.kiln.nextFiringId }
        acceptFiring f (ok r [f.firingId] { s with kiln.nextFiringId := add32 s.kiln.nextFiringId 1 })
  | _ => s

/-- A party that waited on the migration of the `n` pages from `page` goes on (R81 step 7). -/
def unwaitMig (page n : Nat) (w : MigWait) (s : State) : State :=
  match w with
  | .cmd i => serveAgain i s
  | .host r => unparkRetry r s
  | .work w => retryWaiter page n w s

/-- Step 7 of R81: the leaf gets the destination, the waiting accesses go on in arrival order, the record is written. -/
def finishMig (g : Mig) (l : Leaf) (s : State) : State :=
  let s := { s with xlt.migs := s.xlt.migs.filter fun x => !(x.sid == g.sid && x.page == g.page) }
  let s := putLeaf g.sid g.page { l with mig := false, ppa := g.dst } s
  let s := g.waiters.foldl (fun s w => unwaitMig g.page (leafPages l) w s) s
  emit 0x05 g.sid 0 0 (w64 (g.page * 2 ^ 21) ++ w64 g.src ++ w64 g.dst) s

/-- A mover for a migration's copy: the one that it has, or the first idle one (R81 step 5, 01 R36). -/
def migMover (mid : Nat) (s : State) : Option State :=
  match (runBy mid s).bind (·.mover) with
  | some _ => some s
  | none => match s.kiln.movers.findIdx? (· == false) with
    | none => none
    | some n => some (modRun mid (fun x => { x with mover := some n }) { s with kiln.movers := s.kiln.movers.set n true })

/-- MIGRATE_DONE: once the page is drained a mover copies its lines, as far as it can now; at the end the migration is
done (R81 steps 4 to 7, R82, log 11). -/
def execMigrateDone (sid page : Nat) : State → Host.Outcome State Fault Refusal :=
  act fun s => match s.xlt.migs.find? (fun g => g.sid == sid && g.page == page), smGet (leafKey sid page) s.xlt.leaves with
    | some g, some l =>
      if s.alive = false then s
      else
        let mine (x : MRun) : Bool := x.mig && x.sid == sid && x.desc.src == page * 2 ^ 21
        let s := if s.kiln.runs.any mine then s
          else if migDrained g l s then
            { s with kiln.runs := s.kiln.runs ++ [migRun g (leafPages l) s], kiln.nextMid := s.kiln.nextMid + 1 }
          else s
        match s.kiln.runs.find? mine with
        | none => s
        | some x => match migMover x.mid s with
          | none => s
          | some s =>
          let s := moveLines (moveFuel x.desc.length) x.mid s
          match runBy x.mid s with
          | none => s
          | some y =>
            if y.pos ≥ y.desc.length ∧ moveOwes y.mid s = false then
              finishMig ((s.xlt.migs.find? fun g => g.sid == sid && g.page == page).getD g)
                ((smGet (leafKey sid page) s.xlt.leaves).getD l) (endRun y s)
            else s
    | _, _ => s

end Sys2Proof.Machine
end

