-- ==== Sys2Proof/Machine/Holder.lean ====
section
/-! DEFINITION. Answers of holders (08 R303, R311) and completion timers (08 R310). -/

namespace Sys2Proof.Machine

/-! ### Finding and closing an outstanding request -/

/-- The outstanding request that an answer names (R311). -/
def outstOf (p aid tag tgen op : Nat) (s : State) : Option Outst :=
  s.outst.find? fun o => o.port == p && o.aid == aid && o.tag == tag && o.tgen == tgen && o.op == op && !o.lost

/-- Removes an outstanding request. -/
def closeOutst (o : Outst) (s : State) : State := { s with outst := s.outst.filter (· != o) }

/-- A late answer: discarded and counted (R311). -/
def lateAnswer (p : Nat) : State → State := modPortCtr p fun c => { c with late := add32 c.late 1 }

/-- An answer of a holder arrives: one with a reserved bit is discarded (R301), one that matches nothing counts in
PRT_LATE (R311). -/
def answer (m : Mhd) (op : Nat) (serve : Outst → State → State) (s : State) : State :=
  if m.resv then modPortCtr m.port (fun c => { c with protocol := add32 c.protocol 1 }) s
  else match outstOf m.port m.src m.tag m.tgen op s with
    | none => lateAnswer m.port s
    | some o => serve o (closeOutst o s)

/-- The head request of a line that waits for its holder. -/
def remoteHead (k : Nat) (s : State) : Option Req :=
  match entOf k s with
  | some e => if e.phase = .remote then e.queue.head? else none
  | none => none

/-- Modified data that cannot be written back is discarded and counted, for its region too (04 R155). -/
def discardBack (k : Nat) (s : State) : State :=
  { s with dir.discarded := add32 s.dir.discarded 1
           dir.regions := s.dir.regions.map fun (e : Nat × Region) => (e.1, { e.2 with owed := count e.2.owed }) }
where
  /-- The oldest record that a region owes for the holder counts the line. -/
  count : List Owed → List Owed
    | [] => []
    | o :: r => if o.hid = keyHid k then { o with discarded := add32 o.discarded 1 } :: r else o :: count r

/-! ### HDATA and HDONE -/

/-- What a holder's lines do (R303, 03 R102). A status other than OK ends what waited for them with that status (log 31). -/
def serveHdata (status : Nat) (lines : List (LineData × Nat)) (o : Outst) (s : State) : State :=
  let d : LineData × Nat := ((lines.head?).map fun x => (x.1, carried x.2)).getD (0, 4)
  match o.purpose with
  | .dirRead k =>
    match remoteHead k s with
    | some q => pumpLine k (if status = stOK then remoteData k q d.1 d.2 s else refuseHead k q status s)
    | none => s
  | _ => s

/-- HDATA (R303). -/
def execHdata (m : Mhd) (status : Nat) (lines : List (LineData × Nat)) : State → Host.Outcome State Fault Refusal :=
  act (arrive m (.hdata m status lines) fun _ s => answer m 0x0C (serveHdata status lines) s)

/-- What the end of an HWRITE does (R303). -/
def serveHdone (status : Nat) (o : Outst) (s : State) : State :=
  match o.purpose with
  | .dirWrite k =>
    match remoteHead k s with
    | some q => pumpLine k (if status = stOK then wrote k q (if q.op = .atomic then w64 q.opnd1.toNat else []) s
        else refuseHead k q status s)
    | none => s
  | .writeBack k => if status = stOK then s else discardBack k s
  | _ => s

/-- HDONE (R303). -/
def execHdone (m : Mhd) (status : Nat) : State → Host.Outcome State Fault Refusal :=
  act (arrive m (.hdone m status) fun _ s => answer m 0x0D (serveHdone status) s)

/-! ### FENCE_ACK and completion timers (R310, R311) -/

/-- The FENCE that frees tags held back toward an AID. -/
def sendFence (p aid : Nat) (s : State) : State := sendTracked p 0x0B aid [] none (.fence aid) s

/-- FENCE_ACK: tags whose requests timed out before the FENCE was sent return to use (R311). -/
def execFenceAck (m : Mhd) : State → Host.Outcome State Fault Refusal :=
  act (arrive m (.fenceAck m) fun _ s =>
    if m.resv then modPortCtr m.port (fun c => { c with protocol := add32 c.protocol 1 }) s
    else match outstOf m.port m.src m.tag m.tgen 0x0B s with
      | none => lateAnswer m.port s
      | some o =>
        let before := s.outst.takeWhile (· != o)
        let after := (s.outst.dropWhile (· != o)).drop 1
        let s := { s with outst := before.filter (fun x => !(x.port == m.port && x.aid == m.src && x.lost)) ++ after }
        let owed := s.outst.any fun x => x.port == m.port && x.aid == m.src && x.lost
        let under := s.outst.any fun x => x.port == m.port && x.aid == m.src && x.op == 0x0B && !x.lost
        if owed && !under then sendFence m.port m.src s else s)

/-- The COMPLETION_TIMEOUT of a port (08 R313). -/
def completionLimit (p : Nat) (s : State) : Nat := ((portOf p s).map (·.par.completionTimeout)).getD 0

/-- HID for a HOLDER_TIMEOUT record: of the line, else of the holder entry that names the agent, else 0. -/
def timeoutHid (o : Outst) (s : State) : Nat :=
  match o.purpose with
  | .dirRead k => keyHid k
  | .dirWrite k => keyHid k
  | .writeBack k => keyHid k
  | .mark _ k => keyHid k
  | _ => ((s.xlt.holders.find? fun h => h.2.aid == o.aid && h.2.st != 0).map (·.1)).getD 0

/-- The holder of a line is Lost. -/
def keyLost (k : Nat) (s : State) : Bool := (holderOf (keyHid k) s).st == 3

/-- What a request's expiry does to the party that waits (R310, R49; log 31 for SCORCH and ATOMIC). -/
def expire (o : Outst) (s : State) : State :=
  match o.purpose with
  | .dirRead k =>
    match remoteHead k s with
    | some q => pumpLine k (if keyLost k s then
        (match q.op with
          | .scorch => refuseHead k q stDENIED s
          | .atomic => refuseHead k q stDENIED s
          | _ => deliver k q (0, 4) s)
      else refuseHead k q stTIMEOUT s)
    | none => s
  | .dirWrite k =>
    let s := discardBack k s
    match remoteHead k s with
    | some q => pumpLine k (refuseHead k q stTIMEOUT s)
    | none => s
  | .writeBack k => discardBack k s
  | .mark _ _ => s
  | .fence _ => s
  | .push _ => s

/-- COMPLETION_TIMEOUT: the timer of a request to an AID with a TAG has run out (R310): its TAG is held back, a FENCE sent,
HOLDER_TIMEOUT written. -/
def execCompletionTimeout (aid tag : Nat) : State → Host.Outcome State Fault Refusal :=
  act fun s => match s.outst.find? (fun o => o.aid == aid && o.tag == tag && !o.lost
      && decide (o.sent + completionLimit o.port s ≤ s.now)) with
    | none => s
    | some o =>
      if s.alive = false then s
      else
        let hid := timeoutHid o s
        let s := { s with outst := s.outst.filter (· != o) ++ [{ o with lost := true }] }
        let s := emit 0x17 4095 0 0 [hid, o.aid, o.op, o.tag] (expire o s)
        let under := s.outst.any fun x => x.port == o.port && x.aid == aid && x.op == 0x0B && !x.lost
        if under then s else sendFence o.port aid s

end Sys2Proof.Machine
end

