-- ==== Sys2Proof/Machine/MemCmd.lean ====
section
/-! DEFINITION. Memory commands (03 R107, R110, R115 to R120, R499) and the memory events: the bisque sweep, drift
tracking, row repairs, spare SRAM rows. -/

namespace Sys2Proof.Machine

/-- The state of a die's memory in which every MEM command for it is refused (R120); a number that names no die too. -/
def dieGone (die : Nat) (s : State) : Bool := dieState die s == .absent || dieState die s == .lost

/-- A MEM command that names a die: it ends the die's idleness (13 R440). -/
def memCmd (r op die : Nat) (checks : Inflight → State → List Chk) (f : State → State) (s : State) : Host.Outcome State Fault Refusal :=
  cmd r op checks f (if ((inflightOf r s).map (·.opcode)) = some op ∧ s.alive = true then touchDie die s else s)

/-- First local line number of a die's page. -/
def pageLine (die page : Nat) : Nat := (die * 2 ^ 21 + page) * 2 ^ 15

/-! ### MEM_CRAZE (R119, 04 R145) -/

/-- The line has no copy and no open transaction. -/
def lineIdle (l : Nat) (s : State) : Bool :=
  match entOf (localKey l) s with
  | some e => e.queue.isEmpty && e.st == .uncached
  | none => !(s.dir.wayWait.any (·.1 == localKey l))

/-- Marks lines with cause 15, in order, as far as their copies are back: how many are done. -/
def crazeLines : Nat → Nat → Nat × State → Nat × State
  | 0, _, a => a
  | n + 1, l, (k, s) =>
    let s := recallLine (localKey l) .recallInv true s
    if lineIdle l s then crazeLines n (l + 1) (k + 1, setCraze l 15 s) else (k, s)

/-- MEM_CRAZE goes on from a line: it completes or stays parked. -/
def crazeGo (r line left : Nat) (s : State) : State :=
  let (k, s) := crazeLines left line (0, s)
  if k = left then ok r [] s else park r (.memCraze (line + k) (left - k)) s

/-- MEM_CRAZE: the copies of every named line are recalled, data that comes back is written, then cause 15 is set (R145). Bits [5:0] of
the PPA are not judged and drop out (log 75). -/
def execMemCraze (r ppa lines : Nat) : State → Host.Outcome State Fault Refusal :=
  memCmd r 0x3D (ppa / 2 ^ 42 % 8) (fun _ s =>
    [chkDeny (ppaFormat ppa != 1 || ppaHid ppa != 0 || ppaOffset ppa / 2 ^ 45 != 0 || dieGone (ppa / 2 ^ 42 % 8) s),
     chkLen (lines != 0 && decide (pageLimit (ppa / 2 ^ 42 % 8) s * 32768 < dieLine (ppaOffset ppa / 64) + lines)),
     chkWarm (warmPage ppa s)]) fun s =>
    let l := ppaOffset ppa / 64
    crazeGo r l lines ((List.range lines).foldl (fun s i => recallLine (localKey (l + i)) .recallInv true (holdCut 6 (localKey (l + i)) s)) s)

/-! ### Wedging and generations (R105, R107) -/

/-- Adds the range `[a, b)` to a list of disjoint ranges in rising order. -/
def mergeRange (a b : Nat) : List (Nat × Nat) → List (Nat × Nat)
  | [] => [(a, b)]
  | (c, d) :: r =>
    if d < a then (c, d) :: mergeRange a b r
    else if b < c then (a, b) :: (c, d) :: r
    else mergeRange (min a c) (max b d) r

/-- MEM_WEDGE: lines written in the wedged state; on an Offline die whole coverage since it went Offline makes G 1 (R107). -/
def execMemWedge (r die page pages : Nat) : State → Host.Outcome State Fault Refusal :=
  memCmd r 0x3E die (fun _ s => [chkDeny (decide (8 ≤ die) || dieGone die s),
    chkLen (pages != 0 && decide (pageLimit die s < page + pages)), chkWarm (warmDie die s)]) fun s =>
    if pages = 0 then ok r [] s
    else
      let s := { s with mem := fillPages (die * 2 ^ 21 + page) pages none s.mem }
      let whole := [(0, diePages die s)]
      ok r [] (modDie die (fun d =>
        if d.st = .offline then
          let c := mergeRange page (page + pages) d.covered
          { d with covered := c, wgen := if c = whole ∧ d.covered ≠ whole then 1 else d.wgen }
        else d) s)

/-- MEM_REGEN (R107): CONFLICT on a die that is not Offline, also while it is made ready (log 74). -/
def execMemRegen (r die : Nat) : State → Host.Outcome State Fault Refusal :=
  memCmd r 0x3F die (fun _ s => [chkDeny (decide (8 ≤ die) || dieGone die s), chkExec (dieState die s != .offline) stCONFLICT,
    chkExec (dieGen die s == 255 && !((dieMem die s).map (·.fullPass)).getD false) stBUSY]) fun s =>
    ok r [] (modDie die (fun d => { d with wgen := if d.wgen = 255 then 1 else d.wgen + 1, fullPass := false }) s)

/-! ### Post-package repair (R115 to R117, 14 R452) -/

/-- Bits [31:0] of a row's location, in the layout of an sPPR entry (14 R452). -/
def locWord (c : RowLoc) : Nat :=
  c.die + 2 ^ 3 * c.channel + 2 ^ 6 * c.subch + 2 ^ 7 * c.rank + 2 ^ 9 * c.bankGroup + 2 ^ 12 * c.bank + 2 ^ 14 * c.row

/-- The line lies in the row (log 10: the mapping is internal). -/
def inRow (c : RowLoc) (l : Nat) : Bool := rowOf l == locWord { c with subch := 0 }

/-- Steps 2 and 4 of R115 on one line: what the engine finds counts (R104). -/
def repairLine (l : Nat) (s : State) : State :=
  let s' := noteDecode l 4095 0 s
  match lineDecode (lineOf l s.mem) with
  | .clean => s
  | .mended x => { s' with mem := putLine l x s'.mem }
  | .uncorrectable =>
    { s' with mem := putLine l (mkLine 0 1 0xFFF#12 wideAll (BitVec.ofNat 8 (dieGen (lineDie l) s))) s'.mem }

/-- A row without sPPR resource: PPR_EXHAUSTED, counted (R115). -/
def pprExhausted (c : RowLoc) (s : State) : State :=
  emit 0x09 4095 1 c.die (w64 (locWord c)) (modDie c.die (fun d => { d with exhausted := satAdd 65535 d.exhausted 1 }) s)

/-- Soft repair of a row that has a resource left: every line read and written back, PPR_DONE (R115). The row's mends count from 0
again (log 75). -/
def softRepair (c : RowLoc) (s : State) : State :=
  let ls := (s.mem.lines.map (·.1)).filter (inRow c)
  let s := ls.foldl (fun s l => repairLine l s) s
  let s := { s with mem.softRows := if s.mem.softRows.contains c then s.mem.softRows else s.mem.softRows ++ [c], mem.pendingSppr := s.mem.pendingSppr.filter fun l => !inRow c l
                    mem.rowMends := s.mem.rowMends.filter fun e => e.1 != locWord { c with subch := 0 } }
  emit 0x08 4095 1 c.die (w64 (locWord c)) (modDie c.die (fun d => { d with applied := satAdd 65535 d.applied 1 }) s)

/-- Every line of a row in the wedged state (R117). -/
def wedgeRow (c : RowLoc) (s : State) : State :=
  let listed := s.mem.lines.map (·.1)
  let filled := s.mem.fills.flatMap fun f => (List.range 32768).map fun i => f.1 * 32768 + i
  { s with mem := ((listed ++ filled).filter (inRow c)).foldl (fun m l => putLine l wedgedLine m) s.mem }

/-- A row outside the ranges of R499. -/
def locBad (c : RowLoc) (s : State) : Bool :=
  decide (8 ≤ c.die) || decide (6 ≤ c.channel) || decide (2 ≤ c.subch) || decide (4 ≤ c.rank) || decide (8 ≤ c.bankGroup)
    || decide (4 ≤ c.bank) || decide (262144 ≤ c.row)
    || (match dieMem c.die s with
      | some d => decide (d.ranks ≤ c.rank) || decide (d.rows ≤ c.row)
      | none => true)

/-- MEM_PPR (R115 to R117, R499). What the DRAM reports of its resources is given by the command (log 17). -/
def execMemPpr (r : Nat) (loc : RowLoc) (mode : Nat) (spprLeft hpprLeft : Bool) : State → Host.Outcome State Fault Refusal :=
  memCmd r 0x40 loc.die (fun _ s => [chkDeny (decide (8 ≤ loc.die) || dieGone loc.die s), chkDeny (locBad loc s || decide (2 ≤ mode)),
    chkExec (mode == 1 && dieState loc.die s != .offline) stCONFLICT, chkExec (mode == 1 && !hpprLeft) stDENIED,
    chkWarm (warmDie loc.die s)]) fun s =>
    if mode = 1 then ok r [] (wedgeRow loc { s with mem.hardRows := s.mem.hardRows ++ [loc] })
    else if s.mem.softRows.contains loc then ok r [] s
    else if spprLeft then ok r [] (softRepair loc s)
    else refuse r stDENIED 7 (pprExhausted loc s)

/-- SPPR_REPAIR: the automatic repair that a find or a count of mends called for (R115). -/
def execSpprRepair (loc : RowLoc) (left : Bool) : State → Host.Outcome State Fault Refusal :=
  act fun s =>
    if s.powered = false ∨ dieGone loc.die s = true ∨ s.mem.pendingSppr.any (inRow loc) = false then s
    else if left then softRepair loc s
    else pprExhausted loc { s with mem.pendingSppr := s.mem.pendingSppr.filter fun l => !inRow loc l }

/-! ### Die states (R120) -/

/-- No access to the die's memory is in flight. -/
def dieQuiet (die : Nat) (s : State) : Bool :=
  let onDie (ppa : Nat) : Bool := ppaFormat ppa == 1 && ppa / 2 ^ 42 % 8 == die
  let lineOn (k : Nat) : Bool := isLocal k && lineDie (keyLine k) == die
  let runOn (r : Run) (pos : Nat) : Bool := (runAhead r pos).any fun p =>
    match (r.pages[p - r.pva / 2 ^ 21]?).join with
    | some x => onDie x
    | none => false
  !(s.dir.ents.any fun e => lineOn e.1 && !e.2.queue.isEmpty)
  && !(s.dir.wayWait.any fun x => lineOn x.1) && !(s.dir.claimWait.any fun x => lineOn x.1)
  && !(s.dir.claims.any fun c => c.page / 2 ^ 21 == die)
  && !(s.kiln.firings.any fun f => f.runs.any fun r => runOn r.2 0)
  && !(s.kiln.runs.any fun x => runOn x.runD x.pos || (x.runS.map fun r => runOn r x.pos).getD false)
  && !(s.host.rings.any fun g => match g.inflight.bind (·.parked) with
    | some (.poolRead _ _ run d) => runOn run (64 * d.length)
    | some (.poolWrite _ _ run l) => runOn run (run.len - 64 * l.length)
    | _ => false)

/-- A die goes Offline: the coverage of R107 starts again. -/
def goOffline (die : Nat) : State → State := modDie die fun d => { d with st := .offline, covered := [] }

/-- MEM_DIE_SET: STATE 3 IN_SERVICE, 4 OFFLINE; the state that the die already has completes OK (R120, R499, log 33). -/
def execMemDieSet (r die st : Nat) : State → Host.Outcome State Fault Refusal :=
  memCmd r 0x41 die (fun _ s => [chkDeny ((st != 3 && st != 4) || decide (8 ≤ die) || dieGone die s), chkWarm (warmDie die s),
    chkExec (!(dieState die s == .inService || dieState die s == .offline)) stCONFLICT]) fun s =>
    if st = 3 then ok r [] (modDie die (fun d => { d with st := .inService }) s)
    else if dieState die s = .offline then ok r [] s
    else if dieQuiet die s then ok r [] (goOffline die s) else park r (.dieOffline die) s

/-! ### The bisque sweep (R108 to R111) -/

/-- BISQUE_CONFIG's ranges hold (R110). -/
def bisqueOk (c : BisqueCfg) : Bool :=
  decide (3600000000000 ≤ c.period) && decide (c.period ≤ 604800000000000) && decide (1000000000 ≤ c.tablePeriod)
    && decide (c.tablePeriod ≤ 3600000000000) && decide (1 ≤ c.ceRowLimit) && decide (c.ceRowLimit ≤ 255) && decide (c.autoSppr ≤ 1)

/-- BISQUE_CONFIG (R110, R499): DIE 8 sets every die. -/
def execBisqueConfig (r : Nat) (c : BisqueCfg) (die : Nat) : State → Host.Outcome State Fault Refusal :=
  memCmd r 0x42 die (fun _ s => [chkDeny (!bisqueOk c || decide (8 < die) || (die != 8 && dieGone die s)), chkWarm (warmDie die s)]) fun s =>
    ok r [] (if die = 8 then { s with mem.dies := s.mem.dies.map fun (d : DieMem) => { d with cfg := c } }
      else modDie die (fun d => { d with cfg := c }) s)

/-- The sweep goes through a die once in every PERIOD: line `pos` of a pass that began at `sweepAt` is due at that part of the PERIOD
(R109; log 34). -/
def sweepDue (die : Nat) (d : DieMem) (s : State) : Bool :=
  decide (d.sweepAt + d.cfg.period * d.pos / (diePages die s * 32768) ≤ s.now)

/-- The sweep's read, mend and write-back of one line (R108, R109). -/
def sweepLine (l : Nat) (s : State) : State :=
  let g := dieGen (lineDie l) s
  match lineDecode (lineOf l s.mem) with
  | .clean => if unwedged (lineOf l s.mem) g then { s with mem := putLine l wedgedLine s.mem } else s
  | .mended x =>
    let s := noteCE l s
    { s with mem := putLine l (if unwedged x g then wedgedLine else x) s.mem }
  | .uncorrectable => noteUE l 4095 1 s

/-- The die's region is stopped (13 R440). -/
def dieFrozen (die : Nat) (s : State) : Bool := ((s.tal.dies[die]?).map fun d => d.freeze != 0).getD true

/-- BISQUE_SWEEP: the next line of a die when it is due (R109). A pass that ends counts as a full pass since the last MEM_REGEN wherever it
began (R107; log 34). -/
def execBisqueSweep (die : Nat) : State → Host.Outcome State Fault Refusal :=
  act fun s => match dieMem die s with
    | none => s
    | some d =>
      if s.powered = false ∨ dieFrozen die s = true ∨ diePages die s = 0 ∨ sweepDue die d s = false then s
      else
        let s := sweepLine (die * 2 ^ 36 + d.pos) s
        if d.pos + 1 < diePages die s * 32768 then modDie die (fun d => { d with pos := d.pos + 1 }) s
        else
          modDie die (fun d => { d with pos := 0, passes := (d.passes + 1) % 2048, fullPass := true, sweepAt := s.now }) s

/-- DRIFT_TRACKING of a channel: no visible effect beyond a delay that stays below 2,000 ticks (R90, log 13). -/
def execDriftTracking (_die _channel : Nat) : State → Host.Outcome State Fault Refusal := act id

/-! ### Spares of the on-die arrays (R112 to R114) -/

/-- Spares of one bank of an array, rows or columns (R112). -/
def bankSpares (array : Nat) (col : Bool) : Nat :=
  if col then [2, 1, 1, 2, 2].getD array 0 else [4, 2, 2, 4, 8].getD array 0

/-- Two spares stand in the same bank and are of the same kind. -/
def sameBank (a b : Spare) : Bool := a.array == b.array && a.unit == b.unit && a.bank == b.bank && a.col == b.col

/-- Spares of a bank that neither the factory fuse map nor an assignment of this power-on has taken (R113; log 76). -/
def sparesLeft (x : Spare) (s : State) : Nat :=
  bankSpares x.array x.col - Config.fusedSpares x.array x.unit x.bank (b2n x.col) % (bankSpares x.array x.col + 1)
    - (s.mem.spares.filter (sameBank x)).length

/-- Assigns a spare to a row or column, for the life of the power-on; false when its bank has none left (R113). -/
def assignSpare (x : Spare) (s : State) : Bool × State :=
  if s.mem.spares.contains x then (true, s)
  else if sparesLeft x s = 0 then (false, s)
  else (true, { s with mem.spares := s.mem.spares ++ [x] })

/-- A parity error in a row of a shelf's SRAM or glaze store is noted with its time (R114). -/
def noteRowErr (x : Spare) (s : State) : State := { s with mem.rowErrs := s.mem.rowErrs ++ [(x, s.now)] }

/-- TABLE_PERIOD of a kiln die (R110). -/
def tablePeriod (die : Nat) (s : State) : Nat := ((dieMem die s).map (·.cfg.tablePeriod)).getD 0

/-- Parity errors of a row within the last TABLE_PERIOD of its die (R114). -/
def recentErrs (x : Spare) (s : State) : Nat :=
  (s.mem.rowErrs.filter fun e => e.1 == x && decide (s.now < e.2 + tablePeriod (x.unit / 40) s)).length

/-- SPARE_ROW_ASSIGN: a row of an idle shelf's SRAM (banks 0 to 47) or glaze store (48 to 55) that had three parity errors within
TABLE_PERIOD gets a spare, while its bank has one (R112, R114). -/
def execSpareRowAssign (sh bank row : Nat) : State → Host.Outcome State Fault Refusal :=
  act fun s => match shelfOf sh s with
    | none => s
    | some x =>
      let e : Spare := ⟨if bank < 48 then 0 else 1, sh, if bank < 48 then bank else bank - 48, false, row⟩
      if s.powered && x.run.isNone && !x.out && decide (bank < 56) && decide (3 ≤ recentErrs e s) then
        (assignSpare e { s with mem.rowErrs := s.mem.rowErrs.filter fun y => y.1 != e }).2
      else s

end Sys2Proof.Machine
end

