-- ==== Sys2Proof/Machine/Sag.lean ====
section
/-! DEFINITION. Saggers (09 R315 to R341): the sagger commands, gate schedules, sampling, admission at the meters, and
breach records with the mirror page that carries them (15 R462 to R467). -/

namespace Sys2Proof.Machine

/-! ### Entries (R315, R316) -/

/-- Changes a sagger entry. -/
def modSag (sid : Nat) (f : Sagger → Sagger) (s : State) : State := { s with sags.tab := smMod sid f s.sags.tab }

/-- Level of a full bucket in 1/1,000 byte (R321). -/
def fullBucket (kib : Nat) : Int := (kib * 1024 * 1000 : Nat)

/-- The entry that SAGGER_CREATE makes: buckets full, everything else at reset (R315, R316, R321). -/
def newSagger (p : SagParams) (now : Nat) : Sagger :=
  ⟨.active, false, false, false, p, 0, 0, ⟨now, fullBucket p.fCburst, fullBucket p.fPburst⟩,
    ⟨now, fullBucket p.lCburst, fullBucket p.lPburst⟩, [], 0, 0, 0, 0, [], Counters.zero, 0, 0⟩

/-- The parameters at reset (R315). -/
def resetSagParams : SagParams :=
  ⟨0, 0, 64, 64, 0xFFFFFFFF, 0xFFFFFFFF, 65536, 65536, 0, List.replicate 8 0, 7, 0⟩

/-- The meter fields, LAT_TARGET and BREACH_MASK lie in their ranges (R315). -/
def sagRanges (p : SagParams) : Bool :=
  let rate (c pk : Nat) : Bool := decide (1 ≤ pk) && decide (pk ≤ 0xFFFFFFFF) && decide (c ≤ pk)
  let burst (b : Nat) : Bool := decide (1 ≤ b) && decide (b ≤ 65536)
  rate p.fCrate p.fPrate && rate p.lCrate p.lPrate && burst p.fCburst && burst p.lCburst && burst p.fPburst
    && burst p.lPburst && decide (p.latTarget ≤ 1000000) && decide (p.breachMask < 32)

/-! ### Commitments (R324) -/

/-- The SID has an AID allowed on the port (08 R313). -/
def allowedOn (p sid : Nat) (s : State) : Bool :=
  match portOf p s with
  | some q => q.assocs.any fun a => a.2.allow == some sid
  | none => false

/-- Sum of F_CRATE over the saggers of a port. -/
def portCommit (p : Nat) (s : State) : Nat :=
  s.sags.tab.foldl (fun n g => if allowedOn p g.1 s then n + g.2.par.fCrate else n) 0

/-- Sum of L_CRATE over all saggers. -/
def localCommit (s : State) : Nat := s.sags.tab.foldl (fun n g => n + g.2.par.lCrate) 0

/-- Ticks of RETURN entries in a schedule, and its period; no schedule is one open tick. -/
def gateShare (g : Option GateSched) : Nat × Nat :=
  match g with
  | some g => (gatePeriod (g.entries.filter (·.kind == 2)), gatePeriod g.entries)
  | none => (0, 1)

/-- A sum exceeds the capacity of a port: 112,000 MB/s x the open share of its transmitter time. -/
def overCapacity (sum : Nat) (share : Nat × Nat) : Bool := decide (112000 * (share.2 - share.1) < sum * share.2)

/-- The change of a sagger's committed rates raises a sum above its capacity (R324). -/
def commitBad (sid f l : Nat) (s : State) : Bool :=
  let old := ((sagOf sid s).map (·.par)).getD resetSagParams
  (decide (old.lCrate < l) && decide (4200000 < localCommit s - old.lCrate + l))
    || (decide (old.fCrate < f) && (List.range 16).any fun p =>
      allowedOn p sid s && overCapacity (portCommit p s - old.fCrate + f) (gateShare ((portOf p s).bind (·.gate))))

/-! ### SAGGER_CREATE, SAGGER_SET, SAGGER_SHELVES -/

/-- Some shelf of a die's mask is in the allocation of another sagger that `who` picks. -/
def maskClash (sid die mask : Nat) (who : Sagger → Bool) (s : State) : Bool :=
  s.sags.tab.any fun g => g.1 != sid && who g.2 && Nat.land (g.2.par.shelves.getD die 0) mask != 0

/-- SAGGER_CREATE (R315, R316, R324, R328). -/
def execSaggerCreate (r sid : Nat) (p : SagParams) : State → Host.Outcome State Fault Refusal :=
  cmdFor r 0x10 sid (fun _ s =>
    [chkResv (p.shelves.any fun m => decide (2 ^ 40 ≤ m)), chkDeny (s.pen.otp.lc != 2),
     chkDeny (sid == 0 || decide (4094 < sid) || !sagRanges p || decide (15 < p.sealLoad)),
     chkExec (sagState sid s != .free) stCONFLICT, chkExec (commitBad sid p.fCrate p.lCrate s) stCONFLICT,
     chkExec ((List.range 8).any fun k => maskClash sid k (p.shelves.getD k 0) (·.sealed) s) stCONFLICT]) fun s =>
    ok r [] { s with sags.tab := smSet sid (newSagger p s.now) s.sags.tab,
                     dir.cohCfg := smSet sid s.dir.cohDef s.dir.cohCfg, xlt.heatCfg := smSet sid s.xlt.heatDef s.xlt.heatCfg }

/-- A meter brought up to date under its old rates, cut to its new bursts (R316, R321). -/
def remeter (m : Meter) (crate cburst prate pburst ncb npr npb now : Nat) : Meter :=
  let m := (meterAdmit m crate cburst prate pburst now 0).2
  ⟨m.t, min m.c (fullBucket ncb), if prate = 0xFFFFFFFF ∧ npr ≠ 0xFFFFFFFF then fullBucket npb else min m.p (fullBucket npb)⟩

/-- SAGGER_SET (R316, R324). -/
def execSaggerSet (r sid : Nat) (p : SagParams) (force : Bool) : State → Host.Outcome State Fault Refusal :=
  cmdFor r 0x11 sid (fun _ s =>
    [chkDeny (decide (4094 < sid) || !sagRanges p || sagState sid s == .free),
     chkExec (!force && commitBad sid p.fCrate p.lCrate s) stCONFLICT]) fun s =>
    ok r [] (modSag sid (fun g =>
      let o := g.par
      { g with f := remeter g.f o.fCrate o.fCburst o.fPrate o.fPburst p.fCburst p.fPrate p.fPburst s.now
               l := remeter g.l o.lCrate o.lCburst o.lPrate o.lPburst p.lCburst p.lPrate p.lPburst s.now
               par := { p with shelves := o.shelves, sealLoad := o.sealLoad } }) s)

/-- A shelf that the mask takes away is held by a window of the sagger (R339). -/
def windowHolds (sid die mask : Nat) (s : State) : Bool :=
  s.kiln.wins.any fun w => w.2.blk.sid == sid && w.2.shelves.any fun sh => sh / 40 == die && !bitOf mask (sh % 40)

/-- A firing of another sagger runs on a shelf of a mask on die `k`, or may still be placed there (01 R31). -/
def shelvesUsed (sid k mask : Nat) (s : State) : Bool :=
  s.kiln.firings.any fun f => f.sid != sid && (f.parts.any (fun p => !p.ended && p.shelves.any fun sh => sh / 40 == k && bitOf mask (sh % 40))
    || ((f.parts.isEmpty || f.parts.any fun p => p.die == k && !p.placed && !p.ended) && (f.alloc.getD k 0) &&& mask != 0))

/-- SAGGER_SHELVES (R328, R339). The allocation of a sealed sagger stays its own alone. -/
def execSaggerShelves (r sid die mask : Nat) : State → Host.Outcome State Fault Refusal :=
  cmdFor r 0x12 sid (fun _ s =>
    [chkResv (decide (2 ^ 40 ≤ mask)), chkDeny (decide (4094 < sid) || decide (7 < die) || sagState sid s == .free), chkWarm (warmDie die s),
     chkExec (maskClash sid die mask (·.sealed) s || (sagSealed sid s && (maskClash sid die mask (fun _ => true) s || shelvesUsed sid die mask s))) stCONFLICT,
     chkExec (windowHolds sid die mask s) stCONFLICT]) fun s =>
    ok r [] (modSag sid (fun g => { g with par := { g.par with shelves := g.par.shelves.set die mask } }) s)

/-! ### Work in flight and sealing (R316, R328; 02 R61) -/

/-- AIDs bound to a SID on a port. -/
def sidAids (p sid : Nat) (s : State) : List Nat :=
  match portOf p s with
  | some q => (q.assocs.filter fun a => a.2.adm == .admitted && a.2.sid == sid).map (·.1)
  | none => []

/-- Work of the sagger is in flight (02 R61): unanswered requests, descriptors, firings, transfers, copies of lines
(04 R145) and Ready TABLE contexts (07 R238). -/
def sagWork (sid : Nat) (s : State) : Bool :=
  ((sagOf sid s).map fun g => !g.waiting.isEmpty).getD false
  || ((List.range 16).any fun p => match portOf p s with
    | some q => q.reqs.any fun r => !r.fence && (sidAids p sid s).contains r.aid
    | none => false)
  || (s.kiln.runs.any fun x => !x.mig && x.sid == sid) || (s.kiln.firings.any fun f => f.sid == sid)
  || (s.kiln.firingWait.any fun f => f.sid == sid)
  || (s.dir.ents.any fun e => (e.2.sid == sid && (e.2.wide || !e.2.copies.isEmpty))
    || e.2.queue.any fun q => q.asked && q.sid == sid)
  || (s.dir.wayWait.any fun x => x.2.1.asked && x.2.1.sid == sid)
  || (s.dir.claimWait.any fun x => x.2.sid == sid)
  || (s.kiln.ctxs.any fun c => c.2.e.sid == sid && c.2.e.st == 2 && c.2.e.kind == 2)
  || s.host.rings.any fun g => match g.inflight.bind poolPages with
    | some (i, _, _) => i == sid && i != 0
    | none => false

/-- Partitions of unsealed saggers whose work has ended are free again (R328). -/
def releaseParts (s : State) : State :=
  { s with sags.tab := s.sags.tab.map fun (g : Nat × Sagger) =>
      if g.2.leaving && !sagWork g.1 s then (g.1, { g.2 with leaving := false, tcBlocks := 0, dirBlocks := 0 }) else g }

/-- A partition that SAGGER_SEAL needs is not free (R328): blocks, places in the pools, shelves. -/
def sealClash (sid tc dirB : Nat) (s : State) : Bool :=
  let others := s.sags.tab.filter fun g => g.1 != sid && (g.2.sealed || g.2.leaving)
  let n := others.length + 1
  let sum (f : Sagger → Nat) : Nat := others.foldl (fun k g => k + f g.2) 0
  let short (owners : List Nat) (each total : Nat) : Bool :=
    decide (total - each * n < (owners.filter fun o => o != sid && !holdsParts o s).length)
  decide (16 < sum (·.tcBlocks) + tc) || decide (16 < sum (·.dirBlocks) + dirB) || decide (16 < n)
    || short (s.xlt.faults.map (·.sid)) 8 1024 || short (waiterSids s) 64 8192 || short (firingSids s) 64 4096
    || short (s.dir.claims.map fun c => ((firingBy c.firing s).map (·.sid)).getD 0) 1024 65536
    || (List.range 8).any fun k => let m := (masksOf sid s).getD k 0
      maskClash sid k m (fun _ => true) s || shelvesUsed sid k m s

/-- SAGGER_SEAL (R328). -/
def execSaggerSeal (r sid tcBlocks dirBlocks sealLoad : Nat) : State → Host.Outcome State Fault Refusal :=
  cmdFor r 0x13 sid (fun _ s =>
    [chkDeny (sid == 0 || decide (4094 < sid) || decide (16 < tcBlocks) || decide (16 < dirBlocks) || decide (15 < sealLoad)
      || sagState sid s == .free),
     chkExec (sealClash sid tcBlocks dirBlocks (releaseParts s)) stCONFLICT]) fun s =>
    ok r [] (modSag sid (fun g => { g with sealed := true, leaving := false, tcBlocks := tcBlocks, dirBlocks := dirBlocks,
                                           par := { g.par with sealLoad := sealLoad } }) (releaseParts s))

/-- A schedule without a sagger's entries: they become OPEN, so that the others keep their times (R328). -/
def openEntries (sid : Nat) (g : GateSched) : GateSched :=
  { g with entries := g.entries.map fun (e : GateEntry) =>
      if e.kind ≠ 0 ∧ e.sid = sid then ⟨e.duration, 0, 0, 0, 0, 0, false⟩ else e }

/-- SAGGER_UNSEAL (R328). -/
def execSaggerUnseal (r sid : Nat) : State → Host.Outcome State Fault Refusal :=
  cmdFor r 0x14 sid (fun _ s => [chkDeny (decide (4094 < sid) || sagState sid s == .free)]) fun s =>
    if sagSealed sid s then
      let s := modSag sid (fun g => { g with sealed := false, leaving := true }) s
      let s := { s with ports := s.ports.map fun (q : Port) =>
        { q with gate := q.gate.map (openEntries sid), gateNext := q.gateNext.map fun x => (x.1, openEntries sid x.2) } }
      ok r [] (releaseParts s)
    else ok r [] s

/-! ### Draining and destroying (R316, R317) -/

/-- Writes the SAGGER_DRAINED record that is due once no work is in flight (R316). -/
def drainedRecord (sid : Nat) (s : State) : State :=
  match sagOf sid s with
  | some g =>
    if g.st = .draining ∧ g.drainDue = true ∧ sagWork sid s = false then
      emit 0x06 sid 0 0 [] (modSag sid (fun g => { g with drainDue := false }) s)
    else s
  | none => s

/-- SAGGER_DRAIN (R316). -/
def execSaggerDrain (r sid : Nat) : State → Host.Outcome State Fault Refusal :=
  cmdFor r 0x15 sid (fun _ s => [chkDeny (sid == 0 || decide (4094 < sid) || sagState sid s == .free)]) fun s =>
    if sagState sid s = .draining then ok r [] s
    else drainedRecord sid (ok r [] (modSag sid (fun g => { g with st := .draining, drainDue := true }) s))

/-- SAGGER_DRAINED (R316). -/
def execSaggerDrained (sid : Nat) : State → Host.Outcome State Fault Refusal :=
  act fun s => if s.alive then drainedRecord sid s else s

/-- SAGGER_RESUME (R316, R339). -/
def execSaggerResume (r sid : Nat) : State → Host.Outcome State Fault Refusal :=
  cmdFor r 0x16 sid (fun _ s => [chkDeny (decide (4094 < sid)), chkExec (sagState sid s != .draining) stCONFLICT]) fun s =>
    ok r [] (modSag sid (fun g => { g with st := .active, drainDue := false }) s)

/-- A condition of R317 does not hold. -/
def destroyBad (sid : Nat) (s : State) : Bool :=
  sagState sid s != .draining || sagWork sid s || (s.xlt.leaves.any fun e => e.1 / 2 ^ 31 == sid)
    || (s.kiln.ctxs.any fun c => c.2.e.sid == sid && c.2.e.st != 0) || (s.kiln.wins.any fun w => w.2.blk.sid == sid)
    || ((List.range 16).any fun p => allowedOn p sid s) || s.dir.regions.any fun e => e.2.sid == sid

/-- SAGGER_DESTROY (R316, R317). -/
def execSaggerDestroy (r sid : Nat) : State → Host.Outcome State Fault Refusal :=
  cmdFor r 0x17 sid (fun _ s => [chkDeny (decide (4094 < sid)), chkExec (destroyBad sid s) stCONFLICT]) fun s =>
    let s := (s.xlt.tables.filter (·.sid == sid)).foldl (fun s t => wipeTable t s) s
    ok r [] { s with
      sags.tab := smDel sid s.sags.tab
      sags.breaches := s.sags.breaches.filter (·.sid != sid)
      xlt.tables := s.xlt.tables.filter (·.sid != sid)
      xlt.epochs := smDel sid s.xlt.epochs
      xlt.taken := s.xlt.taken.filter fun t => t.sid != sid || t.ack
      xlt.heatCfg := smDel sid s.xlt.heatCfg
      dir.cohCfg := smDel sid s.dir.cohCfg
      obs.mirrors := smDel sid s.obs.mirrors
      kiln.library := s.kiln.library.map fun (g : Glaze) => { g with sids := g.sids.filter (· != sid) } }

/-! ### Gate schedules (R325 to R331) -/

/-- A schedule breaks a condition of R326. -/
def gateBad (guard : Nat) (es : List GateEntry) (s : State) : Bool :=
  let pairs := (es.filter (·.kind == 1)).map (·.pair)
  let entryBad (x : GateEntry × Nat) : Bool :=
    let e := x.1
    decide (e.duration < 1) || decide (1000000 < e.duration) || decide (e.duration < 2 * guard)
    || (e.kind != 0 && !sagSealed e.sid s) || (e.kind == 0 && e.sid != 0)
    || (e.kind != 1 && (e.pair != 0 || e.lines != 0 || e.lag != 0))
    || (e.kind == 1 && (e.lines == 0 || decide (1023 < e.lines) || decide (e.duration < e.lines)
      || decide (slotOffset es x.2 e < 16000) || match es[e.pair]? with
        | some t => t.kind != 2 || t.sid != e.sid || decide (t.duration < guard + 2 * e.lines)
        | none => true))
  decide (1000000 < gatePeriod es) || !pairs.Nodup || es.zipIdx.any entryBad

/-- End of the running period of a schedule. -/
def periodEnd (g : GateSched) : Nat := g.curAt + gatePeriod (g.entries.drop g.cur)

/-- When a new schedule of the port takes effect: at the end of the old one's period, at once without one (R326). -/
def gateFrom (p : Nat) (s : State) : Nat :=
  match (portOf p s).bind (·.gate) with
  | some g => periodEnd g
  | none => s.now

/-- A schedule from its start; none for no entries. -/
def gateSched (es : List GateEntry) (guard start : Nat) : GateSched := ⟨es, guard, start, 0, start, 0⟩

/-- Trace record of a gate entry (15 R471, source 7). -/
def gateTrace (p : Nat) (s : State) : State :=
  match (portOf p s).bind (·.gate) with
  | some g => match g.entries[g.cur]? with
    | some e => traceHub 7 p (if e.kind = 0 then 4095 else e.sid) g.cur e.kind 0 0 s
    | none => s
  | none => s

/-- A schedule takes effect on a port; one without entries is the single OPEN entry. -/
def setGate (p : Nat) (g : GateSched) (s : State) : State :=
  gateTrace p (modPort p (fun q => { q with gate := if g.entries.isEmpty then none else some g, gateNext := none }) s)

/-- GATE_LOAD (R324 to R326). -/
def execGateLoad (r port efmt n : Nat) (item : Item) (force : Bool) (guard : Nat) (entries : List GateEntry) :
    State → Host.Outcome State Fault Refusal :=
  cmd r 0x18 (fun _ s =>
    let es := entries.take n
    let old := gateShare ((portOf port s).bind (·.gate))
    let new := gateShare (if es.isEmpty then none else some (gateSched es guard 0))
    [chk (efmt != 1) stVERSION 1, chkDeny (decide (15 < port) || decide (1024 < n) || decide (guard < 8) || decide (4096 < guard)), itemAlign item]
    ++ (if n = 0 then [] else itemRead item (8 * n) s) ++
    [chkResv (es.any fun e => e.resv || decide (3 ≤ e.kind)), chkDeny (gateBad guard es s),
     chkExec (!force && decide (old.1 * new.2 < new.1 * old.2) && overCapacity (portCommit port s) new) stCONFLICT]) fun s =>
    let at_ := gateFrom port s
    let g := gateSched (entries.take n) guard at_
    match (portOf port s).bind (·.gate) with
    | none => ok r (w64 at_) (setGate port g s)
    | some _ => ok r (w64 at_) (modPort port (fun q => { q with gateNext := some (at_, g) }) s)

/-- GATE_ENTRY: the schedule of a port moves to its next entry; at the end of a period a new one takes effect (R326, R327). -/
def execGateEntry (p : Nat) : State → Host.Outcome State Fault Refusal :=
  act fun s => match portOf p s with
    | none => s
    | some q => match q.gate with
      | none => s
      | some g => match g.entries[g.cur]? with
        | none => s
        | some e =>
          if s.powered = false ∨ s.now < g.curAt + e.duration then s
          else if g.cur + 1 < g.entries.length then
            gateTrace p (modPort p (fun q => { q with gate := some { g with cur := g.cur + 1, curAt := g.curAt + e.duration, used := 0 } }) s)
          else match q.gateNext with
            | some (_, n) => setGate p { n with start := periodEnd g, curAt := periodEnd g } s
            | none => gateTrace p (modPort p (fun q => { q with gate := some { g with cur := 0, start := periodEnd g, curAt := periodEnd g, used := 0 } }) s)

/-! ### SHAPE_CONFIG and SAGGER_READ (R339, R340, 10 R369) -/

/-- SHAPE_CONFIG (R340). -/
def execShapeConfig (r : Nat) (c : ShapeCfg) : State → Host.Outcome State Fault Refusal :=
  cmd r 0x19 (fun _ _ => [chkDeny (decide (1024 < c.fOvh) || decide (c.samplePeriod < 1000) || decide (1000000 < c.samplePeriod)
      || decide (c.crowdLimit < 1) || decide (2048 < c.crowdLimit) || decide (c.commitWait < 1000) || decide (10000000 < c.commitWait)
      || decide (c.breachWindow < 100000) || decide (1000000000 < c.breachWindow))]) fun s =>
    ok r [] { s with sags.shape := c }

/-- A signed 64-bit number as two words. -/
def i64 (v : Int) : List Nat := w64 ((v % (2 ^ 64 : Nat)).toNat)

/-- Words of the 40-bit masks: 5 bytes each, packed (10 R369). -/
def maskWords (masks : List Nat) : List Nat :=
  let v := masks.foldr (fun m a => m % 2 ^ 40 + 2 ^ 40 * a) 0
  (List.range 10).map fun i => fieldOf v (32 * i) 32

/-- SAGGER_READ's output item (10 R369). -/
def sagWords (sid : Nat) (s : State) : List Nat :=
  let g := (sagOf sid s).getD { newSagger resetSagParams s.now with st := .free, f := ⟨0, 0, 0⟩, l := ⟨0, 0, 0⟩ }
  let p := g.par
  let level (m : Meter) (c cb pr pb : Nat) : List Nat :=
    let m := if g.st = .free then m else (meterAdmit m c cb pr pb s.now 0).2
    i64 m.c ++ i64 (if pr = 0xFFFFFFFF then 0 else m.p)
  let st := match g.st with
    | .free => 0
    | .active => 1
    | .draining => 2
  [1 + 16 * st + 64 * b2n g.sealed + 2 ^ 8 * sid + 2 ^ 20 * p.breachMask + 2 ^ 25 * p.sealLoad,
   g.tcBlocks + 2 ^ 5 * g.dirBlocks + 2 ^ 10 * p.latTarget,
   p.fCrate, p.fPrate, p.lCrate, p.lPrate, p.fCburst, p.fPburst, p.lCburst, p.lPburst]
  ++ maskWords p.shelves ++ level g.f p.fCrate p.fCburst p.fPrate p.fPburst ++ level g.l p.lCrate p.lCburst p.lPrate p.lPburst
  ++ [g.qdepth, g.qdelay % 2 ^ 32] ++ w64 g.ctr.slotLate

/-- SAGGER_READ (R339). -/
def execSaggerRead (r sid : Nat) : State → Host.Outcome State Fault Refusal :=
  cmdFor r 0x1A sid (fun f s => [chkDeny (decide (4094 < sid)), outChk3 f, outChk4 f 128 s]) fun s =>
    okItem r [.words (sagWords sid s)] s

/-! ### Sampling and the meters (R322, R333, R334) -/

/-- DELAY of the load word (R334). -/
def delayCode (t q : Nat) : Nat := if t = 0 ∨ 2 * q < t then 0 else if q < t then 1 else if q < 4 * t then 2 else 3

/-- One sagger's sample (R333, R334): over the ports at which its requests wait. -/
def sampleSag (sid : Nat) (crowded : Nat → Bool) (s : State) (g : Sagger) : Sagger :=
  let waits (p : Nat) : List Waiting := g.waiting.filter fun w => w.port == p
  let depth (p : Nat) : Nat := (waits p).length
  let delay (p : Nat) : Nat := (waits p).foldl (fun d w => max d (s.now - w.at_)) 0
  let c := (meterAdmit g.f g.par.fCrate g.par.fCburst g.par.fPrate g.par.fPburst s.now 0).2.c
  let qd := (List.range 16).foldl (fun d p => max d (depth p)) 0
  let ql := (List.range 16).foldl (fun d p => max d (delay p)) 0
  let word (p : Nat) : Nat := delayCode g.par.latTarget (delay p) + 4 * b2n (decide (c < 0)) + 8 * b2n (crowded p)
  { g with qdepth := qd, qdelay := ql, qdepthPeak := max g.qdepthPeak qd, qdelayPeak := max g.qdelayPeak ql
           loads := ((List.range 16).filter fun p => allowedOn p sid s || word p != 0).map fun p => (p, word p) }

/-- QUEUE_SAMPLE, due every SAMPLE_PERIOD (R333, R334). -/
def execQueueSample : State → Host.Outcome State Fault Refusal :=
  act fun s =>
    if s.alive = false ∨ s.now < s.sags.sampleAt + s.sags.shape.samplePeriod then s
    else
      let waits (p : Nat) : Nat := s.sags.tab.foldl (fun n g => n + (g.2.waiting.filter (·.port == p)).length) 0
      let crowd (p : Nat) : Bool := decide (s.sags.shape.crowdLimit < waits p)
      let tab : SMap Sagger := s.sags.tab.map fun (g : Nat × Sagger) => (g.1, sampleSag g.1 crowd s g.2)
      releaseParts { s with sags.tab := tab, sags.sampleAt := s.now }

/-- AID and TAG of a waiting command's message. -/
def cmdMhd (i : Instr) : Option Mhd :=
  match i with
  | .move m _ => some m
  | .fire m _ => some m
  | .fireCancel m _ => some m
  | .agentCtxSet m _ _ => some m
  | .contrib m _ _ _ _ => some m
  | .fence m => some m
  | i => (lineReq i).map (·.1)

/-- METER_ADMIT: the first request of a sagger that waits on a port passes the gate and its meter, unless an earlier one
stands before the meter (R322). -/
def execMeterAdmit (sid port : Nat) : State → Host.Outcome State Fault Refusal :=
  act fun s => match sagOf sid s with
    | none => s
    | some g =>
      match g.waiting.findIdx? (·.port == port) with
      | none => s
      | some i =>
        let w := g.waiting[i]?
        match w, w.bind fun w => cmdMhd w.cmd with
        | some w, some m =>
          if !s.alive || (g.waiting.take i).any (fun e => gateLets e.port sid e.lines s) then s
          else
            let (pass, s) := letPass m.port m.src m.tag sid w.cost w.lines w.at_ s
            if !pass then s
            else
              let late := s.now - w.at_
              let s := modCtr sid (fun c => { c with waitTicks := add64 c.waitTicks late })
                (modSag sid (fun g => { g with waiting := g.waiting.eraseIdx i }) s)
              serveAgain w.cmd (addGlobal 5 1 s)
        | _, _ => s

/-! ### The mirror page and breach records (R337, R338; 15 R462, R466, R467) -/

/-- The counter block of a SID (15 R462), 64 words. -/
def ctrBlock (sid seq : Nat) (s : State) : List Nat :=
  let c := ctrOf sid s
  let m := (smGet sid s.obs.mirrors).getD ⟨0, 0, 0, 0, 0, 0, 0, 0, 0, 0⟩
  let g := (sagOf sid s).getD { newSagger resetSagParams 0 with st := .free }
  let ws := [1 + 2 ^ 16 * sid, 0] ++ w64 seq ++ w64 s.now ++ w64 c.fCharged ++ w64 c.lLines ++ w64 c.fires ++ w64 c.refireTicks
    ++ w64 c.firings ++ w64 c.moves ++ w64 c.denied ++ w64 c.crazed ++ w64 c.nacks ++ w64 c.faults ++ w64 c.waitTicks
    ++ w64 c.contribAcc ++ w64 c.contribRef ++ w64 c.slotLate ++ w64 c.breaches ++ [g.qdepth, g.qdelay % 2 ^ 32]
    ++ [g.qdepthPeak, g.qdelayPeak % 2 ^ 32, g.breachNext, g.breachTotal % 2 ^ 32] ++ w64 m.heatSeq ++ w64 m.heatTally
  ws ++ List.replicate (64 - ws.length) 0

/-- Writes a line of a mirror page as a SCORCH would (15 R467): copies recalled, TAG the SID, WGEN the die's G. -/
def mirrorLine (sid ppa i : Nat) (ws : List Nat) (s : State) : State :=
  let l := ppaOffset ppa / 64 + i
  if dieState (lineDie l) s = .inService then ownLine l sid (wordsLine ws) (recallLine (localKey l) .recallInv false s) else s

/-- SEQ of a mirror page raised: the first line with its SEQ field replaced (15 R467). -/
def mirrorSeq (sid ppa seq : Nat) (s : State) : State :=
  let d := (lineOf (ppaOffset ppa / 64) s.mem).data.toNat
  mirrorLine sid ppa 0 ((List.range 16).map fun i =>
    if i = 2 then seq % 2 ^ 32 else if i = 3 then seq / 2 ^ 32 % 2 ^ 32 else fieldOf d (32 * i) 32) s

/-- Words of a GUARANTEE_BREACH record (R338). -/
def breachWords (b : Breach) : List Nat :=
  [1 + 16 * b.guarantee + 256 * b.reason + 2 ^ 16 * b.sid, b.port + 2 ^ 8 * b.die + 2 ^ 16 * b.count]
  ++ w64 b.start ++ w64 b.last ++ w64 b.shortfall ++ [b.meter] ++ List.replicate 7 0

/-- Writes a breach record into the log of a sagger's mirror page (15 R466, R467). -/
def logBreach (b : Breach) (s : State) : State :=
  match smGet b.sid s.obs.mirrors, sagOf b.sid s with
  | some m, some g =>
    if m.ppa = 0 then s
    else
      let s := mirrorSeq b.sid m.ppa (m.seq + 1) s
      let s := mirrorLine b.sid m.ppa (64 + g.breachNext % 64) (breachWords b) s
      let s := mirrorSeq b.sid m.ppa (m.seq + 2) s
      let s := { s with obs.mirrors := smMod b.sid (fun m => { m with seq := m.seq + 2 }) s.obs.mirrors }
      modSag b.sid (fun g => { g with breachNext := (g.breachNext + 1) % 64, breachTotal := g.breachTotal + 1 }) s
  | _, _ => s

/-- BREACH_RECORD: BREACH_WINDOW after the first breach its record is written, if the sagger's BREACH_MASK asks for it (R338). -/
def execBreachRecord (sid guarantee reason : Nat) : State → Host.Outcome State Fault Refusal :=
  act fun s =>
    let mine (b : Breach) : Bool := b.sid == sid && b.guarantee == guarantee && b.reason == reason
    match s.sags.breaches.find? mine with
    | none => s
    | some b =>
      if s.alive = false ∨ s.now < b.start + s.sags.shape.breachWindow then s
      else
        let s := { s with sags.breaches := s.sags.breaches.filter fun x => !mine x }
        let mask := ((sagOf sid s).map (·.par.breachMask)).getD 0
        if !bitOf mask (guarantee - 4) then s
        else
          let s := modCtr sid (fun c => { c with breaches := add64 c.breaches 1 }) { s with sags.breachCnt := add32 s.sags.breachCnt 1 }
          logBreach b (emit 0x03 sid 0 0 (breachWords b) s)

end Sys2Proof.Machine
end

