-- ==== Sys2Proof/Machine/Link.lean ====
section
/-! DEFINITION. The Golha link (08): flits, replay, credits, link states, lanes, admission, rekeying, port commands, the loss of
a port. The bits of PHY, FEC, CRC, GCM and signatures come as outcomes (log 4, 13, 15). -/

namespace Sys2Proof.Machine

/-! ### Credits (R292 to R296) -/

/-- Difference modulo 2^32. -/
def diff32 (a b : Nat) : Nat := (a + 2 ^ 32 - b % 2 ^ 32) % 2 ^ 32

/-- Adds to counter `i` modulo 2^32 (00 R19). -/
def bump (i n : Nat) (l : List Nat) : List Nat := l.modify i fun v => add32 v n

/-- Place of a VC's counter among those of RESUME: header credits, then data credits. -/
def crIdx (vc kind : Nat) : Nat := 2 * vc + kind

/-- Receive-pool slots that a counter's messages hold: those no plane has taken, and the requests at their gate or meter (R294, 09
R322). -/
def poolHeld (p i : Nat) (q : Port) (s : State) : Nat :=
  q.rxOcc.getD i 0 + (s.sags.tab.flatMap fun g => g.2.waiting.filter fun w => w.port == p).foldl (fun n w =>
    let (vc, len) : Nat × Nat := match w.cmd with
      | .contrib _ _ _ _ _ => (3, 4112)
      | .scorch _ _ _ _ _ _ => (0, 88)
      | .move _ _ => (0, 64)
      | .fire _ _ => (0, 256)
      | .agentCtxSet _ _ _ => (0, 56)
      | .atomic _ _ _ _ _ _ _ => (0, 32)
      | .rdShared _ _ => (0, 8)
      | _ => (0, 16)
    if i = crIdx vc 0 then n + 1 else if i = crIdx vc 1 then n + ceilDiv len 64 else n) 0

/-- Smallest number of slots of a counter, step in which shared space is granted, and shared space (R294). -/
def poolShape (i : Nat) : Nat × Nat × Nat := if i % 2 = 0 then (64, 16, 1600) else (256, 64, 6400)

/-- One counter's grant brought up: its minimum always, then one step of shared space when its unused grant falls below one step
(R294). -/
def grantOne (held : Nat → Nat) (q : Port) (i : Nat) : Port :=
  let (low, step, shared) := poolShape i
  let out (q : Port) (j : Nat) : Nat := diff32 (q.grantedRx.getD j 0) (q.usedRx.getD j 0)
  let q := { q with grantedRx := bump i (low - (held i + out q i)) q.grantedRx }
  let inUse := ((List.range 14).filter (fun j => j % 2 == i % 2)).foldl (fun n j => n + (held j + out q j - low)) 0
  if out q i < step ∧ inUse + step ≤ shared ∧ held i + out q i + step ≤ low + shared * 3 / 4 then
    { q with grantedRx := bump i step q.grantedRx }
  else q

/-- Brings up a port's grants on VC0 to VC6. -/
def regrant (p : Nat) (s : State) : State :=
  modPort p (fun q => (List.range 14).foldl (grantOne fun i => poolHeld p i q s) q) s

/-- Messages in the receive pools are taken once the planes take input again (R296). -/
def freePools (s : State) : State :=
  (List.range 16).foldl (fun s p => regrant p (modPort p (fun q => { q with rxOcc := List.replicate 16 0 }) s)) s

/-- Body bytes of a message that the J9P sends (R300, R306). -/
def bodyLen (m : OutMsg) : Nat :=
  let line := if m.line.isSome then 64 else 0
  match m.op with
  | 0x0C => 12
  | 0x0D => 16 + line
  | 0x20 => 80
  | 0x21 => 80
  | 0x22 => 16
  | 0x23 => 8 + line + 4 * m.body.length
  | 0x24 => 8
  | 0x29 => 128
  | 0x2A => 192
  | 0x40 => 8
  | 0x41 => 8
  | 0x80 => 4 * m.body.length
  | 0xA1 => 264
  | 0xA3 => 8
  | 0xA4 => 4
  | 0xA5 => 4
  | 0xA7 => 8
  | 0xA8 => 16
  | 0xC1 => 24
  | 0xC3 => 8
  | 0xC4 => 8
  | _ => 0

/-- First words of a message's body (R300). -/
def msgBody (key : Nat) (m : OutMsg) : List Nat :=
  let h : List Nat := (m.handle.map fun h => w64 (Config.handleBits key h.line h.sid)).getD []
  let cause := (m.line.map (·.2)).getD 0
  let line : List Nat := (m.line.map fun l => (List.range 4).map fun i => (dataRow l.1 i).toNat).getD []
  match m.op with
  | 0x20 => h ++ [cause, 0] ++ line
  | 0x21 => h ++ m.body ++ [cause] ++ line
  | 0x22 => h ++ m.body ++ [0]
  | 0x23 => [m.status + 2 ^ 16 * cause, 0] ++ line ++ m.body
  | 0x24 => [m.status + 2 ^ 16 * m.body.getD 0 0] ++ m.body.drop 1
  | 0xA1 => m.body
  | 0xA3 => m.status :: m.body
  | 0xA7 => m.status :: m.body
  | 0xC1 => m.status :: m.body
  | 0xC3 => m.status :: m.body
  | _ => h ++ m.body ++ line

/-- The message is not encrypted (R291). -/
def plainMsg (m : OutMsg) : Bool := m.op == 0xA1 || (m.op == 0xA3 && m.status != 0)

/-- Bytes of a message on the wire (R297). -/
def wireLen (m : OutMsg) : Nat := 16 + bodyLen m + if plainMsg m then 0 else 12

/-- The partner's grant covers a message (R292). -/
def creditFor (q : Port) (x : TxItem) : Bool :=
  let free (k : Nat) : Nat := diff32 (q.grantedTx.getD (crIdx x.vc k) 0) (q.usedTx.getD (crIdx x.vc k) 0)
  decide (1 ≤ free 0) && decide (ceilDiv (bodyLen x.msg) 64 ≤ free 1)

/-! ### Training (R288 to R290) -/

/-- A port that is enabled and in service. -/
def portOn (q : Port) : Bool := q.inSvc && q.par.enable == 1

/-- The port enters Training; held flits stay (R288). -/
def toTraining (fast : Bool) (p : Nat) (s : State) : State :=
  modPort p (fun q => { q with st := .training, fast := fast, trainAt := s.now, retryAt := none, attempts := 0, lctl := []
                               resend := 0, nakHold := none, replaysNoAck := 0 }) s

/-- A LCTL flit that needs no answer in time: RETRAIN, as the port leaves Up by itself (R282). -/
def sendRetrain (p : Nat) (s : State) : State :=
  match portOf p s with
  | some q => { s with fabOut := s.fabOut ++ [⟨p, 3, 0, (q.rxE + 4095) % 4096, q.nakSent, 0, 0, q.grantedRx.getD 0 0, q.trainNo, 0, [],
      some (⟨4, 0, 0, some s.now⟩, false, 0, [])⟩] }
  | none => s

/-- Wraps a link event: the port die runs. -/
def onPort (p : Nat) (ok : Port → Bool) (f : Port → State → State) : State → Host.Outcome State Fault Refusal :=
  act fun s => match portOf p s with
    | some q => if s.powered && q.inSvc && ok q then f q s else s
    | none => s

/-- SIGNAL_DETECT (R288): full training of a port that is enabled and Down. -/
def execSignalDetect (p : Nat) : State → Host.Outcome State Fault Refusal :=
  onPort p (fun q => portOn q && q.st == .down) fun _ s => toTraining false p s

/-- Length of a training attempt (R290). -/
def trainBound (fast : Bool) : Nat := if fast then 2000000 else 60000000

/-- TRAINED within the attempt's bound: the J9P proposes TRAIN_NO + 1 in a RESUME (R288). -/
def execTrained (p : Nat) (narrow : Bool) : State → Host.Outcome State Fault Refusal :=
  act fun s => match portOf p s with
    | some q =>
      if s.powered && q.inSvc && q.st == .training && q.retryAt.isNone && decide (s.now ≤ q.trainAt + trainBound q.fast) then
        let keep := q.fast && !narrow
        modPort p (fun q => { q with st := .resuming, narrow := narrow, trainNo := (q.trainNo + 1) % 256, codewords := 0
                                     swapped := if keep then q.swapped else 15, txSwap := if keep then q.txSwap else none
                                     failedLanes := if keep then q.failedLanes else [], lctl := [⟨1, 0, 0, none⟩] }) s
      else s
    | none => s

/-- TRAINING_TIMEOUT: the attempt's bound has passed; LINK_DOWN on the first failure after Up, and the next full attempt
10,000,000 ticks later (R288). -/
def execTrainingTimeout (p : Nat) : State → Host.Outcome State Fault Refusal :=
  act fun s => match portOf p s with
    | some q =>
      if s.powered && q.inSvc && q.st == .training && q.retryAt.isNone && decide (q.trainAt + trainBound q.fast < s.now) then
        let s := if q.wasUp then emit 0x11 4095 2 p [q.attempts + 1, q.held.length] s else s
        modPort p (fun q => { q with attempts := q.attempts + 1, wasUp := false, retryAt := some (s.now + 10000000) }) s
      else s
    | none => s

/-- TRAINING_RETRY (R288). -/
def execTrainingRetry (p : Nat) : State → Host.Outcome State Fault Refusal :=
  act fun s => match portOf p s with
    | some q => match q.retryAt with
      | some t =>
        if s.powered && q.inSvc && q.st == .training && decide (t ≤ s.now) then
          modPort p (fun q => { q with fast := false, trainAt := s.now, retryAt := none }) s
        else s
      | none => s
    | none => s

/-- Frees the held flits that an ACK covers; a value that covers none or more than are held is ignored (R285). -/
def takeAck (a : Nat) (q : Port) : Port :=
  let n := (a + 4096 - q.lastAck) % 4096
  if n = 0 ∨ q.held.length < n then q
  else
    let left := q.held.drop n
    { q with held := left, lastAck := a, replaysNoAck := 0, resend := min q.resend left.length }

/-- RESUME of the partner with the J9P's TRAIN_NO (R288, R289): a fresh one resets both directions and their credit counters, else the flits
up to its RX_ACK are freed, the rest replayed and the partner's grants taken as it sends them. -/
def execResume (p : Nat) (fresh : Bool) (trainNo rxAck : Nat) (credits : List Nat) : State → Host.Outcome State Fault Refusal :=
  onPort p (fun q => q.st == .resuming && q.trainNo == trainNo) fun q s =>
    let cr := (List.range 16).map fun i => credits.getD i 0 % 2 ^ 32
    let isFresh := fresh || q.fresh
    let q' : Port :=
      if isFresh then
        { q with held := [], txSeq := 0, lastAck := 4095, rxE := 0, resend := 0, txLeft := 0, rxPart := []
                 grantedTx := List.replicate 16 0, usedTx := List.replicate 16 0, grantedRx := List.replicate 16 0, usedRx := List.replicate 16 0
                 ctr := { q.ctr with freshDiscard := add32 q.ctr.freshDiscard q.held.length } }
      else
        let q := takeAck rxAck q
        { q with resend := q.held.length, grantedTx := cr }
    let q' := { q' with st := .up, wasUp := true, attempts := 0, fresh := false, nakSent := false, nakHold := none
                        replaysNoAck := 0, lctl := [], crSent := List.replicate 16 0, sinceIdle := 0 }
    let s := regrant p (modPort p (fun _ => q') s)
    emit 0x12 4095 2 p [b2n q.narrow, trainNo, b2n isFresh, if isFresh then 0 else q'.resend] s

/-- LOCK_LOST, or more than 64 uncorrectable codewords in 65,536: fast training (R288). How many were uncorrectable the model
leaves free (log 13). -/
def execLockLost (p : Nat) : State → Host.Outcome State Fault Refusal :=
  onPort p (fun q => q.st == .up) fun _ s =>
    let (v, s) := draw s
    toTraining true p (modPortCtr p (fun c => { c with fecUncorr := add32 c.fecUncorr v }) s)

/-- RETRAIN of the partner (R288). -/
def execRetrain (p : Nat) : State → Host.Outcome State Fault Refusal :=
  onPort p (fun q => q.st == .up) fun _ s => toTraining true p s

/-! ### Lanes (R278) -/

/-- Lane 8 can take a data lane. -/
def spareFree (q : Port) : Bool := q.swapped == 15 && !(q.lctl.any fun c => c.op == 2) && !q.failedLanes.contains 8

/-- LANE_FAIL: the first data lane moves to lane 8, a second failure retrains at width 4. -/
def execLaneFail (p lane codeword : Nat) : State → Host.Outcome State Fault Refusal :=
  onPort p (fun q => q.st == .up && decide (lane ≤ 8) && !q.failedLanes.contains lane) fun q s =>
    let s := modPort p (fun q => { q with failedLanes := q.failedLanes ++ [lane], codewords := codeword % 2 ^ 32 }) s
    if lane < 8 ∧ spareFree q = true then
      modPort p (fun q => { q with lctl := q.lctl ++ [⟨2, lane, (codeword + 1024) % 2 ^ 32, none⟩] }) s
    else if lane = 8 ∧ q.failedLanes = [] then s
    else toTraining true p (sendRetrain p s)

/-- LANE_SWAP of the partner: acknowledged, and in effect from the codeword on. -/
def execLaneSwap (p lane codeword : Nat) : State → Host.Outcome State Fault Refusal :=
  onPort p (fun q => q.st == .up && decide (lane < 8) && (q.txSwap.isNone || q.txSwap == some (lane, codeword))) fun q s =>
    let s := modPort p (fun q => { q with txSwap := some (lane, codeword), lctl := q.lctl ++ [⟨3, lane, codeword, none⟩] }) s
    if q.txSwap.isNone then emit 0x13 4095 2 p [lane, codeword] s else s

/-- LANE_SWAP_ACK of the partner. -/
def execLaneSwapAck (p lane codeword : Nat) : State → Host.Outcome State Fault Refusal :=
  let mine (c : Lctl) : Bool := c.op == 2 && c.lane == lane && c.codeword == codeword
  onPort p (fun q => q.st == .up && q.lctl.any mine) fun _ s =>
    emit 0x13 4095 2 p [lane, codeword]
      (modPort p (fun q => { q with swapped := lane, lctl := q.lctl.filter fun c => !mine c }) s)

/-- LCTL_RESEND: an operation without its answer is sent again every 1,000 ticks (R282). -/
def execLctlResend (p : Nat) : State → Host.Outcome State Fault Refusal :=
  let due (now : Nat) (c : Lctl) : Bool := match c.sent with
    | some t => decide (t + 1000 ≤ now)
    | none => false
  act fun s => match portOf p s with
    | some q =>
      if s.powered && q.inSvc && (q.st == .up || q.st == .resuming) then
        modPort p (fun q => { q with lctl := q.lctl.map fun c => if due s.now c then { c with sent := none } else c }) s
      else s
    | none => s

/-! ### Replay (R286) -/

/-- Sends every held flit again; after 8 replays without a new ACK the port enters Training. -/
def startReplay (p : Nat) (s : State) : State :=
  let s := modPort p (fun q => { q with resend := q.held.length, replaysNoAck := q.replaysNoAck + 1
                                        ctr := { q.ctr with replays := add32 q.ctr.replays 1 } }) s
  match portOf p s with
  | some q => if 8 ≤ q.replaysNoAck then toTraining true p (sendRetrain p s) else s
  | none => s

/-- REPLAY_TIMEOUT: the oldest held flit has waited since it was last sent (R286). -/
def execReplayTimeout (p : Nat) : State → Host.Outcome State Fault Refusal :=
  act fun s => match portOf p s with
    | some q => match q.held with
      | h :: _ =>
        if s.powered && q.inSvc && q.st == .up && q.resend == 0 && decide (h.sentAt + q.par.replayTimeout ≤ s.now) then startReplay p s else s
      | [] => s
    | none => s

/-- NAK with ACK `a`: a replay, unless one for the same `a` began within REPLAY_HOLDOFF (R286). -/
def takeNak (p a : Nat) (s : State) : State :=
  match portOf p s with
  | some q =>
    let held := match q.nakHold with
      | some (b, t) => b == a && decide (s.now < t + 2000)
      | none => false
    if held || q.held.isEmpty then s
    else startReplay p (modPort p (fun q => { q with nakHold := some (a, s.now) }) s)
  | none => s

/-! ### Messages received (R297 to R300, R305) -/

/-- Virtual channel and permitted body length of an opcode that an agent or holder sends (R300). -/
def rxRule (op len : Nat) : Option (Nat × Bool) :=
  match op with
  | 0x01 => some (0, len == 8)
  | 0x02 => some (0, len == 16)
  | 0x03 => some (0, len == 16)
  | 0x04 => some (0, len == 12)
  | 0x05 => some (0, len == 88)
  | 0x06 => some (0, len == 32)
  | 0x07 => some (0, len == 64)
  | 0x08 => some (0, len == 256)
  | 0x09 => some (0, len == 4)
  | 0x0A => some (0, len == 56)
  | 0x0B => some (0, len == 0)
  | 0x25 => some (1, len == 80)
  | 0x26 => some (1, len == 80)
  | 0x27 => some (1, len == 8)
  | 0x28 => some (1, len == 8)
  | 0x2B => some (1, decide (8 ≤ len) && (len - 8) % 64 == 0 && decide (len ≤ 264))
  | 0x2C => some (1, len == 4)
  | 0x2D => some (1, len == 0)
  | 0x60 => some (3, len == 4112)
  | 0xA0 => some (5, len == 92)
  | 0xA2 => some (5, len == 300)
  | 0xA4 => some (5, len == 4)
  | 0xA5 => some (5, len == 4)
  | 0xA6 => some (5, len == 72)
  | 0xC0 => some (6, len == 4)
  | 0xC2 => some (6, len == 4)
  | _ => none

/-- An IVC is accepted under a key: above the highest, or one of the 1,024 below it not seen before (R299). -/
def takeIvc (ivc : Nat) (w : IvcWin) : Option IvcWin :=
  if w.next ≤ ivc then some ⟨ivc + 1, ivc :: w.seen.filter fun v => decide (ivc ≤ v + 1024)⟩
  else if w.next ≤ ivc + 1025 ∧ w.seen.contains ivc = false then some { w with seen := ivc :: w.seen }
  else none

/-- The bytes of the ASCII strings "GOLHA-K1" and "GOLHA-RK" (R307). -/
def golhaK1 : List Nat := [0x47, 0x4F, 0x4C, 0x48, 0x41, 0x2D, 0x4B, 0x31]
def golhaRk : List Nat := [0x47, 0x4F, 0x4C, 0x48, 0x41, 0x2D, 0x52, 0x4B]

/-- K0 of an admission (R307), from Z of the two keys and T2. -/
def firstKey (x xa t2 : Nat) : Nat := Config.shake512 (golhaK1 ++ bytesLE 56 (Config.x448 x xa) ++ bytesLE 64 t2) % 2 ^ 512

/-- K(g + 1) of K(g) (R307). -/
def nextKey (k : Nat) : Nat := Config.shake512 (golhaRk ++ bytesLE 64 k) % 2 ^ 512

/-- The keys with that of generation `g`, which is derived when it is not there yet (R307). -/
def withKey (g : Nat) (keys : SMap Nat) : SMap Nat :=
  if (smGet g keys).isSome then keys
  else match smGet (g - 1) keys with
    | some k => smSet g (nextKey k) keys
    | none => keys

/-- Keys of generations that neither direction uses any more are erased (R307, R309; log 77). -/
def eraseKeys (a : Assoc) : Assoc :=
  { a with keys := a.keys.filter fun k => decide (min a.gen (if a.old.isSome then a.rxGen - 1 else a.rxGen) ≤ k.1) }

/-- The first message of a new generation has come: the counters before it are accepted for 100,000,000 ticks more (R309). -/
def newGen (now : Nat) (a : Assoc) : Assoc :=
  eraseKeys { a with rxGen := a.rxGen + 1, old := some a.rx, oldUntil := now + 100000000, rx := ⟨0, []⟩, keys := withKey (a.rxGen + 1) a.keys }

/-- The association after a sealed message with a good tag; none when its IVC is refused (R299, R309). -/
def takeSealed (now keygen ivc : Nat) (a : Assoc) : Option Assoc :=
  if keygen = a.rxGen % 2 then (takeIvc ivc a.rx).map fun w => { a with rx := w }
  else match a.old with
    | some o => (takeIvc ivc o).map fun w => { a with old := some w }
    | none =>
      if a.rekeying ∨ a.gen = a.rxGen + 1 then
        let a := newGen now a
        (takeIvc ivc a.rx).map fun w => { a with rx := w }
      else none

/-- Counts a protocol error. -/
def protoErr (p : Nat) : State → State := modPortCtr p fun c => { c with protocol := add32 c.protocol 1 }

/-- Counts a message of a stranger that is discarded (R305). -/
def dropStranger (p : Nat) : State → State := modPortCtr p fun c => { c with strangerDrop := add32 c.strangerDrop 1 }

/-- Trace record of a message received (15 R471). FLIT_RECEIVE does not carry its body: a data record holds free values (log 4). -/
def traceRx (p op vc sid ivc keygen src dst : Nat) (s : State) : State :=
  let r : TraceRec := ⟨2, p, regionFrozen 2 p s, false, sid, op, vc, 0, regionTally 2 p s, 0, ivc % 2 ^ 40, keygen, src, dst⟩
  if s.obs.trace.cfg.data = 1 then
    let (v, s) := draw s
    traceMsg r ((List.range 6).map fun i => v / 2 ^ (32 * i) % 2 ^ 32) s
  else traceMsg r [] s

/-- A HELLO or PROVE that the filter lets in: one with a LEN that its opcode does not allow is discarded and counted (R300). -/
def helloLen (p : Nat) (m : RxMsg) (s : State) : State := if rxRule m.op m.len = some (m.vc, true) then s else protoErr p s

/-- The port die judges a whole message (R275, R293, R299, R300, R305). What an accepted one says is the command of its own
opcode (log 4). -/
def judgeMsg (p : Nat) (m : RxMsg) (s : State) : State :=
  match portOf p s with
  | none => s
  | some q =>
    let hello := !m.sealed && m.vc == 5 && (m.op == 0xA0 || m.op == 0xA2)
    if m.fmt ≠ 1 ∨ 7 ≤ m.vc then protoErr p s
    else match smGet m.src q.assocs with
      | some a =>
        if a.adm ≠ .admitted then (if hello && m.dst == q.par.portAid then helloLen p m s else dropStranger p s)
        else if m.dst ≠ q.par.portAid then protoErr p s
        else if m.sealed then
          match if m.tagOk then takeSealed s.now m.keygen m.ivc a else none with
          | none => modPortCtr p (fun c => { c with authFail := add32 c.authFail 1 }) s
          | some a' =>
            let s := modAssoc p m.src (fun _ => a') s
            if rxRule m.op m.len = some (m.vc, true) ∧ m.op ≠ 0xA0 ∧ m.op ≠ 0xA2 then
              traceRx p m.op m.vc a.sid m.ivc m.keygen m.src m.dst s
            else protoErr p s
        else if hello && rxRule m.op m.len == some (m.vc, true) then s else protoErr p s
      | none => if hello && m.dst == q.par.portAid then helloLen p m s else dropStranger p s

/-- A message in a SEQ flit: its header takes credits when it begins; once whole it is judged, and its space is free again unless
no plane takes input (R292, R296). -/
def rxTake (p : Nat) (m : RxMsg) (s : State) : State :=
  let slots (f : List Nat → List Nat) (n : Nat → Nat) : List Nat → List Nat := fun l => f (bump (crIdx m.vc 0) (n 0) (bump (crIdx m.vc 1) (n 1) l))
  let n (k : Nat) : Nat := if k = 0 then 1 else ceilDiv m.len 64
  let first := ((portOf p s).map (·.rxPart.isEmpty)).getD true
  let s := if first && decide (m.vc < 7) then modPort p (fun q => { q with usedRx := slots id n q.usedRx }) s else s
  if m.last = false then modPort p (fun q => { q with rxPart := [m] }) s
  else
    let s := judgeMsg p m (modPort p (fun q => { q with rxPart := [] }) s)
    if s.holds && decide (m.vc < 7) then modPort p (fun q => { q with rxOcc := slots id n q.rxOcc }) s else s

/-- FLIT_RECEIVE (R277, R281, R284, R285): discarded and counted, or its ACK, NAK and credit taken; the next SEQ flit is
accepted. What the FEC corrected the model leaves free (log 13). -/
def execFlitReceive (p : Nat) (f : RxFlit) : State → Host.Outcome State Fault Refusal :=
  onPort p (fun q => q.st == .up) fun q s =>
    let (v, s) := draw s
    let s := modPortCtr p (fun c => { c with fecCorr := add32 c.fecCorr v }) s
    if f.crcOk = false ∨ f.fmt ≠ 1 ∨ f.ftype = 0 ∨ 3 < f.ftype ∨ f.trainNo ≠ q.trainNo then
      modPort p (fun q => { q with nakSent := true, ctr := { q.ctr with crcFail := add32 q.ctr.crcFail 1 } }) s
    else
      let s := modPort p (takeAck f.ack) s
      let s := if f.nak then takeNak p f.ack s else s
      let s := if f.cv ∧ f.cvc < 7 then modPort p (fun q => { q with grantedTx := q.grantedTx.set (crIdx f.cvc (f.ck % 2)) (f.ccount % 2 ^ 32) }) s
        else s
      if f.ftype ≠ 1 then s
      else
        let d := (f.seq + 4096 - q.rxE) % 4096
        if d = 0 then
          let s := modPort p (fun q => { q with rxE := (q.rxE + 1) % 4096, nakSent := false }) s
          regrant p (f.msgs.foldl (fun s m => rxTake p m s) s)
        else if d < 2048 then modPort p (fun q => { q with nakSent := true }) s
        else s

/-! ### Sending (R280, R285, R286, R293; 09 R323, R327, R329, R331) -/

/-- SID of the agent that a message goes to. -/
def msgSid (p : Nat) (x : TxItem) (s : State) : Nat := sidOf p x.msg.dst s

/-- The schedule of a port lets a message start now (09 R327, R329): its own RETURN entry for a sagger that is served in slots, any
other entry for the rest, and none in an entry's last GUARD ticks. -/
def gateTx (p : Nat) (x : TxItem) (s : State) : Bool :=
  let sid := msgSid p x s
  match (portOf p s).bind (·.gate) with
  | none => true
  | some g => match g.entries[g.cur]? with
    | none => true
    | some e =>
      let open_ := decide (s.now + g.guard < g.curAt + e.duration)
      if e.kind == 2 then open_ && e.sid == sid && slotServed p sid s && decide (x.due ≤ g.curAt) && decide (x.built ≤ g.curAt)
      else open_ && !slotServed p sid s

/-- Order of service of what the gate lets through (09 R323, R329): answers of slots in the order of admission, else class, then
deadline. -/
def txBefore (slot : Bool) (a b : TxItem) : Bool :=
  if slot then decide (a.ord < b.ord)
  else decide (a.cls < b.cls) || (a.cls == b.cls && decide (4 ≤ a.cls) && decide (a.deadline < b.deadline))

/-- Place in the queue of the message that a port sends next. -/
def nextMsg (p : Nat) (s : State) : Option Nat :=
  match portOf p s with
  | none => none
  | some q =>
    let ok (i : Nat) : Bool := match q.txq[i]? with
      | some x => creditFor q x && gateTx p x s
      | none => false
    let before (i j : Nat) : Bool := match q.txq[i]?, q.txq[j]? with
      | some x, some y => txBefore (slotServed p (msgSid p x s) s) x y
      | _, _ => false
    ((List.range q.txq.length).filter ok).foldl (fun b i => match b with
      | none => some i
      | some j => if before i j then some i else some j) none

/-- Why a message that was built at `built` left late, where the reason lies outside its sagger (09 R337, R338; log 52): a gap or contact
pause since, a retraining of the port since, entries of other sealed saggers in its schedule, messages of other saggers before it. -/
def lateReason (p sid built cls : Nat) (s : State) : Option Nat :=
  if s.twin.pauseLen ≠ 0 ∧ built < s.twin.pauseEnd then some s.twin.pauseWhy
  else match portOf p s with
    | none => none
    | some q =>
      if built ≤ q.trainAt then some 3
      else if (q.gate.map fun g => g.entries.any fun e => e.kind != 0 && e.sid != sid).getD false then some 1
      else if q.txq.any fun y => decide (y.cls ≤ cls) && sidOf p y.msg.dst s != sid then some 2
      else none

/-- An answer that was not ready when the RETURN entry that it was due in began counts (09 R329). One that leaves after that entry, by a pause
or a retraining of the port, is a breach (09 R337). -/
def noteLate (p : Nat) (x : TxItem) (s : State) : State :=
  let sid := msgSid p x s
  if x.due = 0 ∨ slotServed p sid s = false then s
  else
    let s := if x.due < x.built then countLate sid s else s
    let cur := (((portOf p s).bind (·.gate)).map (·.curAt)).getD 0
    if cur ≤ x.due then s
    else if s.twin.pauseLen ≠ 0 ∧ x.due < s.twin.pauseEnd ∧ x.built ≤ x.due + s.twin.pauseLen then noteBreach sid 4 s.twin.pauseWhy p 1 (s.now - x.due) s
    else if ((portOf p s).map fun q => decide (x.built ≤ q.trainAt)).getD false then noteBreach sid 4 3 p 1 (s.now - x.due) s
    else s

/-- An answer of a sagger that is not served in slots leaves: a charge that waited more than COMMIT_WAIT at the transmitter, and an answer
after its deadline, are breaches where the reason lies outside the sagger (09 R337). -/
def noteSlow (p : Nat) (x : TxItem) (s : State) : State :=
  let sid := msgSid p x s
  match sagOf' sid s with
  | none => s
  | some g =>
    if x.vc ≠ 1 ∨ slotServed p sid s = true then s
    else match lateReason p sid x.built x.cls s with
      | none => s
      | some why =>
        let peak := (meterAdmit g.f g.par.fCrate g.par.fCburst g.par.fPrate g.par.fPburst s.now 0).2.p
        let s :=
          if s.now ≤ x.built + s.sags.shape.commitWait then s
          else if x.cls = 4 then noteBreach sid 5 why p 1 x.cost s
          else if x.cls = 5 ∧ 0 ≤ peak then noteBreach sid 7 why p 1 x.cost s
          else s
        if g.par.latTarget ≠ 0 ∧ x.deadline < s.now then noteBreach sid 8 why p 0 (s.now - x.deadline) s else s
where
  /-- Entry of a SID. -/
  sagOf' (sid : Nat) (s : State) : Option Sagger := smGet sid s.sags.tab

/-- Takes messages for a SEQ flit with `room` payload bytes left: those that start in it, and the bytes of the last one that go
over. A message whose admission has ended is discarded and counted (R298). -/
def packFlit (p : Nat) : Nat → Nat → List OutMsg → State → List OutMsg × State
  | 0, _, l, s => (l, s)
  | n + 1, room, l, s =>
    if room = 0 then (l, s)
    else match nextMsg p s with
      | none => (l, s)
      | some i => match (portOf p s).bind fun q => q.txq[i]? with
        | none => (l, s)
        | some x =>
          let s := modPort p (fun q => { q with txq := q.txq.eraseIdx i }) s
          if plainMsg x.msg = false ∧ admitted p x.msg.dst s = false then
            packFlit p n room l (modPortCtr p (fun c => { c with undelivered := add32 c.undelivered 1 }) s)
          else
            let w := wireLen x.msg
            let s := noteSlow p x (noteLate p x s)
            let s := modPort p (fun q => { q with
              usedTx := bump (crIdx x.vc 0) 1 (bump (crIdx x.vc 1) (ceilDiv (bodyLen x.msg) 64) q.usedTx), txLeft := w - room }) s
            let ivc := ((assocOf p x.msg.dst s).map (·.txIvc)).getD 0
            let gen := ((assocOf p x.msg.dst s).map (·.gen)).getD 0
            let s := if plainMsg x.msg then s else modAssoc p x.msg.dst (fun a => { a with txIvc := a.txIvc + 1 }) s
            let s := traceMsg ⟨3, p, regionFrozen 2 p s, false, sidOf p x.msg.dst s, x.msg.op, x.vc, x.msg.tag, regionTally 2 p s, 0, ivc % 2 ^ 40, gen % 2,
              ((portOf p s).map (·.par.portAid)).getD 0, x.msg.dst⟩ (msgBody s.dir.handleKey x.msg) s
            packFlit p n (room - w) (l ++ [x.msg]) s

/-- The counter whose credit the next flit carries (R293): one not sent for 18 flits, else a changed one, else the one not sent for
longest; so each goes out at least once in 32 flits. -/
def creditNext (q : Port) : Nat :=
  let age (i : Nat) : Nat := q.flits - q.crAt.getD i 0
  let oldest (l : List Nat) : Option Nat := l.foldl (fun b i => match b with
    | none => some i
    | some j => if age j < age i then some i else some j) none
  let changed := (List.range 14).filter fun i => q.grantedRx.getD i 0 != q.crSent.getD i 0
  let all := oldest (List.range 14)
  match all with
  | some i => if 18 ≤ age i then i else (oldest changed).getD i
  | none => 0

/-- Sends one flit: notes it, and the credit counter it carries. -/
def putFlit (p ftype seq cont : Nat) (msgs : List OutMsg) (ctl : Option (Lctl × Bool × Nat × List Nat)) (s : State) : State :=
  match portOf p s with
  | none => s
  | some q =>
    let i := creditNext q
    let f : TxFlit := ⟨p, ftype, seq, (q.rxE + 4095) % 4096, q.nakSent, i / 2, i % 2, q.grantedRx.getD i 0, q.trainNo, cont, msgs, ctl⟩
    modPort p (fun q => { q with flits := q.flits + 1, crAt := q.crAt.set i (q.flits + 1), crSent := q.crSent.set i (q.grantedRx.getD i 0)
                                 sinceIdle := if ftype = 2 then 0 else q.sinceIdle + 1 }) { s with fabOut := s.fabOut ++ [f] }

/-- The first LCTL operation to send: it is noted as sent; an acknowledgement needs no answer. -/
def sendLctl (p : Nat) (c : Lctl) (s : State) : State :=
  match portOf p s with
  | none => s
  | some q =>
    let sent := { c with sent := some s.now }
    let rest := q.lctl.erase c
    let s := putFlit p 3 0 0 [] (some (sent, q.fresh, (q.rxE + 4095) % 4096, q.grantedRx)) s
    modPort p (fun q => { q with lctl := if c.op = 3 then rest else rest ++ [sent] }) s

/-- FLIT_SEND (R279, R280, R283, R286; 09 R323): an IDLE that is due first, then link control, then replays, then a SEQ flit with what may
be sent, else an IDLE. -/
def execFlitSend (p : Nat) : State → Host.Outcome State Fault Refusal :=
  onPort p (fun q => q.st == .up || q.st == .resuming) fun q s =>
    if 4095 ≤ q.sinceIdle then putFlit p 2 0 0 [] none s
    else match q.lctl.find? (·.sent.isNone) with
    | some c => sendLctl p c s
    | none =>
      if q.st ≠ .up then putFlit p 2 0 0 [] none s
      else if q.resend ≠ 0 then
        match q.held[q.held.length - q.resend]? with
        | none => modPort p (fun q => { q with resend := 0 }) s
        | some h =>
          let i := q.held.length - q.resend
          putFlit p 1 h.seq h.cont h.msgs none
            (modPort p (fun q => { q with resend := q.resend - 1, held := q.held.modify i fun h => { h with sentAt := s.now } }) s)
      else if 1024 ≤ q.held.length then putFlit p 2 0 0 [] none s
      else
        let cont := min q.txLeft 238
        let s := modPort p (fun q => { q with txLeft := q.txLeft - cont }) s
        let (msgs, s) := if q.txLeft ≤ 238 then packFlit p 16 (238 - cont) [] s else ([], s)
        if cont = 0 ∧ msgs = [] then putFlit p 2 0 0 [] none s
        else
          putFlit p 1 q.txSeq cont msgs none
            (modPort p (fun q => { q with txSeq := (q.txSeq + 1) % 4096, held := q.held ++ [⟨q.txSeq, s.now, cont, msgs⟩] }) s)

/-! ### Admission (R305 to R309) -/

/-- A stranger's association. -/
def freshAssoc (allow : Option Nat) : Assoc :=
  ⟨.stranger, allow, 4095, 0, 0, 0, ⟨0, []⟩, none, 0, false, false, 0, 0, 0, 0, none, []⟩

/-- Ends an AID's admission on a port: keys erased; its tags that are held back are free (R308, R311). -/
def endAdmission (p aid : Nat) (s : State) : State :=
  let s := modAssoc p aid (fun a => freshAssoc a.allow) s
  { s with outst := s.outst.filter fun o => !(o.port == p && o.aid == aid && o.lost) }

/-- Time that a stranger's message takes at STRANGER_RATE (R305, log 37). -/
def strangerTicks (bytes : Nat) (q : Port) : Nat := ceilDiv (bytes * 1000) (max 1 q.par.strangerRate)

/-- An ADMIT message arrives (R305): strangers only to the port's AID and at STRANGER_RATE. -/
def arriveAdmit (m : Mhd) (i : Instr) (bytes : Nat) (serve : Port → Assoc → State → State) (s : State) : State :=
  match portOf m.port s with
  | none => s
  | some q =>
    if !s.powered || !q.inSvc || q.st == .down then s
    else
      let a := (smGet m.src q.assocs).getD (freshAssoc none)
      if m.dst ≠ q.par.portAid then (if a.adm = .admitted then protoErr m.port s else dropStranger m.port s)
      else if m.resv then protoErr m.port s
      else if s.holds then { s with twin.rxWait := s.twin.rxWait ++ [i] }
      else if a.adm = .admitted then serve q a s
      else if s.now < q.strangerAt then dropStranger m.port s
      else serve q a (modPort m.port (fun q => { q with strangerAt := s.now + strangerTicks bytes q }) s)

/-- Stores the association of an AID on a port. -/
def setAssoc (p aid : Nat) (a : Assoc) : State → State := modPort p fun q => { q with assocs := smSet aid a q.assocs }

/-- Unsealed ADMIT_RESULT NOT_ADMITTED. -/
def notAdmitted (m : Mhd) : State → State := sendOn m.port true ⟨0xA3, m.src, m.tag, m.tgen, stNOTADMITTED, 0, [4095], none, none⟩

/-- An Ed448 private key (12 R414): the first 57 bytes of SHAKE256 of a byte sequence. -/
def edKey (bytes : List Nat) : Nat := Config.shake512 bytes % 2 ^ 456

/-- The identity private key of port `p`: H("J9P-PORT" ‖ alias private key ‖ p), with p as one byte (12 R414; log 77). -/
def portIdKey (alias_ p : Nat) : Nat := edKey ([0x4A, 0x39, 0x50, 0x2D, 0x50, 0x4F, 0x52, 0x54] ++ bytesLE 57 alias_ ++ [p])

/-- The Ed448 public key of a private key, 57 bytes; 0 where there is none. -/
def edPublic (k : Option Nat) : Nat := ((k.map Config.ed448Public).getD 0) % 2 ^ 456

/-- An Ed448 signature, 114 bytes; 0 where there is no key. -/
def edSign (k : Option Nat) (msg : Nat) : Nat := ((k.map fun k => Config.ed448Sign k msg).getD 0) % 2 ^ 912

/-- The identity key in a port's key store. -/
def storedKey (p : Nat) (s : State) : Option Nat := (portOf p s).bind (·.idKey)

/-- The body of an ADMIT_REPLY up to SIGJ (R306): NONCE_J, XJ, IDJ. -/
def replyHead (idj nonce x : Nat) : List Nat := natWords 8 nonce ++ natWords 14 (Config.x448Public x % 2 ^ 448) ++ natWords 15 idj

/-- T1 of a handshake (R306; log 77): the HELLO's body, then the REPLY's up to SIGJ. -/
def transcript1 (idj nonceA xa versions nonce x : Nat) : Nat :=
  Config.shake512 (bytesLE 32 nonceA ++ bytesLE 56 xa ++ bytesLE 4 versions ++ leBytes (replyHead idj nonce x)) % 2 ^ 512

/-- T2 (R306): T1, then the PROVE's body up to SIGA. -/
def transcript2 (t1 ida certEpoch keyslot certSig : Nat) : Nat :=
  Config.shake512 (bytesLE 64 t1 ++ bytesLE 60 (ida % 2 ^ 456) ++ bytesLE 4 certEpoch ++ bytesLE 4 keyslot ++ bytesLE 116 (certSig % 2 ^ 912)) % 2 ^ 512

/-- Draws the X448 key pair and the nonce of a REPLY (R306, R307) and sends it; the handshake keeps what K0 needs. -/
def answerHello (m : Mhd) (nonceA xa versions : Nat) (a : Assoc) (s : State) : State :=
  let (v, s) := draw s
  let (w, s) := draw s
  let x := v % 2 ^ 448
  let nonce := w % 2 ^ 256
  let idj := edPublic (storedKey m.port s)
  let t1 := transcript1 idj nonceA xa versions nonce x
  let body := replyHead idj nonce x ++ natWords 29 (edSign (storedKey m.port s) t1)
  sendOn m.port true ⟨0xA1, m.src, m.tag, m.tgen, 0, 0, body, none, none⟩
    (modPort m.port (fun q => { q with assocs := smSet m.src { a with replyAt := s.now, hand := some (x, xa, t1) } q.assocs }) s)

/-- ADMIT_HELLO (R308). Without fresh randomness there is no key pair to answer with (12 R404). -/
def serveHello (m : Mhd) (nonceA xa versions : Nat) (q : Port) (a : Assoc) (s : State) : State :=
  let slots := (q.assocs.filter fun x => x.2.adm == .replied && x.1 != m.src).length
  if a.adm = .admitted then
    if s.pen.rngFail then notAdmitted m s else answerHello m nonceA xa versions { a with hello := true } s
  else if a.allow.isSome ∧ bitOf versions 1 = true ∧ slots < 64 ∧ s.pen.rngFail = false then
    answerHello m nonceA xa versions { a with adm := .replied } s
  else notAdmitted m (dropStranger m.port s)

/-- ADMIT_HELLO (R308). -/
def execAdmitHello (m : Mhd) (h : HelloBody) : State → Host.Outcome State Fault Refusal :=
  act (arriveAdmit m (.admitHello m h) 108 (serveHello m h.nonceA h.xa h.versions))

/-- The operator fabric key of a slot is installed (12 R409). -/
def fabricKey (slot : Nat) (s : State) : Bool :=
  decide (slot < 4) && match (s.pen.otp.slots[s.pen.inForce - 1]?).join with
    | some g => s.pen.inForce != 0 && bitOf g.fabricValid slot
    | none => false

/-- Why a PROVE fails, 0 when it does not: 1 key slot, 2 CERT_SIG, 3 CERT_EPOCH, 4 SIGA (R308, 15 R470). -/
def proveFault (keyslot certEpoch : Nat) (certSigOk sigAOk : Bool) (q : Port) (s : State) : Nat :=
  if fabricKey keyslot s = false then 1
  else if certSigOk = false then 2
  else if certEpoch < q.par.certEpochMin then 3
  else if sigAOk = false then 4 else 0

/-- ADMIT_PROVE (R307, R308): the keys of generation 0 come from the handshake's key pair, which is erased with Z. -/
def serveProve (m : Mhd) (ida certSig keyslot certEpoch : Nat) (certSigOk sigAOk : Bool) (q : Port) (a : Assoc) (s : State) : State :=
  let waits := a.adm == .replied || (a.adm == .admitted && a.hello)
  if !waits then dropStranger m.port s
  else
    let f := proveFault keyslot certEpoch certSigOk sigAOk q s
    if f = 0 then
      let sid := a.allow.getD 4095
      let keys : SMap Nat := match a.hand with
        | some (x, xa, t1) => [(0, firstKey x xa (transcript2 t1 ida certEpoch keyslot certSig))]
        | none => []
      let s := setAssoc m.port m.src { freshAssoc a.allow with adm := .admitted, sid := sid, admAt := s.now, certEpoch := certEpoch, keyslot := keyslot, keys := keys } s
      emit 0x15 sid 2 m.port [m.src, certEpoch, keyslot]
        (sendOn m.port false ⟨0xA3, m.src, m.tag, m.tgen, stOK, 0, [sid], none, none⟩ s)
    else
      let s := setAssoc m.port m.src (if a.adm = .admitted then { a with hello := false, hand := none } else freshAssoc a.allow) s
      emit 0x16 4095 2 m.port [m.src, f] (notAdmitted m s)

/-- ADMIT_PROVE (R308). -/
def execAdmitProve (m : Mhd) (w : ProveId) (certEpoch : Nat) (certSigOk sigAOk : Bool) : State → Host.Outcome State Fault Refusal :=
  act (arriveAdmit m (.admitProve m w certEpoch certSigOk sigAOk) 316 (serveProve m w.ida w.certSig w.keyslot certEpoch certSigOk sigAOk))

/-- ADMIT_TIMEOUT: 100,000,000 ticks without PROVE (R308). -/
def execAdmitTimeout (p aid : Nat) : State → Host.Outcome State Fault Refusal :=
  act fun s => match assocOf p aid s with
    | some a =>
      if s.powered = true ∧ a.replyAt + 100000000 ≤ s.now then
        if a.adm = .replied then modAssoc p aid (fun a => freshAssoc a.allow) s
        else if a.adm = .admitted ∧ a.hello = true then modAssoc p aid (fun a => { a with hello := false, hand := none }) s
        else s
      else s
    | none => s

/-! ### Rekeying (R309) -/

/-- Sends REKEY with the next generation under the present one. -/
def startRekey (p aid : Nat) (s : State) : State :=
  match assocOf p aid s with
  | some a =>
    if a.adm = .admitted ∧ a.rekeying = false then
      sendWords p 0xA4 aid 0 0 0 [a.gen + 1] (modAssoc p aid (fun a => { a with rekeying := true }) s)
    else s
  | none => s

/-- The transmitter switches to the next generation: its IVC starts at 0 (R307, R309). -/
def switchTx (p aid : Nat) : State → State :=
  modAssoc p aid fun a => eraseKeys { a with gen := a.gen + 1, txIvc := 0, rekeying := false, keys := withKey (a.gen + 1) a.keys }

/-- REKEY of the partner: the transmitter switches; REKEY_ACK under the new generation, unless the J9P has sent a REKEY for it
itself. -/
def execRekey (m : Mhd) (gen : Nat) : State → Host.Outcome State Fault Refusal :=
  act (arrive m (.rekey m gen) fun _ s =>
    if m.resv then protoErr m.port s
    else match assocOf m.port m.src s with
      | some a =>
        if gen ≠ a.gen + 1 then protoErr m.port s
        else
          let s' := switchTx m.port m.src s
          if a.rekeying then s' else sendWords m.port 0xA5 m.src m.tag m.tgen 0 [gen] s'
      | none => s)

/-- REKEY_ACK: the initiator's transmitter switches. -/
def execRekeyAck (m : Mhd) (gen : Nat) : State → Host.Outcome State Fault Refusal :=
  act (arrive m (.rekeyAck m gen) fun _ s =>
    if m.resv then protoErr m.port s
    else match assocOf m.port m.src s with
      | some a =>
        if a.rekeying = false ∨ gen ≠ a.gen + 1 then protoErr m.port s
        else
          let s := switchTx m.port m.src s
          if a.rxGen < gen then modAssoc m.port m.src (newGen s.now) s else s
      | none => s)

/-- IVC_LIMIT: a transmit IVC has reached 2^47. -/
def execIvcLimit (p aid : Nat) : State → Host.Outcome State Fault Refusal :=
  act fun s => match assocOf p aid s with
    | some a => if s.alive = true ∧ 2 ^ 47 ≤ a.txIvc then startRekey p aid s else s
    | none => s

/-- REKEY_WINDOW_END: the old generation is no longer accepted. -/
def execRekeyWindowEnd (p aid : Nat) : State → Host.Outcome State Fault Refusal :=
  act fun s => match assocOf p aid s with
    | some a => if a.old.isSome ∧ a.oldUntil ≤ s.now then modAssoc p aid (fun a => eraseKeys { a with old := none, oldUntil := 0 }) s else s
    | none => s

/-! ### Port commands (R313) -/

/-- PORT_CONFIG's values lie in their ranges. -/
def portRanges (c : PortParams) : Bool :=
  decide (c.port < 16) && decide (c.portAid ≤ 2047) && decide (1000000 ≤ c.completionTimeout) && decide (c.completionTimeout ≤ 10000000000)
    && decide (2000 ≤ c.replayTimeout) && decide (c.replayTimeout ≤ 1000000) && decide (1000 ≤ c.laneLimit) && decide (c.laneLimit ≤ 10000000)
    && decide (1 ≤ c.strangerRate) && decide (c.strangerRate ≤ 1000)

/-- Another enabled port has the AID (log 38). -/
def aidTaken (c : PortParams) (s : State) : Bool :=
  (List.range 16).any fun p => p != c.port && match portOf p s with
    | some q => q.par.enable == 1 && q.par.portAid == c.portAid
    | none => false

/-- PORT_CONFIG (R288, R313): a port that is disabled goes Down with its held flits kept; one that is enabled gets its identity key (12
R414). -/
def execPortConfig (r : Nat) (c : PortParams) : State → Host.Outcome State Fault Refusal :=
  cmd r 0x70 (fun _ s => [chkResv (decide (2 ≤ c.enable) || decide (2 ^ 32 ≤ c.certEpochMin)), chkDeny (!portRanges c),
    chkExec (aidTaken c s) stCONFLICT]) fun s =>
    ok r [] (modPort c.port (fun q =>
      let q := { q with par := c, idKey := if c.enable = 1 ∧ q.inSvc = true then s.pen.aliasKey.map fun k => portIdKey k c.port else q.idKey }
      if c.enable = 0 ∧ q.st ≠ .down then { q with st := .down, downAt := s.now, retryAt := none, lctl := [], resend := 0 } else q) s)

/-- Another port of the list has the AID under a condition. -/
def onOther (p aid : Nat) (f : Assoc → Bool) (s : State) : Nat :=
  ((List.range 16).filter fun i => i != p && match assocOf i aid s with
    | some a => f a
    | none => false).length

/-- AID_ALLOW (R313, R308; log 39). -/
def execAidAllow (r port aid sid : Nat) : State → Host.Outcome State Fault Refusal :=
  cmd r 0x71 (fun _ s =>
    let other (a : Assoc) : Bool := a.adm == .admitted && a.sid != sid
    [chkDeny (s.pen.otp.lc != 2 || decide (16 ≤ port) || decide (2048 ≤ aid) || sid == 0 || decide (4095 < sid)
       || (sid != 4095 && sagState sid s != .active)),
     chkExec (sid != 4095 && (((assocOf port aid s).map other).getD false || decide (1 ≤ onOther port aid other s)
        || decide (2 ≤ onOther port aid (fun a => a.allow.isSome) s))) stCONFLICT]) fun s =>
    if sid = 4095 then ok r [] (modAssoc port aid (fun a => { a with allow := none }) (endAdmission port aid s))
    else ok r [] (setAssoc port aid { (assocOf port aid s).getD (freshAssoc none) with allow := some sid } s)

/-- PORT_RESET (R288, R289): Training for an enabled port, FRESH in its next RESUME when asked (log 40). -/
def execPortReset (r port mode : Nat) : State → Host.Outcome State Fault Refusal :=
  cmd r 0x72 (fun _ _ => [chkResv (decide (2 ≤ mode)), chkDeny (decide (16 ≤ port))]) fun s =>
    let s' := if mode = 1 then modPort port (fun q => { q with fresh := true }) s else s
    ok r [] (if ((portOf port s).map portOn).getD false then toTraining false port s' else s')

/-- SA_REKEY (R309, R313). -/
def execSaRekey (r port aid : Nat) : State → Host.Outcome State Fault Refusal :=
  cmd r 0x73 (fun _ s => [chkDeny (!admitted port aid s)]) fun s => ok r [] (startRekey port aid s)

/-- PORT_READ (10 R369). -/
def execPortRead (r port aid : Nat) : State → Host.Outcome State Fault Refusal :=
  cmd r 0x74 (fun _ _ => [chkDeny (decide (16 ≤ port) || decide (2048 ≤ aid))]) fun s =>
    let a := (assocOf port aid s).getD (freshAssoc none)
    let st := match a.adm with
      | .stranger => 0
      | .replied => 1
      | .admitted => 2
    ok r ([st, if a.adm = .admitted then a.sid else 4095, a.gen, 0] ++ w64 a.txIvc ++ w64 (a.rx.next - 1)) s

/-- AID_DETACH (R308). -/
def execAidDetach (r port aid : Nat) : State → Host.Outcome State Fault Refusal :=
  cmd r 0x75 (fun _ _ => [chkDeny (decide (16 ≤ port) || decide (2048 ≤ aid))]) fun s => ok r [] (endAdmission port aid s)

/-! ### Loss of a port (11 R396, R398) -/

/-- Header of a message command. -/
def msgMhd (i : Instr) : Option Mhd :=
  match i with
  | .writeback m _ _ _ _ => some m
  | .rspData m _ _ _ => some m
  | .rspClean m _ => some m
  | .rspGone m _ => some m
  | .fenceAck m => some m
  | .hdata m _ _ => some m
  | .hdone m _ => some m
  | .join m _ => some m
  | .pulse m _ => some m
  | .regionPublish m _ => some m
  | .admitHello m _ => some m
  | .admitProve m _ _ _ _ => some m
  | .rekey m _ => some m
  | .rekeyAck m _ => some m
  | i => cmdMhd i

/-- Messages of the port that the hub had not taken. -/
def untaken (p : Nat) (s : State) : Nat :=
  (s.twin.rxWait.filter fun i => (msgMhd i).any fun m => m.port == p).length
    + (s.sags.tab.flatMap fun g => g.2.waiting.filter fun w => w.port == p).length

/-- A port die leaves service: what it held is lost and counted, admissions on it are erased, leases that came through it end with
cause 3, PORT_LOST is written (R398). -/
def losePort (p cause : Nat) (s : State) : State :=
  let n := untaken p s
  let s := modPort p (fun q => { q with
    inSvc := false, outCause := cause, st := .down, downAt := s.now, idKey := none, lctl := [], held := [], txq := [], rxOcc := List.replicate 16 0
    assocs := q.assocs.map fun (a : Nat × Assoc) => (a.1, freshAssoc a.2.allow)
    ctr := { q.ctr with undelivered := add32 q.ctr.undelivered q.txq.length, lostInbound := add32 q.ctr.lostInbound n } }) s
  let s := { s with
    twin.rxWait := s.twin.rxWait.filter fun i => !((msgMhd i).any fun m => m.port == p)
    sags.tab := s.sags.tab.map fun (g : Nat × Sagger) => (g.1, { g.2 with waiting := g.2.waiting.filter fun w => w.port != p })
    outst := s.outst.filter fun o => !(o.port == p && o.lost) }
  let s := emit 0x14 4095 2 p [cause] s
  (s.dir.agents.filter fun a => a.2.port == p && a.2.kind != 0 && !a.2.lapsed).foldl (fun s a => leaseEnd a.1 3 s) s

/-- PORT_LOST: the port's link, power stage, temperature or replay buffer fails (R396). -/
def execPortLost (p cause : Nat) : State → Host.Outcome State Fault Refusal :=
  onPort p (fun _ => decide (1 ≤ cause) && decide (cause ≤ 4)) fun _ s => losePort p cause s

end Sys2Proof.Machine
end

