-- ==== Sys2Proof/Machine/Twin.lean ====
section
/-! DEFINITION. Losses (03 R118, R120; 11 R396 to R398), memory training and the wedge pass (03 R89, R105), and the twin
control planes (11 R382 to R395, R399). -/

namespace Sys2Proof.Machine

/-! ### Module Fatal (11 R399) -/

/-- The module becomes Fatal: the gates hold for good, ports go Down, the board controller is told; without
its timebase the tally stops (R399). -/
def goFatal (cause : Nat) (s : State) : State :=
  if s.twin.mode = .fatal then s
  else
    let ports := s.ports.map fun (q : Port) => { q with st := .down, downAt := s.now }
    let s := { s with twin.mode := .fatal, twin.fatalCause := cause, twin.gap := none, ports := ports, side.fatalN := false
                      glb.resetDue := none, glb.selfRefresh := true, tal.running := s.tal.running && cause != 4, tal.locked := s.tal.locked && cause != 4 }
    ibi 0x01 (disarm s)

/-- FATAL: the crossbar (3), the tally timebase (4) or Peneno (5) fails (R399). -/
def execFatal (cause : Nat) : State → Host.Outcome State Fault Refusal :=
  act fun s => if s.glb.hubReset = false ∧ 3 ≤ cause ∧ cause ≤ 5 then goFatal cause s else s

/-! ### Loss of a kiln die or its memory (03 R118, 04 R146, 07 R265, 11 R396, R398) -/

/-- Windows on a lost die become Lost; an open round gets its record with outcome LOST (07 R265). -/
def loseWindows (die : Nat) (s : State) : State :=
  (s.kiln.wins.filter fun w => w.2.blk.die == die && w.2.st != .lost).foldl (fun s w =>
    let s := if w.2.opened then roundRecord w.1 5 0 s else s
    modWin w.1 (fun x => { x with st := .lost, opened := false, accs := [] }) s) s

/-- The memory of a die is lost: DIE_LOST, its lines leave the directory, its presence bits are cleared. -/
def loseMemory (die scope cause : Nat) (s : State) : State :=
  let s := modDie die (fun d => { d with st := if d.st = .absent then .absent else .lost }) s
  let s := emit 0x0A 4095 1 die [scope, cause] s
  let s := loseLines (fun k => isLocal k && lineDie (keyLine k) == die) s
  loseWindows die { s with mem.presence := s.mem.presence.filter fun p => p / 2 ^ 21 != die
                           mem.pendingSppr := s.mem.pendingSppr.filter fun l => lineDie l != die }

/-- A part on a lost die ends without writing more; CAUSES bit 5 marks its firing (11 R398). -/
def loseParts (die : Nat) (f : Firing) (s : State) : State :=
  if f.parts.any (fun p => p.die == die && !p.ended) then
    let s := f.parts.zipIdx.foldl (fun s p => if p.1.die == die && p.1.placed && !p.1.ended then endPart f.fid p.2 s else s) s
    let s := modFiring f.fid (fun f => { f with
      causes := Nat.lor f.causes 32
      parts := f.parts.map fun (p : Part) => if p.die = die then { p with ended := true } else p }) s
    match firingBy f.fid s with
    | some g => if g.parts.all (·.ended) ∧ g.st ≠ .running then stopFiring g.fid stCRAZED s else s
    | none => s
  else s

/-- A whole die is lost: its memory, its shelves and the work on them (11 R396, R398). -/
def loseDie (die cause : Nat) (s : State) : State :=
  let s := loseMemory die 1 cause { s with glb.kilnIn := s.glb.kilnIn &&& ~~~(1#8 <<< die) }
  let s := modKiln die (fun k => { k with queue := [] }) s
  let s := s.kiln.firings.foldl (fun s f => loseParts die f s) s
  starveParts s

/-- The memory of a die is in a state from which it can be lost (03 R120). -/
def memoryUp (die : Nat) (s : State) : Bool := !(dieState die s == .absent || dieState die s == .lost)

/-- DIE_LOST (03 R118, 11 R396): the memory for causes 4 to 6, the whole die for causes 1 to 3. -/
def execDieLost (die : Nat) (whole : Bool) (cause : Nat) : State → Host.Outcome State Fault Refusal :=
  act fun s =>
    if s.powered = false ∨ 8 ≤ die then s
    else if whole then (if s.glb.kilnIn.getLsbD die = true ∧ 1 ≤ cause ∧ cause ≤ 3 then loseDie die cause s else s)
    else if memoryUp die s = true ∧ 4 ≤ cause ∧ cause ≤ 6 then loseMemory die 0 cause s else s

/-! ### Training and the wedge pass (03 R87 to R89, R105; 14 R452) -/

/-- Applies the saved repairs of a die, in item order (14 R452). -/
def applySaved (die : Nat) (s : State) : State :=
  (s.mem.savedSppr.filter (·.1.die == die)).foldl (fun s e => if e.2 then softRepair e.1 s else pprExhausted e.1 s) s

/-- CHANNEL_TRAINED: an attempt ends. Once all six channels are trained at the start, the saved repairs are applied and the wedge
pass begins; a channel that retrains in service just goes on; a third failure loses the memory (R89, R120, 13 R439). -/
def execChannelTrained (die channel : Nat) (ok : Bool) : State → Host.Outcome State Fault Refusal :=
  act fun s => match dieMem die s with
    | none => s
    | some d =>
      if s.powered = false ∨ (d.st ≠ .training ∧ d.st ≠ .inService ∧ d.st ≠ .offline) ∨ 6 ≤ channel ∨ d.trained.getD channel true = true then s
      else if ok then
        let trained := d.trained.set channel true
        let s := modDie die (fun d => { d with trained := trained }) s
        if trained.all id ∧ d.st = .training then { modDie die (fun d => { d with st := .wedging }) (applySaved die s) with glb.step := max s.glb.step 6 } else s
      else
        let n := d.attempts.getD channel 0 + 1
        let s := modDie die (fun d => { d with attempts := d.attempts.set channel n }) s
        if 3 ≤ n then loseMemory die 0 4 s else s

/-- WEDGE_PASS_DONE: every line is in the wedged state, G is 1 and the memory is In service (R105). -/
def execWedgePassDone (die : Nat) : State → Host.Outcome State Fault Refusal :=
  act fun s =>
    if s.powered = false ∨ dieState die s ≠ .wedging then s
    else
      let s := modDie die (fun d => { d with st := .inService, wgen := 1, pos := 0, sweepAt := s.now }) s
      { s with mem := fillPages (die * 2 ^ 21) (diePages die s) none s.mem }

/-! ### Planes (11 R383 to R391) -/

/-- Plane `p`. -/
def planeOf (p : Nat) (s : State) : Option Plane := s.twin.planes[p]?

/-- Changes plane `p`. -/
def modPlane (p : Nat) (f : Plane → Plane) (s : State) : State := { s with twin.planes := s.twin.planes.modify p f }

/-- The plane is in service. -/
def planeIn (p : Nat) (s : State) : Bool :=
  match planeOf p s with
  | some x => x.st == .active || x.st == .standby
  | none => false

/-- The plane is the active one. -/
def planeActive (p : Nat) (s : State) : Bool := ((planeOf p s).map (·.st)) == some .active

/-- Claim of the active plane. -/
def activeClaim (s : State) : Nat := ((s.twin.planes.find? (·.st == .active)).map (·.claim)).getD 0

/-- A contact pause is over: the trace goes on with marker 3, if it was paused (15 R478). -/
def resumeTrace (s : State) : State :=
  if s.obs.contact.resumeTrace ∧ s.obs.trace.st = 3 then
    traceMarker 3 0 (traceState 1 { s with obs.contact.resumeTrace := false })
  else { s with obs.contact.resumeTrace := false }

/-- A twin gap that starts during a contact pause abandons the sheet: CONTACT_DONE with OUTCOME 2 (15 R478). -/
def abandonSheet (s : State) : State :=
  let c := s.obs.contact
  if c.st = 1 then
    let pause := min (s.now - c.tStart) 200000
    let s := resumeTrace { s with obs.contact := { c with st := 0, pause := pause, sections := [], waitUnits := [] } }
    emit 0x27 4095 0 0 ([c.number, 2, 0, pause, 0, 0] ++ w64 c.tStart) s
  else s

/-- A plane leaves service (R387, R388): fenced at every gate; the other raises its claim if it must, and a gap runs.
Without another plane in service the module becomes Fatal. Causes: 1 silence, 2 no pair, 3 divergence, 4 parity, 5 cache. -/
def leavePlane (p cause start : Nat) (s : State) : State :=
  let o := 1 - p
  if !planeIn p s then s
  else if !planeIn o s then goFatal 1 s
  else
    let old := activeClaim s
    let s := if planeActive p s then modPlane o (fun x => { x with st := .active, claim := add32 old 1 }) s else s
    let s := modPlane p (fun x => { x with st := .out, fenced := true, losses := x.losses + 1, testing := true, missed := 0 }) s
    let from_ := match s.twin.gap with
      | some g => g.start
      | none => min start s.now
    let s := abandonSheet s
    { s with twin.gap := some ⟨from_, cause, false, old, p⟩, twin.mode := if s.twin.mode = .starting then .starting else .solo }

/-- PULSE_SEND: a plane in service sends its pulse on both paths every 1,000 ticks (R385). -/
def execPulseSend (plane : Nat) : State → Host.Outcome State Fault Refusal :=
  act fun s =>
    if s.powered && planeIn 0 s && planeIn 1 s && ((planeOf plane s).map fun x => decide (x.pulseAt + 1000 ≤ s.now)).getD false then
      modPlane plane (fun x => { x with pulseAt := s.now }) s
    else s

/-- A pulse path stayed silent in a window: counted, and recorded at most once in 1,000,000,000 ticks (R386). -/
def pathSilent (watcher path : Nat) (s : State) : State :=
  let s := if path = 0 then { s with twin.alarmWire := satAdd 65535 s.twin.alarmWire 1 }
    else { s with twin.alarmMail := satAdd 65535 s.twin.alarmMail 1 }
  let key := 2 * watcher + path
  let recent := match smGet key s.twin.pathRec with
    | some t => decide (s.now < t + 1000000000)
    | none => false
  if recent then s else emit 0x1C 4095 0 0 [watcher, path] { s with twin.pathRec := smSet key s.now s.twin.pathRec }

/-- PULSE_WINDOW: the watcher judges a window; after three missed in a row the other plane is silent (R386, R387). A pulse ends its window and
opens the next; a window without one ends after 1,100 ticks (R385). -/
def execPulseWindow (watcher : Nat) (wire mailbox : Bool) : State → Host.Outcome State Fault Refusal :=
  act fun s =>
    let o := 1 - watcher
    let opened := ((planeOf watcher s).map (·.windowAt)).getD 0
    let next (t : Nat) : State := modPlane watcher (fun x => { x with windowAt := t }) s
    if !s.powered || decide (1 < watcher) || !planeIn watcher s || !planeIn o s || s.twin.mode != .duplex then s
    else if wire || mailbox then heard o watcher wire mailbox (next s.now)
    else if s.now < opened + 1100 then s
    else
      let s := modPlane o (fun x => { x with missed := x.missed + 1 }) (next (opened + 1100))
      let held := (s.twin.gates.flatMap (·.2)).foldl (fun t g => min t g.2.2) s.now
      if silent o s then leavePlane o 1 held s else s
where
  /-- Three windows in a row were missed. -/
  silent (o : Nat) (s : State) : Bool := ((planeOf o s).map fun x => decide (3 ≤ x.missed)).getD false
  /-- A pulse came on a path at least: the window is good. -/
  heard (o watcher : Nat) (wire mailbox : Bool) (s : State) : State :=
    if wire && mailbox then modPlane o (fun x => { x with missed := 0 }) s
    else if wire then pathSilent watcher 1 (modPlane o (fun x => { x with missed := 0 }) s)
    else pathSilent watcher 0 (modPlane o (fun x => { x with missed := 0 }) s)

/-- Outputs held at a gate. -/
def gateHeld (g : Nat) (s : State) : List (Nat × Nat × Nat) := (smGet g s.twin.gates).getD []

/-- Changes what a gate holds. -/
def setHeld (g : Nat) (l : List (Nat × Nat × Nat)) (s : State) : State :=
  { s with twin.gates := if l.isEmpty then smDel g s.twin.gates else smSet g l s.twin.gates }

/-- A gap starts with a divergence whose parity verdict is awaited (R391). -/
def diverge (s : State) : State :=
  let s := abandonSheet s
  { s with twin.gap := some ⟨s.now, 3, true, activeClaim s, 2⟩ }

/-- GATE_OUTPUT: an output of a plane reaches a claim gate (R384, R391). A fenced plane's output never passes; a gap or
Fatal holds it; alone in service it passes at once; else it waits for its pair and the two are compared. -/
def execGateOutput (gate plane value : Nat) : State → Host.Outcome State Fault Refusal :=
  act fun s =>
    let l := gateHeld gate s
    if s.glb.hubReset = true ∨ s.twin.mode = .starting ∨ planeIn plane s = false then s
    else if s.holds = true ∨ s.twin.mode = .fatal then setHeld gate (l ++ [(plane, value, s.now)]) s
    else if s.twin.mode = .solo then { s with twin.passed := s.twin.passed ++ [(gate, value)] }
    else match l with
      | [] => setHeld gate [(plane, value, s.now)] s
      | (q, v, t) :: rest =>
        if q = plane then setHeld gate (l ++ [(plane, value, s.now)]) s
        else if v = value then setHeld gate rest { s with twin.passed := s.twin.passed ++ [(gate, value)] }
        else diverge (setHeld gate ((q, v, t) :: rest ++ [(plane, value, s.now)]) s)

/-- GATE_UNPAIRED: a gate held one plane's output for 2,000 ticks without its pair (R387). -/
def execGateUnpaired (gate : Nat) : State → Host.Outcome State Fault Refusal :=
  act fun s => match gateHeld gate s with
    | (q, _, t) :: _ => if s.alive = true ∧ s.twin.mode = .duplex ∧ t + 2000 ≤ s.now then leavePlane (1 - q) 2 t s else s
    | [] => s

/-- DIVERGENCE_PARITY: the re-read with parity ends (R391). -/
def execDivergenceParity (aBad bBad : Bool) : State → Host.Outcome State Fault Refusal :=
  act fun s => match s.twin.gap with
    | some g =>
      if s.powered = false ∨ g.divergence = false then s
      else if aBad != bBad then
        let p := if aBad then 0 else 1
        let s := emit 0x19 4095 0 0 [1, p] { s with twin.divLocated := satAdd 65535 s.twin.divLocated 1 }
        leavePlane p 3 g.start s
      else goFatal 2 (emit 0x19 4095 0 0 [0, 0xFFFFFFFF] { s with twin.divUnlocated := satAdd 65535 s.twin.divUnlocated 1 })
    | none => s

/-- PARITY_ERROR of a table entry in use (R387). -/
def execParityError (plane : Nat) : State → Host.Outcome State Fault Refusal :=
  act fun s => if s.powered = true ∧ plane < 2 ∧ s.twin.mode ≠ .starting then leavePlane plane 4 s.now s else s

/-- The shortest TABLE_PERIOD of the dies, by which the sweep of tables, shelf words and glazes comes round (03 R110, R111; log 34). -/
def tableDue (s : State) : Nat := s.mem.tableAt + (s.mem.dies.map (·.cfg.tablePeriod)).foldl min (2 ^ 64)

/-- The sweep meets a resident glaze that does not agree with its digest: it is evicted, and loaded again before its next use (03 R111, 06
R232). -/
def badResident (sh id : Nat) (s : State) : State :=
  if ((shelfOf sh s).map fun x => x.store.any (·.id == id)).getD false then
    emit 0x0D 4095 1 (sh / 40) [id, sh, 1] (modShelf sh (fun x => { x with store := x.store.filter (·.id != id) }) s)
  else s

/-- TABLE_SWEEP, once in every TABLE_PERIOD: parity errors in words of idle shelves are noted for their rows (03 R114), a resident glaze that
fails its digest is evicted, and the compare of hub tables goes through a claim gate: a difference is a divergence (R392, 03 R111). What
the sweep finds is an operand (log 18). -/
def execTableSweep (_plane : Nat) (found : SweepFound) : State → Host.Outcome State Fault Refusal :=
  act fun s =>
    if s.alive = false ∨ s.now < tableDue s then s
    else
      let idle (x : Spare) : Bool := x.array == 0 && ((shelfOf x.unit s).map fun h => h.run.isNone && !h.out).getD false
      let s := (found.words.filter idle).foldl (fun s x => noteRowErr x s) { s with mem.tableAt := s.now }
      let s := found.glazes.foldl (fun s g => badResident g.1 g.2 s) s
      if s.twin.mode = .duplex ∧ found.equal = false then diverge s else s

/-! ### The end of a gap (R388 to R390) -/

/-- A gap's or contact pause's length is added to the running timers (R390): leases, faults, completion timers, windows,
firing limits. -/
def addPause (len why : Nat) (s : State) : State :=
  let agents : SMap Agent := s.dir.agents.map fun (a : Nat × Agent) =>
    (a.1, if a.2.kind = 1 ∧ a.2.lapsed = false then { a.2 with expiry := a.2.expiry + len } else a.2)
  let wins : SMap Window := s.kiln.wins.map fun (w : Nat × Window) => (w.1, { w.2 with extra := w.2.extra + len })
  { s with dir.agents := agents, kiln.wins := wins
           xlt.faults := s.xlt.faults.map fun (f : Fault') => { f with extra := f.extra + len }
           outst := s.outst.map fun (o : Outst) => { o with sent := o.sent + len }
           kiln.firings := s.kiln.firings.map fun (f : Firing) => { f with extra := f.extra + len }
           twin.pauseEnd := s.now, twin.pauseLen := len, twin.pauseWhy := why }

/-- Bytes that a request is charged at meter F (09 R320). -/
def chargeOf (i : Instr) (s : State) : Nat :=
  match i with
  | .contrib _ _ _ _ _ => 4096 + s.sags.shape.fOvh
  | i => if (lineReq i).isSome then lineCharge s else s.sags.shape.fOvh

/-- What a pause does to a request that waited for it (R390, 09 R337; log 52): a committed charge, and an excess one whose peak
bucket is not negative, delayed beyond COMMIT_WAIT, and a request served after its latency target, are breaches. -/
def noteDelay (len why : Nat) (i : Instr) (s : State) : State :=
  match cmdMhd i with
  | some m =>
    let sid := sidOf m.port m.src s
    let lat := ((sagOf sid s).map (·.par.latTarget)).getD 0
    let s := if s.sags.shape.commitWait < len then match (chargeF sid 0 s).1 with
        | .committed => noteBreach sid 5 why m.port 1 (chargeOf i s) s
        | .excess => noteBreach sid 7 why m.port 1 (chargeOf i s) s
        | .wait => s
      else s
    if lat ≠ 0 ∧ lat < len then noteBreach sid 8 why m.port 0 (len - lat) s else s
  | none => s

/-- The state that a message leaves. -/
def after (s : State) : Host.Outcome State Fault Refusal → State
  | .next s' => s'
  | _ => s

/-- A message that waited in the receive pool while no plane took input is taken. -/
def takeWaiting (i : Instr) (s : State) : State :=
  match i with
  | .rdShared m a => after s (execRdShared m a s)
  | .rdOwn m a e => after s (execRdOwn m a e s)
  | .upgrade m a e => after s (execUpgrade m a e s)
  | .rdOnce m a n => after s (execRdOnce m a n s)
  | .scorch m a k c n l => after s (execScorch m a k c n l s)
  | .atomic m a o z x y n => after s (execAtomic m a o z x y n s)
  | .writeback m h e c l => after s (execWriteback m h e c l s)
  | .rspData m h c l => after s (execRspData m h c l s)
  | .rspClean m h => after s (execRspClean m h s)
  | .rspGone m h => after s (execRspGone m h s)
  | .move m d => after s (execMove m d s)
  | .fire m d => after s (execFire m d s)
  | .fireCancel m t => after s (execFireCancel m t s)
  | .agentCtxSet m n e => after s (execAgentCtxSet m n e s)
  | .fence m => after s (execFence m s)
  | .fenceAck m => after s (execFenceAck m s)
  | .hdata m st ls => after s (execHdata m st ls s)
  | .hdone m st => after s (execHdone m st s)
  | .contrib m a rd c d => after s (execContrib m a rd c d s)
  | .join m k => after s (execJoin m k s)
  | .pulse m e => after s (execPulse m e s)
  | .regionPublish m p => after s (execRegionPublish m p s)
  | .admitHello m h => after s (execAdmitHello m h s)
  | .admitProve m w e c a => after s (execAdmitProve m w e c a s)
  | .rekey m g => after s (execRekey m g s)
  | .rekeyAck m g => after s (execRekeyAck m g s)
  | _ => s

/-- The planes take input again after a pause: the timers move, what waited is taken in order. -/
def endPause (len why : Nat) (s : State) : State :=
  let waiting := s.twin.rxWait
  let s := addPause len why { s with twin.rxWait := [] }
  freePools (waiting.foldl (fun s i => takeWaiting i (noteDelay len why i s)) s)

/-- GAP_END: the gates of the remaining plane enter SOLO, its held outputs pass in order, the fenced plane's are discarded;
TWIN_SWITCH is written (R387, R388). -/
def execGapEnd : State → Host.Outcome State Fault Refusal :=
  act fun s => match s.twin.gap with
    | none => s
    | some g =>
      if s.powered = false ∨ g.divergence = true then s
      else
        let len := min (s.now - g.start) 4096
        let passed := s.twin.gates.flatMap fun e => (e.2.filter (·.1 != g.left)).map fun o => (e.1, o.2.1)
        let s := { s with twin.gap := none, twin.gates := [], twin.passed := s.twin.passed ++ passed
                          twin.gaps := add32 s.twin.gaps 1, twin.lastGap := len }
        endPause len 4 (emit 0x18 4095 0 0 [g.left, g.cause, g.oldClaim, activeClaim s, len] s)

/-! ### Coming back (R393, R394) -/

/-- PLANE_TEST_DONE: resync starts, or the plane is Dead (R393). -/
def execPlaneTestDone (plane : Nat) (ok : Bool) : State → Host.Outcome State Fault Refusal :=
  act fun s => match planeOf plane s with
    | none => s
    | some x =>
      if s.powered = false ∨ x.st ≠ .out ∨ x.testing = false then s
      else if ok = true ∧ x.losses ≤ 3 then
        { modPlane plane (fun x => { x with st := .resync, testing := false }) s with twin.resyncAt := s.now }
      else emit 0x1B 4095 0 0 [plane, x.losses] (modPlane plane (fun x => { x with st := .dead, testing := false }) s)

/-- TWIN_REJOIN: every table is copied; the plane joins as Standby. The join pause counts as a gap, here of 0 ticks (R389, R393). -/
def execTwinRejoin : State → Host.Outcome State Fault Refusal :=
  act fun s => match s.twin.planes.findIdx? (·.st == .resync) with
    | none => s
    | some p =>
      if s.alive = false ∨ planeActive (1 - p) s = false then s
      else
        let claim := (activeClaim s + (2 ^ 32 - 1)) % 2 ^ 32
        let s := modPlane p (fun x => { x with st := .standby, claim := claim, fenced := false, missed := 0, pulseAt := s.now, windowAt := s.now }) s
        let s := modPlane (1 - p) (fun x => { x with windowAt := s.now }) s
        emit 0x1A 4095 0 0 ([p, claim] ++ w64 (s.now - s.twin.resyncAt))
          { s with twin.mode := if s.twin.mode = .starting then .starting else .duplex
                   twin.gaps := add32 s.twin.gaps 1, twin.lastGap := 0 }

/-- RESYNC_TIMEOUT: the copy fails its CRC or takes 500,000,000 ticks; the plane is reset again (R393). -/
def execResyncTimeout (crcFail : Bool) : State → Host.Outcome State Fault Refusal :=
  act fun s => match s.twin.planes.findIdx? (·.st == .resync) with
    | none => s
    | some p =>
      if s.powered = true ∧ (crcFail = true ∨ s.twin.resyncAt + 500000000 ≤ s.now) then
        modPlane p (fun x => { x with st := .out, testing := true }) s
      else s

end Sys2Proof.Machine
end

