-- ==== Sys2Proof/Machine/HostPath.lean ====
section
/-! DEFINITION. The host path (10): rings, doorbells, fetching, entries written to the host, interrupts, resets of the path,
and the system commands. -/

namespace Sys2Proof.Machine

/-! ### Ring states (R357, R358, R374, R375) -/

/-- Records that the fault ring owes after its reset: a fresh one, in a new batch, for every open fault; a waiting record
of a fault that is still open is replaced by it (R358). -/
def refaultRecords (s : State) : State :=
  if s.host.refault then
    let isOpen (r : FaultRec) : Bool := (r.kind == 1 || r.kind == 2) && s.xlt.faults.any fun f => f.id == r.id
    let s := closeBatch { s with host.refault := false }
    let s := { s with host.faultQ := s.host.faultQ.filter fun r => !isOpen r }
    let recs := s.xlt.faults.map fun f => faultRec f.kind f s
    let n := recs.length
    if n = 0 then s
    else
      { s with xlt.batchNo := add32 s.xlt.batchNo ((n + 63) / 64)
               host.faultQ := s.host.faultQ ++ recs.mapIdx fun i r =>
                 { r with batch := add32 s.xlt.batchNo (i / 64 + 1), index := i % 64, last := i % 64 == 63 || i + 1 == n } }
  else s

/-- Stops ring `r`: counts to 0, SEQ kept, a stored doorbell forgotten (R357, R374). -/
def resetRing' (cause : Option Nat) (g : Ring) : Ring :=
  { g with st := .stopped, cause := cause.getD g.cause, prod := 0, cons := 0, stored := none, since := none, bells := [] }

/-- CMD_RESET of ring `r` (R374). -/
def stopRing (r : Nat) (s : State) : State :=
  let s := modRing r (resetRing' none) s
  if r = 5 then { s with host.refault := true } else s

/-- Every ring stops with CAUSE SESSION; `fresh` that a new session takes effect, whose SEQ values start at 0 (R357, R375). -/
def stopRings (fresh : Bool) (s : State) : State :=
  { s with host.rings := s.host.rings.map fun g => let g := resetRing' (some 6) g; if fresh then { g with seq := 0 } else g
           host.refault := true }

/-- RING_RESET: a write of CMD_RESET with the ring's bit (R374). -/
def execRingReset (r : Nat) : State → Host.Outcome State Fault Refusal :=
  act fun s => if s.glb.hubReset then s else stopRing r s

/-- A producer count reaches a Running command ring (R354). -/
def takeDoorbell (r p : Nat) (s : State) : State :=
  match ringOf r s with
  | none => s
  | some g =>
    if sub32 p g.cons ≤ ringSlots g then
      modRing r (fun g => { g with prod := p, doorbell := p, bells := if p = g.prod then g.bells else g.bells ++ [(p, g.bellAt)] }) s
    else haltRing r 2 s
where
  /-- Difference modulo 2^32. -/
  sub32 (a b : Nat) : Nat := (a + 2 ^ 32 - b % 2 ^ 32) % 2 ^ 32

/-- COMMAND_DOORBELL: stored unless the ring runs (R354). -/
def execCommandDoorbell (r p : Nat) : State → Host.Outcome State Fault Refusal :=
  act fun s =>
    if s.glb.hubReset ∨ 4 ≤ r then s
    else match ringOf r s with
      | some g =>
        let s := modRing r (fun g => { g with bellAt := s.now }) s
        if g.st = .running then takeDoorbell r (p % 2 ^ 32) s else modRing r (fun g => { g with stored := some (p % 2 ^ 32) }) s
      | none => s

/-- CONSUMER_DOORBELL: accepted when it does not pass the count of entries written, else ignored, counted, and an error of
the path (R354, R365). -/
def execConsumerDoorbell (r c : Nat) : State → Host.Outcome State Fault Refusal :=
  act fun s =>
    if s.glb.hubReset ∨ r < 4 then s
    else match ringOf r s with
      | some g =>
        let c := c % 2 ^ 32
        if takeDoorbell.sub32 c g.cons ≤ takeDoorbell.sub32 g.prod g.cons then
          modRing r (fun g => { g with cons := c, doorbell := c }) s
        else raiseIrq 3 { s with host.doorbellErr := add32 s.host.doorbellErr 1 }
      | none => s

/-- Starts ring `r`: a Stopped ring runs when its size, the bounce region, the session and Bus Master Enable are right, else
its CAUSE says why it does not (R357). A ring that runs or is Halted stays as it is (log 36). -/
def startRing (r : Nat) (s : State) : State :=
  match ringOf r s with
  | none => s
  | some g =>
    if g.st ≠ .stopped then s
    else if s.pen.session = false then modRing r (fun g => { g with cause := 6 }) s
    else if g.size < 4 ∨ 16 < g.size ∨ s.host.bounceSize = 0 ∨ 16384 < s.host.bounceSize ∨ s.host.bme = false then
      modRing r (fun g => { g with cause := 1 }) s
    else
      let s := modRing r (fun g => { g with st := .running, cause := 0, stored := none }) s
      let s := match g.stored with
        | some p => if r < 4 then takeDoorbell r p s else s
        | none => s
      if r = 5 then refaultRecords s else s

/-- RING_START: a write of CMD_CTRL with the ring's START bit (R357, R380). -/
def execRingStart (r : Nat) : State → Host.Outcome State Fault Refusal :=
  act fun s => if s.glb.hubReset then s else startRing r s

/-- RING_DMA_ERROR: a DMA of a Running ring ends in error (R357). -/
def execRingDmaError (r : Nat) : State → Host.Outcome State Fault Refusal :=
  act fun s => match ringOf r s with
    | some g => if g.st = .running ∧ s.dma = true then haltRing r 5 s else s
    | none => s

/-! ### PCIe (R344, R345, R375) -/

/-- BUS_MASTER_CHANGE: DMA and interrupts stop, or resume with those that wait (R345). -/
def execBusMasterChange (bme d3hot : Bool) : State → Host.Outcome State Fault Refusal :=
  act fun s => if s.glb.hubReset then s else flushVecs { s with host.bme := bme, host.d3hot := d3hot }

/-- Ends the session (R375, 12 R425): Peneno erases KH and KD, every ring is Stopped. -/
def endSession (s : State) : State := stopRings false { s with pen.session := false, pen.handshake := false, pen.keys := none, pen.exch := none }

/-- HOST_PATH_RESET: FLR, hot reset, link down or PERST_N (R375). The function's configuration falls back as PCIe defines
(log 20). -/
def execHostPathReset : State → Host.Outcome State Fault Refusal :=
  act fun s =>
    if s.glb.hubReset then s
    else
      endSession { s with host.bme := false, host.d3hot := false, host.pba := 0
                          host.msix := (List.replicate 64 [0#32, 0#32, 0#32, 1#32]).flatten }

/-- PCIE_LINK_TRAINED: the link settles at a width and a rate (R344). -/
def execPcieLinkTrained (width rateGts : Nat) : State → Host.Outcome State Fault Refusal :=
  act fun s =>
    if s.glb.hubReset then s
    else flushVecs { s with host.linkWidth := width, host.linkRate := rateGts, host.linkUp := true }

/-- LINK_DEGRADED of GLB_STATE (R344). -/
def linkDegraded (s : State) : Bool := s.host.linkUp && (decide (s.host.linkWidth < 8) || decide (s.host.linkRate < 128))

/-! ### Fetching (R355, R356) -/

/-- Free slots of an output ring. -/
def freeSlots (g : Ring) : Nat := ringSlots g - takeDoorbell.sub32 g.prod g.cons

/-- Commands fetched that have no reply written: each has reserved a slot of the status ring. -/
def reservedSlots (s : State) : Nat := s.host.statusQ.length + (s.host.rings.filter (·.inflight.isSome)).length

/-- Ring `r` qualifies for a fetch (R355). -/
def qualified (r : Nat) (s : State) : Bool :=
  match ringOf r s, ringOf 4 s with
  | some g, some st => decide (r < 4) && g.st == .running && g.prod != g.cons && g.inflight.isNone && st.st == .running
      && decide (reservedSlots s < freeSlots st)
  | _, _ => false

/-- Since when the head packet of a ring waits while qualified (R355); kept up as time passes. -/
def ageRings (s : State) : State :=
  { s with host.rings := s.host.rings.mapIdx fun r g =>
      if qualified r s then { g with since := some (g.since.getD s.now) } else { g with since := none } }

/-- The head packet of ring `r` has waited 100,000 ticks. -/
def starved (r : Nat) (s : State) : Bool :=
  match (ringOf r s).bind (·.since) with
  | some t => decide (t + 100000 ≤ s.now)
  | none => false

/-- The ring that is served next (R355): the longest starved one, else the lowest. -/
def nextRing (s : State) : Option Nat :=
  let q := (List.range 4).filter fun r => qualified r s
  let since (r : Nat) : Nat := ((ringOf r s).bind (·.since)).getD s.now
  match q.filter fun r => starved r s with
  | [] => q.head?
  | r :: rs => some (rs.foldl (fun a b => if since b < since a then b else a) r)

/-- Opcodes that a chapter defines (R367). -/
def knownOp (op : Nat) : Bool :=
  decide (op ≤ 0x05) || (decide (0x0A ≤ op) && decide (op ≤ 0x0C)) || (decide (0x10 ≤ op) && decide (op ≤ 0x1A))
    || (decide (0x28 ≤ op) && decide (op ≤ 0x2C)) || (decide (0x30 ≤ op) && decide (op ≤ 0x43))
    || (decide (0x50 ≤ op) && decide (op ≤ 0x5F)) || (decide (0x70 ≤ op) && decide (op ≤ 0x75))
    || (decide (0x80 ≤ op) && decide (op ≤ 0x8A)) || (decide (0x90 ≤ op) && decide (op ≤ 0x99))
    || (decide (0xF0 ≤ op) && decide (op ≤ 0xF4))

/-- The fields of a packet's first 16 bytes, little-endian (R359, 00 R8). -/
def pkWord (p : Packet) (i : Nat) : Nat := ((p.head.drop (4 * i)).take 4).foldr (fun b a => b % 256 + 256 * a) 0
def pkFmt (p : Packet) : Nat := pkWord p 0 % 16
def pkOp (p : Packet) : Nat := fieldOf (pkWord p 0) 8 8
def pkLatch (p : Packet) : Bool := bitOf (pkWord p 0) 16
def pkResv (p : Packet) : Bool := fieldOf (pkWord p 0) 4 4 != 0 || fieldOf (pkWord p 0) 17 15 != 0
def pkCtag (p : Packet) : Nat := pkWord p 1
def pkOutOff (p : Packet) : Nat := pkWord p 2
def pkOutLen (p : Packet) : Nat := pkWord p 3

/-- Opcodes that produce an output item (R368; 12 R426, 15 R480). -/
def outOps : List Nat := [0x03, 0x1A, 0x56, 0x5A, 0x80, 0x84, 0x87, 0x89, 0x8A, 0x90, 0xF4]

/-- OUT_OFFSET or OUT_LENGTH is not 0 although the opcode has no output item and LATCH is 0 (R359). -/
def pkOutBad (p : Packet) : Bool := !pkLatch p && !outOps.contains (pkOp p) && (pkOutOff p != 0 || pkOutLen p != 0)

/-- Checks that the packet alone decides (00 R15, R359, R367): version, reserved bits, a known opcode, the life cycle of
a factory opcode. -/
def packetChks (p : Packet) (s : State) : List Chk :=
  [chk (pkFmt p != 1) stVERSION 1, chkResv (pkResv p || (knownOp (pkOp p) && (p.presv || pkOutBad p))),
   chkDeny (!knownOp (pkOp p)), chkDeny (decide (0xF0 ≤ pkOp p) && !(s.pen.otp.lc == 0 || s.pen.otp.lc == 3))]

/-- COMMAND_FETCH: the device takes the next packet of the ring whose turn it is, checks its header and tag, and puts the
command in flight (R355, R356). A packet that fails a check of its own is answered at once. -/
def execCommandFetch (r : Nat) (p : Packet) : State → Host.Outcome State Fault Refusal :=
  act fun s =>
    if s.alive = false ∨ s.dma = false ∨ nextRing s ≠ some r then s
    else match ringOf r s with
      | none => s
      | some g =>
        if p.stream ≠ r ∨ p.slot ≠ g.cons % ringSlots g ∨ p.seq ≠ g.seq then haltRing r 3 s
        else if p.tagOk = false then haltRing r 4 { s with host.authFail := add32 s.host.authFail 1 }
        else
          let bell := ((g.bells.head?).map (·.2)).getD s.now
          let f : Inflight := ⟨pkOp p, pkCtag p, g.seq, pkLatch p, pkOutOff p, pkOutLen p, s.now, latchOf 0 s, 0, bell, none⟩
          let s := modRing r (fun g => { g with cons := add32 g.cons 1, seq := add64 g.seq 1, since := none, inflight := some f
                                                bells := g.bells.dropWhile fun b => b.1 == add32 g.cons 1 }) s
          match firstBad (packetChks p s) with
          | some c => finish r c.status c.stage c.index [] [] s
          | none => s

/-! ### Entries written to the host (R353, R354, R361, R365; 02 R73, 15 R468) -/

/-- The 64 bytes of a status reply (R361): FMT 1, FIELD 255. -/
def replyBytes (x : Reply) : List Nat :=
  leBytes (padWords 16 ([1 + 2 ^ 4 * x.ring + 2 ^ 8 * x.opcode + 2 ^ 16 * x.status, x.ctag] ++ w64 x.cseq ++ w64 x.ended
    ++ [x.duration, x.stage + 2 ^ 4 * 255 + 2 ^ 12 * x.index] ++ x.result))

/-- The 320 bytes of a fault record (02 R73): FMT 1, the head, 64 waiter entries. -/
def faultBytes (f : FaultRec) : List Nat :=
  leBytes (padWords 16 ([1 + 2 ^ 4 * f.kind + 2 ^ 16 * f.sid, f.id, f.batch,
      f.index + 2 ^ 6 * b2n f.last + 2 ^ 8 * f.waiters.length + 2 ^ 16 * f.total] ++ w64 f.pva
    ++ [f.size + 2 * f.access + 2 ^ 16 * f.hid + 2 ^ 28 * f.fmt, f.epoch] ++ w64 f.opened ++ [f.heat]) ++ padWords 64 f.waiters)

/-- The 224 bytes of an event record (15 R468, R352): FMT 1, the head, the body, zeros. -/
def eventBytes (e : Event) : List Nat :=
  leBytes (padWords 56 ([1 + 2 ^ 8 * e.kind + 2 ^ 16 * e.sid,
      e.region + 2 ^ 2 * e.unit + 2 ^ 6 * b2n e.hubStamped + 2 ^ 16 * (4 * e.body.length)] ++ w64 e.tally ++ w64 e.seq ++ [0, 0] ++ e.body))

/-- An output ring takes an entry: its slot, its SEQ, and the ring after it. -/
def putEntry (r : Nat) (s : State) : Option (Nat × Nat × State) :=
  match ringOf r s with
  | some g =>
    if g.st = .running ∧ s.dma = true ∧ 0 < freeSlots g then
      some (g.prod % ringSlots g, g.seq, modRing r (fun g => { g with prod := add32 g.prod 1, seq := add64 g.seq 1 }) s)
    else none
  | none => none

/-- An event record leaves the hub buffer, and one that waits at its source takes its place (R364). -/
def popEvent (s : State) : State :=
  { s with host.evBuf := s.host.evBuf.drop 1 ++ s.host.evKept.take 1, host.evKept := s.host.evKept.drop 1 }

/-- OUTPUT_ENTRY_WRITE: the next waiting entry of an output ring is written; an output item goes before its reply
(R351), the FAULT source follows the last record of a batch (R365, 02 R74). The reply of MODULE_RESET
starts its delay (14 R454). In a gap the claim gate holds it (11 R384, R388; 01 R37). -/
def execOutputEntryWrite (r : Nat) : State → Host.Outcome State Fault Refusal :=
  act fun s =>
    if s.glb.hubReset ∨ s.tal.running = false ∨ s.twin.gap.isSome then s
    else match r with
      | 4 => match s.host.statusQ, putEntry 4 s with
        | x :: _, some (slot, seq, s) =>
          let due := x.opcode = 0x0B ∧ x.status = stOK
          let s := { s with host.statusQ := s.host.statusQ.drop 1, glb.resetDue := if due then some (s.now + 1000000) else s.glb.resetDue }
          let s := if x.items.isEmpty then s else { s with hostOut := s.hostOut ++ [.item x.ring x.cseq x.items] }
          { s with hostOut := s.hostOut ++ [.status slot seq (replyBytes x)], host.stUnsig := s.host.stUnsig + 1
                   host.stFirst := if s.host.stUnsig = 0 then s.now else s.host.stFirst }
        | _, _ => s
      | 5 => match s.host.faultQ, putEntry 5 s with
        | x :: _, some (slot, seq, s) =>
          let s := { s with host.faultQ := s.host.faultQ.drop 1, hostOut := s.hostOut ++ [.fault slot seq (faultBytes x)], xlt.batchLast := x.batch }
          if x.last then raiseIrq 1 s else s
        | _, _ => s
      | 6 => match s.host.evBuf, putEntry 6 s with
        | x :: _, some (slot, seq, s) =>
          let s := popEvent s
          { s with hostOut := s.hostOut ++ [.event slot seq (eventBytes x)], host.evUnsig := s.host.evUnsig + 1
                   host.evFirst := if s.host.evUnsig = 0 then s.now else s.host.evFirst }
        | _, _ => s
      | _ => s

/-- STATUS_INTERRUPT: the STATUS or, with `event`, the EVENT source is raised once enough entries were written or the
first has waited long enough (R365); a gap holds it at its claim gate (11 R388). -/
def execStatusInterrupt (event : Bool) : State → Host.Outcome State Fault Refusal :=
  act fun s =>
    let h := s.host
    if s.twin.gap.isSome then s
    else if event then
      if h.evUnsig ≠ 0 ∧ (h.cfg.countEvent ≤ h.evUnsig ∨ h.evFirst + h.cfg.waitEvent ≤ s.now) then
        raiseIrq 2 { s with host.evUnsig := 0 }
      else s
    else if h.stUnsig ≠ 0 ∧ (h.cfg.countStatus ≤ h.stUnsig ∨ h.stFirst + h.cfg.waitStatus ≤ s.now) then
      raiseIrq 0 { s with host.stUnsig := 0 }
    else s

/-- IRQ_CAUSE_CLEAR: bits written as 1 are cleared (R381). -/
def execIrqCauseClear (mask : Nat) : State → Host.Outcome State Fault Refusal :=
  act fun s => { s with host.irqCause := s.host.irqCause &&& ~~~(BitVec.ofNat 5 mask) }

/-! ### System commands (R370, R371) -/

/-- NOP (R370). -/
def execNop (r : Nat) : State → Host.Outcome State Fault Refusal := cmd r 0x00 (fun _ _ => []) (ok r [])

/-- HOST_CONFIG's ranges hold (R370). -/
def hostCfgOk (c : HostCfg) : Bool :=
  c.vec.length == 5 && c.vec.all (fun v => decide (v ≤ 63)) && decide (1 ≤ c.countStatus) && decide (c.countStatus ≤ 4096)
    && decide (c.waitStatus ≤ 1000000) && decide (1 ≤ c.countEvent) && decide (c.countEvent ≤ 4096)
    && decide (c.waitEvent ≤ 1000000) && decide (c.poison ≤ 1)

/-- HOST_CONFIG (R370). -/
def execHostConfig (r : Nat) (c : HostCfg) : State → Host.Outcome State Fault Refusal :=
  cmd r 0x01 (fun _ _ => [chkDeny (!hostCfgOk c)]) fun s => ok r [] { s with host.cfg := c }

/-- Commands fetched before that of ring `r` whose replies are not written: ring and CSEQ. -/
def owedReplies (r : Nat) (s : State) : List (Nat × Nat) :=
  s.host.statusQ.map (fun x => (x.ring, x.cseq))
    ++ (List.range 4).filterMap fun q => if q = r then none else (inflightOf q s).map fun f => (q, f.cseq)

/-- A command's reply is still to be written. -/
def replyOwed (s : State) (c : Nat × Nat) : Bool :=
  s.host.statusQ.any (fun x => x.ring == c.1 && x.cseq == c.2) || (inflightOf c.1 s).any fun f => f.cseq == c.2

/-- SYS_FENCE (R370). -/
def execSysFence (r : Nat) : State → Host.Outcome State Fault Refusal :=
  cmd r 0x02 (fun _ _ => []) fun s =>
    if owedReplies r s = [] then ok r [] s else park r (.sysFence (owedReplies r s)) s

/-- The command in flight is a parked fence. -/
def parkedFence (f : Inflight) : Bool :=
  match f.parked with
  | some (.xltFence _ _) => true
  | some (.sysFence _) => true
  | _ => false

/-- FENCE_CANCEL (R370). -/
def execFenceCancel (r ring cseq : Nat) : State → Host.Outcome State Fault Refusal :=
  cmd r 0x05 (fun _ s =>
    let f := if ring < 4 then (inflightOf ring s).filter fun f => f.cseq == cseq else none
    [chkDeny f.isNone, chkExec (!(f.any parkedFence)) stCONFLICT]) fun s =>
    ok r [] (okStatus ring stINCOMPLETE [] s)

/-! ### POOL_READ and POOL_WRITE (R372) -/

/-- Pages that a die's capacity gives, also when it is Lost (03 R118, R121). -/
def capPages (die : Nat) (s : State) : Nat :=
  match dieMem die s with
  | some d => if d.st = .inService ∨ d.st = .offline ∨ d.st = .lost then localValid.pagesOf d.size else 0
  | none => 0

/-- What the walk of the pages of a transfer gives: for SID 0 the pages from a local PPA. -/
def poolPagesOf (sid addr len acc : Nat) (s : State) : List (Nat × PageRes) :=
  if sid = 0 then (regionPages (ppaOffset addr) len).map fun p => (p, .good (localPpa (p * 2 ^ 21)))
  else bakeRegion sid addr len acc s

/-- Run of a transfer. -/
def poolRun (sid addr len : Nat) (write : Bool) (s : State) : Run :=
  let a := if sid = 0 then ppaOffset addr else addr
  runOf sid a len write (poolPagesOf sid addr len (if write then 2 else 1) s)

/-- A page of the walk that refuses the command: the host does not fault to itself, and windows are refused (R372). -/
def poolPageBad : PageRes → Bool
  | .bad => true
  | .faulting _ _ => true
  | .good p => ppaFormat p == 3
  | _ => false

/-- Checks 2 and 3 of both transfers (R372). -/
def poolPre (sid addr len acc : Nat) (s : State) : List Chk :=
  let w := poolPagesOf sid addr len acc s
  [chkResv (sid != 0 && decide (2 ^ 52 ≤ addr)),
   chkDeny (decide (4094 < sid) || addr % 64 != 0 || len % 64 != 0
     || if sid = 0 then ppaFormat addr != 1 || ppaHid addr != 0 || ppaOffset addr / 2 ^ 45 != 0 else sidBad sid s),
   chkFirst stDENIED 3 (fun p => poolPageBad p.2) w, chkFirst stCONTESTED 3 (fun p => p.2 == .contested) w]

/-- Check 4 of both transfers: the range against the die or the extent (R372). -/
def poolLen (sid addr len : Nat) (s : State) : Chk :=
  let die := addr / 2 ^ 42 % 8
  chkLen (if sid = 0 then len != 0 && decide ((if warmDie die s then 2 ^ 21 else capPages die s) * 32768 < dieLine (ppaOffset addr / 64) + len / 64)
    else pastEnd sid addr len s)

/-- A local page of SID 0's transfer is still being made ready (14 R451). -/
def poolWarm (sid addr : Nat) (s : State) : Chk := chkWarm (sid == 0 && warmPage addr s)

/-- Checks of both transfers but those of their items (R372). -/
def poolChks (sid addr len acc : Nat) (s : State) : List Chk := poolPre sid addr len acc s ++ [poolLen sid addr len s, poolWarm sid addr s]

/-- Bytes of the item: lines and cause array (R372). -/
def poolItem (len : Nat) : Nat := len + ceilDiv len 128

/-- Some page of the transfer is being migrated (02 R81). -/
def poolMigrates (sid addr len acc : Nat) (s : State) : Bool := (poolPagesOf sid addr len acc s).any fun p => p.2 == .migrating

/-- The command in flight on a ring as a party that accesses lines. -/
def ringWho (r : Nat) (s : State) : Who := .host r (((inflightOf r s).map (·.cseq)).getD 0)

/-- A transfer ends with the status of a line; INDEX names the line (log 31). A line of a lost die is DENIED (03 R118). -/
def poolFail (r i st : Nat) (s : State) : State := finish r (if st = stCRAZED then stDENIED else st) 7 i [] [] s

/-- The reply of a POOL_READ whose lines are all read (R372). -/
def poolReadEnd (r : Nat) (ls : List (LineData × Nat)) (s : State) : State :=
  let bad := (ls.filter fun d => d.2 != 0).length
  finish r (if bad = 0 then stOK else stCRAZED) 0 0xFFFFF
    [ls.length, bad, (ls.findIdx? fun d => d.2 != 0).getD 0xFFFFFFFF] (if ls = [] then [] else [.lines ls (s.host.cfg.poison == 1)]) s

/-- A parked transfer goes on as far as it can (R372). -/
def poolGo : Nat → Nat → State → State
  | 0, _, s => s
  | n + 1, r, s =>
    match (inflightOf r s).bind (·.parked) with
    | some (.poolRead sid e run l) =>
      if run.len ≤ 64 * l.length then poolReadEnd r l s
      else match runPpa run (64 * l.length) with
        | none => s
        | some p => match devAt p (devRead (ringWho r s) sid ((run.pva + 64 * l.length) / 2 ^ 21) e) s with
          | (some (.got d c), s) => poolGo n r (park r (.poolRead sid e run (l ++ [(d, c)])) s)
          | (some (.failed st), s) => poolFail r l.length st s
          | (_, s) => s
    | some (.poolWrite sid e run l) =>
      match l with
      | [] => ok r [] s
      | d :: rest => match runPpa run (run.len - 64 * l.length) with
        | none => s
        | some p => match devAt p (devWrite (ringWho r s) sid ((run.pva + run.len - 64 * l.length) / 2 ^ 21) e d.1 fullMask d.2) s with
          | (some (.wrote _), s) => poolGo n r (park r (.poolWrite sid e run rest) s)
          | (some (.failed st), s) => poolFail r (run.len / 64 - l.length) st s
          | (_, s) => s
    | _ => s

/-- POOL_READ starts. -/
def poolReadStart (r sid addr len : Nat) (s : State) : State :=
  poolGo (len / 64 + 2) r (park r (.poolRead sid (epochOf sid s) (poolRun sid addr len false s) []) s)

/-- POOL_READ (R372). -/
def execPoolRead (r sid addr len : Nat) : State → Host.Outcome State Fault Refusal :=
  cmdFor r 0x03 sid (fun f s => poolPre sid addr len 1 s ++ [outChk3 f, poolLen sid addr len s, outChk4 f (poolItem len) s, poolWarm sid addr s]) fun s =>
    if poolMigrates sid addr len 1 s then park r (.retry (.poolRead r sid addr len)) s else poolReadStart r sid addr len s

/-- POOL_WRITE starts. -/
def poolWriteStart (r sid addr len : Nat) (lines : List (LineData × Nat)) (s : State) : State :=
  poolGo (len / 64 + 2) r (park r (.poolWrite sid (epochOf sid s) (poolRun sid addr len true s)
    ((List.range (len / 64)).map fun i => lines.getD i (0, 0))) s)

/-- POOL_WRITE (R372). -/
def execPoolWrite (r sid addr len : Nat) (item : Item) (lines : List (LineData × Nat)) : State → Host.Outcome State Fault Refusal :=
  cmdFor r 0x04 sid (fun _ s => poolPre sid addr len 2 s ++ itemAlign item :: (if len = 0 then [] else itemRead item (poolItem len) s)
      ++ [poolLen sid addr len s, poolWarm sid addr s]) fun s =>
    if poolMigrates sid addr len 2 s then park r (.retry (.poolWrite r sid addr len item lines)) s
    else poolWriteStart r sid addr len lines s

/-- A transfer that waited for a migration starts again (02 R81 step 2). -/
def poolRetry (r : Nat) (i : Instr) (s : State) : State :=
  match i with
  | .poolRead _ sid addr len =>
    if poolMigrates sid addr len 1 s then s
    else match firstBad (poolChks sid addr len 1 s) with
      | some c => finish r c.status c.stage c.index [] [] s
      | none => poolReadStart r sid addr len s
  | .poolWrite _ sid addr len _ lines =>
    if poolMigrates sid addr len 2 s then s
    else match firstBad (poolChks sid addr len 2 s) with
      | some c => finish r c.status c.stage c.index [] [] s
      | none => poolWriteStart r sid addr len lines s
  | _ => s

end Sys2Proof.Machine
end

