-- ==== Sys2Proof/Machine/Pen.lean ====
section
/-! DEFINITION. Peneno (12): its start, firmware images, the one-time-programmable memory and the life cycle, tokens, the
safelight, the proof, SPDM and the session. -/

namespace Sys2Proof.Machine

/-! ### Start (R403, R404, R411) -/

/-- Slots of the OTP that are consumed (R410). -/
def slotsUsed (s : State) : Nat := s.pen.otp.used.count true

/-- Life-cycle state that a start finds (R411): a partly burned nibble is finished when its precondition stands. -/
def settleOtp (o : Otp) : Otp :=
  match o.half with
  | none => o
  | some t =>
    let stands : Bool := match t with
      | 1 => (o.cert.map (·.2)).getD false
      | 2 => ((o.slots[0]?).join).isSome
      | 3 => o.killOwner
      | _ => o.killUds
    if stands then { o with lc := max o.lc t, half := none } else o

/-- The slot of the newest valid generation record, 0 for none; OWNER_KILL ignores them all (R410, R412). -/
def newestGen (o : Otp) : Nat :=
  if o.killOwner then 0 else (List.range 4).foldl (fun n i => if ((o.slots[i]?).join).isSome then i + 1 else n) 0

/-- The identity private key: H("J9P-ID" ‖ UDS) (R414). -/
def identityKey (uds : Nat) : Nat := edKey ([0x4A, 0x39, 0x50, 0x2D, 0x49, 0x44] ++ bytesLE 64 uds)

/-- Closes the current interval of host wait (14 R450). -/
def endHostWait (t : Nat) (s : State) : State :=
  { s with glb.hostWaitTotal := if s.glb.poolReady then s.glb.hostWaitTotal
             else s.glb.hostWaitTotal + (t - s.glb.waitStart.getD t), glb.waitStart := none }

/-- The next step waits for the host from now on (14 R450). -/
def startHostWait (s : State) : State := { s with glb.waitStart := some s.now }

/-- The random source fails a health test (R404). -/
def failRng (test : Nat) (s : State) : State :=
  raiseIrq 4 (emit 0x26 4095 3 0 [test] { s with pen.rngFail := true })

/-- PENENO_START: steps 1 to 5 (R403, 14 R448). The first start in Blank draws the UDS (R411). A wrong ROM digest halts Peneno and the module stays in reset; in Scrap
neither key nor mailbox follows (R413). -/
def execPenenoStart (romOk rngOk : Bool) : State → Host.Outcome State Fault Refusal :=
  act fun s =>
    if s.powered = false ∨ s.pen.started = true then s
    else if romOk = false then { s with pen.romError := true, glb.hubReset := true, tal.running := false }
    else
      let o := settleOtp s.pen.otp
      let (u, s) := if o.lc = 0 ∧ o.udsBurned = false ∧ rngOk = true then draw s else (o.uds, s)
      let o := { o with udsBurned := o.udsBurned || (o.lc == 0 && rngOk), uds := u % 2 ^ 512 }
      let s := { s with pen.otp := o, pen.started := true, pen.inForce := newestGen o, pen.idKey := if o.lc = 4 then none else some (identityKey o.uds) }
      let (v, s') := draw s
      let s := if rngOk then s else failRng (v % 2 + 1) s'
      if o.lc = 4 then s else raiseIrq 4 (startHostWait { s with glb.step := max 2 s.glb.step })

/-- RNG_FAIL: a continuous health test fails (R404). -/
def execRngFail (test : Nat) : State → Host.Outcome State Fault Refusal :=
  act fun s =>
    if s.powered = true ∧ s.pen.started = true ∧ s.pen.rngFail = false ∧ (test = 1 ∨ test = 2) then failRng test s else s

/-! ### Firmware (R405 to R407) -/

/-- PEN_FW_GO: starts a verification (R406, R428). -/
def execPenFwGo (v : Word) : State → Host.Outcome State Fault Refusal :=
  act fun s =>
    if s.powered = true ∧ s.pen.started = true ∧ s.pen.otp.lc ≠ 4 ∧ v.getLsbD 0 = true ∧ s.pen.verifying = false ∧ s.pen.fwNext ≠ 0 then
      endHostWait s.now { s with pen.verifying := true }
    else s

/-- Committed minimum of a type: bits of its thermometer that are set (R407). -/
def svnMin (type : Nat) (s : State) : Nat := s.pen.otp.svn.getD (type - 1) 0

/-- The key slot exists, is not revoked and is of a kind that the life-cycle state accepts (R406, R408, R413). -/
def fwKeyOk (factory : Bool) (slot : Nat) (s : State) : Bool :=
  if factory then decide (slot < 2) && !bitOf s.pen.otp.fwRevoke (4 + slot) && (s.pen.otp.lc == 0 || s.pen.otp.lc == 3)
  else decide (slot < 4) && !bitOf s.pen.otp.fwRevoke slot && s.pen.otp.lc != 4

/-- RESULT of the checks in their order (R406, R428). -/
def fwResultOf (dmaOk : Bool) (img : FwImage) (sigOk : Bool) (s : State) : Nat :=
  if dmaOk = false ∨ s.host.bme = false ∨ s.host.d3hot = true then 7
  else if s.pen.fwLen ≠ 64 + img.length + 114 ∨ img.length < 64 ∨ 16777216 < img.length ∨ img.length % 64 ≠ 0 then 8
  else if img.fmt ≠ 1 ∨ img.resv = true then 2
  else if img.type ≠ s.pen.fwNext then 3
  else if fwKeyOk img.factory img.slot s = false then 4
  else if img.svn < svnMin img.type s then 5
  else if sigOk = false then 6
  else 1

/-- FIRMWARE_VERIFIED: Peneno ends checking an image; MAILBOX is raised when PEN_FW_RESULT changes (R406, R428). -/
def execFirmwareVerified (dmaOk : Bool) (img : FwImage) (sigOk : Bool) : State → Host.Outcome State Fault Refusal :=
  act fun s =>
    if s.powered = false ∨ s.pen.verifying = false then s
    else
      let r := fwResultOf dmaOk img sigOk s
      let old := (s.pen.fwNext, s.pen.fwResult, s.pen.fwLoaded)
      let s := { s with pen.verifying := false, pen.fwResult := r }
      let s :=
        if r = 1 then
          let s := { s with pen.fwNext := if img.type = 4 then 0 else img.type + 1
                            pen.fwLoaded := Nat.lor s.pen.fwLoaded (2 ^ (img.type - 1))
                            pen.images := s.pen.images ++ [⟨img.type, img.slot, img.factory, img.svn, img.version, img.digest⟩] }
          if img.type = 4 then s else startHostWait s
        else s
      if (s.pen.fwNext, s.pen.fwResult, s.pen.fwLoaded) = old then s else raiseIrq 4 s

/-- A loaded image of a type. -/
def imageOf (type : Nat) (s : State) : Option Loaded := s.pen.images.find? (·.type == type)

/-! ### Tokens (R415, R416) -/

/-- A token's item, read whole before its contents are judged (10 R351), and its fields up to the token check; `pre` is the rest
of the command's check 3 (00 R15). -/
def tokenChks (it : Item) (t : Token) (pre : List Chk) (s : State) : List Chk :=
  itemChk it 192 s ++
  [chk (t.fmt != 1) stVERSION 1,
   chkResv (t.resv || t.purpose == 0 || decide (4 < t.purpose) || (t.purpose != 3 && (t.scope != 0 || t.duration != 0)))]
  ++ pre ++ [chkLen (decide (t.len < 192))]

/-- The token does not authorise the command: wrong purpose, wrong nonce, or a bad signature where the state checks it (R416). -/
def tokenBad (purpose : Nat) (t : Token) (s : State) : Bool :=
  t.purpose != purpose
    || (match s.pen.nonce with
      | some (n, _) => t.nonce != n
      | none => true)
    || (!t.sigOk && if purpose = 4 then s.pen.otp.lc != 0 else s.pen.otp.lc == 2)

/-- A command that a token authorises: the check consumes the nonce whether it passes or fails (R415); then the other refusals
and the effect. -/
def tokenCmd (r op purpose : Nat) (it : Item) (t : Token) (pre : State → List Chk) (post : State → List Chk) (f : State → State) :
    State → Host.Outcome State Fault Refusal :=
  cmd r op (fun _ s => tokenChks it t (pre s) s) fun s =>
    let bad := tokenBad purpose t s
    let s := { s with pen.nonce := none }
    if bad then refuse r stDENIED 3 s
    else match firstBad (post s) with
      | some c => finish r c.status c.stage c.index [] [] s
      | none => f s

/-- TOKEN_NONCE: a fresh nonce replaces any earlier one (R404, R415). -/
def execTokenNonce (r : Nat) : State → Host.Outcome State Fault Refusal :=
  cmd r 0x97 (fun _ s => [chkExec s.pen.rngFail stBUSY]) fun s =>
    let (v, s) := draw s
    let n := v % 2 ^ 256
    ok r (w256 n) { s with pen.nonce := some (n, s.now) }

/-- NONCE_LAPSE: 60,000,000,000 ticks after its issue (R415). -/
def execNonceLapse : State → Host.Outcome State Fault Refusal :=
  act fun s => match s.pen.nonce with
    | some (_, t) => if s.powered = true ∧ t + 60000000000 ≤ s.now then { s with pen.nonce := none } else s
    | none => s

/-! ### Safelight (R417, R418) -/

/-- The data of a held contact sheet is zeroed when its scope closes (15 R478). -/
def zeroSheet (s : State) : State :=
  let sects : List Sect := s.obs.contact.sections.map fun (x : Sect) => { x with full := x.bare }
  { s with obs.contact.sections := sects }

/-- The safelight goes Off: 1 duration, 2 command, 3 reset or life cycle. -/
def slOff (reason : Nat) (s : State) : State :=
  if s.pen.safelight = 0 then s
  else
    zeroSheet (emit 0x25 4095 3 0 [reason]
      { s with pen.safelight := 0, pen.slSince := s.now, pen.slScope := 0, pen.slDuration := 0 })

/-- SAFELIGHT_ARM (R417, R426). -/
def execSafelightArm (r : Nat) : State → Host.Outcome State Fault Refusal :=
  cmd r 0x95 (fun _ s => [chkExec (s.pen.safelight != 0) stCONFLICT]) fun s =>
    ok r [] (emit 0x23 4095 3 0 [] { s with pen.safelight := 1, pen.slSince := s.now })

/-- SAFELIGHT_OPEN (R416, R417): in Sealed only after ARM_NOTICE. -/
def execSafelightOpen (r : Nat) (item : Item) (t : Token) : State → Host.Outcome State Fault Refusal :=
  tokenCmd r 0x96 3 item t
    (fun _ => [chkDeny (t.purpose == 3 && (decide (t.duration < 1000000000) || decide (86400000000000 < t.duration) || decide (32 ≤ t.scope)))])
    (fun s => [chkExec (s.pen.safelight != 1) stCONFLICT,
      chkExec (s.pen.otp.lc == 2 && decide (s.now < s.pen.slSince + ((genNow s).map (·.armNotice)).getD 0)) stBUSY])
    fun s =>
      ok r [] (emit 0x24 4095 3 0 ([t.scope, 0] ++ w64 t.duration)
        { s with pen.safelight := 2, pen.slSince := s.now, pen.slScope := t.scope, pen.slDuration := t.duration })

/-- SAFELIGHT_CLOSE (R417, R426). -/
def execSafelightClose (r : Nat) : State → Host.Outcome State Fault Refusal :=
  cmd r 0x98 (fun _ s => [chkExec (s.pen.safelight == 0) stCONFLICT]) fun s => ok r [] (slOff 2 s)

/-- SAFELIGHT_EXPIRY: DURATION has passed (R417). -/
def execSafelightExpiry : State → Host.Outcome State Fault Refusal :=
  act fun s => if s.powered = true ∧ s.pen.safelight = 2 ∧ s.pen.slSince + s.pen.slDuration ≤ s.now then slOff 1 s else s

/-! ### Burning OTP (R407 to R412) -/

/-- Only one command that writes OTP runs at a time (R410). -/
def chkBurn (s : State) : Chk := chkExec s.pen.busy.isSome stBUSY

/-- A burn starts; its command parks until it ends. -/
def burn (r : Nat) (b : Burn) (s : State) : State := park r .peneno { s with pen.busy := some b }

/-- A generation record as the host delivers it (R409): the packet's own check 3 (`deny`), the item, what it holds, with `bad` the rest of
its check 3 (10 R351); LENGTH 0 reads nothing (00 R16). -/
def genChks (len : Nat) (item : Item) (g : GenRec) (deny bad : Bool) (s : State) : List Chk :=
  [chkDeny deny, itemAlign item] ++ (if len = 0 then [] else itemRead item len s ++
    [chk (g.fmt != 1) stVERSION 1, chkResv g.resv, chkDeny (decide (3600000000000 < g.armNotice) || bad), chkLen (decide (len < 1024)), chkBurn s])

/-- OTP_GEN_WRITE (R410, R426). The slot is consumed from the first bit on. -/
def execOtpGenWrite (r len : Nat) (item : Item) (g : GenRec) (sigOk : Bool) : State → Host.Outcome State Fault Refusal :=
  cmd r 0x91 (fun _ s => genChks len item g (s.pen.otp.lc != 2 || slotsUsed s == 4) (g.gen != slotsUsed s + 1 || !sigOk) s) fun s =>
    if len = 0 then ok r [] s else burn r (.gen g) { s with pen.otp.used := s.pen.otp.used.set (g.gen - 1) true }

/-- LC_SEAL (R411, R426). A slot 1 that an earlier attempt has filled takes the same record again; one that holds anything else
refuses it. -/
def execLcSeal (r len : Nat) (item : Item) (g : GenRec) (sigOk : Bool) : State → Host.Outcome State Fault Refusal :=
  cmd r 0x92 (fun _ s => genChks len item g (s.pen.otp.lc != 1)
      (g.gen != 1 || !sigOk || (s.pen.otp.used.getD 0 false && (s.pen.otp.slots[0]?).join != some g)) s) fun s =>
    if len = 0 then ok r [] s else burn r (.seal g) { s with pen.otp.used := s.pen.otp.used.set 0 true }

/-- FW_SVN_COMMIT: the minimum rises to the loaded image's SVN, at most 64 (R407). -/
def execFwSvnCommit (r type : Nat) : State → Host.Outcome State Fault Refusal :=
  cmd r 0x99 (fun _ s => [chkDeny (type == 0 || decide (4 < type)), chkBurn s]) fun s =>
    burn r (.svn type (max (svnMin type s) (min 64 (((imageOf type s).map (·.svn)).getD 0)))) s

/-- FAC_CERT_WRITE: Blank only (R426). A LENGTH above the 2 KiB of the certificate's region (R408) fails check 4; LENGTH 0 burns nothing (00
R16). -/
def execFacCertWrite (r len : Nat) (item : Item) (cert : Nat) (subjectOk : Bool) : State → Host.Outcome State Fault Refusal :=
  cmd r 0xF0 (fun _ s => [chkDeny (s.pen.otp.lc != 0), itemAlign item]
      ++ (if len = 0 then [] else itemRead item len s ++ [chkLen (decide (2048 < len)), chkBurn s])) fun s =>
    if len = 0 then ok r [] s else burn r (.cert cert subjectOk) s

/-- FAC_PROVISION: the certificate must stand (R411). -/
def execFacProvision (r : Nat) : State → Host.Outcome State Fault Refusal :=
  cmd r 0xF1 (fun _ s => [chkDeny (s.pen.otp.lc != 0), chkExec (!((s.pen.otp.cert.map (·.2)).getD false)) stCONFLICT, chkBurn s])
    (burn r .provision)

/-- FAC_FW_REVOKE (R408, R426). -/
def execFacFwRevoke (r mask : Nat) : State → Host.Outcome State Fault Refusal :=
  cmd r 0xF2 (fun _ s => [chkResv (decide (64 ≤ mask)), chkDeny (!(s.pen.otp.lc == 0 || s.pen.otp.lc == 3)), chkBurn s])
    (burn r (.revoke mask))

/-- The certificate region after a write over what it holds: its bits are joined (R408). -/
def joinCert (old : Option (Nat × Bool)) (c : Nat) (subjectOk : Bool) (s : State) : Option (Nat × Bool) × State :=
  match old with
  | none => (some (c, subjectOk), s)
  | some (d, okd) =>
    let m := Nat.lor c d
    if m = c then (some (c, subjectOk), s)
    else if m = d then (some (d, okd), s)
    else let (v, s) := draw s; (some (m, v % 2 == 1), s)

/-- A burn that ends has set all its bits, and bits are only ever added; generation 1 is in force from then on (R407 to R411). -/
def endBurn (b : Burn) (s : State) : State :=
  let s := { s with pen.busy := none }
  match b with
  | .gen g => { s with pen.otp.slots := s.pen.otp.slots.set (g.gen - 1) (some g) }
  | .seal g => { s with pen.otp.slots := s.pen.otp.slots.set 0 (some g), pen.otp.lc := max s.pen.otp.lc 2, pen.otp.half := none, pen.inForce := 1 }
  | .provision => { s with pen.otp.lc := max s.pen.otp.lc 1, pen.otp.half := none }
  | .cert c k => let (x, s) := joinCert s.pen.otp.cert c k s; { s with pen.otp.cert := x }
  | .revoke m => { s with pen.otp.fwRevoke := Nat.lor s.pen.otp.fwRevoke m }
  | .svn t v => { s with pen.otp.svn := s.pen.otp.svn.set (t - 1) (max (s.pen.otp.svn.getD (t - 1) 0) v) }
  | .lc 3 => { s with pen.otp.killOwner := true, pen.otp.lc := max s.pen.otp.lc 3, pen.otp.half := none, pen.inForce := 0 }
  | .lc t => { s with pen.otp.killUds := true, pen.otp.lc := max s.pen.otp.lc t, pen.otp.half := none }

/-- A burn that a reset or the loss of input stops: how much of it was burned is a free value (14 R456, log 6); none of it, its
precondition or first part, part of its nibble, or all. -/
def stopBurn (s : State) : State :=
  match s.pen.busy with
  | none => s
  | some b =>
    let (v, s) := draw { s with pen.busy := none }
    let o := s.pen.otp
    let k := v % 4
    if k = 3 then endBurn b s
    else match b with
      | .gen g => { s with pen.otp.used := o.used.set (g.gen - 1) (o.used.getD (g.gen - 1) false && decide (0 < k)) }
      | .seal g =>
        if k = 0 then (if (o.slots[0]?).join = some g then s else { s with pen.otp.used := o.used.set 0 (decide (v / 4 % 2 = 1)) })
        else { s with pen.otp.slots := o.slots.set 0 (some g), pen.otp.half := if k = 2 then some 2 else o.half }
      | .provision => { s with pen.otp.half := if k = 0 then o.half else some 1 }
      | .cert c _ =>
        if k = 0 then s
        else let (x, s) := joinCert o.cert (Nat.land c (v / 4)) false s; { s with pen.otp.cert := x }
      | .revoke m => { s with pen.otp.fwRevoke := Nat.lor o.fwRevoke (Nat.land m (v / 4)) }
      | .svn t n => { s with pen.otp.svn := o.svn.set (t - 1) (o.svn.getD (t - 1) 0 + (v / 4) % (n + 1 - o.svn.getD (t - 1) 0)) }
      | .lc t =>
        if k = 0 then s
        else
          let o := if t = 3 then { o with killOwner := true } else { o with killUds := true }
          { s with pen.otp := { o with half := if k = 2 then some t else o.half } }

/-! ### LC_RETURN and LC_SCRAP (R411, R412) -/

/-- Every sagger but SID 0 is Free (R412). -/
def tenantsFree (s : State) : Bool := s.sags.tab.all fun g => g.1 == 0 || g.2.st == .free

/-- LC_RETURN (R411, R412): the reply comes first, the burn and the erasure follow. -/
def execLcReturn (r : Nat) (item : Item) (t : Token) : State → Host.Outcome State Fault Refusal :=
  tokenCmd r 0x93 1 item t (fun s => [chkDeny (!(s.pen.otp.lc == 1 || s.pen.otp.lc == 2))])
    (fun s => [chkExec (!tenantsFree s) stCONFLICT, chkBurn s]) fun s => ok r [] { s with pen.busy := some (.lc 3) }

/-- LC_SCRAP (R411, R412). -/
def execLcScrap (r : Nat) (item : Item) (t : Token) : State → Host.Outcome State Fault Refusal :=
  tokenCmd r 0x94 2 item t (fun s => [chkDeny (s.pen.otp.lc == 4)])
    (fun s => [chkExec (!tenantsFree s) stCONFLICT, chkBurn s]) fun s => ok r [] { s with pen.busy := some (.lc 4) }

/-- Erases every hub table, shelf SRAM, glaze stores, the trace, mover and replay buffers, the receive pools and every Golha key;
every port goes Down (R412). Pool DRAM stays, and so do die and spare settings. -/
def eraseHub (s : State) : State :=
  let ports := s.ports.map fun (q : Port) => { q with
    st := .down, downAt := s.now, held := [], resend := 0, txq := [], txLeft := 0, rxPart := [], rxOcc := List.replicate 16 0
    lctl := [], assocs := [], reqs := [], tagGens := [], gate := none, gateNext := none }
  let shelves := s.kiln.shelves.map fun (x : Shelf) =>
    { resetShelf with out := x.out, residue := x.residue, free := x.free, moved := x.moved }
  let dies := s.kiln.dies.map fun (d : KilnDie) => { d with queue := [] }
  { s with
    xlt := resetXlt, dir := resetDir, ports := ports, outst := [], twin.rxWait := []
    sags := { State.reset.sags with shape := s.sags.shape }
    kiln := { resetKiln with shelves := shelves, dies := dies }
    obs.trace := { s.obs.trace with recs := [], first := 0, spillPages := [] }, obs.mirrors := [] }

/-- The status reply of the command has left (R412 step 1). -/
def lcReplied (s : State) : Bool :=
  !(s.host.statusQ.any fun x => (x.opcode == 0x93 || x.opcode == 0x94) && x.status == stOK)
    || ((ringOf 4 s).map (·.st)) != some .running

/-- LC_CHANGED: the burn and the erasure end, the record is written and the session ends (R412). -/
def execLcChanged : State → Host.Outcome State Fault Refusal :=
  act fun s => match s.pen.busy with
    | some (.lc t) =>
      if s.powered = false ∨ lcReplied s = false then s
      else
        let old := s.pen.otp.lc
        let s := emit 0x22 4095 3 0 [old, t] (endBurn (.lc t) s)
        endSession (slOff 3 (eraseHub { s with pen.factoryDebug := s.pen.factoryDebug && t == 3 }))
    | _ => s

/-- FAC_DEBUG_OPEN (R413, R416). -/
def execFacDebugOpen (r : Nat) (item : Item) (t : Token) : State → Host.Outcome State Fault Refusal :=
  tokenCmd r 0xF3 4 item t (fun s => [chkDeny (!(s.pen.otp.lc == 0 || s.pen.otp.lc == 3))]) (fun _ => []) fun s =>
    ok r [] { s with pen.factoryDebug := true }

/-! ### The OTP as words (R408, R409) -/

/-- Words of a generation slot, 256 of them; what an interrupted burn left is free (log 6). -/
def genWords (n : Nat) (g : Option GenRec) (used : Bool) : List Nat :=
  let free (a k : Nat) : List Nat := (List.range k).map fun i => Config.otpWord (256 * n + a + i) % 2 ^ 32
  match g with
  | some g =>
    [1 + 2 ^ 4 * g.gen, g.fabricValid + 2 ^ 4 * g.glazeValid] ++ w64 g.armNotice ++ List.replicate 12 0
      ++ natWords 16 (g.owner % 2 ^ 456) ++ natWords 16 (g.host % 2 ^ 456) ++ natWords 16 (g.safelight % 2 ^ 456)
      ++ (List.range 4).flatMap (fun i => natWords 16 (g.fabric.getD i 0 % 2 ^ 456))
      ++ (List.range 4).flatMap (fun i => natWords 16 (g.glaze.getD i 0 % 2 ^ 456)) ++ List.replicate 32 0 ++ natWords 32 (g.sig % 2 ^ 912)
  | none => if used then free 0 256 else List.replicate 256 0

/-- The LC field (R411), with a partly burned nibble's bits free. -/
def lcField (o : Otp) : Nat := 2 ^ (4 * o.lc) - 1 + (match o.half with
  | some t => 2 ^ (4 * (t - 1)) * (Config.otpWord 0 % 15)
  | none => 0)

/-- The whole OTP, 6,144 words, with zeros in place of the UDS (R408). -/
def otpWords (s : State) : List Nat :=
  let o := s.pen.otp
  let free (a k : Nat) : List Nat := (List.range k).map fun i => Config.otpWord (a + i) % 2 ^ 32
  [lcField o, 0, b2n o.killOwner + 2 * b2n o.killUds, 0, o.fwRevoke, 0] ++ o.svn.flatMap (fun n => w64 (2 ^ n - 1)) ++ [0, 0]
    ++ List.replicate 16 0 ++ free 32 64 ++ List.replicate 160 0
    ++ (List.range 4).flatMap (fun i => genWords (i + 1) ((o.slots[i]?).join) (o.used.getD i false))
    ++ natWords 512 ((o.cert.map (·.1)).getD 0) ++ List.replicate 256 0 ++ free 2048 4096

/-- FAC_OTP_DUMP (R408, R426). -/
def execFacOtpDump (r : Nat) : State → Host.Outcome State Fault Refusal :=
  cmd r 0xF4 (fun f s => [chkDeny (!(s.pen.otp.lc == 0 || s.pen.otp.lc == 3)), outChk3 f, outChk4 f 24576 s]) fun s =>
    okItem r [.words (otpWords s)] s

/-! ### The proof (R419 to R421) -/

/-- Eight words of a digest. -/
def digestWords (ws : List Nat) : List Nat := w256 (Config.shake256 ws)

/-- SHAKE256 of the spare map (03 R114): fuse map, spares assigned, the state of lane positions and the position behind each moved lane (00
R6, R7), soft DRAM repairs. The rule gives the parts and no layout; their order and words are the model's (log 78). -/
def spareDigest (s : State) : List Nat :=
  digestWords ((List.range 4096).map (fun i => Config.otpWord (2048 + i) % 2 ^ 32)
    ++ s.mem.spares.flatMap (fun x => [x.array, x.unit, x.bank, b2n x.col, x.index])
    ++ s.kiln.shelves.zipIdx.flatMap (fun x => x.1.residue.flatMap fun e => [264 * x.2 + e.1, e.2])
    ++ s.kiln.shelves.zipIdx.flatMap (fun x => x.1.moved.flatMap fun e => [264 * x.2 + e.1, 264 * x.2 + e.2])
    ++ s.mem.softRows.map locWord)

/-- Digest of the record in force; zero when GEN is 0 (R419). -/
def otpDigest (s : State) : List Nat :=
  match genNow s with
  | some g => digestWords (genWords s.pen.inForce (some g) true)
  | none => List.replicate 8 0

/-- MODE of TWN_STATUS (11 R401). -/
def twinCode (s : State) : Nat :=
  match s.twin.mode with
  | .starting => 0
  | .duplex => 1
  | .solo => 2
  | .fatal => 3

/-- GLB_DIES port bits. -/
def portBits (s : State) : Nat := s.ports.zipIdx.foldl (fun n p => n + 2 ^ p.2 * b2n p.1.inSvc) 0

/-- Saggers that are not Free, in SID order. -/
def liveSaggers (s : State) : List (Nat × Sagger) := s.sags.tab.filter fun g => g.2.st != .free

/-- TOTAL_LENGTH of a proof (R419). -/
def proofLen (s : State) : Nat := 1648 + 48 * s.kiln.library.length + 128 * (liveSaggers s).length

/-- Word 0 of the head. -/
def proofWord0 (s : State) : Nat :=
  1 + 2 ^ 4 * s.pen.otp.lc + 2 ^ 8 * (if (genNow s).isSome then s.pen.inForce else 0) + 2 ^ 12 * slotsUsed s + 2 ^ 16 * s.pen.safelight
    + 2 ^ 18 * (if s.pen.safelight = 2 then s.pen.slScope else 0) + 2 ^ 23 * b2n s.pen.factoryDebug + 2 ^ 24 * twinCode s

/-- SAFELIGHT_SINCE, 0 when Off. -/
def slSinceOf (s : State) : Nat := if s.pen.safelight = 0 then 0 else s.pen.slSince

/-- The head, 64 words. -/
def proofHead (nonce : Nat) (s : State) : List Nat :=
  [proofWord0 s, s.kiln.library.length + 2 ^ 16 * (liveSaggers s).length, proofLen s, portBits s + 2 ^ 16 * s.glb.kilnIn.toNat]
    ++ w64 s.now ++ w64 (slSinceOf s) ++ w256 nonce ++ natWords 16 (edPublic s.pen.idKey) ++ natWords 16 (edPublic s.pen.aliasKey)
    ++ spareDigest s ++ otpDigest s

/-- The port section. -/
def proofPorts (s : State) : List Nat :=
  s.ports.zipIdx.flatMap fun p => natWords 16 (edPublic (s.pen.aliasKey.map fun k => portIdKey k p.2) + 2 ^ 456 * b2n p.1.inSvc)

/-- The firmware section: the ROM and the four images. -/
def proofFirmware (s : State) : List Nat :=
  (List.range 12).map (fun i => Config.romWord i % 2 ^ 32) ++ (List.range 4).flatMap fun i =>
    match imageOf (i + 1) s with
    | some x => [x.type + 2 ^ 4 * x.slot + 2 ^ 6 * b2n x.factory + 2 ^ 16 * x.svn, x.version, svnMin (i + 1) s, 0] ++ w256 x.digest
    | none => [i + 1, 0, svnMin (i + 1) s, 0] ++ List.replicate 8 0

/-- Glazes in ascending ID order. -/
def sortedGlazes (s : State) : List Glaze := s.kiln.library.mergeSort fun a b => decide (a.id ≤ b.id)

/-- The glaze section. -/
def proofGlazes (s : State) : List Nat :=
  (sortedGlazes s).flatMap fun g => [g.id + 2 ^ 16 * g.key + 2 ^ 18 * g.mode, g.version, g.code.length, 0] ++ w256 g.digest

/-- The records that LAYOUT digests (R420): one for each leaf that is not Outside, in PVA order. -/
def layoutWords (sid : Nat) (s : State) : List Nat :=
  (s.xlt.leaves.filter fun e => e.1 / 2 ^ 31 == sid).flatMap fun e =>
    let l := e.2
    w64 (e.1 % 2 ^ 31 * 2 ^ 21) ++ w64 (if l.pres then l.ppa else 0)
      ++ [b2n l.rd + 2 * b2n l.wr + 4 * b2n l.atm + 8 * b2n l.pin + 16 * b2n l.pres + 32 * b2n l.last + 64 * b2n l.big, 0]

/-- 2 MiB pages of the SID's leaves whose PPA has a format. -/
def pagesIn (sid fmt : Nat) (s : State) : Nat :=
  s.xlt.leaves.foldl (fun n e => if e.1 / 2 ^ 31 == sid && e.2.pres && ppaFormat e.2.ppa == fmt then n + (if e.2.big then 512 else 1) else n) 0

/-- AIDs allowed for a SID, with the port of each. -/
def allowedAids (sid : Nat) (s : State) : List (Nat × Nat) :=
  s.ports.zipIdx.flatMap fun p => (p.1.assocs.filter fun a => a.2.allow == some sid).map fun a => (a.1, p.2)

/-- One entry of the sagger section; `stable` tells that no command changed the leaf entries during the walk (R421). -/
def proofSagger (sid : Nat) (g : Sagger) (stable : Bool) (s : State) : List Nat :=
  let al := allowedAids sid s
  let st := if g.st = .active then 1 else if g.st = .draining then 2 else 0
  let ports := (List.range 16).foldl (fun n p => n + 2 ^ p * b2n (al.any fun a => a.2 == p)) 0
  let shelves := (List.range 8).foldl (fun n k => n + 2 ^ (40 * k) * (g.par.shelves.getD k 0)) 0
  [sid + 2 ^ 12 * st + 2 ^ 14 * b2n g.sealed + 2 ^ 15 * b2n stable + 2 ^ 16 * ports, g.par.fCrate, g.par.fPrate, g.par.lCrate, g.par.lPrate,
   epochOf sid s, pagesIn sid 1 s, pagesIn sid 2 s] ++ natWords 10 shelves
    ++ [((al.map (·.1)).eraseDups).length + 2 ^ 16 * g.tcBlocks + 2 ^ 21 * g.dirBlocks] ++ List.replicate 5 0
    ++ digestWords (layoutWords sid s)

/-- The sagger section; `changed` are the SIDs whose entries changed during the walk. -/
def proofSaggers (changed : List Nat) (s : State) : List Nat :=
  (liveSaggers s).flatMap fun g => proofSagger g.1 g.2 (!changed.contains g.1) s

/-- The proof, signed by the alias key. -/
def proofWords (nonce : Nat) (changed : List Nat) (s : State) : List Nat :=
  let ws := proofHead nonce s ++ proofPorts s ++ proofFirmware s ++ proofGlazes s ++ proofSaggers changed s
  ws ++ natWords 32 (edSign s.pen.aliasKey (Config.shake256 ws))

/-- PROOF_GET parks while it walks the tables (R421). -/
def execProofGet (r nonce : Nat) : State → Host.Outcome State Fault Refusal :=
  cmd r 0x90 (fun f s => [outChk3 f, outChk4 f (proofLen s) s]) fun s => park r (.proof (nonce % 2 ^ 256) []) s

/-- The walk ends: the proof is signed and delivered (R421, R426). -/
def proofEnd (r nonce : Nat) (changed : List Nat) (s : State) : State :=
  match inflightOf r s with
  | none => s
  | some f =>
    if f.outLen < outNeed f (proofLen s) then refuse r stLENGTH 4 s
    else
      finish r stOK 0 0xFFFFF [proofLen s, ((liveSaggers s).filter fun g => changed.contains g.1).length]
        [.words (proofWords nonce changed s)] s

/-! ### SPDM and the session (R422 to R425)

Response and error codes are those of the DMTF standard (log 4). -/

/-- The responder answers: it is ready from start step 7, in Scrap from its start (R403, R413). -/
def spdmReady (s : State) : Bool := s.on && (s.pen.aliasReady || (s.pen.started && s.pen.otp.lc == 4))

/-- Sends a response. -/
def spdmSay (code : Nat) (body : List Nat) (s : State) : State := { s with hostOut := s.hostOut ++ [.spdm code body] }

/-- Sends ERROR with a code: 1 invalid request, 6 decrypt error, 7 unsupported request. -/
def spdmError (e : Nat) (s : State) : State := spdmSay 0x7F [e] s

/-- A request that every state answers. -/
def spdmAny (f : State → State) : State → Host.Outcome State Fault Refusal := act fun s => if spdmReady s then f s else s

/-- A request that Scrap answers with ERROR (R413). -/
def spdmKeyed (f : State → State) : State → Host.Outcome State Fault Refusal :=
  spdmAny fun s => if s.pen.otp.lc = 4 then spdmError 7 s else f s

/-- GET_VERSION: one entry, 1.3 (R422). -/
def execGetVersion : State → Host.Outcome State Fault Refusal := spdmAny (spdmSay 0x04 [1, 0x1300])

/-- GET_CAPABILITIES: CTExponent, flags, DataTransferSize, MaxSPDMmsgSize (R422). Flags CERT 0x2, CHAL 0x4, MEAS with signature
0x10, ENCRYPT 0x40, MAC 0x80, MUT_AUTH 0x100, KEY_EX 0x200, HANDSHAKE_IN_THE_CLEAR 0x8000 (log 4). -/
def execGetCapabilities : State → Host.Outcome State Fault Refusal := spdmAny (spdmSay 0x61 [14, 0x83D6, 4096, 4096])

/-- NEGOTIATE_ALGORITHMS: extended algorithms 1 SHAKE256, 2 X448, 3 the J9P key schedule (R422). -/
def execNegotiateAlgorithms : State → Host.Outcome State Fault Refusal := spdmAny (spdmSay 0x63 [1, 2, 3])

/-- GET_CERTIFICATE: slot 0; the chain holds the device certificate (R422). -/
def execGetCertificate (slot : Nat) : State → Host.Outcome State Fault Refusal :=
  spdmKeyed fun s => if slot = 0 then spdmSay 0x02 [(s.pen.otp.cert.map (·.1)).getD 0, edPublic s.pen.idKey, edPublic s.pen.aliasKey] s else spdmError 1 s

/-- The eleven measurements, each a digest of eight words (R423). -/
def measurement (i : Nat) (s : State) : List Nat :=
  if i = 1 then (List.range 8).map fun k => Config.romWord (4 + k) % 2 ^ 32
  else if i ≤ 5 then w256 (((imageOf (i - 1) s).map (·.digest)).getD 0)
  else if i = 6 then digestWords (proofGlazes s)
  else if i = 7 then digestWords (proofWord0 s :: otpDigest s)
  else if i = 8 then spareDigest s
  else if i = 9 then digestWords (proofWord0 s :: w64 (slSinceOf s))
  else if i = 10 then digestWords (proofSaggers [] s)
  else digestWords (proofPorts s)

/-- All measurements. -/
def allMeasurements (s : State) : List Nat := (List.range 11).flatMap fun i => measurement (i + 1) s

/-- Words with a signature by the alias key. -/
def signed (ws : List Nat) (s : State) : List Nat := ws ++ natWords 29 (edSign s.pen.aliasKey (Config.shake256 ws))

/-- CHALLENGE: slot 0, summary hash type 0x00 or 0xFF; signed (R422). -/
def execChallenge (slot hashType : Nat) : State → Host.Outcome State Fault Refusal :=
  spdmKeyed fun s =>
    if slot = 0 ∧ (hashType = 0 ∨ hashType = 0xFF) then
      spdmSay 0x03 (signed (if hashType = 0 then [] else digestWords (allMeasurements s)) s) s
    else spdmError 1 s

/-- GET_MEASUREMENTS: indices 1 to 11 or 0xFF, signature on request (R422, R423). -/
def execGetMeasurements (index : Nat) (signed? : Bool) : State → Host.Outcome State Fault Refusal :=
  spdmKeyed fun s =>
    let say (ws : List Nat) : State := spdmSay 0x60 (if signed? then signed ws s else ws) s
    if index = 0xFF then say (allMeasurements s)
    else if 1 ≤ index ∧ index ≤ 11 then say (measurement index s)
    else spdmError 1 s

/-- The ASCII strings "J9P-HS" and "J9P-SESSION" (R424). -/
def strHs : List Nat := [0x4A, 0x39, 0x50, 0x2D, 0x48, 0x53]
def strSession : List Nat := [0x4A, 0x39, 0x50, 0x2D, 0x53, 0x45, 0x53, 0x53, 0x49, 0x4F, 0x4E]

/-- H of the key schedule (R424): SHAKE256 with 64 bytes of output. -/
def hash64 (bytes : List Nat) : Nat := Config.shake512 bytes % 2 ^ 512

/-- hs of R424: its low half is rfk, its high half qfk. -/
def handshakeSecret (z th1 : Nat) : Nat := hash64 (strHs ++ bytesLE 56 z ++ bytesLE 64 th1)

/-- KH and KD of the session that FINISH makes (R424): `fin` are its bytes up to RequesterVerifyData. -/
def sessionKeys (z th1 rspVerify : Nat) (fin : List Nat) : Nat × Nat :=
  let th2 := hash64 (bytesLE 64 th1 ++ bytesLE 64 rspVerify ++ fin)
  let req := hash64 (bytesLE 32 (handshakeSecret z th1 / 2 ^ 256) ++ bytesLE 64 th2)
  let k := hash64 (strSession ++ bytesLE 56 z ++ bytesLE 64 th2 ++ bytesLE 64 req)
  (k % 2 ^ 256, k / 2 ^ 256)

/-- The KEY_EXCHANGE_RSP up to ResponderVerifyData (R422): MutAuthRequested and ExchangeData. -/
def exchangeRsp (x : Nat) (s : State) : List Nat := b2n (s.pen.otp.lc == 2) :: natWords 14 (Config.x448Public x % 2 ^ 448)

/-- KEY_EXCHANGE: a handshake begins with a fresh X448 pair; the session in force is not disturbed (R404, R422 to R425). The
row carries neither the host's ExchangeData nor the transcript through the request: both are free values (log 77). -/
def execKeyExchange : State → Host.Outcome State Fault Refusal :=
  spdmKeyed fun s =>
    if s.pen.rngFail then spdmError 5 s
    else
      let (v, s) := draw s
      let (pub, s) := draw s
      let (msgs, s) := draw s
      let x := v % 2 ^ 448
      let z := Config.x448 x (pub % 2 ^ 448) % 2 ^ 448
      let rsp := exchangeRsp x s
      let th1 := hash64 (bytesLE 64 msgs ++ leBytes rsp)
      let verify := hash64 (bytesLE 32 (handshakeSecret z th1 % 2 ^ 256) ++ bytesLE 64 th1)
      spdmSay 0x64 (rsp ++ natWords 16 verify) { s with pen.handshake := true, pen.exch := some (z, th1, verify) }

/-- FINISH: with a right RequesterVerifyData, and in Sealed a good HOST signature, the new session takes effect: its keys replace the old,
every ring is Stopped with SEQ 0 (R424, R425, 10 R357). A failed handshake leaves the session in force. -/
def execFinish (hostSigOk : Bool) (v : FinishBody) : State → Host.Outcome State Fault Refusal :=
  spdmKeyed fun s =>
    let ended := { s with pen.handshake := false, pen.exch := none }
    if s.pen.handshake = false then spdmError 4 s
    else if v.ok = false ∨ (s.pen.otp.lc = 2 ∧ (hostSigOk = false ∨ (genNow s).isNone)) then spdmError 6 ended
    else
      let keys := s.pen.exch.map fun e => sessionKeys e.1 e.2.1 e.2.2 v.bytes
      let rsp := (List.range 16).map fun i => (Config.openWord 9 i).toNat
      let s := stopRings true (spdmSay 0x65 rsp { ended with pen.session := true, pen.keys := keys })
      let s := { s with glb.step := max 4 s.glb.step }
      if s.glb.memStarted then s else startHostWait (endHostWait s.now s)

/-- Any other SPDM request: ERROR UnsupportedRequest (R422). -/
def execSpdmUnsupported : State → Host.Outcome State Fault Refusal := spdmAny (spdmError 7)

end Sys2Proof.Machine
end

