-- ==== Sys2Proof/Machine/Power.lean ====
section
/-! DEFINITION. Input, rails, the start sequence, resets and power-down (14), the power governor (01 R42), the tally copies,
crossings and frozen regions (13), die-to-die transfers (01 R28). -/

namespace Sys2Proof.Machine

/-! ### Input and rails (14 R444 to R447, R454, R458; 16 R496) -/

/-- What power-on or a module reset leaves of the old state: the OTP, the board, what the module has put out, the queue, and
hard repairs, which the DIMMs hold (14 R453, log 12). -/
def freshState (s : State) : State :=
  let s := stopBurn s
  { State.reset with
    pending := s.pending, freeCtr := s.freeCtr, hostOut := s.hostOut, fabOut := s.fabOut, sideOut := s.sideOut
    pen := { resetPen with otp := s.pen.otp }, mem := { resetMem with hardRows := s.mem.hardRows }
    glb := { State.reset.glb with inputGood := s.glb.inputGood, board := s.glb.board } }

/-- The module without rails, its input as it is. -/
def dark (s : State) : State :=
  let f := freshState s
  { f with glb.blocked := s.glb.blocked, glb.disconnected := s.glb.disconnected, glb.railFault := s.glb.railFault }

/-- INPUT_GOOD: 64 V good. Power-on starts the rails with the board that stands; while PWR_FAIL is handled the start follows its
end; after a rail fault or an overtemperature the input must have fallen first (R444, R446, R456). -/
def execInputGood (b : Board) : State → Host.Outcome State Fault Refusal :=
  act fun s =>
    if s.glb.inputGood = true ∨ s.glb.blocked = true then s
    else if s.glb.pwrFail then { s with glb.inputGood := true, glb.board := some b }
    else freshState { s with glb.inputGood := true, glb.board := some b }

/-- RAIL_GROUP_GOOD: the next of the three groups is in its window; PWR_GOOD rises with the last (R445, R446, 16 R485). -/
def execRailGroupGood : State → Host.Outcome State Fault Refusal :=
  act fun s =>
    if s.glb.inputGood = true ∧ s.glb.blocked = false ∧ s.glb.pwrFail = false ∧ s.glb.group < 3 then
      { s with glb.group := s.glb.group + 1, side.pwrGood := s.glb.group == 2 }
    else s

/-- RAIL_FAULT: a rail misses its window; every rail goes off, the board controller is told, no retry until the input has
fallen (R446). -/
def execRailFault (_rail : Nat) : State → Host.Outcome State Fault Refusal :=
  act fun s =>
    if s.glb.inputGood = true ∧ s.glb.blocked = false ∧ s.glb.pwrFail = false ∧ s.glb.group < 3 then
      ibi 0x04 { s with glb.group := 0, glb.blocked := true, glb.railFault := true, side.pwrGood := false }
    else s

/-- HUB_RESET_RELEASE: 1 ms after the last rail is good, or after the actions of MODULE_RESET (R446, R454). -/
def execHubResetRelease : State → Host.Outcome State Fault Refusal :=
  act fun s =>
    if s.glb.group = 3 ∧ s.glb.pwrFail = false ∧ s.glb.mrst = false ∧ s.pen.romError = false ∧ s.glb.hubReset = true then
      { s with glb.hubReset := false }
    else s

/-- TALLY_START: with the reference present the hub PLL locks and the tally starts at 0 (R447, 13 R432). The key of
line handles is drawn anew (04 R123). -/
def execTallyStart : State → Host.Outcome State Fault Refusal :=
  act fun s =>
    if s.glb.hubReset = false ∧ s.glb.pwrFail = false ∧ s.tal.running = false ∧ (s.glb.board.map (·.refOk)).getD false = true then
      let (k, s) := draw s
      { s with tal.now := 0, tal.running := true, tal.locked := true, tal.refOk := true, dir.handleKey := k }
    else s

/-- INPUT_LOW: recorded at most once in 1,000,000,000 ticks (R444). -/
def execInputLow (mv : Nat) : State → Host.Outcome State Fault Refusal :=
  act fun s =>
    if s.glb.inputGood = true ∧ s.glb.pwrFail = false ∧ 53000 ≤ mv ∧ mv < 56000 then
      let s := { s with glb.inputLow := true }
      let recent := match s.glb.lastLow with
        | some t => decide (s.now < t + 1000000000)
        | none => false
      if s.on = true ∧ recent = false then ibi 0x06 (emit 0x1F 4095 0 0 [mv] { s with glb.lastLow := some s.now }) else s
    else s

/-- INPUT_LOW_CLEAR: the input is back at 56 V (R444, R460). -/
def execInputLowClear : State → Host.Outcome State Fault Refusal := act fun s => { s with glb.inputLow := false }

/-- PWR_FAIL begins: gates hold, transmitters stop, a burn stops, event pins are released, the board controller is told
(R458, 16 R492). -/
def failPower (s : State) : State :=
  let s := stopBurn s
  let ports := s.ports.map fun (q : Port) => { q with st := .down, downAt := s.now }
  let s := { s with glb.pwrFail := true, glb.pwrFailAt := s.now, glb.inputLow := false, glb.resetDue := none, glb.selfRefresh := true
                    side.pwrGood := false, ports := ports }
  ibi 0x03 (disarm s)

/-- PWR_FAIL: the input falls below 53 V, which ends a block of the rails, or rises above 70 V, which disconnects it (R444, R458). -/
def execPwrFail (overVoltage : Bool) : State → Host.Outcome State Fault Refusal :=
  act fun s =>
    if s.glb.inputGood = false then s
    else
      let run := s.glb.blocked = false ∧ s.glb.pwrFail = false
      let s := { s with glb.inputGood := false, glb.blocked := s.glb.blocked && overVoltage, glb.inputLow := false
                        glb.disconnected := s.glb.disconnected || overVoltage }
      if run then failPower s else s

/-- PWR_FAIL_RAILS_OFF: 200,000 ticks after PWR_FAIL; an input that is good again starts the module (R456, R458). -/
def execPwrFailRailsOff : State → Host.Outcome State Fault Refusal :=
  act fun s =>
    if s.glb.pwrFail = true ∧ (s.tal.running = false ∨ s.glb.pwrFailAt + 200000 ≤ s.now) then
      if s.glb.inputGood = true ∧ s.glb.blocked = false then freshState s else dark s
    else s

/-- HUB_OVERTEMP: PWR_FAIL; the input stage disconnects and stays off until the input falls below 53 V (16 R496). -/
def execHubOvertemp : State → Host.Outcome State Fault Refusal :=
  act fun s =>
    if s.glb.group = 3 ∧ s.glb.pwrFail = false then failPower { s with glb.blocked := true, glb.disconnected := true } else s

/-! ### Module reset (14 R453 to R456) -/

/-- The module is reset: 1 MRST_N, 2 MODULE_RESET. Rails, board, the management side and soft repairs stay; private
instructions of the test port end (16 R493); the hub is held in reset. -/
def moduleReset (cause : Nat) (s : State) : State :=
  let f := freshState s
  let ir := if s.side.tapIr = 0x40 ∨ s.side.tapIr = 0x41 then 0xFF else s.side.tapIr
  let side := { s.side with timers := f.side.timers, pins := (disarm s).side.pins, fatalN := true, tapIr := ir }
  { f with glb := { f.glb with inputLow := s.glb.inputLow, disconnected := s.glb.disconnected, group := s.glb.group, mrst := s.glb.mrst
                               resetCause := cause, prevFatal := if s.twin.mode = .fatal then s.twin.fatalCause else 0 }
           side := side, mem.softRows := s.mem.softRows }

/-- MRST_N held low for 10 µs (R454). -/
def execMrstN : State → Host.Outcome State Fault Refusal :=
  act fun s =>
    if s.glb.mrst = true ∨ s.glb.pwrFail = true ∨ s.glb.inputGood = false then s
    else if s.glb.group < 3 then { s with glb.mrst := true }
    else { moduleReset 1 s with glb.mrst := true }

/-- MRST_N rises; with all rails good the hub's reset is released 1 ms later (R454). -/
def execMrstNRelease : State → Host.Outcome State Fault Refusal :=
  act fun s =>
    if s.glb.mrst = false then s
    else
      let scan := s.side.tapIr = 0x00 ∨ s.side.tapIr = 0x03 ∨ s.side.tapIr = 0x04
      let s := { s with glb.mrst := false, side.tapIr := if scan then 0xFF else s.side.tapIr }
      if s.glb.group = 3 ∧ s.glb.pwrFail = false then { s with glb.hubReset := false } else s

/-- MODULE_RESET (R455). The reset starts 1,000,000 ticks after its reply. -/
def execModuleReset (r : Nat) (force : Bool) : State → Host.Outcome State Fault Refusal :=
  cmd r 0x0B (fun _ s => [chkExec (!force && !tenantsFree s) stCONFLICT]) (ok r [])

/-- MODULE_RESET_BEGIN (R454). -/
def execModuleResetBegin : State → Host.Outcome State Fault Refusal :=
  act fun s => match s.glb.resetDue with
    | some t => if s.on = true ∧ t ≤ s.now then moduleReset 2 s else s
    | none => s

/-! ### The start sequence (14 R448 to R452) -/

/-- Step 1 has ended: each die has joined or failed to. -/
def allJoined (s : State) : Bool := s.tal.dies.all fun d => d.joined || d.failed

/-- A free phase of a tally copy, within 2 ticks (13 R434; log 6). -/
def drawPhase (s : State) : Int × State := let (v, s) := draw s; (((v % 5 : Nat) : Int) - 2, s)

/-- Changes the tally copy of a die or port. -/
def modTally (unit : Nat) (f : DieTally → DieTally) (s : State) : State := { s with tal.dies := s.tal.dies.modify unit f }

/-- DIE_JOIN: a die joins, fails to join, or joins too late (R448, R449, 13 R433). -/
def execDieJoin (unit : Nat) (ok : Bool) (delay : Nat) : State → Host.Outcome State Fault Refusal :=
  act fun s => match s.tal.dies[unit]? with
    | none => s
    | some d =>
      if s.powered = false ∨ d.joined = true then s
      else
        let port := decide (8 ≤ unit)
        let region := if port then 2 else 1
        let u := if port then unit - 8 else unit
        let s :=
          if d.failed then
            if ok then emit 0x29 4095 region u [] (modTally unit (fun d => { d with joined := true }) s) else s
          else if ok then
            let (x, s) := drawPhase s
            let s := modTally unit (fun d => { d with joined := true, synced := true, delay := delay, offset := x }) s
            if port then modPort u (fun q => { q with inSvc := true }) s
            else { s with glb.kilnIn := s.glb.kilnIn ||| (1#8 <<< u) }
          else
            let s := modTally unit (fun d => { d with failed := true }) s
            if port then emit 0x14 4095 2 u [5] (modPort u (fun q => { q with outCause := 5 }) s)
            else emit 0x0A 4095 1 u [1, 7] (modDie u (fun m => { m with st := .lost }) s)
        if allJoined s then { s with glb.step := max 1 s.glb.step } else s

/-- A shelf leaves service at the array test (R113, R448). -/
def badShelf (sh : Nat) (s : State) : State :=
  if ((shelfOf sh s).map (·.out)).getD true then s
  else emit 0x0B 4095 1 (sh / 40) [sh, 2] (modShelf sh (fun x => { x with out := true }) s)

/-- The new failures of a start get the spares that their banks have left, in order; the rest cannot be repaired (03 R113). -/
def repairArrays (fails : List Spare) (s : State) : List Spare × State :=
  fails.foldl (fun a x => match assignSpare x a.2 with
    | (true, s) => (a.1, s)
    | (false, s) => (a.1 ++ [x], s)) ([], s)

/-- ARRAY_TEST: step 2 ends (03 R113, R448, R449, 05 R190): spares are assigned to the rows and columns that fail; shelves, ports and
trace banks that cannot be repaired leave, the spare lanes come free, a plane with a bad cache is Out; without any plane the module is
Fatal. The lists name what the tests and lane self-tests find beyond repair by rows and columns. -/
def execArrayTest (fails : ArrayFails) (badPorts badBanks : List Nat) (planeABad planeBBad : Bool) :
    State → Host.Outcome State Fault Refusal :=
  act fun s =>
    if s.powered = false ∨ s.glb.arraysTested = true ∨ allJoined s = false then s
    else
      let (left, s) := repairArrays fails.spares s
      let of_ (array : Nat) : List Nat := (left.filter (·.array == array)).map (·.unit)
      let badShelves := fails.shelves ++ of_ 0 ++ of_ 1
      let badPorts := badPorts ++ of_ 2
      let badBanks := badBanks ++ (left.filter (·.array == 3)).map (·.bank)
      let planeABad := planeABad || (of_ 4).contains 0
      let planeBBad := planeBBad || (of_ 4).contains 1
      let shelves := s.kiln.shelves.map fun (x : Shelf) => { x with free := (List.range 8).map (· + 256) }
      let s := { s with glb.arraysTested := true, kiln.shelves := shelves
                        obs.trace.banks := 64 - ((List.range 64).filter badBanks.contains).length
                        obs.trace.bankOut := (List.range 64).filter badBanks.contains }
      let s := badShelves.foldl (fun s x => badShelf x s) s
      let s := (badPorts.filter fun p => ((portOf p s).map (·.inSvc)).getD false).eraseDups.foldl (fun s p => losePort p 4 s) s
      let gone (x : Plane) : Plane := { x with st := .out, fenced := true, losses := x.losses + 1, testing := true }
      if planeABad && planeBBad then goFatal 1 s
      else if planeABad then modPlane 1 (fun x => { x with st := .active, claim := 3 }) (modPlane 0 gone s)
      else if planeBBad then modPlane 1 gone s
      else s

/-- The alias private key: H("J9P-ALIAS" ‖ UDS ‖ LC ‖ GEN ‖ D1 ‖ D2 ‖ D3 ‖ D4) (12 R414). -/
def aliasKeyOf (s : State) : Nat :=
  edKey ([0x4A, 0x39, 0x50, 0x2D, 0x41, 0x4C, 0x49, 0x41, 0x53] ++ bytesLE 64 s.pen.otp.uds ++ bytesLE 2 (lcField s.pen.otp) ++ [s.pen.inForce]
    ++ (List.range 4).flatMap fun i => bytesLE 32 (((imageOf (i + 1) s).map (·.digest)).getD 0))

/-- FIRMWARE_START: step 5 (R448, 12 R403 step 7): the gates enter COMPARE, or SOLO with one plane. -/
def execFirmwareStart : State → Host.Outcome State Fault Refusal :=
  act fun s =>
    if s.powered = true ∧ s.glb.arraysTested = true ∧ s.pen.fwLoaded = 15 ∧ s.glb.fwStarted = false then
      let s := { s with glb.fwStarted := true, pen.aliasReady := true, pen.aliasKey := some (aliasKeyOf s), glb.step := max 3 s.glb.step
                        twin.planes := s.twin.planes.map fun (x : Plane) => { x with windowAt := s.now }
                        twin.mode := if planeIn 0 s && planeIn 1 s then .duplex else .solo }
      startHostWait s
    else s

/-- The DIMMs of a die, channel by channel (R87). -/
def dimmsOf (die : Nat) (s : State) : List (Option Dimm) := (List.range 6).map fun c => ((s.glb.board.map (·.dimms)).getD []).getD (6 * die + c) none

/-- Every populated DIMM. -/
def allDimms (s : State) : List Dimm := ((List.range 8).flatMap fun k => dimmsOf k s).filterMap id

/-- The data rate: the lower of the one asked for and the highest that every DIMM permits; code 0 asks for the latter (R88, R452). -/
def rateOf (asked : Nat) (s : State) : Nat :=
  let top := (allDimms s).foldl (fun n d => min n d.maxRate) 3
  if asked = 0 then top else min asked top

/-- A die's six DIMMs match (R87). -/
def matched (ds : List (Option Dimm)) : Bool :=
  match ds.head?.join with
  | some d => ds.all fun x => match x with
    | some y => y.size == d.size && y.ranks == d.ranks && y.org == d.org && y.grade == d.grade
    | none => false
  | none => false

/-- Memory of a die starts: Absent, Training, or Lost under the population rule (R87, R120). -/
def startDie (rate die : Nat) (s : State) : State :=
  let ds := dimmsOf die s
  if s.glb.kilnIn.getLsbD die = false ∨ ds.all (·.isNone) = true then s
  else if matched ds then
    match ds.head?.join with
    | some d =>
      modDie die (fun m => { m with st := .training, rate := rate, size := d.size, ranks := d.ranks, rows := d.rows }) (touchDie die s)
    | none => s
  else emit 0x0A 4095 1 die [0, 8] (modDie die (fun m => { m with st := .lost, mixed := true }) s)

/-- Every die that holds DIMMs begins training; MEM_START completes with their mask, the rate and the entries skipped (R452). -/
def memBegin (r : Nat) (s : State) : State :=
  let rate := rateOf s.glb.rate s
  let s := (List.range 8).foldl (fun s k => startDie rate k s) s
  let mask := (List.range 8).foldl (fun n k => n + 2 ^ k * b2n (dieState k s == .training)) 0
  ok r [mask, rate, (s.mem.savedSppr.filter fun e => dieState e.1.die s != .training).length] s

/-- MEM_START (R452); parks until step 2 has ended. A reserved bit in an entry is refused (00 R14). -/
def execMemStart (r rate : Nat) (item : Item) (len : Nat) (entries : SpprItem) : State → Host.Outcome State Fault Refusal :=
  cmd r 0x0A (fun _ s =>
    let es := entries.rows.take (len / 8)
    [chkResv (decide (4 ≤ rate)), itemAlign item, chkDeny (len % 8 != 0)] ++ (if len = 0 then [] else itemRead item len s)
      ++ [chkResv (len != 0 && entries.resv), chkEach (fun e => decide (6 ≤ e.1.channel)) es,
          chkLen (decide (4096 < len / 8) || (List.range 8).any fun k => decide (512 < (es.filter fun e => e.1.die == k).length)),
          chkExec s.glb.memStarted stCONFLICT]) fun s =>
    let bell := ((inflightOf r s).map (·.bellAt)).getD s.now
    let s := endHostWait bell s
    let s := { s with glb.memStarted := true, glb.rate := rate, glb.step := max 5 s.glb.step, mem.savedSppr := entries.rows.take (len / 8) }
    if s.glb.arraysTested then memBegin r s else park r .memStart s

/-- POOL_READY: the conditions of R451 hold after MEM_START (step 9 needs step 8). -/
def execPoolReady : State → Host.Outcome State Fault Refusal :=
  act fun s =>
    let settled := (List.range 8).all fun k => dieState k s == .inService || dieState k s == .absent || dieState k s == .lost
    if s.powered = true ∧ s.glb.poolReady = false ∧ s.pen.fwLoaded = 15 ∧ s.glb.arraysTested = true ∧ s.glb.memStarted = true
        ∧ (s.twin.mode = .duplex ∨ s.twin.mode = .solo) ∧ settled = true then
      let s := { s with glb.poolReady := true, glb.readyAt := s.now, glb.step := max 7 s.glb.step, glb.waitStart := none }
      ibi 0x07 (emit 0x20 4095 0 0 (w64 s.glb.hostWaitTotal) s)
    else s

/-! ### Power-down (14 R457) -/

/-- Firings stop at their next commit and movers at their next line, with INCOMPLETE. -/
def stopWork (s : State) : State :=
  let s := s.kiln.firings.foldl (fun s f => if f.stop.isSome then s else stopFiring f.fid stINCOMPLETE s) s
  let runs := s.kiln.runs.map fun (x : MRun) => if x.stop.isSome ∨ x.mig = true then x else { x with stop := some stINCOMPLETE }
  { s with kiln.runs := runs }

/-- The work has stopped: ports Down, every channel in self-refresh, POWER_OFF_READY, READY_OFF, the board controller is told. -/
def powerOffEnd (r : Nat) (s : State) : State :=
  let ports := s.ports.map fun (q : Port) => if q.st = .down then q else { q with st := .down, downAt := s.now }
  let s := emit 0x21 4095 0 0 [] { s with ports := ports }
  ok r [] (ibi 0x02 { s with glb.readyOff := true, glb.selfRefresh := true, glb.step := max 8 s.glb.step })

/-- No firing is open and no descriptor is in a mover. -/
def workDone (s : State) : Bool := s.kiln.firings.isEmpty && (s.kiln.runs.filter fun x => !x.mig).isEmpty

/-- POWER_OFF_PREPARE (R457). -/
def execPowerOffPrepare (r : Nat) (force : Bool) : State → Host.Outcome State Fault Refusal :=
  cmd r 0x0C (fun _ s => [chkExec (!force && !tenantsFree s) stCONFLICT]) fun s =>
    let s := stopWork s
    if workDone s then powerOffEnd r s else park r (.powerOff force) s

/-! ### The power governor (01 R42) -/

/-- The governor's last step of the lane voltage (01 R42). -/
def govLast : Nat := Config.govSteps % 79 + 1

/-- Lane voltage in mV at a step: 500 at step 0, lower at each step, 420 at the last; those between are the device's own (log 6). -/
def laneMv : Nat → Nat
  | 0 => 500
  | k + 1 => if govLast ≤ k + 1 then 420
    else 420 + (govLast - (k + 1)) + Config.govMillivolts (k + 1) % (laneMv k - (420 + (govLast - (k + 1))))

/-- Shelves that the governor may slow: in service, not allocated to a sealed sagger. -/
def govShelves (s : State) : Nat :=
  ((List.range 320).filter fun sh => inService sh s
    && !(s.sags.tab.any fun g => g.2.sealed && bitOf (g.2.par.shelves.getD (sh / 40) 0) (sh % 40))).length

/-- POWER_GOVERNOR: at 950 W the lane voltage goes down a step, and at its floor placement is held; below, the last of these is
released. Each change of a step is recorded (R42). -/
def execPowerGovernor (watts : Nat) : State → Host.Outcome State Fault Refusal :=
  act fun s =>
    let n := s.glb.powerStep
    if s.powered = false then s
    else if 950 ≤ watts then
      if n < govLast then emit 0x1E 4095 0 0 [0, laneMv (n + 1), govShelves s] { s with glb.powerStep := n + 1 }
      else if s.glb.heldPlacement then s
      else emit 0x1E 4095 0 0 [0, laneMv n, govShelves s] { s with glb.heldPlacement := true }
    else if s.glb.heldPlacement then emit 0x1E 4095 0 0 [1, laneMv n, govShelves s] { s with glb.heldPlacement := false }
    else if 0 < n then emit 0x1E 4095 0 0 [1, laneMv (n - 1), govShelves s] { s with glb.powerStep := n - 1 }
    else s

/-! ### Die-to-die links, temperature (01 R28; 11 R396) -/

/-- A kiln or port die leaves service. -/
def loseUnit (unit cause : Nat) (s : State) : State :=
  if unit < 8 then (if s.glb.kilnIn.getLsbD unit then loseDie unit cause s else s)
  else if ((portOf (unit - 8) s).map (·.inSvc)).getD false then losePort (unit - 8) cause s
  else s

/-- A die-to-die transfer as sent (03 R93, R94): header, payload, then the CRC over both. -/
def d2dFrame (header payload : List Nat) : List Nat := header ++ payload ++ bytesLE 4 (crc32c (header ++ payload))

/-- The CRC check of a transfer as received (R28, 03 R94). -/
def d2dGood (got : List Nat) : Bool :=
  decide (4 ≤ got.length) && got.drop (got.length - 4) == bytesLE 4 (crc32c (got.take (got.length - 4)))

/-- D2D_TRANSFER: a transfer of a die's link arrives. An acknowledgement ends the sender's hold; after a negative one the sender
holds it to send again; eight failed attempts of one transfer lose the die (R28). -/
def execD2dTransfer (unit : Nat) (x : D2dTransfer) : State → Host.Outcome State Fault Refusal :=
  act fun s => match s.tal.dies[unit]? with
    | none => s
    | some d =>
      if s.powered = false ∨ d.joined = false then s
      else if d2dGood x.got then modTally unit (fun d => { d with d2d := smDel x.id d.d2d }) s
      else
        let (n, frame) := (smGet x.id d.d2d).getD (0, d2dFrame x.header x.payload)
        if n + 1 < 8 then modTally unit (fun d => { d with d2d := smSet x.id (n + 1, frame) d.d2d }) s
        else loseUnit unit 1 (modTally unit (fun d => { d with d2d := [] }) s)

/-- DIE_OVERTEMP: a kiln or port die reaches 115 °C (11 R396, 16 R496). -/
def execDieOvertemp (unit : Nat) : State → Host.Outcome State Fault Refusal :=
  act fun s => if s.powered = true ∧ unit < 24 then loseUnit unit 3 s else s

/-! ### The tally copies (13 R433, R434) -/

/-- TALLY_SYNC: every 65,536 ticks each copy learns how far it is off; one behind by more than 64 ticks jumps forward, else it is
corrected tick by tick. What the measured delay leaves is a free phase within 2 ticks (R433, R434; log 6). -/
def execTallySync : State → Host.Outcome State Fault Refusal :=
  act fun s =>
    if s.on = false ∨ s.now % 65536 ≠ 0 then s
    else
      (List.range 24).foldl (fun s u => match s.tal.dies[u]? with
        | some d =>
          if d.synced = false ∨ d.freeze ≠ 0 then s
          else
            let (x, s) := drawPhase s
            let c := x - d.offset
            let s := { s with tal.skew := max s.tal.skew (min 7 c.natAbs) }
            modTally u (fun d => if 64 < c then { d with offset := x, corr := 0 } else { d with corr := c }) s
        | none => s) { s with tal.skew := 0 }

/-- The correction of the copies as a tick passes: one in 1,024 (R433). -/
def slewTally (d : DieTally) : DieTally :=
  if d.freeze ≠ 0 ∨ d.corr = 0 then d
  else if 0 < d.corr then { d with offset := d.offset + 1, corr := d.corr - 1 }
  else { d with offset := d.offset - 1, corr := d.corr + 1 }

/-! ### Crossings and stopped clocks (13 R437 to R439) -/

/-- The clock is not intentionally held and its domain runs (R439). -/
def clockArmed (d : ClockDomain) (s : State) : Bool :=
  let port (p : Nat) : Bool := match portOf p s with
    | some q => q.inSvc && q.st != .down
    | none => false
  match d with
  | .golhaRx p => port p
  | .golhaTx p => port p
  | .ddr k c => s.glb.kilnIn.getLsbD k && !s.glb.selfRefresh && decide (c < 6)
      && (dieState k s == .training || dieState k s == .wedging || dieState k s == .inService || dieState k s == .offline)
  | .pcie => s.host.linkUp
  | .hubTally => true
  | .dieTally u => match s.tal.dies[u]? with
      | some t => t.synced && t.freeze == 0
      | none => false

/-- State of a crossing changed; Run is not listed. -/
def setCross (d : ClockDomain) (x : Option Cross) (s : State) : State :=
  let rest := s.tal.crossings.filter (·.1 != d)
  { s with tal.crossings := match x with
      | some c => rest ++ [(d, c)]
      | none => rest }

/-- What a crossing does next (R437): both sides have seen RST, the clock is present, both pointers are read as 0. -/
def crossNext (stopped : Bool) : Cross → Cross
  | .flush => .idle
  | .idle => if stopped then .idle else .resync
  | .resync => .run
  | .run => .run

/-- The crossings go on as time passes, each a state a tick (log 69). -/
def stepCrossings (s : State) : State :=
  { s with tal.crossings := (s.tal.crossings.map fun x => (x.1, crossNext (s.tal.stopped.contains x.1) x.2)).filter (·.2 != .run) }

/-- The PCIe side is reset, or its clock is gone: as a link down (R438, R439, 10 R375). -/
def pcieDown (s : State) : State := { after s (execHostPathReset s) with host.linkUp := false }

/-- A region freezes its tally copy (R440, R441). -/
def freezeRegion (unit cause : Nat) (s : State) : State :=
  modTally unit (fun d => { d with freeze := cause, frozenLocal := (s.now + d.offset).toNat, frozenHub := s.now, hubStamped := 0
                                   wakeAt := none, idleAt := none, corr := 0 }) s

/-- CLOCK_STOP: counted; the crossing enters Flush, and the owning block acts (R439). -/
def execClockStop (d : ClockDomain) : State → Host.Outcome State Fault Refusal :=
  act fun s =>
    if s.on = false ∨ s.tal.stopped.contains d = true ∨ clockArmed d s = false then s
    else
      let s := setCross d (some .flush) { s with tal.clkStop := add32 s.tal.clkStop 1, tal.stopped := s.tal.stopped ++ [d] }
      match d with
      | .golhaRx p => after s (execLockLost p s)
      | .golhaTx p => after s (execLockLost p s)
      | .ddr k c => modDie k (fun m => { m with trained := m.trained.set c false, attempts := m.attempts.set c 0 }) s
      | .pcie => pcieDown s
      | .hubTally => goFatal 4 s
      | .dieTally u => freezeRegion u 4 s

/-- CLOCK_RETURN: the crossing can go on to Resync (R437, R439). -/
def execClockReturn (d : ClockDomain) : State → Host.Outcome State Fault Refusal :=
  act fun s =>
    if s.tal.stopped.contains d = false then s
    else
      let s := { s with tal.stopped := s.tal.stopped.filter (· != d) }
      match d with
      | .dieTally u => modTally u (fun t => if t.freeze = 4 then { t with wakeAt := some s.now } else t) s
      | _ => s

/-- CROSSING_RESET: a side starts a reset, and the crossing enters Flush, also from Resync (R437). What it discards comes again of itself
(R438); a reset of the PCIe side ends the session. -/
def execCrossingReset (x : ClockDomain) : State → Host.Outcome State Fault Refusal :=
  act fun s =>
    if s.on = false then s
    else
      let s := setCross x (some .flush) s
      match x with
      | .pcie => pcieDown s
      | _ => s

/-! ### Frozen regions (13 R440 to R442) -/

/-- A part is placed on the die and has not ended. -/
def partsOn (die : Nat) (s : State) : Bool := s.kiln.firings.any fun f => f.parts.any fun p => p.die == die && p.placed && !p.ended

/-- The die could become dormant (R440 cause 1). -/
def couldSleep (die : Nat) (s : State) : Bool :=
  (dieState die s == .absent || dieState die s == .offline || dieState die s == .lost) && !partsOn die s

/-- The cause of a freeze has ended (R440). -/
def freezeOver (unit : Nat) (d : DieTally) (s : State) : Bool :=
  match d.freeze with
  | 0 => false
  | 1 => d.wakeAt.isSome
  | 2 => ((portOf (unit - 8) s).map fun q => q.st != .down).getD false
  | 3 => true
  | _ => !s.tal.stopped.contains (.dieTally unit)

/-- How long dies have been idle and when freezes ended, kept up as time passes. -/
def trackRegions (s : State) : State :=
  let dies := s.tal.dies.mapIdx fun u (d : DieTally) =>
    if d.freeze = 0 then
      { d with idleAt := if u < 8 && d.joined && couldSleep u s then some (d.idleAt.getD s.now) else none }
    else if freezeOver u d s then { d with wakeAt := some (d.wakeAt.getD s.now) } else d
  { s with tal.dies := dies }

/-- REGION_FREEZE for causes 1 DORMANT, 2 PORT_DOWN, 3 STRETCH, 4 CLOCK_STOP (R440). -/
def execRegionFreeze (unit cause : Nat) : State → Host.Outcome State Fault Refusal :=
  act fun s => match s.tal.dies[unit]? with
    | none => s
    | some d =>
      let due : Bool := match cause with
        | 1 => decide (unit < 8) && couldSleep unit s && (d.idleAt.map fun t => decide (t + 1000000000 ≤ s.now)).getD false
        | 2 => decide (8 ≤ unit) && ((portOf (unit - 8) s).map fun q => q.st == .down).getD false
        | 3 => true
        | 4 => s.tal.stopped.contains (.dieTally unit)
        | _ => false
      if s.on = true ∧ d.synced = true ∧ d.freeze = 0 ∧ due = true then freezeRegion unit cause s else s

/-- TALLY_GAP: the region has loaded the hub's time, later than any it had, and says which interval it missed (R442). -/
def execTallyGap (unit : Nat) : State → Host.Outcome State Fault Refusal :=
  act fun s => match s.tal.dies[unit]? with
    | none => s
    | some d =>
      if s.on = false ∨ freezeOver unit d s = false then s
      else
        let resumed := max s.now (d.frozenLocal + 1)
        let s := modTally unit (fun d => { d with freeze := 0, offset := (resumed : Int) - s.now, wakeAt := none, idleAt := none, corr := 0 }) s
        emit 0x1D 4095 (if unit < 8 then 1 else 2) (if unit < 8 then unit else unit - 8)
          ([d.freeze, d.hubStamped] ++ w64 d.frozenLocal ++ w64 d.frozenHub ++ w64 resumed) { s with tal.gaps := add32 s.tal.gaps 1 }

/-- REGION_SYNC_TIMEOUT: no sync within 1,000,000 ticks of PLL lock; the die leaves as if its link had failed (R442). -/
def execRegionSyncTimeout (unit : Nat) : State → Host.Outcome State Fault Refusal :=
  act fun s => match (s.tal.dies[unit]?).bind (·.wakeAt) with
    | some t => if s.powered = true ∧ t + 1000000 ≤ s.now then loseUnit unit 1 s else s
    | none => s

/-! ### The tick (log 1) -/

/-- A tick of the tally passes while nothing waits to be done. -/
def tick (s : State) : State :=
  if s.tal.running = false then s
  else
    let s := stepCrossings (trackRegions (ageRings s))
    let now := add64 s.tal.now 1
    { s with tal.now := now, tal.dies := if now % 1024 = 0 then s.tal.dies.map slewTally else s.tal.dies }

end Sys2Proof.Machine
end

