-- ==== Sys2Proof/Machine/Side.lean ====
section
/-! DEFINITION. The management side (16): the sideband commands of the board controller, the I3C common commands, event timers
and pins, the test access port. -/

namespace Sys2Proof.Machine

/-! ### Sideband reads (16 R487) -/

/-- The carrier controller runs: it has the 64 V input, or the hold-up that follows its loss (16 R486). -/
def carrier (s : State) : Bool := s.glb.inputGood || s.glb.pwrFail

/-- Puts out the bytes of a read. -/
def sideData (code : Nat) (bytes : List Nat) (s : State) : State := { s with sideOut := s.sideOut ++ [.data code bytes] }

/-- A read or write that the table does not give sets CML (R487). -/
def setCml (s : State) : State := { s with side.cml := true }

/-- A read of the carrier controller. -/
def sideRead (code : Nat) (bytes : State → List Nat) : State → Host.Outcome State Fault Refusal :=
  act fun s => if carrier s then sideData code (bytes s) s else s

/-- The two bytes of a telemetry word as measured, in its PMBus format (log 13); on another page the code is not in the table. -/
def telemetry (code lo hi measured : Nat) : State → Host.Outcome State Fault Refusal :=
  act fun s =>
    if carrier s = false then s
    else if s.side.pageSel < lo ∨ hi < s.side.pageSel then sideData code [0xFF, 0xFF] (setCml s)
    else if code = 0x8D ∧ s.glb.hubReset = true then sideData code [0xFF, 0xFF] s
    else sideData code [measured % 256, measured / 256 % 256] s

/-- PAGE (R487). -/
def execPage (v : Nat) : State → Host.Outcome State Fault Refusal :=
  act fun s => if carrier s then { s with side.pageSel := v % 256 } else s

/-- VOUT_MODE: Linear16 with exponent -12 (R487). -/
def execVoutMode : State → Host.Outcome State Fault Refusal := sideRead 0x20 fun _ => [0x14]

/-- STATUS_WORD: CML in bit 1; OFF and POWER_GOOD# of a rail that is off in bits 6 and 11 (R487; PMBus bits, log 22). -/
def execStatusWord : State → Host.Outcome State Fault Refusal :=
  sideRead 0x79 fun s =>
    let off := decide (1 ≤ s.side.pageSel) && decide (s.side.pageSel ≤ 13) && !s.side.pwrGood
    [2 * b2n s.side.cml + 64 * b2n off, 8 * b2n off]

/-- READ_VIN (R487). -/
def execReadVin (measured : Nat) : State → Host.Outcome State Fault Refusal := telemetry 0x88 0 0 measured

/-- READ_IIN (R487). -/
def execReadIin (measured : Nat) : State → Host.Outcome State Fault Refusal := telemetry 0x89 0 0 measured

/-- READ_VOUT (R487). -/
def execReadVout (measured : Nat) : State → Host.Outcome State Fault Refusal := telemetry 0x8B 1 13 measured

/-- READ_IOUT (R487). -/
def execReadIout (measured : Nat) : State → Host.Outcome State Fault Refusal := telemetry 0x8C 1 13 measured

/-- READ_TEMPERATURE_1 (R487). -/
def execReadTemperature1 (measured : Nat) : State → Host.Outcome State Fault Refusal := telemetry 0x8D 14 38 measured

/-- READ_POUT (R487). -/
def execReadPout (measured : Nat) : State → Host.Outcome State Fault Refusal := telemetry 0x96 1 13 measured

/-- READ_PIN (R487). -/
def execReadPin (measured : Nat) : State → Host.Outcome State Fault Refusal := telemetry 0x97 0 0 measured

/-- MODULE_STATUS (R487). -/
def execModuleStatus : State → Host.Outcome State Fault Refusal :=
  sideRead 0xD0 fun s =>
    [b2n s.glb.poolReady + 2 * b2n (s.twin.mode == .fatal) + 4 * b2n s.glb.readyOff + 8 * b2n s.glb.pwrFail + 16 * b2n s.glb.inputLow
      + 32 * b2n s.glb.railFault]

/-- A code that the table does not give, or a write of one that cannot be written (R487). -/
def execSidebandInvalid (code len : Nat) (write : Bool) : State → Host.Outcome State Fault Refusal :=
  act fun s =>
    if carrier s = false then s
    else if write then setCml s
    else sideData code (List.replicate len 0xFF) (setCml s)

/-! ### Event pins and timers (16 R488 to R492) -/

/-- Boundary scan holds the pins: EXTEST or CLAMP runs (R490, R492). -/
def scanHolds (s : State) : Bool := s.side.tapIr == 0x00 || s.side.tapIr == 0x03

/-- Timer `n`. -/
def timerOf (n : Nat) (s : State) : EvtTimer := s.side.timers.getD n ⟨0, 255, 0, 0, 0, 0⟩

/-- Changes pin `p`. -/
def modPin (p : Nat) (f : EvtPinSt → EvtPinSt) (s : State) : State := { s with side.pins := s.side.pins.modify p f }

/-- Drives a pin and records the edge. -/
def drivePin (p : Nat) (level : Bool) (s : State) : State :=
  if ((s.side.pins[p]?).map (·.level)).getD level = level then s
  else { modPin p (fun x => { x with level := level }) s with sideOut := s.sideOut ++ [.pin p level] }

/-- EVT_RESULT of an EVT_TIMER write: 0 OK, 1 CONFLICT, 2 RANGE, 3 BUSY (R490); EVT writes are refused while the hub does not
run (R492 row 1). -/
def timerResult (timer mode pin low width start period : Nat) (s : State) : Nat :=
  if scanHolds s = true ∨ s.on = false then 3
  else if 16 ≤ timer ∨ 3 ≤ mode ∨ (8 ≤ pin ∧ pin ≠ 255) ∨ low ≠ 0 ∨ start ≤ s.now then 2
  else if mode = 1 ∧ (period ≠ 0 ∨ width < 1 ∨ 1000000 < width) then 2
  else if mode = 2 ∧ (period < 16 ∨ 4000000000 < period ∨ width < 1 ∨ period ≤ width) then 2
  else match s.side.pins[pin]? with
    | some p => if p.mode ≠ 0 ∨ (p.owner.isSome = true ∧ p.owner ≠ some timer) then 1 else 0
    | none => 0

/-- EVT_TIMER: the timer's new setting; its old pin is released and driven low (R490). -/
def execEvtTimer (timer mode pin low width start period : Nat) : State → Host.Outcome State Fault Refusal :=
  act fun s =>
    if carrier s = false then s
    else
      let res := timerResult timer mode pin low width start period s
      let s := { s with side.evtResult := res }
      if res ≠ 0 then s
      else
        let old := (timerOf timer s).pin
        let s := modPin old (fun p => { p with owner := none, pulseEnd := none }) (drivePin old false s)
        let t : EvtTimer := if mode = 0 then ⟨0, 255, 0, 0, 0, 0⟩ else ⟨mode, pin, width, start, period, start⟩
        let s := { s with side.timers := s.side.timers.set timer t }
        if mode = 0 then s else modPin pin (fun p => { p with owner := some timer }) s

/-- EVT_PIN (R491). -/
def execEvtPin (pin mode : Nat) : State → Host.Outcome State Fault Refusal :=
  act fun s =>
    if carrier s = false then s
    else
      let res :=
        if scanHolds s = true ∨ s.on = false then 3
        else if 8 ≤ pin ∨ 4 ≤ mode then 2
        else if (s.side.pins[pin]?).any (·.owner.isSome) then 1
        else 0
      let s := { s with side.evtResult := res }
      if res = 0 then modPin pin (fun p => { p with mode := mode }) s else s

/-- EVT_RESULT (R487). -/
def execEvtResult : State → Host.Outcome State Fault Refusal := sideRead 0xD3 fun s => [s.side.evtResult]

/-- The oldest capture: pin, tally, edge. -/
def oldestCapture (s : State) : Option (Nat × Nat × Bool) :=
  s.side.pins.zipIdx.foldl (fun o p => match p.1.captures.head?, o with
    | some c, some (q, t, e) => if c.1 < t then some (p.2, c.1, c.2) else some (q, t, e)
    | some c, none => some (p.2, c.1, c.2)
    | none, o => o) none

/-- EVT_CAPTURE: the oldest capture is read and leaves its queue (R487). -/
def execEvtCapture : State → Host.Outcome State Fault Refusal :=
  act fun s =>
    if carrier s = false then s
    else match oldestCapture s with
      | some (p, t, e) =>
        sideData 0xD4 ([p, Config.edgeByte e % 256] ++ (List.range 8).map fun i => t / 2 ^ (8 * i) % 256)
          (modPin p (fun x => { x with captures := x.captures.drop 1 }) s)
      | none => sideData 0xD4 (0xFF :: (List.range 9).map fun i => Config.emptyCapture i % 256) s

/-- EVT_TIMER_EXPIRY: the timer's pin goes high, within 3 ticks of the expiry; a periodic timer runs on (R488, R489). -/
def execEvtTimerExpiry (n : Nat) : State → Host.Outcome State Fault Refusal :=
  act fun s =>
    let t := timerOf n s
    if s.on = false ∨ 16 ≤ n ∨ t.mode = 0 ∨ t.next = 0 ∨ s.now + 3 < t.next then s
    else
      let s := { s with side.timers := s.side.timers.set n { t with next := if t.mode = 2 then add64 t.next t.period else 0 } }
      if t.pin < 8 then modPin t.pin (fun p => { p with pulseEnd := some (s.now + t.width) }) (drivePin t.pin true s) else s

/-- EVT_PULSE_END: WIDTH ticks are over (R489). -/
def execEvtPulseEnd (pin : Nat) : State → Host.Outcome State Fault Refusal :=
  act fun s => match (s.side.pins[pin]?).bind (·.pulseEnd) with
    | some t => if s.on = true ∧ t ≤ s.now then drivePin pin false (modPin pin (fun p => { p with pulseEnd := none }) s) else s
    | none => s

/-- EVT_EDGE: an edge from outside; a selected one is stamped to within 3 ticks and kept, four for each pin (R489). -/
def execEvtEdge (pin : Nat) (rising : Bool) : State → Host.Outcome State Fault Refusal :=
  act fun s => match s.side.pins[pin]? with
    | none => s
    | some p =>
      let s := modPin pin (fun p => { p with input := rising }) s
      let wants := p.mode = 3 ∨ (p.mode = 1 ∧ rising = true) ∨ (p.mode = 2 ∧ rising = false)
      if s.on = true ∧ wants ∧ p.captures.length < 4 then
        let (v, s) := draw s
        ibi 0x05 (modPin pin (fun p => { p with captures := p.captures ++ [(s.now + v % 7 - 3, rising)] }) s)
      else s

/-! ### I3C common command codes (16 R486; log 22) -/

/-- The static address: 0x38 and the strap. -/
def staticAddr (s : State) : Nat := 0x38 + ((s.glb.board.map (·.strap)).getD 0) % 8

/-- SETDASA: the target with this static address and no dynamic one takes the dynamic address. -/
def execSetdasa (static dynamic : Nat) : State → Host.Outcome State Fault Refusal :=
  act fun s => if carrier s = true ∧ static = staticAddr s ∧ s.side.dynAddr = 0 then { s with side.dynAddr := dynamic } else s

/-- ENTDAA: a target without a dynamic address sends its PID, BCR and DCR and takes one. -/
def execEntdaa (dynamic : Nat) : State → Host.Outcome State Fault Refusal :=
  act fun s =>
    if carrier s = true ∧ s.side.dynAddr = 0 then
      sideData 0x07 (((List.range 6).map fun i => Config.i3cByte 0x8D i % 256) ++ [Config.i3cByte 0x8E 0 % 256, Config.i3cByte 0x8F 0 % 256])
        { s with side.dynAddr := dynamic }
    else s

/-- RSTDAA: the dynamic address is given up. -/
def execRstdaa : State → Host.Outcome State Fault Refusal :=
  act fun s => if carrier s then { s with side.dynAddr := 0 } else s

/-- A direct GET: the bytes that identify the target; without a dynamic address nobody answers. -/
def i3cGet (code n : Nat) : State → Host.Outcome State Fault Refusal :=
  act fun s =>
    if carrier s = false ∨ s.side.dynAddr = 0 then { s with sideOut := s.sideOut ++ [.nack code] }
    else sideData code ((List.range n).map fun i => Config.i3cByte code i % 256) s

/-- GETPID. -/
def execGetpid : State → Host.Outcome State Fault Refusal := i3cGet 0x8D 6

/-- GETBCR. -/
def execGetbcr : State → Host.Outcome State Fault Refusal := i3cGet 0x8E 1

/-- GETDCR. -/
def execGetdcr : State → Host.Outcome State Fault Refusal := i3cGet 0x8F 1

/-- GETSTATUS. -/
def execGetstatus : State → Host.Outcome State Fault Refusal := i3cGet 0x90 2

/-- GETMRL. -/
def execGetmrl : State → Host.Outcome State Fault Refusal := i3cGet 0x8C 2

/-- GETMWL. -/
def execGetmwl : State → Host.Outcome State Fault Refusal := i3cGet 0x8B 2

/-- ENEC: in-band interrupts are enabled. -/
def execEnec : State → Host.Outcome State Fault Refusal :=
  act fun s => if carrier s then { s with side.ibiOn := true } else s

/-- DISEC: in-band interrupts are disabled. -/
def execDisec : State → Host.Outcome State Fault Refusal :=
  act fun s => if carrier s then { s with side.ibiOn := false } else s

/-! ### The test access port (16 R493) -/

/-- Loads an instruction register value. -/
def setIr (v : Nat) (s : State) : State := { s with side.tapIr := v }

/-- An instruction that works only while MRST_N is low, else as BYPASS. -/
def scanIr (v : Nat) : State → Host.Outcome State Fault Refusal := act fun s => setIr (if s.glb.mrst then v else 0xFF) s

/-- EXTEST. -/
def execExtest : State → Host.Outcome State Fault Refusal := scanIr 0x00

/-- SAMPLE/PRELOAD: the pins of the event block as sampled; the rest of the chain is not modelled (log 15). -/
def execSamplePreload : State → Host.Outcome State Fault Refusal :=
  act fun s => { setIr 0x01 s with sideOut := s.sideOut ++ [.tdo 0x01 (s.side.pins.map fun p => p.level || p.input)] }

/-- The 32 bits of IDCODE, bit 0 first. -/
def idcodeBits : List Bool :=
  let v := 1 + 2 * (Config.jep106 % 2048) + 2 ^ 12 * 0x0901 + 2 ^ 28 * (Config.siliconRev.toNat % 16)
  (List.range 32).map (bitOf v)

/-- IDCODE. -/
def execIdcode : State → Host.Outcome State Fault Refusal :=
  act fun s => { setIr 0x02 s with sideOut := s.sideOut ++ [.tdo 0x02 idcodeBits] }

/-- CLAMP. -/
def execClamp : State → Host.Outcome State Fault Refusal := scanIr 0x03

/-- HIGHZ. -/
def execHighz : State → Host.Outcome State Fault Refusal := scanIr 0x04

/-- A trace bank leaves service for its test: the trace becomes Stopped and keeps what the other banks hold (R492). -/
def testBank (bank : Nat) (s : State) : State :=
  let t := s.obs.trace
  let out := if t.bankOut.contains bank then t.bankOut else t.bankOut ++ [bank]
  let n := 64 - out.length
  let cut := t.recs.length - 32768 * n
  let s := { s with obs.trace := { t with bankOut := out, banks := n, first := t.first + cut, recs := t.recs.drop cut } }
  if t.st = 2 then s else traceState 2 s

/-- ARRAYTEST of one trace bank (kind 0), shelf (1) or glaze-store (2) array: with factory debug open, else BYPASS. A trace bank is
refused while a contact sheet is taken or held (R492). The verdict shifted out is a free value (log 6). -/
def execArraytest (kind unit : Nat) : State → Host.Outcome State Fault Refusal :=
  act fun s =>
    let ok := s.pen.factoryDebug && match kind with
      | 0 => s.on && decide (unit < 64) && s.obs.contact.st == 0 && s.glb.arraysTested
      | 1 => decide (unit < 320)
      | 2 => decide (unit < 320)
      | _ => false
    if ok then
      let (v, s) := draw (setIr 0x40 (if kind = 0 then testBank unit s else s))
      { s with sideOut := s.sideOut ++ [.tdo 0x40 [v % 2 == 1]] }
    else setIr 0xFF s

/-- INTSCAN: with factory debug open it stops both planes: the module is Fatal with cause 1 (R493). -/
def execIntscan : State → Host.Outcome State Fault Refusal :=
  act fun s => if s.pen.factoryDebug then (if s.on then goFatal 1 (setIr 0x41 s) else setIr 0x41 s) else setIr 0xFF s

/-- BYPASS. -/
def execBypass : State → Host.Outcome State Fault Refusal := act (setIr 0xFF)

/-- TRST_N or five TCK cycles with TMS high: IDCODE, and the pins are released. -/
def execTapReset : State → Host.Outcome State Fault Refusal := act (setIr 0x02)

end Sys2Proof.Machine
end

