-- ==== Sys2Proof/Machine/Obs.lean ====
section
/-! DEFINITION. Observation (15): counters, mirror pages, the trace commands and the spill ring, shelf reads and stepping. -/

namespace Sys2Proof.Machine

/-! ### Counters and mirror pages (R462, R465 to R467, R480) -/

/-- The peaks of a sagger's samples start again (R462). -/
def clearPeaks (sid : Nat) (s : State) : State := modSag sid (fun g => { g with qdepthPeak := g.qdepth, qdelayPeak := g.qdelay }) s

/-- OBS_COUNTERS (R462, R480). -/
def execObsCounters (r sid : Nat) : State → Host.Outcome State Fault Refusal :=
  cmd r 0x80 (fun f s => [chkDeny (decide (4094 < sid) || sagState sid s == .free), outChk3 f, outChk4 f 256 s]) fun s =>
    okItem r [.words (ctrBlock sid 0 s)] (clearPeaks sid s)

/-- Parameters of a mirror out of range (R467). -/
def mirrorBad (ppa period heatBase heatPages heatEvery : Nat) (s : State) : Bool :=
  ppa % 2 ^ 21 != 0 || !localValid ppa s || !dieServes (ppa / 2 ^ 42 % 8) s
    || decide (period < 1000000) || decide (60000000000 < period) || heatBase % 2 ^ 21 != 0
    || decide (524288 < heatPages) || heatEvery == 0 || decide (65535 < heatEvery)

/-- OBS_MIRROR_SET: PPA 0 stops mirroring, whatever the other parameters (R465, R467, R480). -/
def execObsMirrorSet (r sid ppa period heatBase heatPages heatEvery : Nat) : State → Host.Outcome State Fault Refusal :=
  cmdFor r 0x81 sid (fun _ s =>
    [chkResv (decide (2 ^ 52 ≤ heatBase)), chkDeny (decide (4094 < sid) || sagState sid s == .free),
     chkDeny (ppa != 0 && mirrorBad ppa period heatBase heatPages heatEvery s), chkWarm (ppa != 0 && warmPage ppa s)]) fun s =>
    if ppa = 0 then ok r [] { s with obs.mirrors := smDel sid s.obs.mirrors }
    else ok r [] { s with obs.mirrors := smSet sid ⟨ppa, period, heatBase, heatPages, heatEvery, s.now + period, 0, 0, 0, 0⟩ s.obs.mirrors }

/-- MIRROR_UPDATE: SEQ odd, the four lines of the counter block, SEQ even (R466, R467). -/
def execMirrorUpdate (sid : Nat) : State → Host.Outcome State Fault Refusal :=
  act fun s => match smGet sid s.obs.mirrors with
    | none => s
    | some m =>
      if s.powered = false ∨ s.now < m.due then s
      else
        let s := mirrorSeq sid m.ppa (m.seq + 1) s
        let ws := ctrBlock sid (m.seq + 1) s
        let s := (List.range 4).foldl (fun s i => mirrorLine sid m.ppa i ((ws.drop (16 * i)).take 16) s) s
        let s := mirrorSeq sid m.ppa (m.seq + 2) s
        let next (m : Mirror) : Mirror := { m with seq := m.seq + 2, updates := m.updates + 1, due := m.due + m.period }
        clearPeaks sid { s with obs.mirrors := smMod sid next s.obs.mirrors }

/-- HEAT_SEQ and HEAT_TALLY in the mirror page: words 10 to 13 of the counter block's third line (R462). -/
def mirrorHeatSeq (sid ppa seq tally : Nat) (s : State) : State :=
  let d := (lineOf (ppaOffset ppa / 64 + 2) s.mem).data.toNat
  mirrorLine sid ppa 2 ((List.range 16).map fun i =>
    if 10 ≤ i ∧ i < 14 then (w64 seq ++ w64 tally).getD (i - 10) 0 else fieldOf d (32 * i) 32) s

/-- HEAT of the leaf that covers a page, 0 when it is not Present (R466). -/
def pageHeat (sid page : Nat) (s : State) : Nat :=
  match leafAt sid page s.xlt with
  | some (_, l) => if l.pres then l.heat else 0
  | none => 0

/-- HEAT_MIRROR_UPDATE: the heat array, two bytes a page (R466, R467). -/
def execHeatMirrorUpdate (sid : Nat) : State → Host.Outcome State Fault Refusal :=
  act fun s => match smGet sid s.obs.mirrors with
    | none => s
    | some m =>
      if s.powered = false ∨ m.heatPages = 0 ∨ m.updates < m.heatEvery then s
      else
        let heat (i : Nat) : Nat := if i < m.heatPages then pageHeat sid (m.heatBase / 2 ^ 21 + i) s % 65536 else 0
        let s' := mirrorHeatSeq sid m.ppa (m.heatSeq + 1) m.heatTally s
        let s' := (List.range (ceilDiv m.heatPages 32)).foldl (fun t i =>
          mirrorLine sid m.ppa (0x4000 + i) ((List.range 16).map fun k => heat (32 * i + 2 * k) + 65536 * heat (32 * i + 2 * k + 1)) t) s'
        let s' := mirrorHeatSeq sid m.ppa (m.heatSeq + 2) s.now s'
        let next (m : Mirror) : Mirror := { m with updates := 0, heatSeq := m.heatSeq + 2, heatTally := s.now }
        { s' with obs.mirrors := smMod sid next s'.obs.mirrors }

/-! ### The trace (R471 to R474, R480) -/

/-- The eight words of a trace record (R471). -/
def traceWords (r : TraceRec) : List Nat :=
  [1 + 2 ^ 4 * r.source + 2 ^ 8 * (r.unit % 16) + 2 ^ 12 * b2n r.stamped + 2 ^ 13 * b2n r.masked + 2 ^ 16 * r.sid,
   r.op % 256 + 2 ^ 8 * (r.arg % 256) + 2 ^ 16 * (r.tag % 65536)] ++ w64 r.tally ++ w64 r.addr
    ++ w64 (if r.source = 9 then r.ivc else r.ivc % 2 ^ 40 + 2 ^ 40 * (r.keygen % 2) + 2 ^ 41 * (r.src % 2048) + 2 ^ 52 * (r.dst % 2048))

/-- TRACE_CONFIG (R472, R474). -/
def execTraceConfig (r : Nat) (c : TraceCfg) : State → Host.Outcome State Fault Refusal :=
  cmd r 0x82 (fun _ s =>
    [chkResv (decide (3 ≤ c.mode) || decide (512 ≤ c.sources) || decide (2 ≤ c.sagger) || decide (2 ≤ c.data)),
     chkDeny (decide (65536 ≤ c.ports) || decide (128 ≤ c.vcs) || decide (4095 < c.sidFilter) || decide (c.spillRate < 100)
       || decide (32000 < c.spillRate) || (c.sagger == 1 && !scopeOpen 0 s) || (c.data == 1 && !scopeOpen 1 s)),
     chkExec (!(s.obs.trace.st == 0 || s.obs.trace.st == 2)) stBUSY]) fun s => ok r [] { s with obs.trace.cfg := c }

/-- TRACE_CTRL: 0 START, 1 STOP, 2 CLEAR, 3 ACK (R480). START of a trace that runs or is paused is a conflict; STOP stops one
that runs or is paused. -/
def execTraceCtrl (r action consumed : Nat) : State → Host.Outcome State Fault Refusal :=
  cmd r 0x83 (fun _ s => [chkResv (decide (4 ≤ action)),
    chkExec (action == 0 && !(s.obs.trace.st == 0 || s.obs.trace.st == 2)) stCONFLICT]) fun s =>
    let t := s.obs.trace
    match action with
    | 0 => ok r [] (traceState 1 s)
    | 1 => ok r [] (if t.st = 1 ∨ t.st = 3 then traceState 2 { s with obs.contact.resumeTrace := false } else s)
    | 2 => ok r [] { s with obs.trace := { t with first := 0, recs := [], written := 0, spillPos := 0, spillAck := 0, missed := [] } }
    | _ => ok r [] { s with obs.trace := { t with spillAck := max t.spillAck (min consumed t.spillPos) } }

/-- Record number `n` of the trace; one that is gone reads as a marker record with code 1 (R480). -/
def traceAt (n : Nat) (s : State) : TraceRec :=
  if n < s.obs.trace.first then markerRec 1 1 s else (s.obs.trace.recs[n - s.obs.trace.first]?).getD (markerRec 1 1 s)

/-- TRACE_READ (R480). -/
def execTraceRead (r first count : Nat) : State → Host.Outcome State Fault Refusal :=
  cmd r 0x84 (fun f s => [outChk3 f, chkLen (decide (s.obs.trace.written < first + count)), outChk4 f (32 * count) s]) fun s =>
    okItem r (if count = 0 then [] else [.words ((List.range count).flatMap fun i => traceWords (traceAt (first + i) s))]) s

/-- TRACE_SPILL_GRANT (R473, R480). -/
def execTraceSpillGrant (r n : Nat) (ppas : List Nat) : State → Host.Outcome State Fault Refusal :=
  cmd r 0x85 (fun _ s => grantChks n ppas s
    ++ [chkExec (s.obs.trace.cfg.mode == 2 && (s.obs.trace.st == 1 || s.obs.trace.st == 3)) stBUSY]) fun s =>
    let ps := grantPages n ppas
    ok r [] (wipePages ps { s with obs.trace.spillPages := s.obs.trace.spillPages ++ ps })

/-- Writes a record to its place in the spill ring, two to a line. -/
def spillWrite (n : Nat) (ws : List Nat) (s : State) : State :=
  let pages := s.obs.trace.spillPages
  let l := (pages.getD (n / 65536 % pages.length) 0) * 32768 + n % 65536 / 2
  let d := (lineOf l s.mem).data.toNat
  let old (i : Nat) : Nat := fieldOf d (32 * i) 32
  let new := (List.range 16).map fun i => if i / 8 = n % 2 then ws.getD (i % 8) 0 else old i
  if dieState (lineDie l) s = .inService then ownLine l 0 (wordsLine new) s else s

/-- TRACE_SPILL: the oldest record goes from the buffer to the spill ring; a full ring stops the trace (R473). -/
def execTraceSpill : State → Host.Outcome State Fault Refusal :=
  act fun s =>
    let t := s.obs.trace
    match t.recs with
    | [] => s
    | x :: rest =>
      if s.powered = false ∨ t.st ≠ 1 ∨ t.cfg.mode ≠ 2 then s
      else if 65536 * t.spillPages.length ≤ t.spillPos - t.spillAck then traceState 2 s
      else
        let s := spillWrite t.spillPos (traceWords x) s
        { s with obs.trace := { t with recs := rest, first := t.first + 1, spillPos := t.spillPos + 1 } }

/-! ### Shelves under safelight (R477 type 6, R480, 06 R194) -/

/-- The low bits of a list of flags as a number, the first in bit 0. -/
def bitsNat (bs : List Bool) : Nat := bs.foldr (fun b n => b2n b + 2 * n) 0

/-- The 32 words of a lane record. -/
def laneWords (l : Lane) : List Nat :=
  (List.range 24).map (fun i => ((l.w[i]?).map fun w => w.v.toNat).getD 0) ++ [l.s.v.toNat, l.c.v.toNat] ++ w64 l.g.toNat
    ++ [l.f.toNat + 2 ^ 8 * bitsNat ((List.range 8).map fun i => i == 0 || ((l.m[i]?).map (·.1)).getD false),
        bitsNat ((List.range 24).map (fun i => ((l.w[i]?).map fun w => w.t != 0).getD false) ++ [l.s.t != 0, l.c.t != 0]), 0, 0]

/-- A type 6 section: the shelf's head and its 256 lanes as of the last commit; `data` false writes lane values as zeros. -/
def shelfWords (sh : Nat) (data : Bool) (s : State) : List Nat :=
  match shelfOf sh s with
  | none => []
  | some x =>
    let f := x.run.bind fun fid => firingBy fid s
    [(f.map (·.firingId)).getD 0, (f.map (·.desc.glaze)).getD 0 + 2 ^ 16 * (x.idxS % 65536)] ++ (List.range 4).map (fun i => (x.ctS.getD i 0).toNat)
      ++ [0, 0] ++ (List.range 256).flatMap fun i => match x.shadow[i]? with
        | some l => if data then laneWords l else List.replicate 32 0
        | none => List.replicate 32 0

/-- Word `i` of a shelf's SRAM: private areas, CONST area, stream staging; what the staging holds is open (R194, log 16). -/
def sramWord (x : Shelf) (i : Nat) : Nat :=
  if i < 2 ^ 20 then (((x.lanes[i / 4096]?).bind fun l => smGet (i % 4096) l.priv).map fun w => w.v.toNat).getD 0
  else if i < 2 ^ 20 + 2 ^ 18 then ((smGet (i - 2 ^ 20) x.const).map fun w => w.v.toNat).getD 0
  else (Config.openWord 4 i).toNat

/-- Bytes `off` to `off + len - 1` of a sequence of words, as words again. -/
def byteSlice (word : Nat → Nat) (off len : Nat) : List Nat :=
  let byte (b : Nat) : Nat := if b < off + len then word (b / 4) / 2 ^ (8 * (b % 4)) % 256 else 0
  (List.range (ceilDiv len 4)).map fun i =>
    let b := off + 4 * i
    byte b + 2 ^ 8 * byte (b + 1) + 2 ^ 16 * byte (b + 2) + 2 ^ 24 * byte (b + 3)

/-- SHELF_SRAM_READ (R418, R480). -/
def execShelfSramRead (r shelf off len : Nat) : State → Host.Outcome State Fault Refusal :=
  cmd r 0x89 (fun f s => [chkDeny (!scopeOpen 2 s || decide (320 ≤ shelf)), outChk3 f,
    chkLen (decide (2 ^ 20 < len) || decide (0x600000 < off + len)), outChk4 f len s]) fun s =>
    match shelfOf shelf s with
    | some x => okItem r (if len = 0 then [] else [.words (byteSlice (sramWord x) off len)]) s
    | none => s

/-- SHELF_STEP: 0 release, 1 hold at the next commit, 2 run STEPS then hold (R418, R480). -/
def execShelfStep (r shelf mode steps : Nat) : State → Host.Outcome State Fault Refusal :=
  cmd r 0x8A (fun f s => [chkResv (decide (3 ≤ mode)), chkDeny (!scopeOpen 3 s || decide (320 ≤ shelf)), outChk3 f, outChk4 f 32800 s]) fun s =>
    let s := modShelf shelf (fun x => match mode with
      | 0 => { x with hold := 0, held := false }
      | 1 => { x with hold := 1 }
      | _ => if steps = 0 then { x with hold := 1 } else { x with hold := 2, steps := steps, held := false }) s
    okItem r [.words (shelfWords shelf true s)] s

end Sys2Proof.Machine
end

