-- ==== Sys2Proof/Machine/Regs.lean ====
section
/-! DEFINITION. BAR0 and BAR2 (10 R346 to R348, R378 to R381): reading every register, with the latch of 64-bit ones, and writing
them by their access types (00 R9, R11). -/

namespace Sys2Proof.Machine

/-! ### 64-bit registers (R347) -/

/-- Host wait of this start (14 R450, R460). -/
def hostWaitNow (s : State) : Nat :=
  s.glb.hostWaitTotal + if s.glb.poolReady then 0 else (s.glb.waitStart.map fun t => s.now - t).getD 0

/-- Register of a ring at `r` x 0x40 + `o`. -/
def ringReg64 (r o : Nat) (s : State) : Option Nat :=
  match ringOf r s, o with
  | some g, 0x00 => some g.base
  | some g, 0x18 => some g.seq
  | _, _ => none

/-- Value of the 64-bit register whose low word stands at an offset. -/
def read64 (off : Nat) (s : State) : Option Nat :=
  if 0x10000 ≤ off ∧ off < 0x101C0 then ringReg64 ((off - 0x10000) / 64) (off % 64) s
  else if 0x100100 ≤ off ∧ off < 0x100180 ∧ off % 8 = 0 then some (timerOf ((off - 0x100100) / 8) s).next
  else if 0x3000100 ≤ off ∧ off < 0x3000140 ∧ off % 8 = 0 then s.obs.global[(off - 0x3000100) / 8]?
  else match off with
    | 0x208 => some s.glb.readyAt
    | 0x210 => some (hostWaitNow s)
    | 0x10208 => some s.host.bounceBase
    | 0x100000 => some s.now
    | 0x600008 => some s.pen.fwAddr
    | 0x3000008 => some s.obs.trace.written
    | 0x3000018 => some s.obs.trace.spillPos
    | 0x3000028 => some s.host.evSeq
    | _ => none

/-! ### The blocks -/

/-- Bits of a list of conditions, the first in bit 0. -/
def dieBits (n : Nat) (p : Nat → Bool) : Nat := (List.range n).foldl (fun a i => a + 2 ^ i * b2n (p i)) 0

/-- GLB (10 R378, 14 R460). -/
def readGlb (off : Nat) (s : State) : Nat :=
  match off with
  | 0x000 => 0x0901 + 2 ^ 16 * Config.siliconRev.toNat + 2 ^ 24 * 0x4A
  | 0x004 => b2n s.glb.poolReady + 2 * b2n s.pen.session + 4 * b2n (linkDegraded s)
  | 0x008 => s.glb.kilnIn.toNat + 2 ^ 8 * portBits s + if s.twin.mode = .starting then 0 else 2 ^ 24 * b2n (planeIn 0 s) + 2 ^ 25 * b2n (planeIn 1 s)
  | 0x200 => s.glb.step + 2 ^ 4 * b2n s.glb.waitStart.isSome + 2 ^ 5 * dieBits 8 (fun k => dieState k s == .training)
      + 2 ^ 13 * dieBits 8 (fun k => dieState k s == .wedging)
  | 0x218 => b2n s.glb.readyOff + 2 * b2n s.glb.inputLow
  | 0x220 => s.glb.resetCause + 4 * s.glb.prevFatal
  | _ => if 0x100 ≤ off ∧ off < 0x140 then
      let m := (off - 0x100) / 4
      (if 2 * m ≤ 18 then 2 else 0) + 2 ^ 16 * (if 2 * m + 1 ≤ 18 then 2 else 0)
    else 0

/-- Code of a ring's state. -/
def ringCode : RingState → Nat
  | .stopped => 0
  | .running => 1
  | .halted => 2

/-- CMD (10 R379, R380). START bits are clear again once the write is acted on. -/
def readCmd (off : Nat) (s : State) : Nat :=
  if off < 0x101C0 then match ringOf ((off - 0x10000) / 64) s with
    | some g => match off % 64 with
      | 0x08 => g.size
      | 0x0C => ringCode g.st + 2 ^ 4 * g.cause + 2 ^ 8 * b2n g.inflight.isSome + 2 ^ 16 * ((g.inflight.map (·.opcode)).getD 0)
      | 0x10 => g.prod
      | 0x14 => g.cons
      | _ => 0
    | none => 0
  else match off with
    | 0x10210 => s.host.bounceSize
    | 0x10214 => s.host.authFail
    | 0x10218 => s.host.evtLost
    | 0x1021C => s.host.doorbellErr
    | _ => 0

/-- IRQ: MSI-X table, PBA, IRQ_CAUSE (10 R381). -/
def readIrq (off : Nat) (s : State) : Nat :=
  if off < 0x20400 then (s.host.msix.getD ((off - 0x20000) / 4) 0).toNat
  else match off with
    | 0x21000 => s.host.pba.toNat % 2 ^ 32
    | 0x21004 => s.host.pba.toNat / 2 ^ 32
    | 0x22000 => s.host.irqCause.toNat
    | _ => 0

/-- TAL (13 R443). -/
def readTal (off : Nat) (s : State) : Nat :=
  match off with
  | 0x100008 => b2n s.tal.refOk + 2 * b2n s.tal.locked + 4 * s.tal.skew
  | 0x10000C => dieBits 24 fun u => ((s.tal.dies[u]?).map fun d => d.freeze != 0 || !d.synced).getD false
  | 0x100010 => s.tal.gaps
  | 0x100014 => s.tal.clkStop
  | _ => 0

/-- XLT (02). -/
def readXlt (off : Nat) (s : State) : Nat :=
  match off with
  | 0x200000 => s.xlt.faults.length
  | 0x200004 => (s.xlt.faults.map (·.waiters.length)).sum
  | 0x200008 => s.xlt.refused
  | 0x20000C => s.xlt.batchLast
  | _ => 0

/-- DIR (04 R161). -/
def readDir (off : Nat) (s : State) : Nat :=
  match off with
  | 0x300000 => s.dir.ents.length
  | 0x300004 => min 65536 (openTrans s) + 2 ^ 17 * s.dir.reserv.length
  | 0x300008 => s.dir.nackCnt
  | 0x30000C => s.dir.leaseEnds
  | 0x300010 => s.dir.marked
  | 0x300014 => s.dir.discarded
  | 0x300018 => s.dir.summaryBad
  | 0x30001C => s.dir.regions.length + 2 ^ 13 * (s.dir.regions.filter fun e => e.2.cont.isSome).length
  | _ => 0

/-- SHP (09). -/
def readShp (off : Nat) (s : State) : Nat :=
  if 0x400100 ≤ off ∧ off < 0x400140 then portCommit ((off - 0x400100) / 4) s % 2 ^ 32
  else if 0x400200 ≤ off ∧ off < 0x400240 then match (portOf ((off - 0x400200) / 4) s).bind (·.gate) with
    | some g => g.cur % 1024 + 1024
    | none => 0
  else match off with
    | 0x400000 => (liveSaggers s).length + 2 ^ 12 * ((liveSaggers s).filter fun g => g.2.sealed).length
    | 0x400004 => s.sags.breachCnt
    | 0x400008 => localCommit s % 2 ^ 32
    | _ => 0

/-- Code of a plane's state (11 R401). -/
def planeCode (p : Nat) (s : State) : Nat :=
  match (planeOf p s).map (·.st) with
  | some PlaneState.standby => 1
  | some PlaneState.out => 2
  | some PlaneState.resync => 3
  | some PlaneState.dead => 4
  | _ => 0

/-- TWN (11 R401). The states read 0 while the module is starting. -/
def readTwn (off : Nat) (s : State) : Nat :=
  let loss (p : Nat) : Nat := ((planeOf p s).map (·.losses)).getD 0
  match off with
  | 0x500000 =>
    if s.twin.mode = .starting then 0
    else twinCode s + 4 * b2n (planeActive 1 s) + 2 ^ 3 * planeCode 0 s + 2 ^ 6 * planeCode 1 s + 2 ^ 9 * loss 0 + 2 ^ 12 * loss 1
      + 2 ^ 15 * s.twin.fatalCause
  | 0x500004 => ((planeOf 0 s).map (·.claim)).getD 0
  | 0x500008 => ((planeOf 1 s).map (·.claim)).getD 0
  | 0x50000C => s.twin.gaps
  | 0x500010 => s.twin.lastGap
  | 0x500014 => s.twin.divLocated + 2 ^ 16 * s.twin.divUnlocated
  | 0x500018 => s.twin.alarmWire + 2 ^ 16 * s.twin.alarmMail
  | 0x50001C => if s.twin.planes.any (·.st == .resync) then (Config.openWord 8 s.now).toNat % 1001 else 0
  | _ => 0

/-- PEN (12 R428). -/
def readPen (off : Nat) (s : State) : Nat :=
  match off with
  | 0x600000 =>
    if s.pen.started = false then 0
    else s.pen.otp.lc + 2 ^ 3 * s.pen.inForce + 2 ^ 6 * slotsUsed s + 2 ^ 9 * s.pen.safelight + 2 ^ 11 * b2n s.pen.factoryDebug
      + 2 ^ 12 * b2n s.pen.rngFail + 2 ^ 13 * b2n s.pen.aliasReady
  | 0x600010 => s.pen.fwLen
  | 0x600018 => s.pen.fwNext + 2 ^ 4 * s.pen.fwResult + 2 ^ 8 * s.pen.fwLoaded
  | _ => 0

/-- Code of a memory state (03 R121). -/
def memCode : MemState → Nat
  | .absent => 0
  | .training => 1
  | .wedging => 2
  | .inService => 3
  | .offline => 4
  | .lost => 5

/-- KLN block of die `k` (03 R121, 05 R192, 06 R234, 07 R274). -/
def readKln (k o : Nat) (s : State) : Nat :=
  let shelf (i : Nat) (p : Shelf → Bool) : Bool := i < 40 && ((shelfOf (40 * k + i) s).map p).getD false
  let shelves := (s.kiln.shelves.drop (40 * k)).take 40
  let d := (s.kiln.dies[k]?).getD ⟨0, 0, 0, 0, 0, 0, 0, 0, []⟩
  match dieMem k s with
  | none => 0
  | some m => match o with
    | 0x1000 => memCode m.st + 2 ^ 3 * m.rate + 2 ^ 5 * m.size + 2 ^ 8 * b2n m.mixed + 2 ^ 16 * m.wgen
    | 0x1004 => diePages k s
    | 0x1008 => m.ce
    | 0x100C => m.ue
    | 0x1010 => m.pos / 32768 + 2 ^ 21 * m.passes
    | 0x1014 => m.applied + 2 ^ 16 * m.exhausted
    | 0x2000 => d.residueFails
    | 0x2004 => d.retired % 512 + 2 ^ 9 * (shelves.map (·.free.length)).sum + 2 ^ 18 * (shelves.filter (·.out)).length
    | 0x2008 => d.cause9
    | 0x3000 => dieBits 32 fun i => shelf i (·.run.isSome)
    | 0x3004 => dieBits 8 fun i => shelf (32 + i) (·.run.isSome)
    | 0x3008 => dieBits 32 fun i => shelf i (·.out)
    | 0x300C => dieBits 8 fun i => shelf (32 + i) (·.out)
    | 0x3010 => d.partsDone
    | 0x3014 => d.glazeLoads
    | 0x3018 => d.queue.length
    | 0x4000 => (s.kiln.wins.filter fun w => w.2.blk.die == k).length + 2 ^ 11 * (shelves.filter (·.window.isSome)).length
    | 0x4004 => d.winAccepted
    | 0x4008 => d.winRefused
    | 0x400C => d.pieces
    | _ => 0

/-- Code of a port's state (08 R314). -/
def linkCode : LinkState → Nat
  | .down => 0
  | .training => 1
  | .resuming => 2
  | .up => 3

/-- PRT block of port `p` (08 R314). -/
def readPrt (p o : Nat) (s : State) : Nat :=
  match portOf p s with
  | none => 0
  | some q => match o with
    | 0x00 => linkCode q.st + 2 ^ 3 * b2n q.narrow + 2 ^ 4 * q.swapped + 2 ^ 16 * q.trainNo
    | 0x04 => q.held.length
    | 0x08 => q.ctr.fecCorr % 2 ^ 32
    | 0x0C => q.ctr.fecUncorr % 2 ^ 32
    | 0x10 => q.ctr.crcFail
    | 0x14 => q.ctr.replays
    | 0x18 => q.ctr.strangerDrop
    | 0x1C => q.ctr.authFail
    | 0x20 => q.ctr.late
    | 0x24 => q.ctr.protocol
    | 0x28 => q.ctr.freshDiscard
    | 0x2C => q.ctr.undelivered
    | 0x30 => q.ctr.lostInbound
    | _ => 0

/-- OBS (15 R481). -/
def readObs (off : Nat) (s : State) : Nat :=
  let t := s.obs.trace
  match off with
  | 0x3000000 => t.st + 4 * t.cfg.mode + 16 * b2n (!(t.cfg.sagger == 1 && scopeOpen 0 s)) + 32 * t.banks
  | 0x3000010 => t.lost
  | 0x3000020 => s.obs.contact.st + 4 * s.obs.contact.pause + 2 ^ 20 * s.obs.contact.count
  | _ => 0

/-- A 32-bit register of BAR0; what lies outside the listed ranges reads 0 (R346). BAR2 follows from 2^32 on (R348). -/
def readReg32 (off : Nat) (s : State) : Nat :=
  if off < 0x10000 then readGlb off s
  else if off < 0x20000 then readCmd off s
  else if off < 0x30000 then readIrq off s
  else if off < 0x100000 then 0
  else if off < 0x200000 then readTal off s
  else if off < 0x300000 then readXlt off s
  else if off < 0x400000 then readDir off s
  else if off < 0x500000 then readShp off s
  else if off < 0x600000 then readTwn off s
  else if off < 0x700000 then readPen off s
  else if off < 0x1000000 then 0
  else if off < 0x1800000 then readKln ((off - 0x1000000) / 0x100000) (off % 0x100000) s
  else if off < 0x2000000 then 0
  else if off < 0x3000000 then readPrt ((off - 0x2000000) / 0x100000) (off % 0x100000) s
  else if off < 0x3400000 then readObs off s
  else if 2 ^ 32 ≤ off ∧ off % 0x1000 = 0 then ((ringOf ((off - 2 ^ 32) / 0x1000) s).map (·.doorbell)).getD 0
  else 0

/-- The word at an offset, as it stands. -/
def readWord (off : Nat) (s : State) : Nat :=
  match read64 off s with
  | some v => v % 2 ^ 32
  | none => match if off < 4 then none else read64 (off - 4) s with
    | some v => v / 2 ^ 32 % 2 ^ 32
    | none => readReg32 off s % 2 ^ 32

/-- LOW_WORD_READ: a read of a word. The low word of a 64-bit register latches its high word, and the next read of the high word
returns that (R347); any other register reads as it stands (00 R9). A misaligned access returns 0. -/
def execLowWordRead (off : Nat) : State → Host.Outcome State Fault Refusal :=
  act fun s =>
    if s.glb.hubReset then s
    else if off % 4 ≠ 0 then { s with hostOut := s.hostOut ++ [.read off 0] }
    else match read64 off s with
      | some v => { s with hostOut := s.hostOut ++ [.read off (v % 2 ^ 32)], host.highs := smSet (off + 4) (v / 2 ^ 32 % 2 ^ 32) s.host.highs }
      | none => match smGet off s.host.highs with
        | some h => { s with hostOut := s.hostOut ++ [.read off h], host.highs := smDel off s.host.highs }
        | none => { s with hostOut := s.hostOut ++ [.read off (readWord off s)] }

/-! ### Writing -/

/-- A write that comes while its ring, or some ring, is not Stopped: ignored and counted (R379, R380). -/
def badConfig (s : State) : State := { s with host.doorbellErr := add32 s.host.doorbellErr 1 }

/-- A 64-bit number with one of its words replaced, its low `keep` bits reading 0. -/
def putWord (old : Nat) (high : Bool) (v keep : Nat) : Nat :=
  let n := if high then old % 2 ^ 32 + 2 ^ 32 * v else old / 2 ^ 32 * 2 ^ 32 + v
  n / 2 ^ keep * 2 ^ keep

/-- Writes CMD_RING_BASE and CMD_RING_SIZE while the ring is Stopped; its other registers are read only (R379). -/
def writeRing (r o v : Nat) (s : State) : State :=
  match ringOf r s with
  | none => s
  | some g =>
    if o ≠ 0x00 ∧ o ≠ 0x04 ∧ o ≠ 0x08 then s
    else if g.st ≠ .stopped then badConfig s
    else modRing r (fun g => match o with
      | 0x00 => { g with base := putWord g.base false v 12 }
      | 0x04 => { g with base := putWord g.base true v 12 }
      | _ => { g with size := v % 32 }) s

/-- Writes the bounce region's registers while every ring is Stopped (R380). -/
def writeBounce (off v : Nat) (s : State) : State :=
  if s.host.rings.all (·.st == .stopped) then
    match off with
    | 0x10208 => { s with host.bounceBase := putWord s.host.bounceBase false v 16 }
    | 0x1020C => { s with host.bounceBase := putWord s.host.bounceBase true v 16 }
    | _ => { s with host.bounceSize := v % 2 ^ 15 }
  else badConfig s

/-- Does `f` for each ring whose bit is set. -/
def eachRing (v : Nat) (f : Nat → State → State) (s : State) : State :=
  (List.range 7).foldl (fun s r => if bitOf v r then f r s else s) s

/-- REGISTER_WRITE: by the register's access type (00 R9, R11): RW fields are stored, W1C and RW1S and WO bits act, all else is
ignored. Offsets from 2^32 on are doorbells. -/
def execRegisterWrite (off : Nat) (v : Word) : State → Host.Outcome State Fault Refusal :=
  act fun s =>
    let n := v.toNat
    if s.glb.hubReset = true ∨ off % 4 ≠ 0 then s
    else if 0x10000 ≤ off ∧ off < 0x101C0 then writeRing ((off - 0x10000) / 64) (off % 64) n s
    else if 0x20000 ≤ off ∧ off < 0x20400 then flushVecs { s with host.msix := s.host.msix.set ((off - 0x20000) / 4) v }
    else if 2 ^ 32 ≤ off then
      let r := (off - 2 ^ 32) / 0x1000
      if off % 0x1000 ≠ 0 ∨ 7 ≤ r then s
      else if r < 4 then after s (execCommandDoorbell r n s) else after s (execConsumerDoorbell r n s)
    else match off with
      | 0x10200 => eachRing n startRing s
      | 0x10204 => eachRing n stopRing s
      | 0x10208 => writeBounce off n s
      | 0x1020C => writeBounce off n s
      | 0x10210 => writeBounce off n s
      | 0x22000 => after s (execIrqCauseClear n s)
      | 0x600008 => { s with pen.fwAddr := putWord s.pen.fwAddr false n 6 }
      | 0x60000C => { s with pen.fwAddr := putWord s.pen.fwAddr true n 6 }
      | 0x600010 => { s with pen.fwLen := n }
      | 0x600014 => after s (execPenFwGo v s)
      | _ => s

end Sys2Proof.Machine
end

