-- ==== Sys2Proof/Machine/Contact.lean ====
section
/-! DEFINITION. Contact sheets (15 R475 to R478): the cut, its sections, and the commands that take, read and release a sheet. In the
model no transfer is under way on a die-to-die link or in a channel queue between two commands (log 11). -/

namespace Sys2Proof.Machine

/-! ### Sections (R476, R477) -/

/-- `n` words of registers from an offset on. -/
def regImage (base n : Nat) (s : State) : List Nat := (List.range n).map fun i => readWord (base + 4 * i) s

/-- Opcode and body bytes of a message that came from the fabric (08 R300). -/
def msgShape (i : Instr) : Nat × Nat :=
  match i with
  | .rdShared _ _ => (0x01, 8)
  | .rdOwn _ _ _ => (0x02, 16)
  | .upgrade _ _ _ => (0x03, 16)
  | .rdOnce _ _ _ => (0x04, 12)
  | .scorch _ _ _ _ _ _ => (0x05, 88)
  | .atomic _ _ _ _ _ _ _ => (0x06, 32)
  | .move _ _ => (0x07, 64)
  | .fire _ _ => (0x08, 256)
  | .fireCancel _ _ => (0x09, 4)
  | .agentCtxSet _ _ _ => (0x0A, 56)
  | .fence _ => (0x0B, 0)
  | .writeback _ _ _ _ _ => (0x25, 80)
  | .rspData _ _ _ _ => (0x26, 80)
  | .rspClean _ _ => (0x27, 8)
  | .rspGone _ _ => (0x28, 8)
  | .hdata _ _ ls => (0x2B, 8 + 64 * ls.length)
  | .hdone _ _ => (0x2C, 4)
  | .fenceAck _ => (0x2D, 0)
  | .contrib _ _ _ _ _ => (0x60, 4112)
  | .admitHello _ _ => (0xA0, 92)
  | .admitProve _ _ _ _ _ => (0xA2, 300)
  | .rekey _ _ => (0xA4, 4)
  | .rekeyAck _ _ => (0xA5, 4)
  | .regionPublish _ _ => (0xA6, 72)
  | .join _ _ => (0xC0, 4)
  | .pulse _ _ => (0xC2, 4)
  | _ => (0, 0)

/-- Header of a waiting message as four words (08 R297). Its key generation and counter are open (log 4). -/
def headerWords (i : Instr) : List Nat :=
  match msgMhd i with
  | none => []
  | some m =>
    let (op, len) := msgShape i
    let vc := ((rxRule op len).map (·.1)).getD 0
    let sealed := !(op == 0xA0 || op == 0xA2)
    let free (k : Nat) : Nat := if sealed then (Config.openWord 5 ((m.src * 1024 + m.tag) * 4 + k)).toNat else 0
    [1 + 2 ^ 4 * b2n sealed + 2 ^ 5 * (free 0 % 2) + 2 ^ 8 * op + 2 ^ 16 * vc + 2 ^ 19 * len,
     m.src % 2048 + 2 ^ 11 * (m.dst % 2048) + 2 ^ 22 * (m.tag % 1024),
     m.tag / 1024 % 64 + 2 ^ 6 * (m.tgen % 16) + 2 ^ 16 * (free 1 % 65536), free 2]

/-- A waiting message with its body, or zeros in the body's place. -/
def messageWords (data : Bool) (i : Instr) : List Nat :=
  let k := ((msgMhd i).map fun m => m.src * 1024 + m.tag).getD 0
  headerWords i ++ (List.range (ceilDiv (msgShape i).2 4)).map fun j => if data then (Config.openWord 6 (k * 2048 + j)).toNat else 0

/-- A held flit (08 R280). Its payload bytes, CRC and the fields as last sent are not kept by the model (log 4). -/
def flitWords (data : Bool) (p : Nat) (q : Port) (f : HeldFlit) : List Nat :=
  let free (j : Nat) : Nat := (Config.openWord 7 ((p * 4096 + f.seq) * 64 + j)).toNat
  let first := if f.msgs.isEmpty then 255 else f.cont
  [1 + 2 ^ 4 + 2 ^ 8 * f.seq + 2 ^ 20 * (free 0 % 4096), free 1, free 2 % 64 + 2 ^ 6 * q.trainNo + 2 ^ 14 * first,
   if data then 2 ^ 16 * (free 3 % 65536) else 0] ++ (List.range 59).map (fun j => if data then free (4 + j) else 0) ++ [free 63]

/-- The section of a unit begins with the time at which it recorded its state, 0 while its region is frozen (R477, R478). -/
def sectTime (region unit : Nat) (s : State) : List Nat := w64 (if regionFrozen region unit s then 0 else regionTally region unit s)

/-- Requests that wait at meters and gates, as the input sequencer holds them. -/
def queuedMsgs (s : State) : List Instr := s.sags.tab.flatMap fun g => g.2.waiting.map (·.cmd)

/-- Type 1: images of the hub's register blocks, headers of queued messages, heads of the commands in flight (10 R355). -/
def hubSect (s : State) : Sect :=
  let blocks : List Nat := [0, 0x10000, 0x20000, 0x100000, 0x200000, 0x300000, 0x400000, 0x500000, 0x600000, 0x3000000]
  let heads := (List.range 4).flatMap fun r => match inflightOf r s with
    | some f => [f.opcode + 2 ^ 16 * f.ctag] ++ w64 f.cseq ++ [0]
    | none => []
  let ws := w64 s.now ++ (blocks.flatMap fun b => regImage b 1024 s) ++ (queuedMsgs s).flatMap headerWords ++ heads
  ⟨1, 0, ws, ws⟩

/-- Type 2: the counter blocks in SID order. -/
def counterSect (s : State) : Sect :=
  let ws := w64 s.now ++ (liveSaggers s).flatMap fun g => ctrBlock g.1 0 s
  ⟨2, 0, ws, ws⟩

/-- Words of a mover descriptor (02 R64). -/
def moveWords (d : MoveDesc) : List Nat :=
  [d.fmt + 2 ^ 4 * d.op + 2 ^ 8 * b2n d.notify + 2 ^ 9 * b2n d.chain + 2 ^ 16 * d.tag, d.length] ++ w64 d.src ++ w64 d.dst ++ w64 d.pattern.toNat
    ++ List.replicate 8 0

/-- Type 7: 64 movers of 4 KiB each: descriptor, position, keys of the lines it buffers. -/
def moverSect (s : State) : Sect :=
  let one (m : Nat) : List Nat :=
    let ws : List Nat := match s.kiln.runs.find? (·.mover == some m) with
      | some x => moveWords x.desc ++ w64 x.pos ++ x.buf.flatMap fun b => w64 b.1
      | none => []
    (ws ++ List.replicate 1024 0).take 1024
  let ws := w64 s.now ++ (List.range 64).flatMap one
  ⟨7, 0, ws, ws⟩

/-- An event record as 64 words (R468). -/
def eventWords (e : Event) : List Nat :=
  let ws := [1 + 2 ^ 8 * e.kind + 2 ^ 16 * e.sid, e.region + 2 ^ 2 * e.unit + 2 ^ 6 * b2n e.hubStamped + 2 ^ 16 * (4 * e.body.length)]
    ++ w64 e.tally ++ w64 e.seq ++ [0, 0] ++ e.body
  (ws ++ List.replicate 64 0).take 64

/-- Type 8: the event records that the hub holds. -/
def eventSect (s : State) : Sect :=
  let ws := w64 s.now ++ s.host.evBuf.flatMap eventWords
  ⟨8, 0, ws, ws⟩

/-- Types 3, 5 and 6 of a kiln die: its registers and placement queue, its link, its 40 shelves in order. -/
def kilnSects (k : Nat) (s : State) : List Sect :=
  let t := sectTime 1 k s
  let queue := ((s.kiln.dies[k]?).map (·.queue)).getD []
  let ids := queue.map fun e => ((firingBy e.1 s).map (·.firingId)).getD 0
  let main := t ++ regImage (0x1000000 + 0x100000 * k) 16384 s ++ ids
  let shelves (data : Bool) : List Nat := t ++ (List.range 40).flatMap fun i => shelfWords (40 * k + i) data s
  [⟨3, k, main, main⟩, ⟨5, k, t, t⟩, ⟨6, k, shelves true, shelves false⟩]

/-- Types 4 and 5 of a port die: its registers, the messages of its receive pool, its held flits; its link. -/
def portSects (p : Nat) (s : State) : List Sect :=
  let t := sectTime 2 p s
  let image := regImage (0x2000000 + 0x100000 * p) 1024 s
  let waiting := s.twin.rxWait.filter fun i => (msgMhd i).any fun m => m.port == p
  let rest (data : Bool) : List Nat := waiting.flatMap (messageWords data) ++ match portOf p s with
    | some q => q.held.flatMap (flitWords data p q)
    | none => []
  [⟨4, p, t ++ image ++ rest true, t ++ image ++ rest false⟩, ⟨5, 8 + p, t, t⟩]

/-! ### Taking a sheet (R475) -/

/-- Dies in service: 0 to 7 the kiln dies, 8 to 23 the port dies. -/
def unitUp (u : Nat) (s : State) : Bool :=
  if u < 8 then s.glb.kilnIn.getLsbD u else ((portOf (u - 8) s).map (·.inSvc)).getD false

/-- The region of a die is frozen. -/
def unitFrozen (u : Nat) (s : State) : Bool := if u < 8 then regionFrozen 1 u s else regionFrozen 2 (u - 8) s

/-- The trace gives up what its buffer no longer holds beside the sheet, the oldest first (R477). -/
def trimTrace (s : State) : State :=
  let t := s.obs.trace
  let n := t.recs.length - traceCap s
  { s with obs.trace := { t with recs := t.recs.drop n, first := t.first + n } }

/-- Step 1 for the trace: it pauses with marker 2 (R478). -/
def pauseTrace (s : State) : State :=
  if s.obs.trace.st = 1 then traceState 3 (traceMarker 2 0 s) else s

/-- Steps 1 and 2: the pause begins and the hub's part is recorded. -/
def takeSheet (r : Nat) (data : Bool) (s : State) : State :=
  let paused := s.obs.trace.st == 1
  let s := pauseTrace s
  let units := (List.range 24).filter fun u => unitUp u s
  let frozen := units.filter fun u => unitFrozen u s
  let c := s.obs.contact
  let sects := [hubSect s, counterSect s, moverSect s, eventSect s]
  let sheet : Contact := { st := 1, pause := c.pause, count := c.count, number := c.number + 1, data := data, tStart := s.now, tEnd := 0
                           waitUnits := units, units := units, frozen := frozen, sections := sects, resumeTrace := paused, ring := r }
  park r .contact (trimTrace { s with obs.contact := sheet })

/-- CONTACT_TAKE (R475, R478). -/
def execContactTake (r : Nat) (data : Bool) : State → Host.Outcome State Fault Refusal :=
  cmd r 0x86 (fun _ s =>
    [chkDeny ((data && !scopeOpen 4 s) || decide (s.obs.trace.banks < 32)), chkExec (s.obs.contact.st != 0) stBUSY,
     chkExec (s.twin.planes.any (·.st == .resync)) stBUSY]) (takeSheet r data)

/-- CONTACT_MARKER: a die's marker has returned; its state as of the marker is recorded (R475 steps 4 and 5). -/
def execContactMarker (unit : Nat) : State → Host.Outcome State Fault Refusal :=
  act fun s =>
    let c := s.obs.contact
    if s.on = true ∧ c.st = 1 ∧ c.waitUnits.contains unit = true ∧ unitUp unit s = true then
      let new := if unit < 8 then kilnSects unit s else portSects (unit - 8) s
      { s with obs.contact := { c with waitUnits := c.waitUnits.filter (· != unit), sections := c.sections ++ new } }
    else s

/-! ### The sheet (R477) -/

/-- Sum of powers of two. -/
def unitBits (l : List Nat) : Nat := l.foldl (fun n u => n + 2 ^ u) 0

/-- Words of a section as the sheet shows them: its data as zeros without DATA. -/
def sectWords (data : Bool) (x : Sect) : List Nat := if data then x.full else x.bare

/-- Directory entries, from a byte offset on. -/
def sheetDir (data : Bool) : Nat → List Sect → List Nat
  | _, [] => []
  | off, x :: rest =>
    let n := 4 * (sectWords data x).length
    [x.type + 2 ^ 8 * x.unit, off, n, 0] ++ sheetDir data (off + n) rest

/-- Bytes of the sheet. -/
def sheetLen (c : Contact) : Nat :=
  128 + 16 * c.sections.length + 4 * (c.sections.map fun x => (sectWords c.data x).length).sum

/-- The head's fields in order from byte 1 on: the flags, then NUMBER and the rest without gaps. -/
def sheetHead (c : Contact) : List Nat :=
  let bytes (n v : Nat) : List Nat := (List.range n).map fun i => v / 2 ^ (8 * i) % 256
  let all := bytes 1 (1 + 16 * b2n c.data) ++ bytes 4 c.number ++ bytes 8 c.tStart ++ bytes 8 c.tEnd ++ bytes 4 c.pause
    ++ bytes 4 (unitBits c.units) ++ bytes 4 (unitBits c.frozen) ++ bytes 4 c.sections.length ++ bytes 4 (sheetLen c)
  byteSlice (fun i => (List.range 4).foldl (fun n j => n + all.getD (4 * i + j) 0 * 2 ^ (8 * j)) 0) 0 128

/-- The whole sheet as words. -/
def sheetWords (c : Contact) : List Nat :=
  sheetHead c ++ sheetDir c.data (128 + 16 * c.sections.length) c.sections ++ c.sections.flatMap (sectWords c.data)

/-- CONTACT_DONE: every marker of a die in service has returned; the pause ends and the sheet is held (R475 step 6, R478). -/
def execContactDone : State → Host.Outcome State Fault Refusal :=
  act fun s =>
    let c := s.obs.contact
    if s.on = true ∧ c.st = 1 ∧ c.waitUnits.any (fun u => unitUp u s) = false then
      let len := min (s.now - c.tStart) 200000
      let done := c.units.filter fun u => !c.waitUnits.contains u
      let frozen := c.frozen.filter fun u => done.contains u
      let sheet : Contact := { c with st := 2, tEnd := s.now, pause := len, count := (c.count + 1) % 4096, units := done, frozen := frozen, waitUnits := [] }
      let s := endPause len 6 { s with obs.contact := sheet }
      emit 0x27 4095 0 0 ([c.number, 1, sheetLen sheet, len, unitBits done, 0] ++ w64 c.tStart) s
    else s

/-- CONTACT_READ (R480). -/
def execContactRead (r off len : Nat) : State → Host.Outcome State Fault Refusal :=
  cmd r 0x87 (fun f s => [outChk3 f,
    chkLen (s.obs.contact.st == 2 && decide (sheetLen s.obs.contact < off + len)), outChk4 f len s, chkExec (s.obs.contact.st != 2) stCONFLICT]) fun s =>
    let ws := sheetWords s.obs.contact
    okItem r (if len = 0 then [] else [.words (byteSlice (fun i => ws.getD i 0) off len)]) s

/-- CONTACT_RELEASE: the sheet is freed and a paused trace goes on with marker 3 (R478, R480). -/
def execContactRelease (r : Nat) : State → Host.Outcome State Fault Refusal :=
  cmd r 0x88 (fun _ s => [chkExec (s.obs.contact.st != 2) stCONFLICT]) fun s =>
    ok r [] (resumeTrace { s with obs.contact := { s.obs.contact with st := 0, data := false, units := [], frozen := [], sections := [] } })

/-! ### Commands that wait (10 R363) -/

/-- A command that waits goes on, if what it waits for has come. -/
def goOn (r : Nat) (p : Park) (s : State) : State :=
  match p with
  | .xltFence sid epoch => if fenceOpen sid epoch s then ok r [] s else s
  | .sysFence cmds => if cmds.any (replyOwed s) then s else ok r [] s
  | .memStart => if s.glb.arraysTested then memBegin r s else s
  | .powerOff _ => if workDone s then powerOffEnd r s else stopWork s
  | .dieOffline die =>
    if dieGone die s then refuse r stDENIED 7 s
    else if dieQuiet die s then ok r [] (goOffline die s) else s
  | .poolRead _ _ run _ => poolGo (run.len / 64 + 2) r s
  | .poolWrite _ _ run _ => poolGo (run.len / 64 + 2) r s
  | .memCraze line left => crazeGo r line left s
  | .contact => match s.obs.contact.st with
    | 2 => ok r [s.obs.contact.number, sheetLen s.obs.contact] s
    | 0 => okStatus r stINCOMPLETE [] s
    | _ => s
  | .proof nonce changed => proofEnd r nonce changed s
  | .peneno => match s.pen.busy with
    | some (.lc _) => s
    | some b => ok r [] (endBurn b s)
    | none => s
  | .retry i => match i with
    | .poolRead _ _ _ _ => poolRetry r i s
    | .poolWrite _ _ _ _ _ _ => poolRetry r i s
    | _ => unparkRetry r s

/-- PARKED_COMMAND_COMPLETE (R363). -/
def execParkedCommandComplete (r : Nat) : State → Host.Outcome State Fault Refusal :=
  act fun s => match (inflightOf r s).bind (·.parked) with
    | some p => if s.alive = true ∧ r < 4 then goOn r p s else s
    | none => s

end Sys2Proof.Machine
end

