-- ==== Sys2Proof/Machine/Dispatch.lean ====
section
/-! DEFINITION. One arm for each command. -/

namespace Sys2Proof.Machine

/-- The effect of a command on everything but the queue. -/
def exec (i : Instr) (s : State) : Host.Outcome State Fault Refusal :=
  match i with
  | .nop r => Sys2Proof.Machine.execNop r s
  | .hostConfig r c => Sys2Proof.Machine.execHostConfig r c s
  | .sysFence r => Sys2Proof.Machine.execSysFence r s
  | .poolRead r sid addr len => Sys2Proof.Machine.execPoolRead r sid addr len s
  | .poolWrite r sid addr len item lines => Sys2Proof.Machine.execPoolWrite r sid addr len item lines s
  | .fenceCancel r ring cseq => Sys2Proof.Machine.execFenceCancel r ring cseq s
  | .memStart r rate item len entries => Sys2Proof.Machine.execMemStart r rate item len entries s
  | .moduleReset r force => Sys2Proof.Machine.execModuleReset r force s
  | .powerOffPrepare r force => Sys2Proof.Machine.execPowerOffPrepare r force s
  | .saggerCreate r sid p => Sys2Proof.Machine.execSaggerCreate r sid p s
  | .saggerSet r sid p force => Sys2Proof.Machine.execSaggerSet r sid p force s
  | .saggerShelves r sid die mask => Sys2Proof.Machine.execSaggerShelves r sid die mask s
  | .saggerSeal r sid tcBlocks dirBlocks sealLoad => Sys2Proof.Machine.execSaggerSeal r sid tcBlocks dirBlocks sealLoad s
  | .saggerUnseal r sid => Sys2Proof.Machine.execSaggerUnseal r sid s
  | .saggerDrain r sid => Sys2Proof.Machine.execSaggerDrain r sid s
  | .saggerResume r sid => Sys2Proof.Machine.execSaggerResume r sid s
  | .saggerDestroy r sid => Sys2Proof.Machine.execSaggerDestroy r sid s
  | .gateLoad r port efmt n item force guard entries => Sys2Proof.Machine.execGateLoad r port efmt n item force guard entries s
  | .shapeConfig r c => Sys2Proof.Machine.execShapeConfig r c s
  | .saggerRead r sid => Sys2Proof.Machine.execSaggerRead r sid s
  | .cohConfig r sid c => Sys2Proof.Machine.execCohConfig r sid c s
  | .agentRevoke r aid => Sys2Proof.Machine.execAgentRevoke r aid s
  | .regionBind r name sid hid => Sys2Proof.Machine.execRegionBind r name sid hid s
  | .regionResolve r name choice => Sys2Proof.Machine.execRegionResolve r name choice s
  | .cohRead r select val => Sys2Proof.Machine.execCohRead r select val s
  | .xltTableGrant r n ppas => Sys2Proof.Machine.execXltTableGrant r n ppas s
  | .xltRootSet r sid => Sys2Proof.Machine.execXltRootSet r sid s
  | .xltMap r sid pva count size ppa rd wr att pin reserve item list => Sys2Proof.Machine.execXltMap r sid pva count size ppa rd wr att pin reserve item list s
  | .xltPresent r sid pva count ppa item list => Sys2Proof.Machine.execXltPresent r sid pva count ppa item list s
  | .xltWithdraw r sid pva count mode keep => Sys2Proof.Machine.execXltWithdraw r sid pva count mode keep s
  | .xltProtect r sid pva count rd wr att pin => Sys2Proof.Machine.execXltProtect r sid pva count rd wr att pin s
  | .xltFence r sid epoch => Sys2Proof.Machine.execXltFence r sid epoch s
  | .xltRead r sid pva => Sys2Proof.Machine.execXltRead r sid pva s
  | .faultResolve r n pairs => Sys2Proof.Machine.execFaultResolve r n pairs s
  | .faultConfig r timeout batchWindow => Sys2Proof.Machine.execFaultConfig r timeout batchWindow s
  | .heatConfig r c sid => Sys2Proof.Machine.execHeatConfig r c sid s
  | .pageMigrate r sid pva dst => Sys2Proof.Machine.execPageMigrate r sid pva dst s
  | .holderSet r hid h => Sys2Proof.Machine.execHolderSet r hid h s
  | .memCraze r ppa lines => Sys2Proof.Machine.execMemCraze r ppa lines s
  | .memWedge r die page pages => Sys2Proof.Machine.execMemWedge r die page pages s
  | .memRegen r die => Sys2Proof.Machine.execMemRegen r die s
  | .memPpr r loc mode spprLeft hpprLeft => Sys2Proof.Machine.execMemPpr r loc mode spprLeft hpprLeft s
  | .memDieSet r die st => Sys2Proof.Machine.execMemDieSet r die st s
  | .bisqueConfig r c die => Sys2Proof.Machine.execBisqueConfig r c die s
  | .moveSubmit r sid item d => Sys2Proof.Machine.execMoveSubmit r sid item d s
  | .kilnFire r sid item d => Sys2Proof.Machine.execKilnFire r sid item d s
  | .firingCancel r sid submitter tag => Sys2Proof.Machine.execFiringCancel r sid submitter tag s
  | .glazeInstall r len item img sigOk => Sys2Proof.Machine.execGlazeInstall r len item img sigOk s
  | .glazeRemove r id => Sys2Proof.Machine.execGlazeRemove r id s
  | .glazePermit r id mode action n sids => Sys2Proof.Machine.execGlazePermit r id mode action n sids s
  | .klnLibGrant r n ppas => Sys2Proof.Machine.execKlnLibGrant r n ppas s
  | .glazeRead r index => Sys2Proof.Machine.execGlazeRead r index s
  | .firingRead r sid submitter tag => Sys2Proof.Machine.execFiringRead r sid submitter tag s
  | .ctxGrant r sid base count => Sys2Proof.Machine.execCtxGrant r sid base count s
  | .ctxSet r n e => Sys2Proof.Machine.execCtxSet r n e s
  | .ctxRead r n => Sys2Proof.Machine.execCtxRead r n s
  | .windowOpen r len item b => Sys2Proof.Machine.execWindowOpen r len item b s
  | .windowArm r w => Sys2Proof.Machine.execWindowArm r w s
  | .windowForce r w => Sys2Proof.Machine.execWindowForce r w s
  | .windowClose r w => Sys2Proof.Machine.execWindowClose r w s
  | .windowRead r w contrib => Sys2Proof.Machine.execWindowRead r w contrib s
  | .portConfig r p => Sys2Proof.Machine.execPortConfig r p s
  | .aidAllow r port aid sid => Sys2Proof.Machine.execAidAllow r port aid sid s
  | .portReset r port mode => Sys2Proof.Machine.execPortReset r port mode s
  | .saRekey r port aid => Sys2Proof.Machine.execSaRekey r port aid s
  | .portRead r port aid => Sys2Proof.Machine.execPortRead r port aid s
  | .aidDetach r port aid => Sys2Proof.Machine.execAidDetach r port aid s
  | .obsCounters r sid => Sys2Proof.Machine.execObsCounters r sid s
  | .obsMirrorSet r sid ppa period heatBase heatPages heatEvery => Sys2Proof.Machine.execObsMirrorSet r sid ppa period heatBase heatPages heatEvery s
  | .traceConfig r c => Sys2Proof.Machine.execTraceConfig r c s
  | .traceCtrl r action consumed => Sys2Proof.Machine.execTraceCtrl r action consumed s
  | .traceRead r first count => Sys2Proof.Machine.execTraceRead r first count s
  | .traceSpillGrant r n ppas => Sys2Proof.Machine.execTraceSpillGrant r n ppas s
  | .contactTake r data => Sys2Proof.Machine.execContactTake r data s
  | .contactRead r off len => Sys2Proof.Machine.execContactRead r off len s
  | .contactRelease r => Sys2Proof.Machine.execContactRelease r s
  | .shelfSramRead r shelf off len => Sys2Proof.Machine.execShelfSramRead r shelf off len s
  | .shelfStep r shelf mode steps => Sys2Proof.Machine.execShelfStep r shelf mode steps s
  | .proofGet r nonce => Sys2Proof.Machine.execProofGet r nonce s
  | .otpGenWrite r len item g sigOk => Sys2Proof.Machine.execOtpGenWrite r len item g sigOk s
  | .lcSeal r len item g sigOk => Sys2Proof.Machine.execLcSeal r len item g sigOk s
  | .lcReturn r item t => Sys2Proof.Machine.execLcReturn r item t s
  | .lcScrap r item t => Sys2Proof.Machine.execLcScrap r item t s
  | .safelightArm r => Sys2Proof.Machine.execSafelightArm r s
  | .safelightOpen r item t => Sys2Proof.Machine.execSafelightOpen r item t s
  | .tokenNonce r => Sys2Proof.Machine.execTokenNonce r s
  | .safelightClose r => Sys2Proof.Machine.execSafelightClose r s
  | .fwSvnCommit r type => Sys2Proof.Machine.execFwSvnCommit r type s
  | .facCertWrite r len item cert subjectOk => Sys2Proof.Machine.execFacCertWrite r len item cert subjectOk s
  | .facProvision r => Sys2Proof.Machine.execFacProvision r s
  | .facFwRevoke r mask => Sys2Proof.Machine.execFacFwRevoke r mask s
  | .facDebugOpen r item t => Sys2Proof.Machine.execFacDebugOpen r item t s
  | .facOtpDump r => Sys2Proof.Machine.execFacOtpDump r s
  | .commandFetch r p => Sys2Proof.Machine.execCommandFetch r p s
  | .parkedCommandComplete r => Sys2Proof.Machine.execParkedCommandComplete r s
  | .commandDoorbell r p => Sys2Proof.Machine.execCommandDoorbell r p s
  | .consumerDoorbell r c => Sys2Proof.Machine.execConsumerDoorbell r c s
  | .ringStart r => Sys2Proof.Machine.execRingStart r s
  | .ringReset r => Sys2Proof.Machine.execRingReset r s
  | .irqCauseClear mask => Sys2Proof.Machine.execIrqCauseClear mask s
  | .registerWrite off v => Sys2Proof.Machine.execRegisterWrite off v s
  | .lowWordRead off => Sys2Proof.Machine.execLowWordRead off s
  | .busMasterChange bme d3hot => Sys2Proof.Machine.execBusMasterChange bme d3hot s
  | .hostPathReset => Sys2Proof.Machine.execHostPathReset s
  | .outputEntryWrite r => Sys2Proof.Machine.execOutputEntryWrite r s
  | .ringDmaError r => Sys2Proof.Machine.execRingDmaError r s
  | .statusInterrupt event => Sys2Proof.Machine.execStatusInterrupt event s
  | .penFwGo v => Sys2Proof.Machine.execPenFwGo v s
  | .firmwareVerified dmaOk img sigOk => Sys2Proof.Machine.execFirmwareVerified dmaOk img sigOk s
  | .getVersion => Sys2Proof.Machine.execGetVersion s
  | .getCapabilities => Sys2Proof.Machine.execGetCapabilities s
  | .negotiateAlgorithms => Sys2Proof.Machine.execNegotiateAlgorithms s
  | .getCertificate slot => Sys2Proof.Machine.execGetCertificate slot s
  | .challenge slot hashType => Sys2Proof.Machine.execChallenge slot hashType s
  | .getMeasurements index signed => Sys2Proof.Machine.execGetMeasurements index signed s
  | .keyExchange => Sys2Proof.Machine.execKeyExchange s
  | .finish hostSigOk verify => Sys2Proof.Machine.execFinish hostSigOk verify s
  | .spdmUnsupported => Sys2Proof.Machine.execSpdmUnsupported s
  | .rdShared m addr => Sys2Proof.Machine.execRdShared m addr s
  | .rdOwn m addr lepoch => Sys2Proof.Machine.execRdOwn m addr lepoch s
  | .upgrade m addr lepoch => Sys2Proof.Machine.execUpgrade m addr lepoch s
  | .rdOnce m addr nowait => Sys2Proof.Machine.execRdOnce m addr nowait s
  | .scorch m addr mask cause nowait line => Sys2Proof.Machine.execScorch m addr mask cause nowait line s
  | .atomic m addr aop size opnd1 opnd2 nowait => Sys2Proof.Machine.execAtomic m addr aop size opnd1 opnd2 nowait s
  | .writeback m h lepoch cause line => Sys2Proof.Machine.execWriteback m h lepoch cause line s
  | .rspData m h cause line => Sys2Proof.Machine.execRspData m h cause line s
  | .rspClean m h => Sys2Proof.Machine.execRspClean m h s
  | .rspGone m h => Sys2Proof.Machine.execRspGone m h s
  | .move m d => Sys2Proof.Machine.execMove m d s
  | .fire m d => Sys2Proof.Machine.execFire m d s
  | .fireCancel m ftag => Sys2Proof.Machine.execFireCancel m ftag s
  | .agentCtxSet m n e => Sys2Proof.Machine.execAgentCtxSet m n e s
  | .fence m => Sys2Proof.Machine.execFence m s
  | .fenceAck m => Sys2Proof.Machine.execFenceAck m s
  | .hdata m status lines => Sys2Proof.Machine.execHdata m status lines s
  | .hdone m status => Sys2Proof.Machine.execHdone m status s
  | .contrib m addr round cause data => Sys2Proof.Machine.execContrib m addr round cause data s
  | .join m kind => Sys2Proof.Machine.execJoin m kind s
  | .pulse m lepoch => Sys2Proof.Machine.execPulse m lepoch s
  | .regionPublish m p => Sys2Proof.Machine.execRegionPublish m p s
  | .admitHello m hello => Sys2Proof.Machine.execAdmitHello m hello s
  | .admitProve m who certEpoch certSigOk sigAOk => Sys2Proof.Machine.execAdmitProve m who certEpoch certSigOk sigAOk s
  | .rekey m gen => Sys2Proof.Machine.execRekey m gen s
  | .rekeyAck m gen => Sys2Proof.Machine.execRekeyAck m gen s
  | .flitReceive p f => Sys2Proof.Machine.execFlitReceive p f s
  | .resume p fresh trainNo rxAck credits => Sys2Proof.Machine.execResume p fresh trainNo rxAck credits s
  | .laneSwap p lane codeword => Sys2Proof.Machine.execLaneSwap p lane codeword s
  | .laneSwapAck p lane codeword => Sys2Proof.Machine.execLaneSwapAck p lane codeword s
  | .retrain p => Sys2Proof.Machine.execRetrain p s
  | .lctlResend p => Sys2Proof.Machine.execLctlResend p s
  | .laneFail p lane codeword => Sys2Proof.Machine.execLaneFail p lane codeword s
  | .lockLost p => Sys2Proof.Machine.execLockLost p s
  | .signalDetect p => Sys2Proof.Machine.execSignalDetect p s
  | .trained p narrow => Sys2Proof.Machine.execTrained p narrow s
  | .trainingTimeout p => Sys2Proof.Machine.execTrainingTimeout p s
  | .trainingRetry p => Sys2Proof.Machine.execTrainingRetry p s
  | .replayTimeout p => Sys2Proof.Machine.execReplayTimeout p s
  | .completionTimeout aid tag => Sys2Proof.Machine.execCompletionTimeout aid tag s
  | .admitTimeout p aid => Sys2Proof.Machine.execAdmitTimeout p aid s
  | .ivcLimit p aid => Sys2Proof.Machine.execIvcLimit p aid s
  | .rekeyWindowEnd p aid => Sys2Proof.Machine.execRekeyWindowEnd p aid s
  | .portLost p cause => Sys2Proof.Machine.execPortLost p cause s
  | .leaseExpiry aid => Sys2Proof.Machine.execLeaseExpiry aid s
  | .snoopTimeout aid => Sys2Proof.Machine.execSnoopTimeout aid s
  | .leaseExpired aid => Sys2Proof.Machine.execLeaseExpired aid s
  | .holdEnd line => Sys2Proof.Machine.execHoldEnd line s
  | .reservationExpiry aid line => Sys2Proof.Machine.execReservationExpiry aid line s
  | .claimGranted f => Sys2Proof.Machine.execClaimGranted f s
  | .regionChange name => Sys2Proof.Machine.execRegionChange name s
  | .regionContested name => Sys2Proof.Machine.execRegionContested name s
  | .faultBatchClose => Sys2Proof.Machine.execFaultBatchClose s
  | .faultTimeout id => Sys2Proof.Machine.execFaultTimeout id s
  | .heatDecay sid page => Sys2Proof.Machine.execHeatDecay sid page s
  | .withdrawAck sid epoch => Sys2Proof.Machine.execWithdrawAck sid epoch s
  | .migrateDone sid page => Sys2Proof.Machine.execMigrateDone sid page s
  | .saggerDrained sid => Sys2Proof.Machine.execSaggerDrained sid s
  | .moverStart m => Sys2Proof.Machine.execMoverStart m s
  | .moveDone m => Sys2Proof.Machine.execMoveDone m s
  | .moverLost m => Sys2Proof.Machine.execMoverLost m s
  | .partPlaced die => Sys2Proof.Machine.execPartPlaced die s
  | .firingLimit f => Sys2Proof.Machine.execFiringLimit f s
  | .firingDone f => Sys2Proof.Machine.execFiringDone f s
  | .glazeNop sh g => Sys2Proof.Machine.execGlazeNop sh g s
  | .commit sh bad => Sys2Proof.Machine.execCommit sh bad s
  | .endLane sh g => Sys2Proof.Machine.execEndLane sh g s
  | .bra sh cond m target => Sys2Proof.Machine.execBra sh cond m target s
  | .loop sh n target => Sys2Proof.Machine.execLoop sh n target s
  | .rep sh src imm => Sys2Proof.Machine.execRep sh src imm s
  | .setct sh n src imm => Sys2Proof.Machine.execSetct sh n src imm s
  | .barrier sh => Sys2Proof.Machine.execBarrier sh s
  | .ldi sh pn ps d imm => Sys2Proof.Machine.execLdi sh pn ps d imm s
  | .ldh sh pn ps d imm => Sys2Proof.Machine.execLdh sh pn ps d imm s
  | .mov sh g => Sys2Proof.Machine.execMov sh g s
  | .iadd sh g => Sys2Proof.Machine.execIadd sh g s
  | .isub sh g => Sys2Proof.Machine.execIsub sh g s
  | .imul sh g => Sys2Proof.Machine.execImul sh g s
  | .logic sh g => Sys2Proof.Machine.execLogic sh g s
  | .shift sh g => Sys2Proof.Machine.execShift sh g s
  | .icmp sh g => Sys2Proof.Machine.execIcmp sh g s
  | .fcmp sh g => Sys2Proof.Machine.execFcmp sh g s
  | .sel sh g => Sys2Proof.Machine.execSel sh g s
  | .plog sh g => Sys2Proof.Machine.execPlog sh g s
  | .ldp sh g => Sys2Proof.Machine.execLdp sh g s
  | .ldc sh g => Sys2Proof.Machine.execLdc sh g s
  | .stp sh g => Sys2Proof.Machine.execStp sh g s
  | .avail sh g => Sys2Proof.Machine.execAvail sh g s
  | .fma32 sh g => Sys2Proof.Machine.execFma32 sh g s
  | .dot2 sh g => Sys2Proof.Machine.execDot2 sh g s
  | .dot4 sh g => Sys2Proof.Machine.execDot4 sh g s
  | .dot4x sh g => Sys2Proof.Machine.execDot4x sh g s
  | .dot8x sh g => Sys2Proof.Machine.execDot8x sh g s
  | .add32f sh g => Sys2Proof.Machine.execAdd32f sh g s
  | .func sh g => Sys2Proof.Machine.execFunc sh g s
  | .cread sh g => Sys2Proof.Machine.execCread sh g s
  | .cvt sh g => Sys2Proof.Machine.execCvt sh g s
  | .unpk sh g => Sys2Proof.Machine.execUnpk sh g s
  | .sred sh g => Sys2Proof.Machine.execSred sh g s
  | .fred sh g => Sys2Proof.Machine.execFred sh g s
  | .flags sh g => Sys2Proof.Machine.execFlags sh g s
  | .shelfOut sh => Sys2Proof.Machine.execShelfOut sh s
  | .windowDeadline w => Sys2Proof.Machine.execWindowDeadline w s
  | .bisqueSweep die => Sys2Proof.Machine.execBisqueSweep die s
  | .tableSweep plane found => Sys2Proof.Machine.execTableSweep plane found s
  | .driftTracking die channel => Sys2Proof.Machine.execDriftTracking die channel s
  | .spprRepair loc left => Sys2Proof.Machine.execSpprRepair loc left s
  | .spareRowAssign sh bank row => Sys2Proof.Machine.execSpareRowAssign sh bank row s
  | .channelTrained die channel ok => Sys2Proof.Machine.execChannelTrained die channel ok s
  | .wedgePassDone die => Sys2Proof.Machine.execWedgePassDone die s
  | .dieLost die whole cause => Sys2Proof.Machine.execDieLost die whole cause s
  | .d2dTransfer unit x => Sys2Proof.Machine.execD2dTransfer unit x s
  | .dieOvertemp unit => Sys2Proof.Machine.execDieOvertemp unit s
  | .powerGovernor watts => Sys2Proof.Machine.execPowerGovernor watts s
  | .inputGood b => Sys2Proof.Machine.execInputGood b s
  | .railGroupGood => Sys2Proof.Machine.execRailGroupGood s
  | .railFault rail => Sys2Proof.Machine.execRailFault rail s
  | .hubResetRelease => Sys2Proof.Machine.execHubResetRelease s
  | .tallyStart => Sys2Proof.Machine.execTallyStart s
  | .inputLow mv => Sys2Proof.Machine.execInputLow mv s
  | .pwrFail overVoltage => Sys2Proof.Machine.execPwrFail overVoltage s
  | .pwrFailRailsOff => Sys2Proof.Machine.execPwrFailRailsOff s
  | .hubOvertemp => Sys2Proof.Machine.execHubOvertemp s
  | .mrstN => Sys2Proof.Machine.execMrstN s
  | .moduleResetBegin => Sys2Proof.Machine.execModuleResetBegin s
  | .dieJoin unit ok delay => Sys2Proof.Machine.execDieJoin unit ok delay s
  | .arrayTest fails badPorts badBanks planeABad planeBBad => Sys2Proof.Machine.execArrayTest fails badPorts badBanks planeABad planeBBad s
  | .penenoStart romOk rngOk => Sys2Proof.Machine.execPenenoStart romOk rngOk s
  | .firmwareStart => Sys2Proof.Machine.execFirmwareStart s
  | .poolReady => Sys2Proof.Machine.execPoolReady s
  | .rngFail test => Sys2Proof.Machine.execRngFail test s
  | .nonceLapse => Sys2Proof.Machine.execNonceLapse s
  | .safelightExpiry => Sys2Proof.Machine.execSafelightExpiry s
  | .pulseSend plane => Sys2Proof.Machine.execPulseSend plane s
  | .pulseWindow watcher wire mailbox => Sys2Proof.Machine.execPulseWindow watcher wire mailbox s
  | .gateOutput gate plane value => Sys2Proof.Machine.execGateOutput gate plane value s
  | .gateUnpaired gate => Sys2Proof.Machine.execGateUnpaired gate s
  | .divergenceParity aBad bBad => Sys2Proof.Machine.execDivergenceParity aBad bBad s
  | .parityError plane => Sys2Proof.Machine.execParityError plane s
  | .gapEnd => Sys2Proof.Machine.execGapEnd s
  | .planeTestDone plane ok => Sys2Proof.Machine.execPlaneTestDone plane ok s
  | .twinRejoin => Sys2Proof.Machine.execTwinRejoin s
  | .resyncTimeout crcFail => Sys2Proof.Machine.execResyncTimeout crcFail s
  | .fatal cause => Sys2Proof.Machine.execFatal cause s
  | .tallySync => Sys2Proof.Machine.execTallySync s
  | .clockStop d => Sys2Proof.Machine.execClockStop d s
  | .crossingReset x => Sys2Proof.Machine.execCrossingReset x s
  | .regionFreeze unit cause => Sys2Proof.Machine.execRegionFreeze unit cause s
  | .tallyGap unit => Sys2Proof.Machine.execTallyGap unit s
  | .regionSyncTimeout unit => Sys2Proof.Machine.execRegionSyncTimeout unit s
  | .queueSample => Sys2Proof.Machine.execQueueSample s
  | .meterAdmit sid port => Sys2Proof.Machine.execMeterAdmit sid port s
  | .gateEntry p => Sys2Proof.Machine.execGateEntry p s
  | .breachRecord sid guarantee reason => Sys2Proof.Machine.execBreachRecord sid guarantee reason s
  | .mirrorUpdate sid => Sys2Proof.Machine.execMirrorUpdate sid s
  | .heatMirrorUpdate sid => Sys2Proof.Machine.execHeatMirrorUpdate sid s
  | .traceSpill => Sys2Proof.Machine.execTraceSpill s
  | .contactMarker unit => Sys2Proof.Machine.execContactMarker unit s
  | .contactDone => Sys2Proof.Machine.execContactDone s
  | .evtTimerExpiry n => Sys2Proof.Machine.execEvtTimerExpiry n s
  | .evtPulseEnd pin => Sys2Proof.Machine.execEvtPulseEnd pin s
  | .evtEdge pin rising => Sys2Proof.Machine.execEvtEdge pin rising s
  | .page v => Sys2Proof.Machine.execPage v s
  | .voutMode => Sys2Proof.Machine.execVoutMode s
  | .statusWord => Sys2Proof.Machine.execStatusWord s
  | .readVin measured => Sys2Proof.Machine.execReadVin measured s
  | .readIin measured => Sys2Proof.Machine.execReadIin measured s
  | .readVout measured => Sys2Proof.Machine.execReadVout measured s
  | .readIout measured => Sys2Proof.Machine.execReadIout measured s
  | .readTemperature1 measured => Sys2Proof.Machine.execReadTemperature1 measured s
  | .readPout measured => Sys2Proof.Machine.execReadPout measured s
  | .readPin measured => Sys2Proof.Machine.execReadPin measured s
  | .moduleStatus => Sys2Proof.Machine.execModuleStatus s
  | .evtTimer timer mode pin low width start period => Sys2Proof.Machine.execEvtTimer timer mode pin low width start period s
  | .evtPin pin mode => Sys2Proof.Machine.execEvtPin pin mode s
  | .evtResult => Sys2Proof.Machine.execEvtResult s
  | .evtCapture => Sys2Proof.Machine.execEvtCapture s
  | .sidebandInvalid code len write => Sys2Proof.Machine.execSidebandInvalid code len write s
  | .setdasa static dynamic => Sys2Proof.Machine.execSetdasa static dynamic s
  | .entdaa dynamic => Sys2Proof.Machine.execEntdaa dynamic s
  | .rstdaa => Sys2Proof.Machine.execRstdaa s
  | .getpid => Sys2Proof.Machine.execGetpid s
  | .getbcr => Sys2Proof.Machine.execGetbcr s
  | .getdcr => Sys2Proof.Machine.execGetdcr s
  | .getstatus => Sys2Proof.Machine.execGetstatus s
  | .getmrl => Sys2Proof.Machine.execGetmrl s
  | .getmwl => Sys2Proof.Machine.execGetmwl s
  | .enec => Sys2Proof.Machine.execEnec s
  | .disec => Sys2Proof.Machine.execDisec s
  | .extest => Sys2Proof.Machine.execExtest s
  | .samplePreload => Sys2Proof.Machine.execSamplePreload s
  | .idcode => Sys2Proof.Machine.execIdcode s
  | .clamp => Sys2Proof.Machine.execClamp s
  | .highz => Sys2Proof.Machine.execHighz s
  | .arraytest kind unit => Sys2Proof.Machine.execArraytest kind unit s
  | .intscan => Sys2Proof.Machine.execIntscan s
  | .bypass => Sys2Proof.Machine.execBypass s
  | .tapReset => Sys2Proof.Machine.execTapReset s
  | .flitSend p => Sys2Proof.Machine.execFlitSend p s
  | .clockReturn d => Sys2Proof.Machine.execClockReturn d s
  | .mrstNRelease => Sys2Proof.Machine.execMrstNRelease s
  | .inputLowClear => Sys2Proof.Machine.execInputLowClear s
  | .lcChanged => Sys2Proof.Machine.execLcChanged s
  | .pcieLinkTrained width rateGts => Sys2Proof.Machine.execPcieLinkTrained width rateGts s

end Sys2Proof.Machine
end

