-- ==== Sys2Proof/Safety.lean ====
section
/-! DEFINITION. What the claims call a kept property, the order of the one-time-programmable memory, the states of the block that a
claim may assume, and what a command does not touch. -/

namespace Sys2Proof.Machine

/-- A step from a state with the property answers a state with it. -/
def Kept (P : State → Prop) : Prop := ∀ s s' : State, P s → step s = .next s' → P s'

/-- The canonical form of pool memory (log 7). -/
def MemCanonical (s : State) : Prop := memWf s.mem = true

/-- Every bit of `a` is set in `b`. -/
def bitsIn (a b : Nat) : Prop := Nat.land a b = a

/-- OTP bits are written once: nothing burned in `a` is gone in `b` (12 R408 to R411). -/
def otpLe (a b : Otp) : Prop :=
  a.lc ≤ b.lc ∧ (a.killOwner = true → b.killOwner = true) ∧ (a.killUds = true → b.killUds = true)
    ∧ (a.udsBurned = true → b.udsBurned = true) ∧ bitsIn a.fwRevoke b.fwRevoke
    ∧ (∀ i, a.svn.getD i 0 ≤ b.svn.getD i 0)
    ∧ ∀ i : Nat, (a.slots[i]?).join.isSome = true → (b.slots[i]?).join.isSome = true

/-! ### What a command leaves alone -/

/-- The components of the state. -/
inductive Comp where
  | queue | free | glb | host | xlt | mem | dir | kiln | ports | outst | sags | twin | pen | tal | obs | side | outs
deriving DecidableEq, Repr

/-- A component is the same in two states. -/
def Comp.same (p : Comp) (s t : State) : Prop :=
  match p with
  | .queue => t.pending = s.pending
  | .free => t.freeCtr = s.freeCtr
  | .glb => t.glb = s.glb
  | .host => t.host = s.host
  | .xlt => t.xlt = s.xlt
  | .mem => t.mem = s.mem
  | .dir => t.dir = s.dir
  | .kiln => t.kiln = s.kiln
  | .ports => t.ports = s.ports
  | .outst => t.outst = s.outst
  | .sags => t.sags = s.sags
  | .twin => t.twin = s.twin
  | .pen => t.pen = s.pen
  | .tal => t.tal = s.tal
  | .obs => t.obs = s.obs
  | .side => t.side = s.side
  | .outs => t.hostOut = s.hostOut ∧ t.fabOut = s.fabOut ∧ t.sideOut = s.sideOut

/-- Every component but those listed is unchanged. -/
def Only (ps : List Comp) (s t : State) : Prop := ∀ p : Comp, p ∉ ps → p.same s t

/-- The command answers a next state that differs in the listed components only and of which `Q` holds. -/
def Does (i : Instr) (s : State) (ps : List Comp) (Q : State → Prop) : Prop :=
  ∃ t, exec i s = .next t ∧ Only ps s t ∧ Q t

/-! ### Host commands (10 R355, R361 to R363) -/

/-- The output item has room for `need` result bytes, and for the latched pair if the packet asks for it (10 R351, R362). -/
abbrev OutRoom (f : Inflight) (need : Nat) (s : State) : Prop :=
  (f.outLen = 0 ∨ f.outOff % 64 = 0) ∧ outNeed f need ≤ f.outLen ∧ (f.outLen = 0 ∨ f.outOff + f.outLen + 16 ≤ bounceBytes s)

/-- A command with this opcode is in flight on ring `r` and not parked, the planes execute, POWER_OFF_PREPARE has not ended, and the
output item has room for `need` bytes. -/
abbrev Ready (r op need : Nat) (s : State) (f : Inflight) : Prop :=
  s.alive = true ∧ s.glb.readyOff = false ∧ inflightOf r s = some f ∧ f.opcode = op ∧ f.parked = none ∧ OutRoom f need s

/-- An input item that reads well: aligned, within the bounce region, its tag right (10 R351). -/
abbrev GoodItem (it : Item) (len : Nat) (s : State) : Prop :=
  it.off % 64 = 0 ∧ it.off + len + 16 ≤ bounceBytes s ∧ it.auth = .good

/-- The state in which an accepted command acts: the counters of its SID are latched (15 R464). -/
def latched (r sid : Nat) (s : State) : State :=
  modRing r (fun g => { g with inflight := g.inflight.map fun f => { f with lsid := sid, start := latchOf sid s } }) s

/-- The newest status reply answers the command of ring `r`, which is free again; the other rings are as before. -/
def Replied (r op status : Nat) (res : List Nat) (items : List OutItem) (s t : State) : Prop :=
  inflightOf r t = none ∧ (∀ q, q ≠ r → ringOf q t = ringOf q s)
    ∧ ∃ x : Reply, t.host.statusQ.getLast? = some x ∧ x.ring = r ∧ x.opcode = op ∧ x.status = status ∧ x.stage = 0 ∧ x.result = res
      ∧ x.items.take items.length = items

/-- The command of ring `r` is refused: it is answered with this status and stage, and changes nothing but its ring and the queue of
replies (and the trace and the counter of replies). -/
def Refuses (i : Instr) (r op status stage : Nat) (s : State) : Prop :=
  Does i s [.host, .obs] fun t => inflightOf r t = none ∧ (∀ q, q ≠ r → ringOf q t = ringOf q s)
    ∧ ∃ x : Reply, t.host.statusQ.getLast? = some x ∧ x.ring = r ∧ x.opcode = op ∧ x.status = status ∧ x.stage = stage

/-- The command stays in flight, waiting for what `p` names, and nothing else changes (10 R363). -/
def Parks (i : Instr) (r sid : Nat) (p : Park) (s : State) : Prop := exec i s = .next (park r p (latched r sid s))

/-- The command completes with OK, this result and this content of the output item. -/
def Completes (i : Instr) (r op : Nat) (s : State) (res : List Nat) (items : List OutItem) (ps : List Comp) (Q : State → Prop) : Prop :=
  Does i s (.host :: .obs :: ps) fun t => Replied r op stOK res items s t ∧ Q t

/-! ### Messages (08 R298, R305, 11 R388) -/

/-- A message reaches the hub: the module works, the port is in service and the sender admitted there, DST is the port's own AID, and the
planes take input. -/
abbrev Delivered (m : Mhd) (s : State) : Prop :=
  s.powered = true ∧ portLive m.port s = true ∧ admitted m.port m.src s = true
    ∧ some m.dst = (portOf m.port s).map (·.par.portAid) ∧ s.holds = false

/-- A delivered request without a reserved bit, of a sagger that is not draining, with nothing before it at its meter, passes the gate and
meter F for a charge of `cost` bytes and `lines` lines of a slot (09 R316, R320 to R322, R327): `u` is the state with the charge. -/
abbrev Passes (m : Mhd) (cost lines : Nat) (s u : State) : Prop :=
  Delivered m s ∧ m.resv = false ∧ s.powerOff = false ∧ sagState (sidOf m.port m.src s) s ≠ .draining
    ∧ meterBusy (sidOf m.port m.src s) (openReq m.port m.src m.tag m.tgen false s) = false
    ∧ letPass m.port m.src m.tag (sidOf m.port m.src s) cost lines s.now (openReq m.port m.src m.tag m.tgen false s) = (true, u)

/-! ### Glaze instructions (06 R218 to R222) -/

/-- What a lane's instruction sees: descriptor, index of the lane, CONST, taint of its predicate and of a tainted branch. -/
def laneCtx (f : Firing) (x : Shelf) (ps j : Nat) (l : Lane) : LaneCtx :=
  ctxLane f x j (max (predOf ps l).2 (b2n x.bra))

/-- A lane-wise instruction that can issue on shelf `sh`: each lane that has not ended and whose predicate holds becomes `r` of itself, every
other lane and every other shelf stays as it is, the shelf counts `cost` slots and goes on by one instruction (or by one repetition), and a
step that this fills is committed; the stream engine then reads on. -/
def LaneStep (i : Instr) (sh w : Nat) (pn : Bool) (ps cost : Nat) (r : LaneCtx → Lane → Lane) (s : State) : Prop :=
  ∀ (f : Firing) (x : Shelf), issuing sh w s = some (f, x) →
    ∃ u y, exec i s = .next (feed sh (if stepFull y then commitShelf sh u else u)) ∧ Only [.kiln, .sags, .obs] s u
      ∧ shelfOf sh u = some y ∧ (∀ q, q ≠ sh → shelfOf q u = shelfOf q s)
      ∧ y.slots = x.slots + cost ∧ (x.rep ≤ 1 → y.idx = x.idx + 1 ∧ y.rep = 0) ∧ (1 < x.rep → y.idx = x.idx ∧ y.rep = x.rep - 1)
      ∧ y.ct = x.ct ∧ y.const = x.const ∧ y.bra = x.bra ∧ y.run = x.run ∧ y.unread = x.unread ∧ y.lanes.length = x.lanes.length
      ∧ ∀ j l, x.lanes[j]? = some l → y.lanes[j]? = some (if executes pn ps l then r (laneCtx f x ps j l) l else l)

end Sys2Proof.Machine
end

