-- ==== Sys2Proof/WellFormed.lean ====
section
/-! DEFINITION. Well-formed commands: every operand fits the field that carries it (10 R359, R360; 08 R297; 06 R218). The machine
takes any operand; what does not fit cannot arrive. -/

namespace Sys2Proof

/-- Header of a message (08 R297). -/
def mhdFits (m : Mhd) : Bool :=
  decide (m.port < 16) && decide (m.src < 2048) && decide (m.dst < 2048) && decide (m.tag < 65536) && decide (m.tgen < 16)

/-- Operand fields of a glaze instruction (06 R218). -/
def gFits (g : GArgs) : Bool :=
  decide (g.ps < 8) && decide (g.d < 32) && decide (g.x < 32) && decide (g.y < 32) && decide (g.md < 128)

/-- A command packet (10 R350, R359). -/
def packetFits (p : Packet) : Bool :=
  decide (p.stream < 2 ^ 32) && decide (p.slot < 2 ^ 32) && decide (p.seq < 2 ^ 64)
    && p.head.length == 16 && p.head.all (decide <| · < 256)

/-- An input item named by its offset (10 R360). -/
def itemFits (it : Item) : Bool := decide (it.off < 2 ^ 32)

/-- A line handle names PPA[63:6] and a SID (04 R123). -/
def handleFits (h : Handle) : Bool := decide (h.line < 2 ^ 58) && decide (h.sid < 4096)

/-- A clock domain that exists (01 R26). -/
def domainFits : ClockDomain → Bool
  | .golhaRx p => decide (p < 16)
  | .golhaTx p => decide (p < 16)
  | .ddr die channel => decide (die < 8) && decide (channel < 6)
  | .pcie => true
  | .hubTally => true
  | .dieTally unit => decide (unit < 24)

/-- A mover descriptor (02 R64). -/
def moveFits (d : MoveDesc) : Bool :=
  decide (d.fmt < 16) && decide (d.op < 16) && decide (d.tag < 65536) && decide (d.length < 2 ^ 32) && decide (d.src < 2 ^ 64)
    && decide (d.dst < 2 ^ 64)

/-- A region slot (06 R199). -/
def slotFits (x : Slot) : Bool :=
  decide (x.pva < 2 ^ 64) && decide (x.length < 2 ^ 32) && decide (x.role < 16) && decide (x.format < 16) && decide (x.dist < 4)
    && decide (x.grain < 16)

/-- A firing descriptor (06 R198): ten region slots and eight arguments. -/
def fireFits (d : FireDesc) : Bool :=
  decide (d.fmt < 16) && decide (d.kind < 16) && decide (d.rmode < 8) && decide (d.tag < 65536) && decide (d.glaze < 65536)
    && decide (d.spread < 64) && decide (d.seed < 2 ^ 64) && decide (d.limit < 2 ^ 32) && decide (d.ctxBase < 4096)
    && decide (d.ctxCount < 8192) && decide (d.window < 65536) && decide (d.args.length ≤ 8) && decide (d.slots.length ≤ 10)
    && d.slots.all slotFits

/-- A flit (08 R280). -/
def flitFits (f : RxFlit) : Bool :=
  decide (f.fmt < 16) && decide (f.ftype < 4) && decide (f.seq < 4096) && decide (f.ack < 4096) && decide (f.cvc < 8) && decide (f.ck < 2)
    && decide (f.ccount < 2 ^ 32) && decide (f.trainNo < 256)
    && f.msgs.all fun m => decide (m.fmt < 16) && decide (m.op < 256) && decide (m.vc < 8) && decide (m.len < 8192) && decide (m.src < 2048)
      && decide (m.dst < 2048) && decide (m.ivc < 2 ^ 48)

/-- A context entry (07 R235). -/
def ctxFits (e : Ctx) : Bool := decide (e.sid < 4096) && decide (e.list < 2 ^ 64) && decide (e.aux < 2 ^ 64)

/-- Sagger parameters (09 R339): eight shelf masks. -/
def sagFits (p : SagParams) : Bool := decide (p.shelves.length ≤ 8) && p.shelves.all fun v => decide (v < 2 ^ 40)

/-- Every operand of the command fits its field. -/
def wellFormed (i : Instr) : Bool :=
  match i with
  | .nop r => decide (r < 4)
  | .hostConfig r _ => decide (r < 4)
  | .sysFence r => decide (r < 4)
  | .poolRead r sid addr len => decide (r < 4) && decide (sid < 2 ^ 32) && decide (addr < 2 ^ 64) && decide (len < 2 ^ 32)
  | .poolWrite r sid addr len item lines => decide (r < 4) && decide (sid < 2 ^ 32) && decide (addr < 2 ^ 64) && decide (len < 2 ^ 32) && itemFits item && lines.all (decide <| ·.2 < 16)
  | .fenceCancel r ring cseq => decide (r < 4) && decide (ring < 2 ^ 32) && decide (cseq < 2 ^ 64)
  | .memStart r rate item len _ => decide (r < 4) && decide (rate < 2 ^ 32) && itemFits item && decide (len < 2 ^ 32)
  | .moduleReset r _ => decide (r < 4)
  | .powerOffPrepare r _ => decide (r < 4)
  | .saggerCreate r sid p => decide (r < 4) && decide (sid < 2 ^ 32) && sagFits p
  | .saggerSet r sid p _ => decide (r < 4) && decide (sid < 2 ^ 32) && sagFits p
  | .saggerShelves r sid die mask => decide (r < 4) && decide (sid < 2 ^ 32) && decide (die < 2 ^ 32) && decide (mask < 2 ^ 64)
  | .saggerSeal r sid tcBlocks dirBlocks sealLoad => decide (r < 4) && decide (sid < 2 ^ 32) && decide (tcBlocks < 2 ^ 32) && decide (dirBlocks < 2 ^ 32) && decide (sealLoad < 2 ^ 32)
  | .saggerUnseal r sid => decide (r < 4) && decide (sid < 2 ^ 32)
  | .saggerDrain r sid => decide (r < 4) && decide (sid < 2 ^ 32)
  | .saggerResume r sid => decide (r < 4) && decide (sid < 2 ^ 32)
  | .saggerDestroy r sid => decide (r < 4) && decide (sid < 2 ^ 32)
  | .gateLoad r port efmt n item _ guard _ => decide (r < 4) && decide (port < 2 ^ 32) && decide (efmt < 2 ^ 32) && decide (n < 2 ^ 32) && itemFits item && decide (guard < 2 ^ 32)
  | .shapeConfig r _ => decide (r < 4)
  | .saggerRead r sid => decide (r < 4) && decide (sid < 2 ^ 32)
  | .cohConfig r sid _ => decide (r < 4) && decide (sid < 2 ^ 32)
  | .agentRevoke r aid => decide (r < 4) && decide (aid < 2 ^ 32)
  | .regionBind r name sid hid => decide (r < 4) && decide (name < 2 ^ 64) && decide (sid < 2 ^ 32) && decide (hid < 2 ^ 32)
  | .regionResolve r name choice => decide (r < 4) && decide (name < 2 ^ 64) && decide (choice < 2 ^ 32)
  | .cohRead r select val => decide (r < 4) && decide (select < 2 ^ 32) && decide (val < 2 ^ 64)
  | .xltTableGrant r n ppas => decide (r < 4) && decide (n < 2 ^ 32) && ppas.all (decide <| · < 2 ^ 64)
  | .xltRootSet r sid => decide (r < 4) && decide (sid < 2 ^ 32)
  | .xltMap r sid pva count size ppa _ _ _ _ _ item list => decide (r < 4) && decide (sid < 2 ^ 32) && decide (pva < 2 ^ 64) && decide (count < 2 ^ 32) && decide (size < 2 ^ 32) && decide (ppa < 2 ^ 64) && itemFits item && list.all (decide <| · < 2 ^ 64)
  | .xltPresent r sid pva count ppa item list => decide (r < 4) && decide (sid < 2 ^ 32) && decide (pva < 2 ^ 64) && decide (count < 2 ^ 32) && decide (ppa < 2 ^ 64) && itemFits item && list.all (decide <| · < 2 ^ 64)
  | .xltWithdraw r sid pva count mode _ => decide (r < 4) && decide (sid < 2 ^ 32) && decide (pva < 2 ^ 64) && decide (count < 2 ^ 32) && decide (mode < 2 ^ 32)
  | .xltProtect r sid pva count _ _ _ _ => decide (r < 4) && decide (sid < 2 ^ 32) && decide (pva < 2 ^ 64) && decide (count < 2 ^ 32)
  | .xltFence r sid epoch => decide (r < 4) && decide (sid < 2 ^ 32) && decide (epoch < 2 ^ 32)
  | .xltRead r sid pva => decide (r < 4) && decide (sid < 2 ^ 32) && decide (pva < 2 ^ 64)
  | .faultResolve r n _ => decide (r < 4) && decide (n < 2 ^ 32)
  | .faultConfig r timeout batchWindow => decide (r < 4) && decide (timeout < 2 ^ 64) && decide (batchWindow < 2 ^ 32)
  | .heatConfig r _ sid => decide (r < 4) && decide (sid < 2 ^ 32)
  | .pageMigrate r sid pva dst => decide (r < 4) && decide (sid < 2 ^ 32) && decide (pva < 2 ^ 64) && decide (dst < 2 ^ 64)
  | .holderSet r hid _ => decide (r < 4) && decide (hid < 2 ^ 32)
  | .memCraze r ppa lines => decide (r < 4) && decide (ppa < 2 ^ 64) && decide (lines < 2 ^ 32)
  | .memWedge r die page pages => decide (r < 4) && decide (die < 2 ^ 32) && decide (page < 2 ^ 32) && decide (pages < 2 ^ 32)
  | .memRegen r die => decide (r < 4) && decide (die < 2 ^ 32)
  | .memPpr r _ mode _ _ => decide (r < 4) && decide (mode < 2 ^ 32)
  | .memDieSet r die st => decide (r < 4) && decide (die < 2 ^ 32) && decide (st < 2 ^ 32)
  | .bisqueConfig r _ die => decide (r < 4) && decide (die < 2 ^ 32)
  | .moveSubmit r sid item d => decide (r < 4) && decide (sid < 2 ^ 32) && itemFits item && moveFits d
  | .kilnFire r sid item d => decide (r < 4) && decide (sid < 2 ^ 32) && itemFits item && fireFits d
  | .firingCancel r sid submitter tag => decide (r < 4) && decide (sid < 2 ^ 32) && decide (submitter < 2 ^ 32) && decide (tag < 2 ^ 32)
  | .glazeInstall r len item _ _ => decide (r < 4) && decide (len < 2 ^ 32) && itemFits item
  | .glazeRemove r id => decide (r < 4) && decide (id < 2 ^ 32)
  | .glazePermit r id mode action n _ => decide (r < 4) && decide (id < 2 ^ 32) && decide (mode < 2 ^ 32) && decide (action < 2 ^ 32) && decide (n < 2 ^ 32)
  | .klnLibGrant r n ppas => decide (r < 4) && decide (n < 2 ^ 32) && ppas.all (decide <| · < 2 ^ 64)
  | .glazeRead r index => decide (r < 4) && decide (index < 2 ^ 32)
  | .firingRead r sid submitter tag => decide (r < 4) && decide (sid < 2 ^ 32) && decide (submitter < 2 ^ 32) && decide (tag < 2 ^ 32)
  | .ctxGrant r sid base count => decide (r < 4) && decide (sid < 2 ^ 32) && decide (base < 2 ^ 32) && decide (count < 2 ^ 32)
  | .ctxSet r n e => decide (r < 4) && decide (n < 2 ^ 32) && ctxFits e
  | .ctxRead r n => decide (r < 4) && decide (n < 2 ^ 32)
  | .windowOpen r len item _ => decide (r < 4) && decide (len < 2 ^ 32) && itemFits item
  | .windowArm r w => decide (r < 4) && decide (w < 2 ^ 32)
  | .windowForce r w => decide (r < 4) && decide (w < 2 ^ 32)
  | .windowClose r w => decide (r < 4) && decide (w < 2 ^ 32)
  | .windowRead r w contrib => decide (r < 4) && decide (w < 2 ^ 32) && decide (contrib < 2 ^ 32)
  | .portConfig r _ => decide (r < 4)
  | .aidAllow r port aid sid => decide (r < 4) && decide (port < 2 ^ 32) && decide (aid < 2 ^ 32) && decide (sid < 2 ^ 32)
  | .portReset r port mode => decide (r < 4) && decide (port < 2 ^ 32) && decide (mode < 2 ^ 32)
  | .saRekey r port aid => decide (r < 4) && decide (port < 2 ^ 32) && decide (aid < 2 ^ 32)
  | .portRead r port aid => decide (r < 4) && decide (port < 2 ^ 32) && decide (aid < 2 ^ 32)
  | .aidDetach r port aid => decide (r < 4) && decide (port < 2 ^ 32) && decide (aid < 2 ^ 32)
  | .obsCounters r sid => decide (r < 4) && decide (sid < 2 ^ 32)
  | .obsMirrorSet r sid ppa period heatBase heatPages heatEvery => decide (r < 4) && decide (sid < 2 ^ 32) && decide (ppa < 2 ^ 64) && decide (period < 2 ^ 64) && decide (heatBase < 2 ^ 64) && decide (heatPages < 2 ^ 32) && decide (heatEvery < 2 ^ 32)
  | .traceConfig r _ => decide (r < 4)
  | .traceCtrl r action consumed => decide (r < 4) && decide (action < 2 ^ 32) && decide (consumed < 2 ^ 64)
  | .traceRead r first count => decide (r < 4) && decide (first < 2 ^ 64) && decide (count < 2 ^ 32)
  | .traceSpillGrant r n ppas => decide (r < 4) && decide (n < 2 ^ 32) && ppas.all (decide <| · < 2 ^ 64)
  | .contactTake r _ => decide (r < 4)
  | .contactRead r off len => decide (r < 4) && decide (off < 2 ^ 32) && decide (len < 2 ^ 32)
  | .contactRelease r => decide (r < 4)
  | .shelfSramRead r shelf off len => decide (r < 4) && decide (shelf < 2 ^ 32) && decide (off < 2 ^ 32) && decide (len < 2 ^ 32)
  | .shelfStep r shelf mode steps => decide (r < 4) && decide (shelf < 2 ^ 32) && decide (mode < 2 ^ 32) && decide (steps < 2 ^ 32)
  | .proofGet r nonce => decide (r < 4) && decide (nonce < 2 ^ 256)
  | .otpGenWrite r len item _ _ => decide (r < 4) && decide (len < 2 ^ 32) && itemFits item
  | .lcSeal r len item _ _ => decide (r < 4) && decide (len < 2 ^ 32) && itemFits item
  | .lcReturn r item _ => decide (r < 4) && itemFits item
  | .lcScrap r item _ => decide (r < 4) && itemFits item
  | .safelightArm r => decide (r < 4)
  | .safelightOpen r item _ => decide (r < 4) && itemFits item
  | .tokenNonce r => decide (r < 4)
  | .safelightClose r => decide (r < 4)
  | .fwSvnCommit r type => decide (r < 4) && decide (type < 2 ^ 32)
  | .facCertWrite r len item cert _ => decide (r < 4) && decide (len < 2 ^ 32) && itemFits item && decide (cert < 2 ^ 32)
  | .facProvision r => decide (r < 4)
  | .facFwRevoke r mask => decide (r < 4) && decide (mask < 2 ^ 64)
  | .facDebugOpen r item _ => decide (r < 4) && itemFits item
  | .facOtpDump r => decide (r < 4)
  | .commandFetch r p => decide (r < 4) && packetFits p
  | .parkedCommandComplete r => decide (r < 4)
  | .commandDoorbell r p => decide (r < 4) && decide (p < 2 ^ 32)
  | .consumerDoorbell r c => decide (r < 7) && decide (c < 2 ^ 32)
  | .ringStart r => decide (r < 7)
  | .ringReset r => decide (r < 7)
  | .irqCauseClear mask => decide (mask < 2 ^ 32)
  | .registerWrite off _ => decide (off < 2 ^ 33)
  | .lowWordRead off => decide (off < 2 ^ 33)
  | .busMasterChange _ _ => true
  | .hostPathReset => true
  | .outputEntryWrite r => decide (r < 7)
  | .ringDmaError r => decide (r < 7)
  | .statusInterrupt _ => true
  | .penFwGo _ => true
  | .firmwareVerified _ _ _ => true
  | .getVersion => true
  | .getCapabilities => true
  | .negotiateAlgorithms => true
  | .getCertificate slot => decide (slot < 256)
  | .challenge slot hashType => decide (slot < 256) && decide (hashType < 256)
  | .getMeasurements index _ => decide (index < 256)
  | .keyExchange => true
  | .finish _ b => b.bytes.all (decide <| · < 256)
  | .spdmUnsupported => true
  | .rdShared m addr => mhdFits m && decide (addr < 2 ^ 64)
  | .rdOwn m addr lepoch => mhdFits m && decide (addr < 2 ^ 64) && decide (lepoch < 2 ^ 32)
  | .upgrade m addr lepoch => mhdFits m && decide (addr < 2 ^ 64) && decide (lepoch < 2 ^ 32)
  | .rdOnce m addr _ => mhdFits m && decide (addr < 2 ^ 64)
  | .scorch m addr _ cause _ _ => mhdFits m && decide (addr < 2 ^ 64) && decide (cause < 16)
  | .atomic m addr aop size _ _ _ => mhdFits m && decide (addr < 2 ^ 64) && decide (aop < 256) && decide (size < 256)
  | .writeback m h lepoch cause _ => mhdFits m && handleFits h && decide (lepoch < 2 ^ 32) && decide (cause < 16)
  | .rspData m h cause _ => mhdFits m && handleFits h && decide (cause < 16)
  | .rspClean m h => mhdFits m && handleFits h
  | .rspGone m h => mhdFits m && handleFits h
  | .move m d => mhdFits m && moveFits d
  | .fire m d => mhdFits m && fireFits d
  | .fireCancel m ftag => mhdFits m && decide (ftag < 65536)
  | .agentCtxSet m n e => mhdFits m && decide (n < 2 ^ 32) && ctxFits e
  | .fence m => mhdFits m
  | .fenceAck m => mhdFits m
  | .hdata m status lines => mhdFits m && decide (status < 65536) && lines.all (decide <| ·.2 < 16)
  | .hdone m status => mhdFits m && decide (status < 65536)
  | .contrib m addr round cause _ => mhdFits m && decide (addr < 2 ^ 64) && decide (round < 2 ^ 32) && decide (cause < 16)
  | .join m kind => mhdFits m && decide (kind < 2 ^ 32)
  | .pulse m lepoch => mhdFits m && decide (lepoch < 2 ^ 32)
  | .regionPublish m _ => mhdFits m
  | .admitHello m h => mhdFits m && decide (h.nonceA < 2 ^ 256) && decide (h.xa < 2 ^ 448) && decide (h.versions < 2 ^ 32)
  | .admitProve m w certEpoch _ _ => mhdFits m && decide (w.ida < 2 ^ 456) && decide (w.certSig < 2 ^ 912) && decide (w.keyslot < 8) && decide (certEpoch < 2 ^ 32)
  | .rekey m gen => mhdFits m && decide (gen < 2 ^ 32)
  | .rekeyAck m gen => mhdFits m && decide (gen < 2 ^ 32)
  | .flitReceive p f => decide (p < 16) && flitFits f
  | .resume p _ trainNo rxAck _ => decide (p < 16) && decide (trainNo < 256) && decide (rxAck < 4096)
  | .laneSwap p lane codeword => decide (p < 16) && decide (lane < 9) && decide (codeword < 2 ^ 32)
  | .laneSwapAck p lane codeword => decide (p < 16) && decide (lane < 9) && decide (codeword < 2 ^ 32)
  | .retrain p => decide (p < 16)
  | .lctlResend p => decide (p < 16)
  | .laneFail p lane codeword => decide (p < 16) && decide (lane < 9) && decide (codeword < 2 ^ 32)
  | .lockLost p => decide (p < 16)
  | .signalDetect p => decide (p < 16)
  | .trained p _ => decide (p < 16)
  | .trainingTimeout p => decide (p < 16)
  | .trainingRetry p => decide (p < 16)
  | .replayTimeout p => decide (p < 16)
  | .completionTimeout aid tag => decide (aid < 2048) && decide (tag < 65536)
  | .admitTimeout p aid => decide (p < 16) && decide (aid < 2048)
  | .ivcLimit p aid => decide (p < 16) && decide (aid < 2048)
  | .rekeyWindowEnd p aid => decide (p < 16) && decide (aid < 2048)
  | .portLost p cause => decide (p < 16) && decide (cause < 256)
  | .leaseExpiry aid => decide (aid < 2048)
  | .snoopTimeout aid => decide (aid < 2048)
  | .leaseExpired aid => decide (aid < 2048)
  | .holdEnd line => decide (line < 2 ^ 58)
  | .reservationExpiry aid line => decide (aid < 2048) && decide (line < 2 ^ 58)
  | .claimGranted _ => true
  | .regionChange name => decide (name < 2 ^ 64)
  | .regionContested name => decide (name < 2 ^ 64)
  | .faultBatchClose => true
  | .faultTimeout id => decide (id < 2 ^ 32)
  | .heatDecay sid page => decide (sid < 4096) && decide (page < 2 ^ 31)
  | .withdrawAck sid epoch => decide (sid < 4096) && decide (epoch < 2 ^ 32)
  | .migrateDone sid page => decide (sid < 4096) && decide (page < 2 ^ 31)
  | .saggerDrained sid => decide (sid < 4096)
  | .moverStart m => decide (m < 64)
  | .moveDone m => decide (m < 64)
  | .moverLost m => decide (m < 64)
  | .partPlaced die => decide (die < 8)
  | .firingLimit _ => true
  | .firingDone _ => true
  | .glazeNop sh g => decide (sh < 320) && gFits g
  | .commit sh _ => decide (sh < 320)
  | .endLane sh g => decide (sh < 320) && gFits g
  | .bra sh cond m target => decide (sh < 320) && decide (cond < 4) && decide (m < 8) && decide (target < 65536)
  | .loop sh n target => decide (sh < 320) && decide (n < 4) && decide (target < 65536)
  | .rep sh _ imm => decide (sh < 320) && decide (imm < 65536)
  | .setct sh n _ imm => decide (sh < 320) && decide (n < 4) && decide (imm < 65536)
  | .barrier sh => decide (sh < 320)
  | .ldi sh _ ps d imm => decide (sh < 320) && decide (ps < 8) && decide (d < 32) && decide (imm < 65536)
  | .ldh sh _ ps d imm => decide (sh < 320) && decide (ps < 8) && decide (d < 32) && decide (imm < 65536)
  | .mov sh g => decide (sh < 320) && gFits g
  | .iadd sh g => decide (sh < 320) && gFits g
  | .isub sh g => decide (sh < 320) && gFits g
  | .imul sh g => decide (sh < 320) && gFits g
  | .logic sh g => decide (sh < 320) && gFits g
  | .shift sh g => decide (sh < 320) && gFits g
  | .icmp sh g => decide (sh < 320) && gFits g
  | .fcmp sh g => decide (sh < 320) && gFits g
  | .sel sh g => decide (sh < 320) && gFits g
  | .plog sh g => decide (sh < 320) && gFits g
  | .ldp sh g => decide (sh < 320) && gFits g
  | .ldc sh g => decide (sh < 320) && gFits g
  | .stp sh g => decide (sh < 320) && gFits g
  | .avail sh g => decide (sh < 320) && gFits g
  | .fma32 sh g => decide (sh < 320) && gFits g
  | .dot2 sh g => decide (sh < 320) && gFits g
  | .dot4 sh g => decide (sh < 320) && gFits g
  | .dot4x sh g => decide (sh < 320) && gFits g
  | .dot8x sh g => decide (sh < 320) && gFits g
  | .add32f sh g => decide (sh < 320) && gFits g
  | .func sh g => decide (sh < 320) && gFits g
  | .cread sh g => decide (sh < 320) && gFits g
  | .cvt sh g => decide (sh < 320) && gFits g
  | .unpk sh g => decide (sh < 320) && gFits g
  | .sred sh g => decide (sh < 320) && gFits g
  | .fred sh g => decide (sh < 320) && gFits g
  | .flags sh g => decide (sh < 320) && gFits g
  | .shelfOut sh => decide (sh < 320)
  | .windowDeadline w => decide (w < 8192)
  | .bisqueSweep die => decide (die < 8)
  | .tableSweep plane _ => decide (plane < 2)
  | .driftTracking die channel => decide (die < 8) && decide (channel < 6)
  | .spprRepair _ _ => true
  | .spareRowAssign sh bank row => decide (sh < 320) && decide (bank < 64) && decide (row < 262144)
  | .channelTrained die channel _ => decide (die < 8) && decide (channel < 6)
  | .wedgePassDone die => decide (die < 8)
  | .dieLost die _ cause => decide (die < 8) && decide (cause < 256)
  | .d2dTransfer unit x => decide (unit < 24) && (x.header ++ x.payload ++ x.got).all (decide <| · < 256)
  | .dieOvertemp unit => decide (unit < 24)
  | .powerGovernor _ => true
  | .inputGood _ => true
  | .railGroupGood => true
  | .railFault _ => true
  | .hubResetRelease => true
  | .tallyStart => true
  | .inputLow _ => true
  | .pwrFail _ => true
  | .pwrFailRailsOff => true
  | .hubOvertemp => true
  | .mrstN => true
  | .moduleResetBegin => true
  | .dieJoin unit _ _ => decide (unit < 24)
  | .arrayTest _ _ _ _ _ => true
  | .penenoStart _ _ => true
  | .firmwareStart => true
  | .poolReady => true
  | .rngFail _ => true
  | .nonceLapse => true
  | .safelightExpiry => true
  | .pulseSend plane => decide (plane < 2)
  | .pulseWindow watcher _ _ => decide (watcher < 2)
  | .gateOutput _ plane _ => decide (plane < 2)
  | .gateUnpaired _ => true
  | .divergenceParity _ _ => true
  | .parityError plane => decide (plane < 2)
  | .gapEnd => true
  | .planeTestDone plane _ => decide (plane < 2)
  | .twinRejoin => true
  | .resyncTimeout _ => true
  | .fatal cause => decide (cause < 256)
  | .tallySync => true
  | .clockStop d => domainFits d
  | .crossingReset x => domainFits x
  | .regionFreeze unit cause => decide (unit < 24) && decide (cause < 256)
  | .tallyGap unit => decide (unit < 24)
  | .regionSyncTimeout unit => decide (unit < 24)
  | .queueSample => true
  | .meterAdmit sid port => decide (sid < 4096) && decide (port < 16)
  | .gateEntry p => decide (p < 16)
  | .breachRecord sid guarantee reason => decide (sid < 4096) && decide (guarantee < 9) && decide (reason < 8)
  | .mirrorUpdate sid => decide (sid < 4096)
  | .heatMirrorUpdate sid => decide (sid < 4096)
  | .traceSpill => true
  | .contactMarker unit => decide (unit < 24)
  | .contactDone => true
  | .evtTimerExpiry n => decide (n < 16)
  | .evtPulseEnd pin => decide (pin < 8)
  | .evtEdge pin _ => decide (pin < 8)
  | .page v => decide (v < 256)
  | .voutMode => true
  | .statusWord => true
  | .readVin _ => true
  | .readIin _ => true
  | .readVout _ => true
  | .readIout _ => true
  | .readTemperature1 _ => true
  | .readPout _ => true
  | .readPin _ => true
  | .moduleStatus => true
  | .evtTimer timer mode pin low width start period => decide (timer < 16) && decide (mode < 256) && decide (pin < 256) && decide (low < 2 ^ 64) && decide (width < 65536) && decide (start < 2 ^ 64) && decide (period < 2 ^ 64)
  | .evtPin pin mode => decide (pin < 256) && decide (mode < 256)
  | .evtResult => true
  | .evtCapture => true
  | .sidebandInvalid code len _ => decide (code < 256) && decide (len < 256)
  | .setdasa static dynamic => decide (static < 128) && decide (dynamic < 128)
  | .entdaa dynamic => decide (dynamic < 128)
  | .rstdaa => true
  | .getpid => true
  | .getbcr => true
  | .getdcr => true
  | .getstatus => true
  | .getmrl => true
  | .getmwl => true
  | .enec => true
  | .disec => true
  | .extest => true
  | .samplePreload => true
  | .idcode => true
  | .clamp => true
  | .highz => true
  | .arraytest _ _ => true
  | .intscan => true
  | .bypass => true
  | .tapReset => true
  | .flitSend p => decide (p < 16)
  | .clockReturn d => domainFits d
  | .mrstNRelease => true
  | .inputLowClear => true
  | .lcChanged => true
  | .pcieLinkTrained width _ => decide (width < 17)

end Sys2Proof
end

