-- ==== Sys2Proof/Certificates/Slice0/Obligations.lean ====
section
/-! DEFINITION. The statements for the provers, by chapter. -/

open Sys2Proof Sys2Proof.Machine

/-! ### The queue, time, reset -/

/-- A step takes the command at the front of the queue and answers what exec answers on the state with the queue's rest. -/
def Obligations.StepRunsFrontCommand : Prop :=
  ∀ (c : Instr) (rest : List Instr) (s : State), s.pending = c :: rest → step s = exec c { s with pending := rest }

/-- The model's choice (log 1): with an empty queue a step is one tick of the tally, which counts while it runs, and commands nothing. -/
def Obligations.EmptyQueueTicks : Prop :=
  ∀ s : State, s.pending = [] →
    step s = .next (tick s) ∧ (tick s).pending = [] ∧ (tick s).now = (if s.tal.running then add64 s.now 1 else s.now)
      ∧ Only [.host, .tal, .obs] s (tick s)

/-- What the manual's tables give for reset (00 R9; 02 R74, R76, R84; 03 R110; 04 R159; 08 R313; 09 R315, R340; 10 R357, R370; 15 R472). -/
def Obligations.ResetValues : Prop :=
  State.reset.pending = [] ∧ State.reset.host.cfg = ⟨[0, 1, 2, 3, 4], 1, 0, 1, 0, 1⟩
    ∧ (∀ r, r < 7 → (ringOf r State.reset).map (·.st) = some .stopped)
    ∧ State.reset.xlt.heatDef = ⟨1000000000, 1, 0, 0⟩ ∧ State.reset.dir.cohDef = ⟨256, 100000000, 10000000, 10000000, 1024, 65536⟩
    ∧ (∀ p, p < 16 → (portOf p State.reset).map (·.par) = some ⟨p, 0, 2047, 100000000, 10000, 100000, 16, 0⟩)
    ∧ (∀ k, k < 8 → (dieMem k State.reset).map (·.cfg) = some ⟨86400000000000, 60000000000, 4, 1⟩)
    ∧ sagState 0 State.reset = .active ∧ (∀ sid, sid ≠ 0 → sagState sid State.reset = .free)
    ∧ State.reset.sags.shape = ⟨48, 10000, 256, 20000, 1000000⟩ ∧ State.reset.twin.mode = .starting
    ∧ State.reset.obs.trace.st = 0 ∧ State.reset.obs.contact.st = 0 ∧ State.reset.kiln.library = []

/-- Reset memory is canonical. -/
def Obligations.ResetMemoryCanonical : Prop := MemCanonical State.reset

/-- Every step keeps pool memory in its canonical form: keys strictly rising, no entry equal to what an unlisted one reads as. -/
def Obligations.StepKeepsMemoryCanonical : Prop := Kept MemCanonical

/-- One-time-programmable memory only gains bits: no step lowers the life cycle or a security version number, clears a burned word, a
revocation or a generation slot. -/
def Obligations.OtpOnlyGains : Prop := ∀ s t : State, step s = .next t → otpLe s.pen.otp t.pen.otp

/-- Every step answers a next state: no command stops the machine. It removes the command it runs and no other, and puts none in. -/
def Obligations.QueueIsFifo : Prop := ∀ s : State, ∃ t, step s = .next t ∧ t.pending = s.pending.tail

/-! ### Acceptance and completion of host commands (10 R355, R361 to R363; 00 R15) -/

/-- The first check that fails, in the order of the manual, decides the answer; a command refused changes nothing else. -/
def Obligations.FirstFailingCheckAnswers : Prop :=
  ∀ (r op sid : Nat) (checks : Inflight → State → List Chk) (act : State → State) (s : State) (f : Inflight) (c : Chk),
    s.alive = true → inflightOf r s = some f → f.opcode = op → f.parked = none →
    firstBad (withLatch f s (checks f s ++ [chkExec (offRefuses op s) stCONFLICT])) = some c → c.stage ≠ 5 →
    ∃ t, cmdFor r op sid checks act s = .next t ∧ Only [.host, .obs] s t ∧ inflightOf r t = none
      ∧ ∃ x : Reply, t.host.statusQ.getLast? = some x ∧ x.ring = r ∧ x.opcode = op ∧ x.status = c.status ∧ x.stage = c.stage
        ∧ x.index = c.index ∧ x.ctag = f.ctag ∧ x.cseq = f.cseq ∧ x.result = []

/-- Completing a command: one reply with its opcode, CTAG and CSEQ, the time and the duration, behind those that wait; the ring is free
again and the other rings are as before; the counter of completed commands counts it. -/
def Obligations.CompletionReply : Prop :=
  ∀ (r : Nat) (res : List Nat) (s : State) (f : Inflight), inflightOf r s = some f →
    Only [.host, .obs] s (ok r res s) ∧ inflightOf r (ok r res s) = none ∧ (∀ q, q ≠ r → ringOf q (ok r res s) = ringOf q s)
      ∧ (∃ x : Reply, (ok r res s).host.statusQ = s.host.statusQ ++ [x] ∧ x.ring = r ∧ x.opcode = f.opcode ∧ x.status = stOK ∧ x.ctag = f.ctag
          ∧ x.cseq = f.cseq ∧ x.ended = s.now ∧ x.duration = min (s.now - f.fetched) 0xFFFFFFFF ∧ x.stage = 0 ∧ x.result = res)
      ∧ (ok r res s).host.cfg = s.host.cfg ∧ (ok r res s).host.irqCause = s.host.irqCause ∧ (ok r res s).host.faultQ = s.host.faultQ
      ∧ (ok r res s).host.msix = s.host.msix ∧ (ok r res s).host.bounceBase = s.host.bounceBase
      ∧ (ok r res s).host.bounceSize = s.host.bounceSize ∧ (ok r res s).host.doorbellErr = s.host.doorbellErr
      ∧ (ok r res s).obs.mirrors = s.obs.mirrors ∧ (ok r res s).obs.contact = s.obs.contact
      ∧ (ok r res s).obs.global = s.obs.global.modify 4 (fun v => add64 v 1)

/-! ### System commands (10 R370, R372) -/

/-- NOP answers OK; HOST_CONFIG stores its fields when they lie in range and else answers DENIED; SYS_FENCE answers once every
command fetched before it is answered, and waits until then; FENCE_CANCEL ends a parked fence with INCOMPLETE. POOL_READ and POOL_WRITE of pool lines: a transfer that no check stops bakes its region and moves one line after another
(`poolReadStart`, `poolWriteStart`); a length of 0 completes with nothing moved; in-service local lines without copies are read and
written at once. -/
def Obligations.SystemCommands : Prop :=
  (∀ (s : State) (r : Nat) (f : Inflight),
      (Ready r 0x00 0 s f → exec (.nop r) s = .next (ok r [] (latched r 0 s)))
      ∧ (∀ c : HostCfg, Ready r 0x01 0 s f → c.vec.length = 5 → (∀ v ∈ c.vec, v ≤ 63) → 1 ≤ c.countStatus → c.countStatus ≤ 4096 →
          c.waitStatus ≤ 1000000 → 1 ≤ c.countEvent → c.countEvent ≤ 4096 → c.waitEvent ≤ 1000000 → c.poison ≤ 1 →
          exec (.hostConfig r c) s = .next (ok r [] { latched r 0 s with host.cfg := c }))
      ∧ (∀ c : HostCfg, Ready r 0x01 0 s f → (∃ v ∈ c.vec, 63 < v) → Refuses (.hostConfig r c) r 0x01 stDENIED 3 s)
      ∧ (Ready r 0x02 0 s f → owedReplies r s = [] → exec (.sysFence r) s = .next (ok r [] (latched r 0 s)))
      ∧ (Ready r 0x02 0 s f → owedReplies r s ≠ [] → Parks (.sysFence r) r 0 (.sysFence (owedReplies r s)) s)
      ∧ (∀ (q : Nat) (g : Inflight), Ready r 0x05 0 s f → q < 4 → q ≠ r → inflightOf q s = some g → parkedFence g = true →
          exec (.fenceCancel r q g.cseq) s = .next (ok r [] (okStatus q stINCOMPLETE [] (latched r 0 s))))
      ∧ (∀ q c : Nat, Ready r 0x05 0 s f → 4 ≤ q → Refuses (.fenceCancel r q c) r 0x05 stDENIED 3 s))
    ∧ (∀ (s : State) (r sid addr len : Nat) (f : Inflight),
      ((Ready r 0x03 (poolItem len) s f → (∀ c ∈ poolChks sid addr len 1 s, c.bad = false) → poolMigrates sid addr len 1 s = false →
          exec (.poolRead r sid addr len) s = .next (poolReadStart r sid addr len (latched r sid s)))
      ∧ (Ready r 0x03 (poolItem len) s f → (∀ c ∈ poolChks sid addr len 1 s, c.bad = false) → poolMigrates sid addr len 1 s = true →
          Parks (.poolRead r sid addr len) r sid (.retry (.poolRead r sid addr len)) s))
      ∧ (∀ (item : Item) (lines : List (LineData × Nat)), Ready r 0x04 0 s f → (∀ c ∈ poolChks sid addr len 2 s, c.bad = false) →
          GoodItem item (poolItem len) s → poolMigrates sid addr len 2 s = false →
          exec (.poolWrite r sid addr len item lines) s = .next (poolWriteStart r sid addr len lines (latched r sid s)))
      ∧ (∀ (item : Item) (lines : List (LineData × Nat)), Ready r 0x04 0 s f → (∀ c ∈ poolChks sid addr 0 2 s, c.bad = false) →
          item.off % 64 = 0 → poolMigrates sid addr 0 2 s = false →
          ∃ t, exec (.poolWrite r sid addr 0 item lines) s = .next t ∧ Only [.host, .obs] s t ∧ Replied r 0x04 stOK [] [] s t))


/-! ### Pool memory (03) -/

/-- ROWP[r] is the XOR of the 32 bits of row r and COLP[c] the XOR of column c over the 16 rows; data bit i lies in row i div 32 and column i mod 32,
and row r is the little-endian word at byte 4r. -/
def Obligations.LineParities : Prop :=
  ∀ (d : LineData) (craze : BitVec 4) (tag : BitVec 12) (sm : BitVec 16) (g : BitVec 8),
    (∀ r, r < 16 → (mkLine d craze tag sm g).rowp.getLsbD r = (List.range 32).foldl (fun p c => Bool.xor p (d.getLsbD (32 * r + c))) false)
    ∧ (∀ c, c < 32 → (mkLine d craze tag sm g).colp.getLsbD c = (List.range 16).foldl (fun p r => Bool.xor p (d.getLsbD (32 * r + c))) false)
    ∧ (∀ r, r < 16 → (dataRow d r).toNat = (List.range 4).foldl (fun n k => n + 256 ^ k * (d.extractLsb' (8 * (4 * r + k)) 8).toNat) 0)

/-- A line without an error with one bad bit: in the data, in ROWP or in COLP it is mended to the line as it was; in the CRC, the cause, TAG, SUMMARY, WGEN or the reserved byte it is
detected and not mended. -/
def Obligations.SingleBadBits : Prop :=
  ∀ (l : Line) (i : Nat), lineDecode l = .clean →
    (i < 512 → lineDecode { l with data := l.data ^^^ (1#512 <<< i) } = .mended l)
    ∧ (i < 16 → lineDecode { l with rowp := l.rowp ^^^ (1#16 <<< i) } = .mended l)
    ∧ (i < 32 → lineDecode { l with colp := l.colp ^^^ (1#32 <<< i) } = .mended l)
    ∧ (i < 32 → lineDecode { l with crc := l.crc ^^^ (1#32 <<< i) } = .uncorrectable)
    ∧ (i < 4 → lineDecode { l with craze := l.craze ^^^ (1#4 <<< i) } = .uncorrectable)
    ∧ (i < 12 → lineDecode { l with tag := l.tag ^^^ (1#12 <<< i) } = .uncorrectable)
    ∧ (i < 16 → lineDecode { l with summary := l.summary ^^^ (1#16 <<< i) } = .uncorrectable)
    ∧ (i < 8 → lineDecode { l with wgen := l.wgen ^^^ (1#8 <<< i) } = .uncorrectable)
    ∧ (i < 8 → lineDecode { l with top := l.top ^^^ (1#8 <<< i) } = .uncorrectable)

/-- Reads and writes of a line of a die In service. A read: an uncorrectable line gives zeros with cause 1, an unwedged one zeros with cause 2; for a SID other than 0, TAG 4,095 gives
zeros with the stored cause and another SID's TAG is DENIED; else the stored data and cause; a wedged line gives zeros with cause 0. A write is refused exactly when TAG is neither 4,095 nor the
writer's SID, unless the line is unwedged or uncorrectable or the writer is SID 0. Else the line decodes without error and holds TAG, G, the bytes, the cause and the summary of R99, and every
other line is as before; a full-line write is read back by its SID. -/
def Obligations.LineReadsAndWrites : Prop :=
  (∀ (s : State) (l sid : Nat), dieState (lineDie l) s = .inService →
      (readLine l s.mem = none → (readLocal l sid s).1 = some (0, 1))
      ∧ (∀ x : Line, readLine l s.mem = some x →
          (unwedged x (dieGen (lineDie l) s) = true → (readLocal l sid s).1 = some (0, 2))
          ∧ (unwedged x (dieGen (lineDie l) s) = false →
              (x.tag = 0xFFF#12 → sid ≠ 0 → (readLocal l sid s).1 = some (0, x.craze.toNat))
              ∧ (x.tag ≠ 0xFFF#12 → x.tag.toNat ≠ sid → sid ≠ 0 → readLocal l sid s = (none, addGlobal 0 1 (noteDecode l sid 0 s)))
              ∧ (sid = 0 ∨ (x.tag ≠ 0xFFF#12 ∧ x.tag.toNat = sid) → (readLocal l sid s).1 = some (x.data, x.craze.toNat))))
      ∧ (lineOf l s.mem = wedgedLine → (readLocal l sid s).1 = some (0, 0)))
    ∧ (∀ (s : State) (l sid tag cause : Nat) (d : LineData) (m : BitVec 64) (v : Option (BitVec 16)), dieState (lineDie l) s = .inService →
      (writeLocal l sid tag d m cause v s = none ↔
        ∃ x, readLine l s.mem = some x ∧ x.tag ≠ 0xFFF#12 ∧ x.tag.toNat ≠ sid ∧ unwedged x (dieGen (lineDie l) s) = false ∧ sid ≠ 0)
      ∧ (∀ t : State, MemCanonical s → tag < 4096 → dieGen (lineDie l) s < 256 → writeLocal l sid tag d m cause v s = some t →
          lineDecode (lineOf l t.mem) = .clean ∧ (lineOf l t.mem).tag.toNat = tag ∧ (lineOf l t.mem).wgen.toNat = dieGen (lineDie l) s
            ∧ (m = fullMask → (lineOf l t.mem).data = d ∧ (lineOf l t.mem).craze.toNat = carried cause)
            ∧ (∀ b, b < 64 → m.getLsbD b = true → (lineOf l t.mem).data.extractLsb' (8 * b) 8 = d.extractLsb' (8 * b) 8)
            ∧ (readLine l s.mem = none → (lineOf l t.mem).summary = v.getD wideAll ∧ (m ≠ fullMask → (lineOf l t.mem).craze = 1#4)
                ∧ ∀ b, b < 64 → m.getLsbD b = false → (lineOf l t.mem).data.extractLsb' (8 * b) 8 = 0)
            ∧ (∀ x : Line, readLine l s.mem = some x → (lineOf l t.mem).summary = v.getD x.summary
                ∧ (m ≠ fullMask → (lineOf l t.mem).craze.toNat =
                    if x.craze ≠ 0 ∧ unwedged x (dieGen (lineDie l) s) = false then x.craze.toNat else carried cause)
                ∧ ∀ b, b < 64 → m.getLsbD b = false → (lineOf l t.mem).data.extractLsb' (8 * b) 8 =
                    if unwedged x (dieGen (lineDie l) s) then 0 else x.data.extractLsb' (8 * b) 8)
            ∧ (∀ k, k ≠ l → lineOf k t.mem = lineOf k s.mem) ∧ MemCanonical t ∧ Only [.mem, .obs, .host] s t
            ∧ (m = fullMask → tag = sid → 1 ≤ sid → sid ≤ 4094 → (readLocal l sid t).1 = some (d, carried cause))))

/-- MEM_WEDGE writes every line of its pages in the wedged state and no other line; on an Offline die whose pages are now all covered
since it went Offline the generation becomes 1. -/
def Obligations.MemWedge : Prop :=
  ∀ (s : State) (r die page pages : Nat) (f : Inflight) (m : DieMem),
    Ready r 0x3E 0 s f → MemCanonical s → warmDie die s = false → dieMem die s = some m → die < 8 → m.st = .inService ∨ m.st = .offline →
    1 ≤ pages → page + pages ≤ diePages die s →
    Does (.memWedge r die page pages) s [.host, .obs, .mem, .tal] fun t =>
      Replied r 0x3E stOK [] [] s t
        ∧ (∀ l, die * 2 ^ 21 + page ≤ linePage l → linePage l < die * 2 ^ 21 + page + pages → lineOf l t.mem = wedgedLine)
        ∧ (∀ l, linePage l < die * 2 ^ 21 + page ∨ die * 2 ^ 21 + page + pages ≤ linePage l → lineOf l t.mem = lineOf l s.mem)
        ∧ dieMem die t = some (if m.st = .offline then
            { m with covered := mergeRange page (page + pages) m.covered
                     wgen := if mergeRange page (page + pages) m.covered = [(0, diePages die s)] ∧ m.covered ≠ [(0, diePages die s)] then 1 else m.wgen }
          else m)
        ∧ (∀ k, k ≠ die → dieMem k t = dieMem k s)

/-- The other memory commands: MEM_CRAZE marks its lines one after another, recalling copies first; MEM_REGEN moves an Offline die to the
next generation, 1 after 255 once a full pass has been made, and else answers CONFLICT or BUSY; MEM_PPR repairs a row; MEM_DIE_SET moves
a die between In service and Offline, waiting for the accesses in flight; BISQUE_CONFIG sets one die or all. A command that names a
die ends its idleness first (13 R440). The memory events: the sweep waits until the die's next line is due in its PERIOD, reads and mends it and goes on to the one behind it, or to line 0 after the last (its pacing within the PERIOD is the model's choice, log 34); drift
tracking changes nothing; an automatic repair uses the row's resource or reports that none is left; a row of an idle shelf's SRAM with three
parity errors gets a spare while its bank has one. -/
def Obligations.MemoryCommands : Prop :=
  (∀ (s : State) (r die : Nat) (f : Inflight), die < 8 →
      (∀ ppa n : Nat, Ready r 0x3D 0 s f → ppaFormat ppa = 1 → ppaHid ppa = 0 → ppaOffset ppa / 2 ^ 45 = 0 → die = ppa / 2 ^ 42 % 8 →
          warmDie die s = false → dieGone die s = false → (n = 0 ∨ dieLine (ppaOffset ppa / 64) + n ≤ diePages die s * 32768) →
          exec (.memCraze r ppa n) s = .next (crazeGo r (ppaOffset ppa / 64) n
            ((List.range n).foldl (fun s i => recallLine (localKey (ppaOffset ppa / 64 + i)) .recallInv true
              (holdCut 6 (localKey (ppaOffset ppa / 64 + i)) s)) (latched r 0 (touchDie die s)))))
      ∧ (∀ l : Nat, l < 2 ^ 39 → entOf (localKey l) s = none → (∀ x ∈ s.dir.wayWait, x.1 ≠ localKey l) →
          (∃ x, readLine l s.mem = some x ∧ x.summary = 0) →
          crazeGo r l 1 s = ok r [] (setCraze l 15 s))
      ∧ (∀ m : DieMem, Ready r 0x3F 0 s f → dieMem die s = some m → m.st = .offline → m.wgen ≠ 255 →
          exec (.memRegen r die) s = .next (ok r [] (modDie die (fun d => { d with wgen := d.wgen + 1, fullPass := false }) (latched r 0 (touchDie die s)))))
      ∧ (∀ m : DieMem, Ready r 0x3F 0 s f → dieMem die s = some m → m.st = .offline → m.wgen = 255 → m.fullPass = true →
          Does (.memRegen r die) s [.host, .obs, .mem, .tal] fun t => Replied r 0x3F stOK [] [] s t ∧ dieGen die t = 1)
      ∧ (∀ m : DieMem, Ready r 0x3F 0 s f → dieMem die s = some m → m.st = .offline → m.wgen = 255 → m.fullPass = false →
          ∃ t, exec (.memRegen r die) s = .next t ∧ t.mem = s.mem ∧ ∃ x, t.host.statusQ.getLast? = some x ∧ x.status = stBUSY)
      ∧ (∀ loc : RowLoc, ∀ sl hl : Bool, Ready r 0x40 0 s f → warmDie loc.die s = false → dieGone loc.die s = false → locBad loc s = false →
          loc ∉ s.mem.softRows →
          exec (.memPpr r loc 0 true hl) s = .next (ok r [] (softRepair loc (latched r 0 (touchDie loc.die s))))
            ∧ exec (.memPpr r loc 0 false hl) s = .next (refuse r stDENIED 7 (pprExhausted loc (latched r 0 (touchDie loc.die s))))
            ∧ (dieState loc.die s = .offline → exec (.memPpr r loc 1 sl true) s =
                .next (ok r [] (wedgeRow loc { latched r 0 (touchDie loc.die s) with mem.hardRows := s.mem.hardRows ++ [loc] }))))
      ∧ (∀ st : Nat, Ready r 0x41 0 s f → warmDie die s = false → dieState die s = .inService →
          exec (.memDieSet r die 3) s = .next (ok r [] (modDie die (fun d => { d with st := .inService }) (latched r 0 (touchDie die s))))
            ∧ exec (.memDieSet r die 4) s = .next (if dieQuiet die (latched r 0 (touchDie die s)) then
                ok r [] (modDie die (fun d => { d with st := .offline, covered := [] }) (latched r 0 (touchDie die s)))
              else park r (.dieOffline die) (latched r 0 (touchDie die s)))
            ∧ (st ≠ 3 → st ≠ 4 → ∃ t, exec (.memDieSet r die st) s = .next t ∧ t.mem = s.mem ∧ ∃ x, t.host.statusQ.getLast? = some x ∧ x.status = stDENIED))
      ∧ (∀ c : BisqueCfg, Ready r 0x42 0 s f → bisqueOk c = true →
          exec (.bisqueConfig r c 8) s = .next (ok r [] { latched r 0 (touchDie 8 s) with
            mem.dies := s.mem.dies.map fun (d : DieMem) => { d with cfg := c } })
            ∧ (die < 8 → warmDie die s = false → dieGone die s = false →
                exec (.bisqueConfig r c die) s = .next (ok r [] (modDie die (fun d => { d with cfg := c }) (latched r 0 (touchDie die s)))))))
    ∧ (∀ (s : State) (die : Nat) (d : DieMem),
      (s.powered = true → dieMem die s = some d → dieFrozen die s = false → sweepDue die d s = true → d.pos + 1 < diePages die s * 32768 →
          exec (.bisqueSweep die) s = .next (modDie die (fun d => { d with pos := d.pos + 1 }) (sweepLine (die * 2 ^ 36 + d.pos) s)))
      ∧ (s.powered = true → dieMem die s = some d → dieFrozen die s = false → sweepDue die d s = true → d.pos + 1 = diePages die s * 32768 →
          ∃ t, exec (.bisqueSweep die) s = .next t
            ∧ (dieMem die t).map (fun x => (x.pos, x.passes, x.fullPass, x.sweepAt)) = some (0, (d.passes + 1) % 2048, true, s.now))
      ∧ (dieMem die s = some d → sweepDue die d s = false → exec (.bisqueSweep die) s = .next s)
      ∧ (∀ c : Nat, exec (.driftTracking die c) s = .next s)
      ∧ (∀ loc : RowLoc, ∀ l ∈ s.mem.pendingSppr, s.powered = true → dieGone loc.die s = false → inRow loc l = true →
          exec (.spprRepair loc true) s = .next (softRepair loc s)
            ∧ exec (.spprRepair loc false) s =
              .next (pprExhausted loc { s with mem.pendingSppr := s.mem.pendingSppr.filter fun l => !inRow loc l }))
      ∧ (∀ (sh bank row : Nat) (x : Shelf) (e : Spare), e = ⟨if bank < 48 then 0 else 1, sh, if bank < 48 then bank else bank - 48, false, row⟩ →
          s.powered = true → shelfOf sh s = some x → x.run = none → x.out = false → bank < 56 →
          (recentErrs e s < 3 → exec (.spareRowAssign sh bank row) s = .next s)
            ∧ (3 ≤ recentErrs e s → e ∉ s.mem.spares →
                exec (.spareRowAssign sh bank row) s = .next { s with
                  mem.rowErrs := s.mem.rowErrs.filter fun y => y.1 != e
                  mem.spares := if sparesLeft e s = 0 then s.mem.spares else s.mem.spares ++ [e] })))


/-! ### Saggers (09) -/

/-- SAGGER_CREATE makes a Free SID Active with full buckets and the default coherence and heat settings; every other sagger is as before.
SAGGER_CREATE of a SID that is not Free answers CONFLICT and changes nothing. The other commands of a sagger's life: SAGGER_SET changes rates and bursts, not the shelves; SAGGER_SHELVES one die's mask; SAGGER_SEAL and
SAGGER_UNSEAL its partitions; SAGGER_DRAIN and SAGGER_RESUME its state; SAGGER_DESTROY frees a draining sagger that holds nothing, its
tables emptied. -/
def Obligations.SaggerCommands : Prop :=
  (∀ (s : State) (r sid : Nat) (p : SagParams) (f : Inflight), Ready r 0x10 0 s f → (∀ m ∈ p.shelves, m < 2 ^ 40) → s.pen.otp.lc = 2 →
      1 ≤ sid → sid ≤ 4094 → sagRanges p = true → p.sealLoad ≤ 15 →
      (sagState sid s = .free → commitBad sid p.fCrate p.lCrate s = false →
        (∀ k, k < 8 → maskClash sid k (p.shelves.getD k 0) (·.sealed) s = false) → smWf s.sags.tab = true →
        exec (.saggerCreate r sid p) s = .next (ok r [] { latched r sid s with
            sags.tab := smSet sid (newSagger p s.now) s.sags.tab, dir.cohCfg := smSet sid s.dir.cohDef s.dir.cohCfg
            xlt.heatCfg := smSet sid s.xlt.heatDef s.xlt.heatCfg })
          ∧ smGet sid (smSet sid (newSagger p s.now) s.sags.tab) = some (newSagger p s.now)
          ∧ (newSagger p s.now).st = .active ∧ (∀ q, q ≠ sid → smGet q (smSet sid (newSagger p s.now) s.sags.tab) = sagOf q s))
      ∧ (sagState sid s ≠ .free → Refuses (.saggerCreate r sid p) r 0x10 stCONFLICT 7 s))
    ∧ (∀ (s : State) (r sid : Nat) (f : Inflight) (g : Sagger), sid ≤ 4094 → sagOf sid s = some g →
      (∀ (p : SagParams) (force : Bool), Ready r 0x11 0 s f → g.st ≠ .free → sagRanges p = true →
          (force = true ∨ commitBad sid p.fCrate p.lCrate s = false) →
          exec (.saggerSet r sid p force) s = .next (ok r [] (modSag sid (fun g => { g with
            f := remeter g.f g.par.fCrate g.par.fCburst g.par.fPrate g.par.fPburst p.fCburst p.fPrate p.fPburst s.now
            l := remeter g.l g.par.lCrate g.par.lCburst g.par.lPrate g.par.lPburst p.lCburst p.lPrate p.lPburst s.now
            par := { p with shelves := g.par.shelves, sealLoad := g.par.sealLoad } }) (latched r sid s))))
      ∧ (∀ die mask : Nat, Ready r 0x12 0 s f → g.st ≠ .free → mask < 2 ^ 40 → die < 8 → warmDie die s = false →
          maskClash sid die mask (·.sealed) s = false → (g.sealed = true → maskClash sid die mask (fun _ => true) s = false ∧ shelvesUsed sid die mask s = false) →
          windowHolds sid die mask s = false →
          exec (.saggerShelves r sid die mask) s = .next (ok r [] (modSag sid (fun g => { g with
            par := { g.par with shelves := g.par.shelves.set die mask } }) (latched r sid s))))
      ∧ (∀ tc db load : Nat, Ready r 0x13 0 s f → g.st ≠ .free → sid ≠ 0 → tc ≤ 16 → db ≤ 16 → load ≤ 15 →
          sealClash sid tc db (releaseParts s) = false →
          exec (.saggerSeal r sid tc db load) s = .next (ok r [] (modSag sid (fun g => { g with
            sealed := true, leaving := false, tcBlocks := tc, dirBlocks := db, par := { g.par with sealLoad := load } })
            (releaseParts (latched r sid s)))))
      ∧ (Ready r 0x14 0 s f → g.st ≠ .free → g.sealed = false → exec (.saggerUnseal r sid) s = .next (ok r [] (latched r sid s)))
      ∧ (Ready r 0x14 0 s f → g.st ≠ .free → g.sealed = true →
          ∃ u, exec (.saggerUnseal r sid) s = .next (ok r [] (releaseParts u))
            ∧ sagOf sid u = some { g with sealed := false, leaving := true }
            ∧ (∀ p, portOf p u = (portOf p s).map fun (q : Port) =>
                { q with gate := q.gate.map (openEntries sid), gateNext := q.gateNext.map fun x => (x.1, openEntries sid x.2) }))
      ∧ (Ready r 0x15 0 s f → g.st = .active → sid ≠ 0 →
          exec (.saggerDrain r sid) s = .next (drainedRecord sid (ok r [] (modSag sid (fun g => { g with st := .draining, drainDue := true })
            (latched r sid s)))))
      ∧ (Ready r 0x15 0 s f → g.st = .draining → sid ≠ 0 → exec (.saggerDrain r sid) s = .next (ok r [] (latched r sid s)))
      ∧ (Ready r 0x16 0 s f → g.st = .draining →
          exec (.saggerResume r sid) s = .next (ok r [] (modSag sid (fun g => { g with st := .active, drainDue := false }) (latched r sid s))))
      ∧ (Ready r 0x16 0 s f → g.st ≠ .draining → Refuses (.saggerResume r sid) r 0x16 stCONFLICT 7 s)
      ∧ (Ready r 0x17 0 s f → destroyBad sid s = false → smWf s.sags.tab = true →
          Does (.saggerDestroy r sid) s [.host, .obs, .sags, .xlt, .dir, .kiln, .mem] fun t =>
            Replied r 0x17 stOK [] [] s t ∧ sagState sid t = .free ∧ (∀ q, q ≠ sid → sagOf q t = sagOf q s)
              ∧ t.dir = { s.dir with cohCfg := smDel sid s.dir.cohCfg } ∧ t.sags.shape = s.sags.shape
              ∧ t.mem = ((s.xlt.tables.filter (·.sid == sid)).foldl (fun s x => wipeTable x s) s).mem ∧ t.obs.mirrors = smDel sid s.obs.mirrors
              ∧ t.xlt = { s.xlt with tables := s.xlt.tables.filter (·.sid != sid), epochs := smDel sid s.xlt.epochs
                                     taken := s.xlt.taken.filter fun x => x.sid != sid || x.ack, heatCfg := smDel sid s.xlt.heatCfg }
              ∧ t.kiln = { s.kiln with library := s.kiln.library.map fun (x : Glaze) => { x with sids := x.sids.filter (· != sid) } })
      ∧ (Ready r 0x17 0 s f → destroyBad sid s = true → Refuses (.saggerDestroy r sid) r 0x17 stCONFLICT 7 s)
      ∧ (Ready r 0x1A 128 s f → exec (.saggerRead r sid) s = .next (okItem r [.words (sagWords sid (latched r sid s))] (latched r sid s)))
      ∧ (∀ c : ShapeCfg, Ready r 0x19 0 s f → c.fOvh ≤ 1024 → 1000 ≤ c.samplePeriod → c.samplePeriod ≤ 1000000 → 1 ≤ c.crowdLimit →
          c.crowdLimit ≤ 2048 → 1000 ≤ c.commitWait → c.commitWait ≤ 10000000 → 100000 ≤ c.breachWindow → c.breachWindow ≤ 1000000000 →
          exec (.shapeConfig r c) s = .next (ok r [] { latched r 0 s with sags.shape := c })))

/-- GATE_LOAD of a valid schedule: at once where the port has none, else at the end of the running period; the reply carries the time
from which it holds. The schedule then moves from entry to entry, each when its duration has passed, and begins again or gives place
to the one loaded. -/
def Obligations.GateSchedules : Prop :=
  ∀ (s : State) (r p n guard : Nat) (f : Inflight) (item : Item) (es : List GateEntry) (q : Port),
    portOf p s = some q →
    (Ready r 0x18 0 s f → p < 16 → n ≤ 1024 → 8 ≤ guard → guard ≤ 4096 → item.off % 64 = 0 → (n = 0 ∨ GoodItem item (8 * n) s) →
        (∀ e ∈ es.take n, e.resv = false ∧ e.kind < 3) → gateBad guard (es.take n) s = false →
        exec (.gateLoad r p 1 n item true guard es) s = .next (match q.gate with
          | none => ok r (w64 s.now) (setGate p (gateSched (es.take n) guard s.now) (latched r 0 s))
          | some g => ok r (w64 (periodEnd g)) (modPort p (fun q => { q with gateNext := some (periodEnd g, gateSched (es.take n) guard (periodEnd g)) })
              (latched r 0 s))))
    ∧ (Ready r 0x18 0 s f → Refuses (.gateLoad r p 2 n item true guard es) r 0x18 stVERSION 1 s)
    ∧ (∀ (g : GateSched) (e : GateEntry), s.powered = true → q.gate = some g → g.entries[g.cur]? = some e → g.curAt + e.duration ≤ s.now →
        (g.cur + 1 < g.entries.length →
          exec (.gateEntry p) s = .next (gateTrace p (modPort p (fun q => { q with
            gate := some { g with cur := g.cur + 1, curAt := g.curAt + e.duration, used := 0 } }) s)))
        ∧ (g.cur + 1 = g.entries.length → q.gateNext = none →
          exec (.gateEntry p) s = .next (gateTrace p (modPort p (fun q => { q with
            gate := some { g with cur := 0, start := g.curAt + e.duration, curAt := g.curAt + e.duration, used := 0 } }) s)))
        ∧ (∀ (x : Nat) (h : GateSched), g.cur + 1 = g.entries.length → q.gateNext = some (x, h) →
          exec (.gateEntry p) s = .next (setGate p { h with start := g.curAt + e.duration, curAt := g.curAt + e.duration } s)))

/-- The events of the meters: a sample is taken when its period has passed; a waiting request goes on only past the gate and its meter, in
arrival order; a breach record is written when its window has passed, if the mask asks for it; SAGGER_DRAINED follows the last work. -/
def Obligations.ShapingEvents : Prop :=
  ∀ (s : State) (sid : Nat), s.alive = true →
    (s.sags.sampleAt + s.sags.shape.samplePeriod ≤ s.now →
        Does .queueSample s [.sags] fun t => t.sags.sampleAt = s.now ∧ t.sags.shape = s.sags.shape ∧ t.sags.breaches = s.sags.breaches)
    ∧ (∀ (g : Sagger) (w : Waiting) (rest : List Waiting) (m : Mhd), sagOf sid s = some g → g.waiting = w :: rest → cmdMhd w.cmd = some m →
        (letPass m.port m.src m.tag sid w.cost w.lines w.at_ s).1 = true →
        exec (.meterAdmit sid w.port) s = .next (serveAgain w.cmd (addGlobal 5 1 (modCtr sid (fun c => { c with
          waitTicks := add64 c.waitTicks ((letPass m.port m.src m.tag sid w.cost w.lines w.at_ s).2.now - w.at_) })
          (modSag sid (fun g => { g with waiting := g.waiting.eraseIdx 0 }) (letPass m.port m.src m.tag sid w.cost w.lines w.at_ s).2)))))
    ∧ (∀ (b : Breach) (g : Sagger), s.sags.breaches = [b] → sagOf b.sid s = some g → bitOf g.par.breachMask (b.guarantee - 4) = true →
        b.start + s.sags.shape.breachWindow ≤ s.now →
        exec (.breachRecord b.sid b.guarantee b.reason) s = .next (logBreach b (emit 0x03 b.sid 0 0 (breachWords b)
          (modCtr b.sid (fun c => { c with breaches := add64 c.breaches 1 })
            { s with sags.breaches := [], sags.breachCnt := add32 s.sags.breachCnt 1 }))))
    ∧ (exec (.saggerDrained sid) s = .next (drainedRecord sid s))
    ∧ (∀ g : Sagger, sagOf sid s = some g → g.st = .draining → g.drainDue = true → sagWork sid s = false →
        drainedRecord sid s = emit 0x06 sid 0 0 [] (modSag sid (fun g => { g with drainDue := false }) s))

/-! ### Coherence commands (04) -/

/-- COH_CONFIG stores parameters in range for one sagger or, with SID 4,095, for all, and answers DENIED for others; AGENT_REVOKE ends a lease or
join with cause 2 and answers DENIED where there is none; REGION_BIND ties a region of the SID to a HID that nothing else is tied to (a Contested
region's holder then drains and its record is owed), answers CONFLICT where one of the two is tied, and unties with 4,095; REGION_RESOLVE ends a
contest: choice 0 keeps the active publication, 1 takes the contesting one, 2 withdraws the region; it answers CONFLICT without a contest; COH_READ
answers the directory entry of a local or remote line, or an agent. -/
def Obligations.CoherenceCommands : Prop :=
  ∀ (s : State) (r : Nat) (f : Inflight),
    (∀ (sid : Nat) (c : CohCfg), Ready r 0x28 0 s f → c.hold ≤ 16000 → 1000000 ≤ c.lease → c.lease ≤ 10000000000 → 100000 ≤ c.pulse →
        4 * c.pulse ≤ c.lease → 1000000 ≤ c.snoopLimit → c.snoopLimit ≤ c.lease → 64 ≤ c.backoffBase → c.backoffBase ≤ c.backoffCap →
        c.backoffCap ≤ 1048576 →
        (sid ≠ 4095 → sagState sid s ≠ .free →
          exec (.cohConfig r sid c) s = .next (ok r [] { latched r sid s with dir.cohCfg := smSet sid c s.dir.cohCfg }))
        ∧ exec (.cohConfig r 4095 c) s = .next (ok r [] { latched r 4095 s with dir.cohDef := c, dir.cohCfg := [] }))
    ∧ (∀ (sid : Nat) (c : CohCfg), Ready r 0x28 0 s f → c.hold > 16000 → Refuses (.cohConfig r sid c) r 0x28 stDENIED 3 s)
    ∧ (∀ aid : Nat, Ready r 0x29 0 s f → (agentOf aid s).kind ≠ 0 → (agentOf aid s).lapsed = false →
        exec (.agentRevoke r aid) s = .next (ok r [] (leaseEnd aid 2 (latched r 0 s))))
    ∧ (∀ aid : Nat, Ready r 0x29 0 s f → ((agentOf aid s).kind = 0 ∨ (agentOf aid s).lapsed = true) →
        Refuses (.agentRevoke r aid) r 0x29 stDENIED 3 s)
    ∧ (∀ (name sid hid : Nat) (g : Region), Ready r 0x2A 0 s f → smGet name s.dir.regions = some g → g.sid = sid →
        (1 ≤ hid → hid ≤ 4094 → g.hid = none → hidTied hid s = false → g.cont = none →
          exec (.regionBind r name sid hid) s = .next (ok r [] { latched r sid s with
            dir.regions := smMod name (fun g => { g with hid := some hid }) s.dir.regions }))
        ∧ (∀ c : Pub, 1 ≤ hid → hid ≤ 4094 → g.hid = none → hidTied hid s = false → g.cont = some c →
          exec (.regionBind r name sid hid) s = .next (ok r [] (owe name 2 g.act c { latched r sid s with
            dir.regions := smMod name (fun g => { g with hid := some hid }) s.dir.regions })))
        ∧ (1 ≤ hid → hid ≤ 4094 → (g.hid ≠ none ∨ hidTied hid s = true) → Refuses (.regionBind r name sid hid) r 0x2A stCONFLICT 7 s)
        ∧ exec (.regionBind r name sid 4095) s = .next (ok r [] { latched r sid s with
            dir.regions := smMod name (fun g => { g with hid := none }) s.dir.regions }))
    ∧ (∀ name sid hid : Nat, Ready r 0x2A 0 s f → (smGet name s.dir.regions).map (·.sid) ≠ some sid →
        Refuses (.regionBind r name sid hid) r 0x2A stDENIED 3 s)
    ∧ (∀ (name choice : Nat) (g : Region), Ready r 0x2B 0 s f → smGet name s.dir.regions = some g → choice ≤ 2 →
        (g.cont ≠ none → exec (.regionResolve r name choice) s = .next (ok r [] (resolveRegion name choice (latched r 0 s))))
        ∧ (g.cont = none → Refuses (.regionResolve r name choice) r 0x2B stCONFLICT 7 s))
    ∧ (∀ (name : Nat) (g : Region) (c : Pub), smWf s.dir.regions = true → smGet name s.dir.regions = some g → g.hid = none → g.cont = some c →
        smGet name (resolveRegion name 0 s).dir.regions = some { g with cont := none }
          ∧ smGet name (resolveRegion name 1 s).dir.regions = some { g with act := c, cont := none }
          ∧ smGet name (resolveRegion name 2 s).dir.regions = none)
    ∧ (∀ name choice : Nat, Ready r 0x2B 0 s f → smGet name s.dir.regions = none → choice ≤ 2 →
        Refuses (.regionResolve r name choice) r 0x2B stCONFLICT 7 s)
    ∧ (∀ name choice : Nat, Ready r 0x2B 0 s f → 3 ≤ choice → Refuses (.regionResolve r name choice) r 0x2B stRESERVED 2 s)
    ∧ (∀ ppa : Nat, Ready r 0x2C 0 s f → warmPage ppa s = false →
        localValid ppa s = true ∨ (ppaFormat ppa = 2 ∧ 1 ≤ ppaHid ppa ∧ ppaHid ppa ≤ 4094) →
        exec (.cohRead r 0 ppa) s = .next (ok r (cohReadPpa ppa (latched r 0 s)) (latched r 0 s)))
    ∧ (∀ aid : Nat, Ready r 0x2C 0 s f → aid ≤ 2047 →
        exec (.cohRead r 1 aid) s = .next (ok r (cohReadAid aid (latched r 0 s)) (latched r 0 s)))
    ∧ (∀ aid : Nat, Ready r 0x2C 0 s f → 2047 < aid → Refuses (.cohRead r 1 aid) r 0x2C stDENIED 3 s)
    ∧ (∀ sel val : Nat, Ready r 0x2C 0 s f → 2 ≤ sel → Refuses (.cohRead r sel val) r 0x2C stRESERVED 2 s)

/-- How a publication for a known region is judged, by the region's state, its sagger, the order of EPOCH and VERSION and the digest; one for
an unknown name makes an entry that is not bound. -/
def Obligations.PublicationOutcomes : Prop :=
  ∀ (s : State) (m : Mhd) (p : Publication) (sid : Nat) (q : Pub),
    q = ⟨p.epoch, p.version, p.base, p.pages, p.digest, p.mode, m.src, m.port⟩ →
    m.resv = false → p.mode = 1 ∨ p.mode = 2 → p.sid = sid → sid < 4096 → p.base % 2 ^ 21 = 0 → 1 ≤ p.pages →
    (smGet p.name s.dir.regions = none → s.dir.regions.length < 4096 →
        (s.dir.regions.filter fun e => e.2.sid == sid && e.2.hid.isNone && e.2.cont.isNone).length < 256 →
        servePublish m p sid s =
          regionAck m stOK 1 { s with dir.regions := smSet p.name ⟨sid, none, q, none, []⟩ s.dir.regions })
    ∧ (∀ r : Region, smGet p.name s.dir.regions = some r → r.cont ≠ none → servePublish m p sid s = regionAck m stCONTESTED 0 s)
    ∧ (∀ r : Region, smGet p.name s.dir.regions = some r → r.cont = none → r.sid ≠ sid →
        servePublish m p sid s = regionAck m stDENIED 0 (countDenied sid s))
    ∧ (∀ r : Region, smGet p.name s.dir.regions = some r → r.cont = none → r.sid = sid → p.version < 2 ^ 32 → r.act.version < 2 ^ 32 →
        ((p.epoch < r.act.epoch ∨ p.epoch = r.act.epoch ∧ p.version < r.act.version) → servePublish m p sid s = regionAck m stCONFLICT 0 s)
        ∧ (p.epoch = r.act.epoch → p.version = r.act.version → p.digest = r.act.digest →
            servePublish m p sid s = regionAck m stOK (if m.src = r.act.aid then 1 else 0) s)
        ∧ (p.epoch = r.act.epoch → p.version = r.act.version → p.digest ≠ r.act.digest →
            servePublish m p sid s = regionAck m stCONTESTED 0
              (owe p.name 2 r.act q { s with dir.regions := smSet p.name { r with cont := some q } s.dir.regions }))
        ∧ ((r.act.epoch < p.epoch ∨ r.act.epoch = p.epoch ∧ r.act.version < p.version) →
            servePublish m p sid s = regionAck m stOK 1 
              (owe p.name 1 r.act q (superseded p.name r.act q { s with dir.regions := smSet p.name { r with act := q } s.dir.regions }))))

/-! ### Messages of agents (04, 08) -/

/-- A message of an AID that is not admitted on its port does nothing; one for another AID of the J9P counts as a protocol error; one that
comes while the planes take no input waits; each kind of message is treated so. FENCE, REGION_PUBLISH and the answers of holders: a FENCE is answered behind every earlier request of its agent; an answer that matches no outstanding
request is late and counted; one that does closes it and serves what waited. -/
def Obligations.MessagesAndAnswers : Prop :=
  (∀ (m : Mhd) (i : Instr) (serve : Nat → State → State) (s : State),
      (admitted m.port m.src s = false → arrive m i serve s = s)
      ∧ (s.powered = true → portLive m.port s = true → admitted m.port m.src s = true → some m.dst ≠ (portOf m.port s).map (·.par.portAid) →
          arrive m i serve s = modPortCtr m.port (fun c => { c with protocol := add32 c.protocol 1 }) s)
      ∧ (s.powered = true → portLive m.port s = true → admitted m.port m.src s = true → some m.dst = (portOf m.port s).map (·.par.portAid) →
          s.holds = true → arrive m i serve s = { s with twin.rxWait := s.twin.rxWait ++ [i] })
      ∧ (Delivered m s → arrive m i serve s = serve (sidOf m.port m.src s) s))
    ∧ (∀ (s : State) (m : Mhd), Delivered m s → m.resv = false →
      (meterBusy (sidOf m.port m.src s) (openReq m.port m.src m.tag m.tgen true s) = false → s.powerOff = false →
          (letPass m.port m.src m.tag (sidOf m.port m.src s) s.sags.shape.fOvh 1 s.now (openReq m.port m.src m.tag m.tgen true s)).1 = true →
          exec (.fence m) s = .next (flushFences m.port m.src (addGlobal 5 1 (letPass m.port m.src m.tag (sidOf m.port m.src s)
            s.sags.shape.fOvh 1 s.now (openReq m.port m.src m.tag m.tgen true s)).2)))
      ∧ (∀ p, exec (.regionPublish m p) s = .next (servePublish m p (sidOf m.port m.src s) s))
      ∧ (∀ (st : Nat) (ls : List (LineData × Nat)), outstOf m.port m.src m.tag m.tgen 0x0C s = none →
          exec (.hdata m st ls) s = .next (modPortCtr m.port (fun c => { c with late := add32 c.late 1 }) s))
      ∧ (∀ (st : Nat) (ls : List (LineData × Nat)) (o : Outst), outstOf m.port m.src m.tag m.tgen 0x0C s = some o →
          exec (.hdata m st ls) s = .next (serveHdata st ls o (closeOutst o s)))
      ∧ (∀ (st : Nat) (o : Outst), outstOf m.port m.src m.tag m.tgen 0x0D s = some o →
          exec (.hdone m st) s = .next (serveHdone st o (closeOutst o s)))
      ∧ (∀ st : Nat, outstOf m.port m.src m.tag m.tgen 0x0D s = none →
          exec (.hdone m st) s = .next (modPortCtr m.port (fun c => { c with late := add32 c.late 1 }) s))
      ∧ (∀ o : Outst, s.outst = [o] → outstOf m.port m.src m.tag m.tgen 0x0B s = some o → exec (.fenceAck m) s = .next { s with outst := [] })
      ∧ (outstOf m.port m.src m.tag m.tgen 0x0B s = none →
          exec (.fenceAck m) s = .next (modPortCtr m.port (fun c => { c with late := add32 c.late 1 }) s)))

/-- A coherent request that is delivered, of an active sagger, with nothing before it at the meter, is open, charged, counted and served. Which commands are coherent requests, and what each asks of the directory: operation, address, alignment, lease epoch. A served request that is misaligned, has no lease or names no mapping is refused with the status of its rule; RD_SHARED, RD_OWN and
UPGRADE need a caching agent whose lease stands, and the last two its lease epoch. -/
def Obligations.CoherentRequests : Prop :=
  (∀ (s u : State) (m : Mhd) (i : Instr) (q : Req) (addr al : Nat) (le : Option Nat),
      lineReq i = some (m, q, addr, al, le) → Passes m (64 + s.sags.shape.fOvh) 1 s u → exec i s = .next (serveCoh i (addGlobal 5 1 u)))
    ∧ (∀ (m : Mhd) (a e c aop size : Nat) (mask o1 o2 : BitVec 64) (nw : Bool) (d : LineData),
      ((lineReq (.rdShared m a)).map fun x => (x.1, x.2.1.op, x.2.2)) = some (m, .rdShared, a, 64, none)
      ∧ ((lineReq (.rdOwn m a e)).map fun x => (x.1, x.2.1.op, x.2.2)) = some (m, .rdOwn, a, 64, some e)
      ∧ ((lineReq (.upgrade m a e)).map fun x => (x.1, x.2.1.op, x.2.2)) = some (m, .upgrade, a, 64, some e)
      ∧ ((lineReq (.rdOnce m a nw)).map fun x => (x.1, x.2.1.op, x.2.1.nowait, x.2.2)) = some (m, .rdOnce, nw, a, 64, none)
      ∧ ((lineReq (.scorch m a mask c nw d)).map fun x => (x.2.1.op, x.2.1.mask, x.2.1.cause, x.2.1.line, x.2.2)) =
          some (.scorch, mask, c, d, a, 64, none)
      ∧ ((lineReq (.atomic m a aop 0 o1 o2 nw)).map fun x => (x.2.1.op, x.2.1.opnd1, x.2.1.opnd2, x.2.1.off, x.2.2)) =
          some (.atomic, o1, o2, a % 64, a, 4, none)
      ∧ ((lineReq (.atomic m a aop 1 o1 o2 nw)).map fun x => x.2.2) = some (a, 8, none)
      ∧ (size ≠ 0 → ((lineReq (.atomic m a aop size o1 o2 nw)).map fun x => x.2.2) = some (a, 8, none)))
    ∧ (∀ (s : State) (m : Mhd) (a e : Nat), a < 2 ^ 52 →
      (a % 64 ≠ 0 → serveCoh (.rdShared m a) s = refuseLine m (sidOf m.port m.src s) stDENIED s
          ∧ ∀ nw, serveCoh (.rdOnce m a nw) s = refuseLine m (sidOf m.port m.src s) stDENIED s)
      ∧ (a % 64 = 0 → (agentOf m.src s).kind = 0 → serveCoh (.rdShared m a) s = refuseLine m (sidOf m.port m.src s) stDENIED s)
      ∧ (a % 64 = 0 → (agentOf m.src s).kind = 2 → (agentOf m.src s).lapsed = false →
          serveCoh (.rdOwn m a e) s = refuseLine m (sidOf m.port m.src s) stDENIED s)
      ∧ (a % 64 = 0 → (agentOf m.src s).kind ≠ 0 → (agentOf m.src s).lapsed = true →
          serveCoh (.rdOwn m a e) s = refuseLine m (sidOf m.port m.src s) stLEASELOST s)
      ∧ (a % 64 = 0 → (agentOf m.src s).kind = 1 → (agentOf m.src s).lapsed = false → e ≠ (agentOf m.src s).lepoch →
          serveCoh (.upgrade m a e) s = refuseLine m (sidOf m.port m.src s) stLEASELOST s)
      ∧ (∀ nw, a % 64 = 0 → translate (sidOf m.port m.src s) a 1 s = .denied →
          serveCoh (.rdOnce m a nw) s = refuseLine m (sidOf m.port m.src s) stDENIED s))

/-- What a delivered line makes of the head request's entry: RD_OWN and UPGRADE leave it Owned by the requester alone, RD_SHARED on an Uncached line Shared with the requester listed, on a line with two
copies Shared-wide, RD_ONCE without a copy; the grant starts the hold window. WRITEBACK of the owner with its lease epoch writes the line and leaves it Uncached; any other sender, handle or epoch is refused and changes no memory. Answers to snoops reach the line they name; the last one lets its head request go on, and data that comes back is written first. The answer to a snoop
whose line has left the directory closes it, and its data is discarded and counted; an answer nobody asked for changes nothing. -/
def Obligations.WritebacksAndSnoops : Prop :=
  (∀ (s : State) (k : Nat) (q : Req) (e : DirEnt) (s' : State),
      (q.op = .rdOwn → (afterRead k q e s').st = .owned ∧ (afterRead k q e s').copies = [(q.src, q.epoch)] ∧ (afterRead k q e s').wide = false)
      ∧ (q.op = .upgrade → (afterRead k q e s').st = .owned ∧ (afterRead k q e s').copies = [(q.src, q.epoch)])
      ∧ (q.op = .rdShared → e.st = .uncached → e.wide = false → e.copies = [] →
          (afterRead k q e s').st = .shared ∧ (afterRead k q e s').copies = [(q.src, q.epoch)] ∧ (afterRead k q e s').sid = lineSid k q.sid s')
      ∧ (q.op = .rdShared → e.st = .shared → e.wide = false → e.gone = false → 2 ≤ e.copies.length → e.copies.any (·.1 == q.src) = false →
          (afterRead k q e s').wide = true ∧ (afterRead k q e s').copies = [] ∧ (afterRead k q e s').pp &&& pairBit (agentOf q.src s').port ≠ 0)
      ∧ (q.op = .rdOnce → e.st = .uncached → afterRead k q e s' = e)
      ∧ (smWf s.dir.ents = true → entOf k s = some e → ∀ op line,
          (entOf k (grant k q op line s)).map (fun x => (x.st, x.copies, x.holdEnd)) = some (e.st, e.copies, s.now + (cohOf e.sid s).hold)))
    ∧ (∀ (s t : State) (m : Mhd) (h : Handle) (le c : Nat) (d : LineData) (e : DirEnt), Delivered m s → m.resv = false →
      ((agentOf m.src s).kind ≠ 0 → (agentOf m.src s).lapsed = false → le = (agentOf m.src s).lepoch → entOf h.line s = some e →
          h.sid = sidOf m.port m.src s → e.st = .owned → e.copies.any (·.1 == m.src) = true → e.snoops.contains m.src = false → e.queue = [] →
          isLocal h.line = true → writeLocal (keyLine h.line) e.sid e.sid d fullMask c none s = some t →
          exec (.writeback m h le c d) s = .next (freeEnt h.line (modEnt h.line noCopies (clearNacks m.src h.line
            (refuseLine m (sidOf m.port m.src s) stOK t)))))
      ∧ ((agentOf m.src s).kind ≠ 0 → (agentOf m.src s).lapsed = false → le ≠ (agentOf m.src s).lepoch →
          exec (.writeback m h le c d) s = .next (refuseLine m (sidOf m.port m.src s) stLEASELOST s))
      ∧ ((agentOf m.src s).kind ≠ 0 → (agentOf m.src s).lapsed = false → le = (agentOf m.src s).lepoch → entOf h.line s = some e →
          h.sid ≠ sidOf m.port m.src s → exec (.writeback m h le c d) s = .next (refuseLine m (sidOf m.port m.src s) stDENIED s)))
    ∧ (∀ (s : State) (m : Mhd) (h : Handle) (c : Nat) (d : LineData), Delivered m s → m.resv = false →
      exec (.rspData m h c d) s = .next (snoopAnswer h.line m.src (some (d, c)) false s)
      ∧ exec (.rspClean m h) s = .next (snoopAnswer h.line m.src none false s)
      ∧ exec (.rspGone m h) s = .next (snoopAnswer h.line m.src none true s)
      ∧ (∀ (at_ : Nat) (rest : List (Nat × Nat × Nat)), s.dir.strays = (h.line, m.src, at_) :: rest →
          exec (.rspClean m h) s = .next { s with dir.strays := rest } ∧ exec (.rspGone m h) s = .next { s with dir.strays := rest }
          ∧ exec (.rspData m h c d) s = .next { s with dir.strays := rest, dir.discarded := add32 s.dir.discarded 1 })
      ∧ ((∀ x ∈ s.dir.strays, x.1 ≠ h.line ∨ x.2.1 ≠ m.src) → (∀ e, entOf h.line s = some e → e.snoops.contains m.src = false) →
          exec (.rspClean m h) s = .next s ∧ exec (.rspGone m h) s = .next s ∧ exec (.rspData m h c d) s = .next s))

/-- JOIN starts a lease with the next lease epoch; a second one is DENIED, one while the old lease's scan runs is BUSY. PULSE within the lease
moves its expiry, and else answers LEASE_LOST; a cache-less agent's is DENIED. The events of leases and holds: a lease ends when the tally has passed its expiry (cause 0) or a snoop has waited for SNOOP_LIMIT (cause 1), and at no other time;
its record follows the scan; a hold window's end lets the line go on; a reservation lapses; a completion timer holds its TAG back, tells the host and
sends a FENCE; the records of regions follow their recall. -/
def Obligations.LeasesAndTimers : Prop :=
  (∀ (s : State) (m : Mhd) (kind le : Nat), Delivered m s → m.resv = false →
      (kind = 1 ∨ kind = 2 → ((agentOf m.src s).kind = 0 ∨ (agentOf m.src s).lapsed = true) → (agentOf m.src s).ending = none →
          ∀ a : Agent, a.kind = kind → a.lapsed = false → a.lepoch = add32 (agentOf m.src s).lepoch 1 →
            a.expiry = s.now + (cohOf (sidOf m.port m.src s) s).lease → a.sid = sidOf m.port m.src s → a.port = m.port →
            a.nacks = (agentOf m.src s).nacks → a.ending = none →
            exec (.join m kind) s = .next (joinAck m stOK a.lepoch (cohOf (sidOf m.port m.src s) s) (setAgent m.src a s)))
      ∧ (kind = 1 ∨ kind = 2 → (agentOf m.src s).kind ≠ 0 → (agentOf m.src s).lapsed = false → exec (.join m kind) s =
          .next (joinAck m stDENIED (agentOf m.src s).lepoch (cohOf (sidOf m.port m.src s) s) (countDenied (sidOf m.port m.src s) s)))
      ∧ (kind = 1 ∨ kind = 2 → ((agentOf m.src s).kind = 0 ∨ (agentOf m.src s).lapsed = true) → (agentOf m.src s).ending ≠ none →
          exec (.join m kind) s = .next (joinAck m stBUSY (agentOf m.src s).lepoch (cohOf (sidOf m.port m.src s) s) s))
      ∧ (kind ≠ 1 → kind ≠ 2 → exec (.join m kind) s =
          .next (joinAck m stRESERVED (agentOf m.src s).lepoch (cohOf (sidOf m.port m.src s) s) s))
      ∧ ((agentOf m.src s).kind = 1 → (agentOf m.src s).lapsed = false → le = (agentOf m.src s).lepoch → s.now ≤ (agentOf m.src s).expiry →
          exec (.pulse m le) s = .next (sendWords m.port 0xC3 m.src m.tag m.tgen stOK [(agentOf m.src s).lepoch]
            (setAgent m.src { agentOf m.src s with expiry := s.now + (cohOf (agentOf m.src s).sid s).lease } s)))
      ∧ ((agentOf m.src s).kind = 0 ∨ ((agentOf m.src s).kind = 2 ∧ (agentOf m.src s).lapsed = false) →
          exec (.pulse m le) s = .next (sendWords m.port 0xC3 m.src m.tag m.tgen stDENIED [(agentOf m.src s).lepoch]
            (countDenied (sidOf m.port m.src s) s)))
      ∧ ((agentOf m.src s).kind ≠ 0 → (agentOf m.src s).lapsed = true →
          exec (.pulse m le) s = .next (sendWords m.port 0xC3 m.src m.tag m.tgen stLEASELOST [(agentOf m.src s).lepoch] s))
      ∧ ((agentOf m.src s).kind = 1 → (agentOf m.src s).lapsed = false → (le ≠ (agentOf m.src s).lepoch ∨ (agentOf m.src s).expiry < s.now) →
          exec (.pulse m le) s = .next (sendWords m.port 0xC3 m.src m.tag m.tgen stLEASELOST [(agentOf m.src s).lepoch] s)))
    ∧ (∀ (s : State) (aid : Nat), s.alive = true →
      (isCaching aid s = true → (agentOf aid s).expiry < s.now → exec (.leaseExpiry aid) s = .next (leaseEnd aid 0 s))
      ∧ (s.now ≤ (agentOf aid s).expiry → exec (.leaseExpiry aid) s = .next s)
      ∧ (snoopLate aid s = true → exec (.snoopTimeout aid) s = .next (leaseEnd aid 1 s))
      ∧ (snoopLate aid s = false → exec (.snoopTimeout aid) s = .next s)
      ∧ (∀ c m x, (agentOf aid s).ending = some (c, m, x) → s.dir.ents = [] → s.outst = [] →
          exec (.leaseExpired aid) s = .next (emit 0x0E (agentOf aid s).sid 0 0 ([aid, (agentOf aid s).lepoch, c, m, x, 0] ++ w64 s.now)
            (setAgent aid { agentOf aid s with ending := none } s)))
      ∧ (∀ k e, entOf k s = some e → e.holdEnd ≤ s.now → exec (.holdEnd k) s = .next (pumpLine k s))
      ∧ (∀ k e, entOf k s = some e → s.now < e.holdEnd → exec (.holdEnd k) s = .next s)
      ∧ (∀ k i t, s.dir.reserv = [⟨aid, k, i, t⟩] → t ≤ s.now → s.dir.reservWait = [] →
          exec (.reservationExpiry aid k) s = .next { s with dir.reserv := [] })
      ∧ (∀ o : Outst, s.outst = [o] → o.aid = aid → o.lost = false → o.sent + completionLimit o.port s ≤ s.now → o.purpose = .fence aid →
          exec (.completionTimeout aid o.tag) s = .next (sendFence o.port aid (emit 0x17 4095 0 0 [timeoutHid o s, o.aid, o.op, o.tag]
            { s with outst := [{ o with lost := true }] })))
      ∧ (∀ name (g : Region) (o : Owed) (rest : List Owed), smGet name s.dir.regions = some g → g.owed = o :: rest → recallOver o.hid s = true →
          (o.kind = 1 → exec (.regionChange name) s = .next (emit 0x0F g.sid 0 0
            (w64 name ++ [o.hid, o.discarded] ++ pubWords o.old ++ pubWords o.new)
            { s with dir.regions := smSet name { g with owed := rest } s.dir.regions }))
          ∧ (o.kind = 2 → exec (.regionContested name) s = .next (emit 0x10 g.sid 0 0
            (w64 name ++ [o.hid, 0] ++ pubWords o.old ++ pubWords o.new)
            { s with dir.regions := smSet name { g with owed := rest } s.dir.regions })))
      ∧ (∀ name (g : Region) (o : Owed) (rest : List Owed), smGet name s.dir.regions = some g → g.owed = o :: rest → recallOver o.hid s = false →
          exec (.regionChange name) s = .next s ∧ exec (.regionContested name) s = .next s))


/-! ### Translation (02) -/

/-- What an access finds: nothing outside the mapping; a permission that the leaf lacks is DENIED before anything else; a Reserved leaf faults; a
Present local leaf gives its line, a remote one its holder's offset while the holder is Active, zeros with cause 4 when it is Lost, a fault
otherwise; the Void page gives zeros with cause 4. The tables that the walk needs stand on dies that are not lost. A SID without a mapping of a page reaches nothing through it, whatever other SIDs map. -/
def Obligations.TranslationOutcomes : Prop :=
  (∀ (s : State) (sid pva acc b : Nat) (l : Leaf), tableLost sid (pva / 2 ^ 21) s = false →
      (leafAt sid (pva / 2 ^ 21) s.xlt = none → translate sid pva acc s = .denied)
      ∧ (leafAt sid (pva / 2 ^ 21) s.xlt = some (b, l) →
          (permits l acc = false → translate sid pva acc s = .denied)
          ∧ (permits l acc = true → l.mig = true → translate sid pva acc s = .migrating b)
          ∧ (permits l acc = true → l.mig = false → l.pres = false → translate sid pva acc s = .fault b l)
          ∧ (permits l acc = true → l.mig = false → l.pres = true →
              (∀ off, l.ppa = localPpa off → off < 2 ^ 48 → l.big = false → off % 2 ^ 21 = 0 → off + 2 ^ 21 ≤ 2 ^ 48 →
                translate sid pva acc s = .here ((off + pva % 2 ^ 21) / 64))
              ∧ (l.ppa = voidPpa → translate sid pva acc s = .zeros 4)
              ∧ (∀ hid off, l.ppa = 2 * 2 ^ 60 + hid * 2 ^ 48 + off → hid < 4096 → l.big = false → off % 2 ^ 21 = 0 → off + 2 ^ 21 ≤ 2 ^ 48 →
                  holderContested hid s = false →
                  ((holderOf hid s).st = 1 → translate sid pva acc s = .remote hid (off + pva % 2 ^ 21))
                  ∧ ((holderOf hid s).st = 3 → translate sid pva acc s = .zeros 4)
                  ∧ ((holderOf hid s).st = 0 ∨ (holderOf hid s).st = 2 → translate sid pva acc s = .fault b l)))))
    ∧ (∀ (s : State) (sid pva acc : Nat), smGet (leafKey sid (pva / 2 ^ 21)) s.xlt.leaves = none →
      smGet (leafKey sid (pva / 2 ^ 21 / 512 * 512)) s.xlt.leaves = none → (∀ k, dieState k s ≠ .lost) → translate sid pva acc s = .denied)

/-- The commands that build a mapping: XLT_TABLE_GRANT takes pages for tables, XLT_ROOT_SET gives a sagger its root and epoch 1, XLT_MAP its leaves,
XLT_PRESENT makes Reserved leaves Present; a COUNT of 0 changes nothing. A leaf that is put is found again (noted as out of the
cache where a table of its walk is lost), and no other page of any SID changes. -/
def Obligations.MappingCommands : Prop :=
  (∀ (s : State) (r sid : Nat) (f : Inflight),
      (∀ (n : Nat) (ppas : List Nat), Ready r 0x30 0 s f → (∀ c ∈ grantChks n ppas s, c.bad = false) →
          exec (.xltTableGrant r n ppas) s = .next (ok r [] (wipePages (grantPages n ppas) { latched r 0 s with
            xlt.grants := s.xlt.grants ++ grantPages n ppas })))
      ∧ (∀ (u : State), Ready r 0x31 0 s f → sid ≤ 4094 → sagState sid s ≠ .free → smGet sid s.xlt.epochs = none → freePlace 1 s.xlt ≠ none →
          newTable 1 sid 0 (latched r sid s) = some u →
          exec (.xltRootSet r sid) s = .next (ok r [] { u with xlt.epochs := smSet sid 1 u.xlt.epochs }))
      ∧ (Ready r 0x31 0 s f → sid ≤ 4094 → sagState sid s ≠ .free → (smGet sid s.xlt.epochs).isSome = true →
          Refuses (.xltRootSet r sid) r 0x31 stCONFLICT 7 s)
      ∧ (∀ (pva count size ppa : Nat) (rd wr att pin reserve : Bool) (item : Item) (list : List Nat) (u : State),
          Ready r 0x32 0 s f → pva < 2 ^ 52 → size ≤ 1 → (reserve = true → ppa = 0) → (reserve = false → ppaFormat ppa = 0 → ppa < 2 ^ 32 ∧ ppa % 64 = 0) →
          (∀ p ∈ mapPpas count size ppa reserve list, warmPage p s = false) → sidBad sid s = false →
          pva % (if size = 0 then 2097152 else 2 ^ 30) = 0 → 1 ≤ count → pva + count * (if size = 0 then 2097152 else 2 ^ 30) ≤ 2 ^ 52 →
          (reserve = false → ∀ c ∈ listChks count ppa item s, c.bad = false) →
          (∀ p ∈ mapPpas count size ppa reserve list, ppaBad (if size = 0 then 2097152 else 2 ^ 30) p s = false
            ∧ ppaOver (if size = 0 then 2097152 else 2 ^ 30) p s = false) →
          rangeTaken sid (pva / 2 ^ 21) (count * if size = 0 then 1 else 512) s = false →
          needTables sid (pva / 2 ^ 21) (count * if size = 0 then 1 else 512) (size == 1) s ≠ none →
          needTables sid (pva / 2 ^ 21) (count * if size = 0 then 1 else 512) (size == 1) (latched r sid s) = some u →
          exec (.xltMap r sid pva count size ppa rd wr att pin reserve item list) s =
            .next (ok r [] (mapLeaves sid pva count size (mapPpas count size ppa reserve list) rd wr att pin reserve u)))
      ∧ (∀ (pva size : Nat) (rd wr att pin : Bool) (item : Item) (list : List Nat), Ready r 0x32 0 s f → pva < 2 ^ 52 → size ≤ 1 →
          sidBad sid s = false → pva % (if size = 0 then 2097152 else 2 ^ 30) = 0 →
          exec (.xltMap r sid pva 0 size 0 rd wr att pin true item list) s = .next (ok r [] (latched r sid s)))
      ∧ (∀ (pva count ppa : Nat) (item : Item) (list : List Nat), Ready r 0x33 0 s f → pva < 2 ^ 52 → (ppaFormat ppa = 0 → ppa < 2 ^ 32 ∧ ppa % 64 = 0) →
          (count = 0 → ppaFormat ppa ≠ 0 → ppaBad (leafBytes sid pva s) ppa s = false) →
          sidBad sid s = false → rangeMisaligned sid pva s = false → rangeLeaves sid s.xlt count (pva / 2 ^ 21) ≠ none →
          (∀ p ∈ pagePpas count (leafBytes sid pva s) ppa list, warmPage p s = false ∧ ppaBad (leafBytes sid pva s) p s = false
            ∧ ppaOver (leafBytes sid pva s) p s = false) →
          (∀ c ∈ listChks count ppa item s, c.bad = false) → (∀ x ∈ rangeOf sid pva count s, x.2.pres = false) →
          exec (.xltPresent r sid pva count ppa item list) s = .next (ok r [] (presentLeaves sid (rangeOf sid pva count s)
            (pagePpas count (leafBytes sid pva s) ppa list) (latched r sid s)))))
    ∧ (∀ (s : State) (sid base : Nat) (l : Leaf), smWf s.xlt.leaves = true →
      smGet (leafKey sid base) (putLeaf sid base l s).xlt.leaves = some { l with out := l.out || tableLost sid base s }
        ∧ (∀ k, k ≠ leafKey sid base → smGet k (putLeaf sid base l s).xlt.leaves = smGet k s.xlt.leaves)
        ∧ smGet (leafKey sid base) (dropLeaf sid base l.big s).xlt.leaves = none
        ∧ (∀ k, k ≠ leafKey sid base → smGet k (dropLeaf sid base l.big s).xlt.leaves = smGet k s.xlt.leaves)
        ∧ Only [.xlt, .mem, .host] s (putLeaf sid base l s) ∧ Only [.xlt, .mem, .host] s (dropLeaf sid base l.big s))

/-- The commands that change or read a mapping: XLT_WITHDRAW takes pages away and answers the new epoch; XLT_PROTECT changes permissions; XLT_FENCE
answers once no work of an older epoch is in flight on what was taken, and waits until then; XLT_READ shows the leaf. -/
def Obligations.WithdrawalCommands : Prop :=
  ∀ (s : State) (r sid : Nat) (f : Inflight), sidBad sid s = false →
    (∀ (pva count mode : Nat) (keep : Bool), Ready r 0x34 0 s f → mode ≤ 1 → pva < 2 ^ 52 → rangeMisaligned sid pva s = false → 1 ≤ count →
        rangeLeaves sid s.xlt count (pva / 2 ^ 21) ≠ none → (∀ x ∈ rangeOf sid pva count s, x.2.mig = false) → epochsFull sid s = false →
        exec (.xltWithdraw r sid pva count mode keep) s =
          .next (retryUnheld (ok r [add32 (epochOf sid s) 1] (withdrawRange sid (rangeOf sid pva count s) mode keep (latched r sid s)))))
    ∧ (∀ (pva count mode : Nat) (keep : Bool), Ready r 0x34 0 s f → mode ≤ 1 → pva < 2 ^ 52 → rangeMisaligned sid pva s = false → 1 ≤ count →
        rangeLeaves sid s.xlt count (pva / 2 ^ 21) ≠ none → (∀ x ∈ rangeOf sid pva count s, x.2.mig = false) → epochsFull sid s = true →
        Refuses (.xltWithdraw r sid pva count mode keep) r 0x34 stBUSY 7 s)
    ∧ (∀ (pva : Nat) (keep : Bool), Ready r 0x34 0 s f → pva < 2 ^ 52 → rangeMisaligned sid pva s = false →
        exec (.xltWithdraw r sid pva 0 0 keep) s = .next (ok r [epochOf sid s] (latched r sid s)))
    ∧ (∀ (pva count : Nat) (rd wr att pin : Bool), Ready r 0x35 0 s f → pva < 2 ^ 52 → rangeMisaligned sid pva s = false →
        rangeLeaves sid s.xlt count (pva / 2 ^ 21) ≠ none →
        ((rangeOf sid pva count s).any (fun x => losesRead rd x || losesWrite wr att x) = true → epochsFull sid s = false) →
        (wr = true → underTable sid ((((rangeOf sid pva count s).filter fun x => !x.2.wr).flatMap leafPairs).map (·.1)) s = false) →
        exec (.xltProtect r sid pva count rd wr att pin) s =
          .next (ok r [] (protectRange sid (rangeOf sid pva count s) rd wr att pin (latched r sid s))))
    ∧ (∀ epoch : Nat, Ready r 0x36 0 s f →
        exec (.xltFence r sid epoch) s = .next (if fenceOpen sid epoch (latched r sid s) then ok r [] (latched r sid s)
          else park r (.xltFence sid epoch) (latched r sid s)))
    ∧ (∀ pva : Nat, Ready r 0x37 0 s f → pva < 2 ^ 52 →
        exec (.xltRead r sid pva) s = .next (ok r (xltReadWords sid pva (latched r sid s)) (latched r sid s)))

/-- Faults: FAULT_RESOLVE counts what it resolved and what it ignored; FAULT_CONFIG applies its limits at once; a fault times out when its time has
passed and not before; a batch closes when its window has passed. A batch that closes gets the next number; its records are
numbered from 0, the last one is marked, and the record of a fault that is still open shows its waiters as they stand. -/
def Obligations.FaultService : Prop :=
  (∀ (s : State) (r : Nat) (f : Inflight),
      (∀ (n : Nat) (pairs : List (Nat × Nat)), Ready r 0x38 0 s f → n ≤ 12 →
          exec (.faultResolve r n pairs) s = .next (retryUnheld (ok r
            [((pairs.take n).foldl resolveOne (0, 0, latched r 0 s)).1, ((pairs.take n).foldl resolveOne (0, 0, latched r 0 s)).2.1]
            ((pairs.take n).foldl resolveOne (0, 0, latched r 0 s)).2.2)))
      ∧ (∀ (n : Nat) (pairs : List (Nat × Nat)), Ready r 0x38 0 s f → 12 < n → Refuses (.faultResolve r n pairs) r 0x38 stLENGTH 4 s)
      ∧ (∀ id res ign : Nat, ∀ act : Nat, faultBy id s = none → resolveOne (res, ign, s) (id, act) = (res, ign + 1, s))
      ∧ (∀ (id res ign : Nat) (x : Fault'), faultBy id s = some x →
          resolveOne (res, ign, s) (id, 1) = (res + 1, ign,
            x.waiters.foldl (fun s w => retryWaiter x.page (if x.big then 512 else 1) w.1 s) (dropFault x.id s))
          ∧ resolveOne (res, ign, s) (id, 2) = (res + 1, ign, failFault false x s)
          ∧ ∀ act, act ≠ 1 → act ≠ 2 → resolveOne (res, ign, s) (id, act) = (res, ign + 1, s))
      ∧ (∀ timeout window : Nat, Ready r 0x39 0 s f → 1000000 ≤ timeout → timeout ≤ 60000000000 → window ≤ 1000000 →
          exec (.faultConfig r timeout window) s = .next ((s.xlt.faults.filter fun x => decide (x.opened + x.extra + timeout ≤ s.now)).foldl
            (fun s x => timeOut x s) (ok r [] { latched r 0 s with xlt.timeout := timeout, xlt.batchWindow := window })))
      ∧ (∀ timeout window : Nat, Ready r 0x39 0 s f → timeout < 1000000 → Refuses (.faultConfig r timeout window) r 0x39 stDENIED 3 s)
      ∧ (∀ (id : Nat) (x : Fault'), faultBy id s = some x → s.alive = true →
          (x.opened + x.extra + s.xlt.timeout ≤ s.now →
            exec (.faultTimeout id) s = .next (retryUnheld (readyRec (faultRec 4 x s) (failFault true x s))))
          ∧ (s.now < x.opened + x.extra + s.xlt.timeout → exec (.faultTimeout id) s = .next s))
      ∧ (s.alive = true → s.xlt.batchAt + s.xlt.batchWin ≤ s.now → exec .faultBatchClose s = .next (closeBatch s))
      ∧ (s.now < s.xlt.batchAt + s.xlt.batchWin → exec .faultBatchClose s = .next s))
    ∧ (∀ s : State, s.xlt.batch ≠ [] →
      (closeBatch s).xlt.batch = [] ∧ (closeBatch s).xlt.batchNo = add32 s.xlt.batchNo 1
        ∧ ∃ recs, (closeBatch s).host.faultQ = s.host.faultQ ++ recs ∧ recs.length = s.xlt.batch.length
          ∧ (∀ i x, recs[i]? = some x → x.batch = add32 s.xlt.batchNo 1 ∧ x.index = i ∧ x.last = decide (i + 1 = s.xlt.batch.length)
            ∧ ∃ y, s.xlt.batch[i]? = some y ∧ x.id = y.id
              ∧ ((∀ e ∈ s.xlt.faults, e.id ≠ y.id) → x.pva = y.pva ∧ x.waiters = y.waiters)
              ∧ ∀ e : Fault', y.kind = 1 ∨ y.kind = 2 → faultBy y.id s = some e →
                  x.pva = e.page * 2 ^ 21 ∧ x.access = e.access ∧ x.waiters = (e.waiters.take 64).map (waiterWord s)))

/-- Heat, migration and holders: HEAT_CONFIG sets one sagger or all, times the decays anew (a page's at its number modulo
the PERIOD) and may report pages at once; a leaf's heat is shifted when its period has passed;
WITHDRAW_ACK follows the last older work; PAGE_MIGRATE marks its leaf, raises the epoch and recalls the copies, and MIGRATE_DONE takes an
idle mover once they are back, copies, and switches when the copy has ended; HOLDER_SET stores an entry and, when it makes the holder Lost, drops its lines. -/
def Obligations.HeatMigrationHolders : Prop :=
  ∀ (s : State) (r sid : Nat) (f : Inflight),
    (∀ c : HeatCfg, Ready r 0x3A 0 s f → heatOk c = true → sid = 4095 ∨ sagState sid s ≠ .free →
        exec (.heatConfig r c sid) s = .next (ok r []
          (((s.xlt.leaves.map (·.1)).filter fun k => sid == 4095 || k / 2 ^ 31 == sid).foldl
            (fun s k => addHeat (k / 2 ^ 31) (k % 2 ^ 31) 0 (timeDecay k c.period s))
            (if sid = 4095 then { latched r 0 s with xlt.heatDef := c, xlt.heatCfg := [] }
              else { latched r 0 s with xlt.heatCfg := smSet sid c s.xlt.heatCfg }))))
    ∧ (∀ page period now : Nat, 1 ≤ period →
        now < nextDecay page period now ∧ nextDecay page period now ≤ now + period ∧ nextDecay page period now % period = page % period)
    ∧ (∀ c : HeatCfg, Ready r 0x3A 0 s f → heatOk c = false → Refuses (.heatConfig r c sid) r 0x3A stDENIED 3 s)
    ∧ (∀ (page : Nat) (l : Leaf), s.alive = true → smGet (leafKey sid page) s.xlt.leaves = some l → l.due ≤ s.now →
        ∀ x : Leaf, x = { l with heat := l.heat / 2 ^ (heatOf sid s).shift, alerted := false, due := l.due + (heatOf sid s).period } →
        exec (.heatDecay sid page) s = .next (addHeat sid page 0 (syncLeaf sid page x.big (some x) (modLeaf sid page (fun _ => x) s))))
    ∧ (∀ (page : Nat) (l : Leaf), smGet (leafKey sid page) s.xlt.leaves = some l → s.now < l.due → exec (.heatDecay sid page) s = .next s)
    ∧ (∀ (e : Nat) (t : Taken), s.alive = true → s.xlt.taken = [t] → t.sid = sid → t.epoch = e → t.ack = true →
        exec (.withdrawAck sid e) s = .next (if takenBusy s t then s
          else emit 0x04 sid 0 0 [e] { s with xlt.taken := [{ t with ack := false }] }))
    ∧ (∀ (pva dst b : Nat) (l : Leaf), Ready r 0x3B 0 s f → pva < 2 ^ 52 → sidBad sid s = false → leafAt sid (pva / 2 ^ 21) s.xlt = some (b, l) →
        warmPage dst s = false → l.pres = true → l.pin = false → ppaFormat l.ppa ≠ 3 →
        destBad (if l.big then 2 ^ 30 else 2097152) dst s = false → l.mig = false →
        (∀ x ∈ s.xlt.faults, x.sid = sid → x.page = b → x.big = l.big → x.kind = 2) → epochsFull sid s = false →
        ∃ u, exec (.pageMigrate r sid pva dst) s = .next (ok r [] (recallLeaves .recallInv [(b, l)] u))
          ∧ smGet sid u.xlt.epochs = some (add32 (epochOf sid s) 1)
          ∧ u.xlt.migs = s.xlt.migs ++ [⟨sid, b, l.ppa, dst, add32 (epochOf sid s) 1, []⟩])
    ∧ (∀ page : Nat, s.xlt.migs = [] → exec (.migrateDone sid page) s = .next s)
    ∧ (∀ (g : Mig) (l : Leaf), s.alive = true → s.xlt.migs = [g] → smGet (leafKey g.sid g.page) s.xlt.leaves = some l → s.kiln.runs = [] →
        migDrained g l s = false → exec (.migrateDone g.sid g.page) s = .next s)
    ∧ (∀ (g : Mig) (l : Leaf) (x : MRun), s.alive = true → s.xlt.migs = [g] → smGet (leafKey g.sid g.page) s.xlt.leaves = some l →
        s.kiln.runs = [] → migDrained g l s = true → x = migRun g (leafPages l) s →
        (s.kiln.movers.findIdx? (· == false) = none →
          exec (.migrateDone g.sid g.page) s = .next { s with kiln.runs := [x], kiln.nextMid := s.kiln.nextMid + 1 })
        ∧ (∀ (n : Nat) (t : State), s.kiln.movers.findIdx? (· == false) = some n →
            t = moveLines (moveFuel x.desc.length) x.mid { s with
              kiln.movers := s.kiln.movers.set n true, kiln.runs := [{ x with mover := some n }], kiln.nextMid := s.kiln.nextMid + 1 } →
            exec (.migrateDone g.sid g.page) s = .next (match runBy x.mid t with
              | none => t
              | some y => if y.desc.length ≤ y.pos ∧ moveOwes y.mid t = false then
                  finishMig ((t.xlt.migs.find? fun z => z.sid == g.sid && z.page == g.page).getD g)
                    ((smGet (leafKey g.sid g.page) t.xlt.leaves).getD l) (endRun y t)
                else t)))
    ∧ (∀ (hid : Nat) (h : Holder), Ready r 0x3C 0 s f → 1 ≤ hid → hid ≤ 4094 → h.kind < 3 → (h.kind = 0 → h.st = 0) → h.st < 4 → h.port < 16 →
        h.altPort < 32 → h.aid < 2048 → h.limit < 2 ^ 48 →
        exec (.holderSet r hid h) s = .next (ok r [] (if h.st = 3 ∧ (holderOf hid s).st ≠ 3 then
            loseLines (fun k => !isLocal k && keyHid k == hid) { latched r 0 s with xlt.holders := smSet hid h s.xlt.holders }
          else { latched r 0 s with xlt.holders := smSet hid h s.xlt.holders })))
    ∧ (∀ h : Holder, Ready r 0x3C 0 s f → Refuses (.holderSet r 0 h) r 0x3C stDENIED 3 s)

/-! ### Movers (01 R36, 02 R64 to R69) -/

/-- MOVE_SUBMIT of a descriptor that no check stops answers its identifier and queues it, or waits where a page of it is being migrated; a MOVE does the
same for an agent; a failing check answers its status. A mover starts the first descriptor that no chain holds back, and its end leaves
the mover idle; a lost mover's descriptor goes back to the queue with its position. A descriptor that ends frees its mover, counts for its SID and gives one record: COMPLETION to the agent that sent it, MOVE_DONE to the host. -/
def Obligations.MoverCommands : Prop :=
  (∀ (s : State) (r sid n : Nat) (d : MoveDesc),
      (∀ (f : Inflight) (item : Item), Ready r 0x43 0 s f → sagState sid s = .active → smGet sid s.xlt.epochs ≠ none → GoodItem item 64 s →
          (∀ c ∈ moveChks sid d true false s, c.bad = false) →
          (bakeWaits sid d (latched r sid s) = none →
            exec (.moveSubmit r sid item d) s = .next (acceptMove (newRun sid d none 0 (latched r sid s)) (ok r [s.kiln.nextMoveId] (latched r sid s))))
          ∧ (∀ b, bakeWaits sid d (latched r sid s) = some b →
            exec (.moveSubmit r sid item d) s = .next (waitMig sid b (.host r) (park r (.retry (.moveSubmit r sid item d)) (latched r sid s)))))
      ∧ (∀ (m : Mhd) (u : State), Passes m s.sags.shape.fOvh 1 s u → exec (.move m d) s = .next (serveMove m d (addGlobal 5 1 u)))
      ∧ (∀ m : Mhd, chainOf m.port m.src s = none → chainMig m s = none → m.resv = false → d.chain = false →
          (∀ c ∈ moveChks (sidOf m.port m.src s) d false false s, c.bad = false) → bakeWaits (sidOf m.port m.src s) d s = none →
          serveMove m d s = acceptMove (newRun (sidOf m.port m.src s) d (some (m.port, m.src, m.tag, m.tgen)) 0
            (setChain m.port m.src none { s with kiln.nextChain := max s.kiln.nextChain (s.kiln.nextChain + 1) }))
            (setChain m.port m.src none { s with kiln.nextChain := max s.kiln.nextChain (s.kiln.nextChain + 1) }))
      ∧ (∀ x : MRun, s.alive = true → s.kiln.movers[n]? = some false → s.kiln.runs = [x] → x.mover = none → x.mig = false → x.chain = 0 →
          s.kiln.chains = [] → unheld x s = [] →
          exec (.moverStart n) s = .next { s with
            kiln.movers := s.kiln.movers.set n true
            kiln.runs := [if x.started = 0 then { x with mover := some n, started := s.now, latch := latchOf x.sid s } else { x with mover := some n }] })
      ∧ (∀ x : MRun, s.alive = true → s.kiln.movers[n]? = some false → s.kiln.runs = [x] → unheld x s ≠ [] → exec (.moverStart n) s = .next s)
      ∧ (s.alive = true → s.kiln.movers[n]? = some true → exec (.moverStart n) s = .next s)
      ∧ (∀ x y : MRun, s.alive = true → s.kiln.runs.find? (fun x => x.mover == some n && !x.mig) = some x →
          runBy x.mid (moveLines (moveFuel x.desc.length) x.mid s) = some y →
          exec (.moveDone n) s = .next (if (y.stop.isSome = true ∨ y.pos ≥ y.desc.length) ∧ moveOwes y.mid (moveLines (moveFuel x.desc.length) x.mid s) = false
            then completeRun y (moveLines (moveFuel x.desc.length) x.mid s) else moveLines (moveFuel x.desc.length) x.mid s))
      ∧ (s.alive = true → s.kiln.movers[n]? ≠ none → ∃ t, exec (.moverLost n) s = .next t ∧ Only [.kiln] s t ∧ t.kiln.movers[n]? = some true
          ∧ (∀ k, k ≠ n → t.kiln.movers[k]? = s.kiln.movers[k]?) ∧ (∀ x ∈ t.kiln.runs, x.mover ≠ some n)
          ∧ t.kiln.runs.map (fun x => (x.mid, x.pos, x.desc)) = s.kiln.runs.map fun x => (x.mid, x.pos, x.desc)))
    ∧ (∀ (s : State) (x : MRun), x.mig = false → moveStatus x ≠ stDENIED →
      (x.sub = none → ∃ u, endRun x s = emit 0x2A x.sid 0 0 (moveRecord x (moveStatus x) u) u ∧ (∀ y ∈ u.kiln.runs, y.mid ≠ x.mid)
          ∧ (∀ m, x.mover = some m → m < s.kiln.movers.length → u.kiln.movers[m]? = some false) ∧ u.mem = s.mem
          ∧ u.dir = { s.dir with answers := s.dir.answers.filter fun a => a.1 != .mover x.mid && a.1 != .mig x.mid })
      ∧ (∀ a, x.sub = some a → ∃ u, endRun x s = sendCompletion 0 a (moveStatus x) (moveRecord x (moveStatus x) u) u
          ∧ (∀ y ∈ u.kiln.runs, y.mid ≠ x.mid) ∧ u.mem = s.mem
          ∧ u.dir = { s.dir with answers := s.dir.answers.filter fun a => a.1 != .mover x.mid && a.1 != .mig x.mid }))

/-! ### The glaze library and firings (06) -/

/-- KLN_LIB_GRANT, GLAZE_INSTALL, GLAZE_REMOVE, GLAZE_PERMIT and GLAZE_READ: an install needs a valid image, its key in force and a good signature; removing
needs that no firing names the glaze; the permit list is at most 64 SIDs. -/
def Obligations.GlazeLibrary : Prop :=
  ∀ (s : State) (r id : Nat) (f : Inflight),
    (∀ (n : Nat) (ppas : List Nat), Ready r 0x55 0 s f → (∀ c ∈ grantChks n ppas s, c.bad = false) →
        exec (.klnLibGrant r n ppas) s = .next (ok r [] (wipePages (grantPages n ppas) { latched r 0 s with
          xlt.libGrants := s.xlt.libGrants ++ grantPages n ppas })))
    ∧ (∀ (len : Nat) (item : Item) (img : GlazeImg) (sig : Bool), Ready r 0x52 0 s f → img.fmt = 1 → img.resv = false →
        (∀ w ∈ img.code, codeResv w = false) → GoodItem item len s → s.pen.otp.lc = 2 → 1 ≤ img.id → img.id ≤ 65535 → img.codeWords ≤ 16384 →
        (∃ g, genNow s = some g ∧ bitOf g.glazeValid img.key = true) → imageDeny img = false →
        (img.codeWords = 0 → exec (.glazeInstall r len item img sig) s = .next (ok r [] (latched r 0 s)))
        ∧ (1 ≤ img.codeWords → imageBytes img.codeWords ≤ len →
            exec (.glazeInstall r len item img true) s = .next (installGlaze r img (latched r 0 s))
            ∧ Refuses (.glazeInstall r len item img false) r 0x52 stDENIED 7 s))
    ∧ (∀ (item : Item) (img : GlazeImg) (sig : Bool), Ready r 0x52 0 s f → item.off % 64 = 0 → s.pen.otp.lc = 2 →
        exec (.glazeInstall r 0 item img sig) s = .next (ok r [] (latched r 0 s)))
    ∧ (∀ (len : Nat) (item : Item) (img : GlazeImg) (sig : Bool), Ready r 0x52 0 s f → s.pen.otp.lc ≠ 2 →
        Refuses (.glazeInstall r len item img sig) r 0x52 stDENIED 3 s)
    ∧ (Ready r 0x53 0 s f → (glazeOf id s).isSome = true → glazeInUse id s = false →
        exec (.glazeRemove r id) s = .next (ok r [] { latched r 0 s with kiln.library := s.kiln.library.filter (·.id != id) }))
    ∧ (Ready r 0x53 0 s f → (glazeOf id s).isSome = true → glazeInUse id s = true → Refuses (.glazeRemove r id) r 0x53 stBUSY 7 s)
    ∧ (Ready r 0x53 0 s f → glazeOf id s = none → Refuses (.glazeRemove r id) r 0x53 stDENIED 3 s)
    ∧ (∀ (mode action n : Nat) (sids : List Nat) (g : Glaze), Ready r 0x54 0 s f → mode ≤ 2 → action ≤ 1 → n ≤ 32 → glazeOf id s = some g →
        (∀ x ∈ sids.take n, x ≤ 4094) → (permitList g.sids (sids.take n) action).length ≤ 64 →
        exec (.glazePermit r id mode action n sids) s = .next (ok r [] { latched r 0 s with
          kiln.library := s.kiln.library.map fun (g : Glaze) =>
            if g.id = id then { g with mode := mode, sids := permitList g.sids (sids.take n) action } else g }))
    ∧ (∀ (i : Nat) (g : Glaze), Ready r 0x56 48 s f → s.kiln.library[i]? = some g →
        exec (.glazeRead r i) s = .next (okItem r [.words ([g.id, g.version, g.code.length, g.mode] ++ w256 g.digest)] (latched r 0 s)))

/-- KILN_FIRE and FIRE accept a firing that no check stops; FIRING_CANCEL and FIRE_CANCEL stop an open one, and are DENIED for another submitter's or an unknown
tag; FIRING_READ shows it. -/
def Obligations.FiringCommands : Prop :=
  ∀ (s : State) (r sid : Nat) (f : Inflight) (d : FireDesc),
    (∀ item : Item, Ready r 0x50 0 s f → sagState sid s ≠ .free → GoodItem item 256 s → (∀ c ∈ fireChks sid d none none s, c.bad = false) →
        (fireWaits sid d (latched r sid s) = none → exec (.kilnFire r sid item d) s =
          .next (acceptFiring { newFiring sid d none none (latched r sid s) with firingId := s.kiln.nextFiringId }
            (ok r [s.kiln.nextFiringId] { latched r sid s with kiln.nextFiringId := add32 s.kiln.nextFiringId 1 })))
        ∧ (∀ b, fireWaits sid d (latched r sid s) = some b →
            exec (.kilnFire r sid item d) s = .next (waitMig sid b (.host r) (park r (.retry (.kilnFire r sid item d)) (latched r sid s)))))
    ∧ (∀ item : Item, Ready r 0x50 0 s f → sagState sid s = .free → Refuses (.kilnFire r sid item d) r 0x50 stDENIED 3 s)
    ∧ (∀ (m : Mhd) (u : State), Passes m s.sags.shape.fOvh 1 s u → exec (.fire m d) s = .next (serveFire m d (addGlobal 5 1 u)))
    ∧ (∀ (sub tag : Nat) (x : Firing), Ready r 0x51 0 s f → submitterResv sub = false → openFiring sid (submitter sub) tag s = some x →
        exec (.firingCancel r sid sub tag) s = .next (stopFiring x.fid stINCOMPLETE (ok r [] (latched r sid s))))
    ∧ (∀ sub tag : Nat, Ready r 0x51 0 s f → submitterResv sub = false → openFiring sid (submitter sub) tag s = none →
        Refuses (.firingCancel r sid sub tag) r 0x51 stDENIED 3 s)
    ∧ (∀ (m : Mhd) (tag : Nat) (u : State), Passes m s.sags.shape.fOvh 1 s u →
        exec (.fireCancel m tag) s = .next (execFireCancel.serveCancel m tag (addGlobal 5 1 u)))
    ∧ (∀ (m : Mhd) (tag : Nat), openFiring (sidOf m.port m.src s) (some m.src) tag s = none →
        execFireCancel.serveCancel m tag s = refuseLine m (sidOf m.port m.src s) stDENIED s)
    ∧ (∀ (sub tag : Nat) (x : Firing), Ready r 0x57 0 s f → submitterResv sub = false → openFiring sid (submitter sub) tag s = some x →
        exec (.firingRead r sid sub tag) s = .next (ok r (firingWords x (latched r sid s)) (latched r sid s)))

/-- The events of firings: a claiming firing holds its claims once every page's copies are back; the first part of a die's queue that fits takes its shelves; a
firing whose limit has passed stops with TIMEOUT; it is done when all its parts have ended, or, once it was stopped, when they have stopped at a commit; a built-in moves its regions and is done; a marked shelf leaves service when nothing
runs on it. -/
def Obligations.FiringEvents : Prop :=
  ∀ (s : State) (fid : Nat) (f : Firing), s.alive = true →
    (firingBy fid s = some f → f.st = .claiming → (claimsReady fid (requestClaims fid s) = true ∨ claimPages f = []) →
        exec (.claimGranted fid) s = .next (holdClaims f (requestClaims fid s)))
    ∧ (firingBy fid s = some f → f.st = .claiming → claimsReady fid (requestClaims fid s) = false → claimPages f ≠ [] →
        exec (.claimGranted fid) s = .next (requestClaims fid s))
    ∧ (firingBy fid s = some f → f.st ≠ .claiming → exec (.claimGranted fid) s = .next s)
    ∧ (∀ (die : Nat) (k : KilnDie) (i : Nat) (shs : List Nat), s.kiln.dies[die]? = some k → pickPart s k.queue [] = some (fid, i, shs) →
        exec (.partPlaced die) s = .next (placePart fid i shs (modKiln die (fun k => { k with queue := k.queue.filter (· != (fid, i)) }) s)))
    ∧ (firingBy fid s = some f → f.st = .running → f.desc.limit ≠ 0 → f.started + f.extra + 1000 * f.desc.limit < s.now → f.stop = none →
        exec (.firingLimit fid) s = .next (stopFiring fid stTIMEOUT s))
    ∧ (firingBy fid s = some f → f.desc.limit = 0 → exec (.firingLimit fid) s = .next s)
    ∧ (firingBy fid s = some f → s.now ≤ f.started + f.extra + 1000 * f.desc.limit → exec (.firingLimit fid) s = .next s)
    ∧ (firingBy fid s = some f → f.st = .running → f.stop ≠ none → (∀ p ∈ f.parts, partStopped p s = true) →
        exec (.firingDone fid) s = .next (closeFiring fid (endParts f s)))
    ∧ (firingBy fid s = some f → f.st = .running → f.stop ≠ none → (∃ p ∈ f.parts, partStopped p s = false) → exec (.firingDone fid) s = .next s)
    ∧ (firingBy fid s = some f → f.st = .running → f.stop = none → f.desc.kind ≠ 1 → (∃ p ∈ f.parts, p.placed = false ∧ p.ended = false) →
        exec (.firingDone fid) s = .next s)
    ∧ (∀ u : State, firingBy fid s = some f → f.st = .running → f.stop = none → f.desc.kind ∈ [2, 3, 4] →
        (∀ p ∈ f.parts, p.placed = true ∨ p.ended = true) → runBuiltin f s = (some (), u) →
        exec (.firingDone fid) s = .next (closeFiring fid (endParts f (chargeL f.sid
          (u.obs.global.getD 0 0 + u.obs.global.getD 1 0 - (s.obs.global.getD 0 0 + s.obs.global.getD 1 0)) u).2)))
    ∧ (firingBy fid s = some f → f.st = .running → f.stop = none → f.desc.kind = 1 → (∀ p ∈ f.parts, p.ended = true) →
        exec (.firingDone fid) s = .next (closeFiring fid (fredOut f 1 (fredOut f 0 s))))
    ∧ (firingBy fid s = some f → f.st = .running → f.stop = none → f.desc.kind = 1 → (∃ p ∈ f.parts, p.ended = false) →
        exec (.firingDone fid) s = .next s)
    ∧ (∀ (sh : Nat) (x : Shelf), shelfOf sh s = some x → x.marked = true → x.run = none → x.window = none →
        exec (.shelfOut sh) s = .next (starveParts (emit 0x0B 4095 1 (sh / 40) [sh, 1]
          (modShelf sh (fun x => { x with out := true, marked := false }) s))))
    ∧ (∀ (sh : Nat) (x : Shelf), shelfOf sh s = some x → x.run ≠ none → exec (.shelfOut sh) s = .next s)

/-! ### Contexts and windows (07) -/

/-- CTX_GRANT hands contexts to a sagger, or frees them with SID 4,095 when none is in use; CTX_SET by the host and AGENT_CTX_SET by the owner make one Ready or Granted;
CTX_READ shows it. -/
def Obligations.ContextCommands : Prop :=
  ∀ (s : State) (r sid n : Nat) (f : Inflight) (e : Ctx),
    (∀ base count : Nat, Ready r 0x58 0 s f → sid ≤ 4094 → sagState sid s ≠ .free → base + count ≤ 4096 → base ≤ 4095 →
        (∀ i, i < count → ctxOwner (base + i) s = 4095 ∨ ctxOwner (base + i) s = sid) →
        exec (.ctxGrant r sid base count) s = .next (ok r [] { latched r sid s with
          kiln.ctxs := (List.range count).foldl (fun m i => smSet (base + i) (grantedCtx sid) m) s.kiln.ctxs }))
    ∧ (∀ base count : Nat, Ready r 0x58 0 s f → base + count ≤ 4096 → base ≤ 4095 → ctxInUse base count s = false →
        exec (.ctxGrant r 4095 base count) s = .next (ok r [] { latched r 4095 s with
          kiln.ctxs := (List.range count).foldl (fun m i => smDel (base + i) m) s.kiln.ctxs }))
    ∧ (∀ base count : Nat, Ready r 0x58 0 s f → base + count ≤ 4096 → base ≤ 4095 → ctxInUse base count s = true →
        Refuses (.ctxGrant r 4095 base count) r 0x58 stBUSY 7 s)
    ∧ (Ready r 0x59 0 s f → (∀ c ∈ ctxSetChks (fun _ => true) n e s, c.bad = false) →
        (rowsWait (ctxOwner n (latched r 0 s)) e (latched r 0 s) = none → exec (.ctxSet r n e) s = .next (ok r [] (setCtx n e (latched r 0 s))))
        ∧ (∀ b, rowsWait (ctxOwner n (latched r 0 s)) e (latched r 0 s) = some b → exec (.ctxSet r n e) s = .next
            (waitMig (ctxOwner n (latched r 0 s)) b (.host r) (park r (.retry (.ctxSet r n e)) (latched r 0 s)))))
    ∧ (∀ (m : Mhd) (u : State), Passes m s.sags.shape.fOvh 1 s u → exec (.agentCtxSet m n e) s = .next (serveCtxSet m n e (addGlobal 5 1 u)))
    ∧ (Ready r 0x5A 48 s f → n ≤ 4095 →
        exec (.ctxRead r n) s = .next (okItem r [.words (ctxWords (((ctxOf n s).map (·.e)).getD freeCtx))] (latched r 0 s)))

/-- WINDOW_OPEN of a good block gives the window the lowest free shelves of its allocation and an open round; WINDOW_ARM opens the next round of a Parked one;
WINDOW_FORCE closes an open round; WINDOW_CLOSE frees the window and its shelves, and is refused with BUSY while its step runs; WINDOW_READ shows it. How a contribution is judged: by the window, the contributor, the round and the ledger. Only an accepted one is accumulated, and a contribution
that was accepted once is a duplicate from then on. -/
def Obligations.WindowCommands : Prop :=
  (∀ (s : State) (r w : Nat) (f : Inflight) (x : Window),
      (∀ (len : Nat) (item : Item) (b : WinBlock), Ready r 0x5B 0 s f → b.fmt = 1 → b.resv = false → b.cfmt < 3 → b.short ≠ 3 → b.gw < 5 →
          warmDie b.die s = false → GoodItem item len s → b.window ≤ 1023 → smGet b.window s.kiln.wins = none → dieState b.die s = .inService →
          b.sid ≠ 0 → sagState b.sid s = .active → 1 ≤ b.shelves → b.shelves ≤ 40 → 1 ≤ b.contrib → b.contrib ≤ 1024 →
          (b.deadline = 0 ∨ 1000000 ≤ b.deadline ∧ b.deadline ≤ 600000000000) → b.elements % segElems b.cfmt = 0 → b.aids.Nodup →
          (∀ a ∈ b.aids, a ≤ 2047) → stepBad b s = false → firstBad (fireChks b.sid b.step none (some b.window) s) = none → 1 ≤ b.elements →
          b.elements ≤ b.shelves * 256 * 1920 → 320 + 2 * b.contrib ≤ len → b.shelves ≤ (winShelves b s).length →
          winShelves b (latched r b.sid s) = winShelves b s →
          exec (.windowOpen r len item b) s = .next (ok r [] { ((winShelves b s).take b.shelves).foldl
              (fun s sh => modShelf sh (fun x => { x with window := some b.window }) s) (latched r b.sid s) with
            kiln.wins := smSet b.window (newWindow b ((winShelves b s).take b.shelves)) s.kiln.wins }))
      ∧ (Ready r 0x5C 0 s f → w ≤ 1023 → smGet w s.kiln.wins = some x → x.st = .parked →
          exec (.windowArm r w) s = .next (ok r [] (modWin w (fun x => openRound (x.round + 1) x) (latched r 0 s))))
      ∧ (Ready r 0x5C 0 s f → w ≤ 1023 → smGet w s.kiln.wins = some x → x.st ≠ .parked → Refuses (.windowArm r w) r 0x5C stCONFLICT 7 s)
      ∧ (Ready r 0x5D 0 s f → w ≤ 1023 → smGet w s.kiln.wins = some x → x.st ≠ .stepping → x.opened = true →
          exec (.windowForce r w) s = .next (ok r [] (closeRound w (latched r 0 s))))
      ∧ (Ready r 0x5D 0 s f → w ≤ 1023 → smGet w s.kiln.wins = some x → x.st = .stepping → Refuses (.windowForce r w) r 0x5D stBUSY 7 s)
      ∧ (Ready r 0x5E 0 s f → w ≤ 1023 → smGet w s.kiln.wins = some x → x.st = .parked →
          exec (.windowClose r w) s = .next (ok r [] { x.shelves.foldl (fun s sh => modShelf sh (fun y => { y with window := none }) s) (latched r 0 s) with
            kiln.wins := smDel w s.kiln.wins }))
      ∧ (Ready r 0x5E 0 s f → w ≤ 1023 → smGet w s.kiln.wins = some x → x.st = .stepping → Refuses (.windowClose r w) r 0x5E stBUSY 7 s)
      ∧ (∀ i : Nat, Ready r 0x5F 0 s f → w ≤ 1023 → smGet w s.kiln.wins = some x → i < x.blk.contrib →
          exec (.windowRead r w i) s = .next (ok r (windowWords (some x) i) (latched r 0 s)))
      ∧ (s.alive = true → smGet w s.kiln.wins = some x → x.opened = true → 0 < x.received → x.blk.deadline ≠ 0 →
          x.firstAt + x.blk.deadline + x.extra ≤ s.now → exec (.windowDeadline w) s = .next (closeRound w s))
      ∧ (smGet w s.kiln.wins = some x → (x.received = 0 ∨ x.blk.deadline = 0 ∨ s.now < x.firstAt + x.blk.deadline + x.extra) →
          exec (.windowDeadline w) s = .next s))
    ∧ (∀ (s : State) (m : Mhd) (addr round cause : Nat) (data : List Word),
      (∀ u : State, Passes m (4096 + s.sags.shape.fOvh) 64 s u →
          exec (.contrib m addr round cause data) s = .next (serveContrib m addr round cause data (addGlobal 5 1 u)))
      ∧ (∀ off, addr < 2 ^ 52 → translate (sidOf m.port m.src s) addr 2 s = .window off →
          serveContrib m addr round cause data s = serveSegment m off round cause data
            (addHeat (sidOf m.port m.src s) (((leafAt (sidOf m.port m.src s) (addr / 2 ^ 21) s.xlt).map (·.1)).getD 0) 64 s))
      ∧ (∀ (aid off : Nat) (x : Window) (i : Nat), x.st ≠ .lost → off % 4096 = 0 → off / 4096 < winSegs x.blk → x.blk.aids.idxOf? aid = some i →
          (x.opened = true → (i, off / 4096) ∉ x.ledger → judge (some x) aid off x.round = .taken)
          ∧ (x.opened = true → (i, off / 4096) ∈ x.ledger → judge (some x) aid off x.round = .duplicate)
          ∧ (x.opened = false → judge (some x) aid off x.round = .late)
          ∧ (∀ rd, rd ≠ x.round → (rd + 1) % 65536 = x.round → judge (some x) aid off rd = .late)
          ∧ (∀ rd, rd ≠ x.round → (rd + 1) % 65536 ≠ x.round → rd = (x.round + 1) % 65536 → judge (some x) aid off rd = .early)
          ∧ (∀ rd, rd ≠ x.round → (rd + 1) % 65536 ≠ x.round → rd ≠ (x.round + 1) % 65536 → judge (some x) aid off rd = .other))
      ∧ (∀ (aid off rd : Nat) (x : Window), x.st ≠ .lost → off % 4096 = 0 → off / 4096 < winSegs x.blk → x.blk.aids.idxOf? aid = none →
          judge (some x) aid off rd = .notListed)
      ∧ (∀ aid off rd : Nat, judge none aid off rd = .outside))


/-! ### Glaze instructions (05, 06) -/

/-- Operands: codes 0 to 23 are the word registers, 24 to 27 pop a stream (+0 once it has ended), 28 and 29 the accumulator S and its carry C, 30 zero, 31 the
lane's index; a result goes to a word register, an OUT, S or C, and a result for 30 goes nowhere; predicate M0 is true and is not written. -/
def Obligations.GlazeOperands : Prop :=
  ∀ (k : LaneCtx) (l : Lane) (c d t : Nat) (v : TWord) (b : Bool), l.w.length = 24 → l.m.length = 8 →
    (c < 24 → (readSrc c k l).1.w = l.w.getD c (clean 0) ∧ (readSrc c k l).2 = l)
    ∧ (∀ n x rest, n < 4 → l.ins.length = 4 → l.ins[n]? = some (x :: rest) →
        (readSrc (24 + n) k l).1 = x ∧ (readSrc (24 + n) k l).2.ins[n]? = some rest ∧ (readSrc (24 + n) k l).2.pops = l.pops + 1)
    ∧ (∀ n, n < 4 → l.ins[n]? = some [] → (readSrc (24 + n) k l).1.w = clean 0 ∧ (readSrc (24 + n) k l).2 = l)
    ∧ (readSrc 28 k l).1.w = l.s ∧ (readSrc 29 k l).1.w = l.c ∧ (readSrc 30 k l).1.w = clean 0
    ∧ (readSrc 31 k l).1.w = clean (BitVec.ofNat 32 k.id)
    ∧ (d < 24 → (writeDst d v k l).w[d]? = some ⟨v.v, max v.t k.t0⟩ ∧ (∀ e, e ≠ d → (writeDst d v k l).w[e]? = l.w[e]?)
        ∧ (writeDst d v k l).m = l.m ∧ (writeDst d v k l).priv = l.priv ∧ (writeDst d v k l).s = l.s ∧ (writeDst d v k l).c = l.c)
    ∧ writeDst 30 v k l = l ∧ (writeDst 28 v k l).s = ⟨v.v, max v.t k.t0⟩ ∧ (writeDst 29 v k l).c = ⟨v.v, max v.t k.t0⟩
    ∧ (d < 8 → d ≠ 0 → (writePred d b t k l).m[d]? = some (b, max t k.t0) ∧ (∀ e, e ≠ d → (writePred d b t k l).m[e]? = l.m[e]?))
    ∧ writePred 0 b t k l = l ∧ predOf 0 l = (true, 0)

/-- Moves, constants, memory and conversions of a lane: NOP changes no lane, LDI and LDH load an immediate, MOV and SEL copy, LDP and LDC read private words and CONST,
STP writes a private word, AVAIL tests a stream, CREAD collapses the accumulator, CVT and UNPK convert, FLAGS reads the flags. -/
def Obligations.GlazeMoves : Prop :=
  ∀ (s : State) (sh : Nat) (g : GArgs) (pn : Bool) (ps d imm : Nat),
    LaneStep (.glazeNop sh g) sh (wordG 0x00 g) g.pn g.ps 1 (fun _ l => l) s
    ∧ LaneStep (.ldi sh pn ps d imm) sh (wordI 0x08 pn ps d false imm) pn ps 1 (fun k l => writeDst d (clean (BitVec.ofNat 32 imm)) k l) s
    ∧ LaneStep (.ldh sh pn ps d imm) sh (wordI 0x09 pn ps d false imm) pn ps 1 (fun k l =>
        writeDst d ⟨BitVec.ofNat 32 (imm * 2 ^ 16 + (oldDst 1 d l).v.toNat % 2 ^ 16), (oldDst 1 d l).t⟩ k l) s
    ∧ LaneStep (.mov sh g) sh (wordG 0x0A g) g.pn g.ps 1 (fun k l => writeDst g.d (readSrc g.x k l).1.w k (readSrc g.x k l).2) s
    ∧ LaneStep (.sel sh g) sh (wordG 0x12 g) g.pn g.ps 1 (fun k l =>
        let x := readSrc g.x k l
        let y := readSrc g.y k x.2
        let m := predOf (g.md % 8) l
        writeDst g.d ⟨if m.1 then x.1.w.v else y.1.w.v, max m.2 (max x.1.w.t y.1.w.t)⟩ k y.2) s
    ∧ LaneStep (.ldp sh g) sh (wordG 0x14 g) g.pn g.ps 1 (fun k l =>
        let x := readSrc g.x k l
        let v := (smGet ((x.1.w.v.toNat + g.md) % 4096) x.2.priv).getD (clean 0)
        writeDst g.d ⟨v.v, max v.t x.1.w.t⟩ k x.2) s
    ∧ LaneStep (.ldc sh g) sh (wordG 0x15 g) g.pn g.ps 1 (fun k l =>
        let x := readSrc g.x k l
        let v := (smGet ((x.1.w.v.toNat + g.md) % 262144) k.const).getD (clean 0)
        writeDst g.d ⟨v.v, max v.t x.1.w.t⟩ k x.2) s
    ∧ LaneStep (.stp sh g) sh (wordG 0x16 g) g.pn g.ps 1 (fun k l =>
        let x := readSrc g.x k l
        let y := readSrc g.y k x.2
        let a := (x.1.w.v.toNat + g.md) % 4096
        let v : TWord := ⟨y.1.w.v, max k.t0 (max x.1.w.t y.1.w.t)⟩
        { y.2 with priv := if v = clean 0 then smDel a y.2.priv else smSet a v y.2.priv, stps := y.2.stps + 1 }) s
    ∧ LaneStep (.avail sh g) sh (wordG 0x17 g) g.pn g.ps 1 (fun k l =>
        writePred g.d (decide (g.md / 4 % 32 + 1 ≤ (l.ins.getD (g.md % 4) []).length + k.more.getD (g.md % 4) 0)) 0 k l) s
    ∧ LaneStep (.cread sh g) sh (wordG 0x1F g) g.pn g.ps 1 (fun k l =>
        addFlags (add32f l.s.v l.c.v).f { writeDst g.d ⟨BitVec.ofNat 32 (add32f l.s.v l.c.v).v, max l.s.t l.c.t⟩ k l with c := ⟨0, k.t0⟩ }) s
    ∧ LaneStep (.cvt sh g) sh (wordG 0x20 g) g.pn g.ps 1 (fun k l =>
        let x := readSrc g.x k l
        let mode := if g.md / 16 % 8 = 7 then k.d.rmode else g.md / 16 % 8
        let c := convert (fmtOf (g.md % 16)) mode (g.y % 2 == 1) (srDraw mode x.2.g).1 x.1.w.v
        let o := oldDst 2 g.d x.2
        addFlags c.f (writeDst g.d ⟨(o.v >>> (fmtOf (g.md % 16)).width) ||| (BitVec.ofNat 32 c.v <<< (32 - (fmtOf (g.md % 16)).width)),
          max x.1.w.t o.t⟩ k { x.2 with g := (srDraw mode x.2.g).2 })) s
    ∧ LaneStep (.unpk sh g) sh (wordG 0x21 g) g.pn g.ps 1 (fun k l =>
        let x := readSrc g.x k l
        let w := elemBits (g.md % 16)
        let i := g.md / 16 % 8
        let v := unpack32 (g.md % 16) (fieldOf x.1.w.v.toNat (w * i) w)
        if w * (i + 1) ≤ 32 then addFlags v.f (writeDst g.d ⟨BitVec.ofNat 32 v.v, x.1.w.t⟩ k x.2)
        else writeDst g.d ⟨Config.openWord 3 (x.1.w.v.toNat * 8 + i), x.1.w.t⟩ k x.2) s
    ∧ LaneStep (.flags sh g) sh (wordG 0x24 g) g.pn g.ps 1 (fun k l =>
        writeDst g.d (clean (l.f.zeroExtend 32)) k (if g.md % 2 = 1 then { l with f := 0 } else l)) s

/-- Integer arithmetic, logic, shifts, comparisons and predicate logic of a lane. -/
def Obligations.GlazeInteger : Prop :=
  ∀ (s : State) (sh : Nat) (g : GArgs),
    (∀ i op, (i, op) ∈ [(Instr.iadd sh g, (0x0B, (· + · : Word → Word → Word))), (.isub sh g, (0x0C, (· - ·))), (.imul sh g, (0x0D, (· * ·)))] →
      LaneStep i sh (wordG op.1 g) g.pn g.ps 1 (fun k l =>
        let x := readSrc g.x k l
        let y := readSrc g.y k x.2
        writeDst g.d ⟨op.2 x.1.w.v y.1.w.v, max x.1.w.t y.1.w.t⟩ k y.2) s)
    ∧ LaneStep (.logic sh g) sh (wordG 0x0E g) g.pn g.ps 1 (fun k l =>
        let x := readSrc g.x k l
        let y := readSrc g.y k x.2
        let v := if g.md % 4 = 0 then x.1.w.v &&& y.1.w.v else if g.md % 4 = 1 then x.1.w.v ||| y.1.w.v
          else if g.md % 4 = 2 then x.1.w.v ^^^ y.1.w.v else x.1.w.v &&& ~~~y.1.w.v
        writeDst g.d ⟨v, max x.1.w.t y.1.w.t⟩ k y.2) s
    ∧ LaneStep (.shift sh g) sh (wordG 0x0F g) g.pn g.ps 1 (fun k l =>
        let x := readSrc g.x k l
        let y := readSrc g.y k x.2
        let n := y.1.w.v.toNat % 32
        let v := if g.md % 4 = 0 then x.1.w.v <<< n else if g.md % 4 = 1 then x.1.w.v >>> n else x.1.w.v.sshiftRight n
        writeDst g.d ⟨v, max x.1.w.t y.1.w.t⟩ k y.2) s
    ∧ LaneStep (.icmp sh g) sh (wordG 0x10 g) g.pn g.ps 1 (fun k l =>
        let x := readSrc g.x k l
        let y := readSrc g.y k x.2
        writePred g.d (icmpOp g.md x.1.w.v y.1.w.v) (max x.1.w.t y.1.w.t) k y.2) s
    ∧ LaneStep (.fcmp sh g) sh (wordG 0x11 g) g.pn g.ps 1 (fun k l =>
        let x := readSrc g.x k l
        let y := readSrc g.y k x.2
        addFlags (fcmp (g.md % 4) x.1.w.v y.1.w.v).2 (writePred g.d (fcmp (g.md % 4) x.1.w.v y.1.w.v).1 (max x.1.w.t y.1.w.t) k y.2)) s
    ∧ LaneStep (.plog sh g) sh (wordG 0x13 g) g.pn g.ps 1 (fun k l =>
        let a := predOf (g.x % 8) l
        let b := predOf (g.y % 8) l
        writePred g.d (if g.md % 4 = 0 then a.1 && b.1 else if g.md % 4 = 1 then a.1 || b.1 else if g.md % 4 = 2 then Bool.xor a.1 b.1
          else a.1 && !b.1) (max a.2 b.2) k l) s

/-- The fires: each replaces the accumulator by its operation on the accumulator and two operands, adds its flags, and counts for the sagger and
the module; ADD32 adds to the accumulator or makes a compensated step; FUNC takes four slots for its approximated functions and one otherwise. -/
def Obligations.GlazeFires : Prop :=
  ∀ (s : State) (sh : Nat) (g : GArgs),
    (∀ i op, (i, op) ∈ [(Instr.fma32 sh g, (0x18, fun (a : Word) (x y : SWord) => dot32 a 0 [val32 x.w.v] [val32 y.w.v])),
        (.dot2 sh g, (0x19, fun a x y => dotScaled x y (dot32 a 0 (dotElems (1 + g.md % 2) 2 16 x.w.v) (dotElems (1 + g.md % 2) 2 16 y.w.v)))),
        (.dot4 sh g, (0x1A, fun a x y => dotScaled x y (dot32 a 0 (dotElems (3 + g.md % 2) 4 8 x.w.v) (dotElems (3 + g.md / 2 % 2) 4 8 y.w.v)))),
        (.dot4x sh g, (0x1B, fun a x y => mxDot a (dotxType (g.md % 8)) (dotxType (g.md / 8 % 8)) 4 8 x y)),
        (.dot8x sh g, (0x1C, fun a x y => mxDot a 7 7 8 4 x y))] →
      LaneStep i sh (wordG op.1 g) g.pn g.ps 1 (fun k l =>
        let x := readSrc g.x k l
        let y := readSrc g.y k x.2
        addFlags (op.2 y.2.s.v x.1 y.1).f { y.2 with
          s := ⟨BitVec.ofNat 32 (op.2 y.2.s.v x.1 y.1).v, max (max y.2.s.t k.t0) (max x.1.w.t y.1.w.t)⟩
          a := x.1.w.v
          b := y.1.w.v }) s)
    ∧ LaneStep (.add32f sh g) sh (wordG 0x1D g) g.pn g.ps 1 (fun k l =>
        let x := readSrc g.x k l
        let t := max k.t0 (max x.1.w.t x.2.s.t)
        if g.md % 2 = 1 then
          addFlags (compAdd x.2.s.v x.2.c.v x.1.w.v).2.2 { x.2 with
            a := x.1.w.v
            s := ⟨(compAdd x.2.s.v x.2.c.v x.1.w.v).1, t⟩, c := ⟨(compAdd x.2.s.v x.2.c.v x.1.w.v).2.1, max t x.2.c.t⟩ }
        else addFlags (add32f x.2.s.v x.1.w.v).f { x.2 with a := x.1.w.v, s := ⟨BitVec.ofNat 32 (add32f x.2.s.v x.1.w.v).v, t⟩ }) s
    ∧ LaneStep (.func sh g) sh (wordG 0x1E g) g.pn g.ps (if g.md % 8 < 4 then 4 else 1) (fun k l =>
        let x := readSrc g.x k l
        let y := readSrc g.y k { x.2 with a := x.1.w.v }
        if g.md % 8 < 4 then addFlags (func32 (g.md % 8) x.1.w.v).f (writeDst g.d ⟨BitVec.ofNat 32 (func32 (g.md % 8) x.1.w.v).v, x.1.w.t⟩ k { x.2 with a := x.1.w.v })
        else addFlags (maxMin (g.md % 8 == 4) x.1.w.v y.1.w.v).f
          (writeDst g.d ⟨BitVec.ofNat 32 (maxMin (g.md % 8 == 4) x.1.w.v y.1.w.v).v, max x.1.w.t y.1.w.t⟩ k { y.2 with b := y.1.w.v })) s
    ∧ (∀ (f : Firing) (x : Shelf), issuing sh (wordG 0x18 g) s = some (f, x) → ∃ t, exec (.fma32 sh g) s = .next t
        ∧ t.obs.global[2]? = (s.obs.global[2]?).map fun v => add64 v (x.lanes.filter (executes g.pn g.ps)).length)

/-- Control: COMMIT ends the step; END ends its lanes; BRA, LOOP, REP and SETCT steer the shelf; BARRIER, SRED and FRED first end the step before them, and then wait
until every shelf of the part that still has lanes has come there. The stream engine reads on after each instruction, and does nothing
once all streams are read. -/
def Obligations.GlazeControl : Prop :=
  ∀ (s : State) (sh : Nat) (f : Firing) (x : Shelf),
    (issuing sh (wordG 0x01 ⟨false, 0, 0, 0, 0, 0⟩) s = some (f, x) →
        exec (.commit sh none) s = .next (commitShelf sh (modShelf sh (fun x => { x with slots := x.slots + 1, idx := x.idx + 1 }) s)))
    ∧ (∀ l : Nat, s.powered = true → shelfOf sh s = some x → x.run = some f.fid → firingBy f.fid s = some f → f.desc.kind = 1 → x.lanes ≠ [] →
        (∀ y, shelfOf sh (mismatch sh l s) = some y → l ∉ y.nine) → exec (.commit sh (some l)) s = .next (mismatch sh l s))
    ∧ (∀ (cond m target : Nat), issuing sh (wordB 0x03 cond m target) s = some (f, x) → ∃ u y,
        exec (.bra sh cond m target) s = .next (feed sh (if stepFull y then commitShelf sh u else u)) ∧ shelfOf sh u = some y ∧ y.lanes = x.lanes
          ∧ y.slots = x.slots + 1 ∧ y.ct = x.ct
          ∧ (cond = 0 → y.idx = target)
          ∧ (cond = 1 → y.idx = if ∃ l ∈ x.lanes, l.fin = false ∧ (predOf m l).1 = true then target else x.idx + 1)
          ∧ (cond = 2 → y.idx = if ∀ l ∈ x.lanes, l.fin = false → (predOf m l).1 = true then target else x.idx + 1)
          ∧ (cond = 3 → y.idx = if ∀ l ∈ x.lanes, l.fin = false → (predOf m l).1 = false then target else x.idx + 1))
    ∧ (∀ n target : Nat, issuing sh (wordI 0x04 false 0 n false target) s = some (f, x) → ∃ u y,
        exec (.loop sh n target) s = .next (feed sh (if stepFull y then commitShelf sh u else u)) ∧ shelfOf sh u = some y ∧ y.lanes = x.lanes
          ∧ y.ct = x.ct.set n (x.ct.getD n 0 - 1) ∧ y.idx = if x.ct.getD n 0 = 1 then x.idx + 1 else target)
    ∧ (∀ imm : Nat, issuing sh (wordI 0x05 false 0 0 false imm) s = some (f, x) →
        exec (.rep sh false imm) s = .next (modShelf sh (fun x => if imm = 0 then { x with idx := x.idx + 2 } else { x with idx := x.idx + 1, rep := imm }) s))
    ∧ (∀ imm : Nat, issuing sh (wordI 0x05 false 0 0 true imm) s = some (f, x) → x.ct.getD (imm % 4) 0 ≠ 0 → ∃ t y,
        exec (.rep sh true imm) s = .next t ∧ shelfOf sh t = some y ∧ y.idx = x.idx + 1 ∧ y.rep = (x.ct.getD (imm % 4) 0).toNat ∧ y.slots = x.slots)
    ∧ (∀ n imm : Nat, issuing sh (wordI 0x06 false 0 n false imm) s = some (f, x) → ∃ u y,
        exec (.setct sh n false imm) s = .next (feed sh (if stepFull y then commitShelf sh u else u)) ∧ shelfOf sh u = some y ∧ y.lanes = x.lanes
          ∧ y.ct = x.ct.set n (BitVec.ofNat 32 imm) ∧ y.idx = x.idx + 1)
    ∧ (∀ (n imm j : Nat) (l : Lane), issuing sh (wordI 0x06 false 0 n true imm) s = some (f, x) → x.lanes[j]? = some l → l.fin = false →
        (∀ i k, i < j → x.lanes[i]? = some k → k.fin = true) → ∃ u y,
        exec (.setct sh n true imm) s = .next (feed sh (if stepFull y then commitShelf sh u else u)) ∧ shelfOf sh u = some y
          ∧ y.ct = x.ct.set n (readSrc (imm % 32) (ctxLane f x j 0) l).1.w.v ∧ y.idx = x.idx + 1)
    ∧ (∀ y : Shelf, ∀ w wt, issuing sh w s = some (f, x) → issuing sh w (commitShelf sh s) = some (f, y) →
        (w = wordG 0x07 ⟨false, 0, 0, 0, 0, 0⟩ → wt = ShWait.barrier → ∃ u z, exec (.barrier sh) s = .next (feed sh (release f.fid sh wt u))
          ∧ shelfOf sh u = some z ∧ z.wait = wt ∧ z.slots = y.slots + 1 ∧ z.lanes = y.lanes)
        ∧ (∀ g : GArgs, w = wordG 0x22 g → wt = ShWait.sred (g.md % 4) g.d g.ps → ∃ u z, exec (.sred sh g) s = .next (feed sh (release f.fid sh wt u))
          ∧ shelfOf sh u = some z ∧ z.wait = wt ∧ z.contrib.length = y.lanes.length)
        ∧ (∀ g : GArgs, w = wordG 0x23 g → wt = ShWait.fred (g.md % 4) (g.d - 24) → ∃ u z, exec (.fred sh g) s = .next (feed sh (release f.fid sh wt u))
          ∧ shelfOf sh u = some z ∧ z.wait = wt ∧ z.contrib.length = y.lanes.length))
    ∧ (∀ (fid m : Nat) (wt : ShWait), firingBy fid s = some f → m ∈ partMates f sh → arrived wt m s = false → release fid sh wt s = s)
    ∧ (∀ g : GArgs, issuing sh (wordG 0x02 g) s = some (f, x) → ∃ u y w, shelfOf sh u = some y ∧ (x.rep ≤ 1 → y.idx = x.idx + 1)
        ∧ (∀ (j : Nat) (l : Lane), x.lanes[j]? = some l → y.lanes[j]? = some (if executes g.pn g.ps l then { l with fin := true } else l))
        ∧ w = feed sh (if stepFull y then commitShelf sh u else u)
        ∧ exec (.endLane sh g) s = .next (if shelfEnded sh w then releaseMates f.fid sh (commitShelf sh w) else w))
    ∧ ((∀ l ∈ x.unread, ∀ cs ∈ l, cs = []) → shelfOf sh s = some x → feed sh s = s)

/-- Arithmetic: an operand that is a NaN makes a fire's result the canonical NaN and a comparison false unless it asks for unordered; adding +0 to an accumulator that holds a
finite number leaves it, except that -0 becomes +0; every element of E5M2 and E4M3 that is not a NaN converts to binary32 and back without a flag. -/
def Obligations.ArithmeticIdentities : Prop :=
  (∀ (a x y : Word) (b : Bool), val32 x = .nan b ∨ val32 y = .nan b → (dot32 a 0 [val32 x] [val32 y]).v = 0x7FC00000)
    ∧ (∀ (m : Nat) (x y : Word) (b : Bool), val32 x = .nan b ∨ val32 y = .nan b → (fcmp m x y).1 = (m == 3))
    ∧ (∀ v : Nat, v < 256 → (e5m2.decode v).isNan = false → (unpack32 4 v).f = 0 ∧ (convert e5m2 0 false 0 (BitVec.ofNat 32 (unpack32 4 v).v)) = ⟨v, 0⟩)
    ∧ (∀ v : Nat, v < 256 → (e4m3.decode v).isNan = false → (unpack32 3 v).f = 0 ∧ (convert e4m3 0 false 0 (BitVec.ofNat 32 (unpack32 3 v).v)) = ⟨v, 0⟩)
    ∧ (∀ x : Word, x.toNat % 2 ^ 31 < 0x7F800000 → x ≠ 0x80000000#32 → add32f x 0 = ⟨x.toNat, 0⟩)
    ∧ add32f 0x80000000#32 0 = ⟨0, 0⟩

/-! ### The host path (10 R345 to R381) -/

/-- Rings: START runs a Stopped ring that is set up, and without a session says SESSION; RESET stops it and keeps SEQ; a doorbell moves the producer count or halts the ring
with DOORBELL; a consumer count within the entries written is taken, another is counted and raises PATH; a DMA error halts the ring; causes are cleared by writing ones; an
interrupt source is raised once enough entries were written. -/
def Obligations.RingEvents : Prop :=
  ∀ (s : State) (r : Nat) (g : Ring), s.glb.hubReset = false → ringOf r s = some g →
    (g.st = .stopped → g.stored = none → s.pen.session = true → 4 ≤ g.size → g.size ≤ 16 → 1 ≤ s.host.bounceSize → s.host.bounceSize ≤ 16384 → s.host.bme = true →
        r ≠ 5 → exec (.ringStart r) s = .next (modRing r (fun g => { g with st := .running, cause := 0, stored := none }) s))
    ∧ (g.st = .stopped → s.pen.session = false → exec (.ringStart r) s = .next (modRing r (fun g => { g with cause := 6 }) s))
    ∧ (g.st ≠ .stopped → exec (.ringStart r) s = .next s)
    ∧ (∃ t h, exec (.ringReset r) s = .next t ∧ Only [.host] s t ∧ (∀ q, q ≠ r → ringOf q t = ringOf q s) ∧ ringOf r t = some h ∧ h.st = .stopped ∧ h.prod = 0
        ∧ h.cons = 0 ∧ h.stored = none ∧ h.seq = g.seq ∧ h.base = g.base ∧ h.size = g.size ∧ h.cause = g.cause ∧ h.inflight = g.inflight)
    ∧ (∀ p : Nat, r < 4 → p < 2 ^ 32 → g.st = .running →
        if takeDoorbell.sub32 p g.cons ≤ 2 ^ g.size then
          ∃ t h, exec (.commandDoorbell r p) s = .next t ∧ Only [.host] s t ∧ (∀ q, q ≠ r → ringOf q t = ringOf q s) ∧ ringOf r t = some h ∧ h.prod = p ∧ h.doorbell = p
            ∧ h.cons = g.cons ∧ h.st = .running ∧ h.seq = g.seq ∧ h.inflight = g.inflight ∧ t.host.irqCause = s.host.irqCause
        else ∃ t h, exec (.commandDoorbell r p) s = .next t ∧ Only [.host, .outs] s t ∧ ringOf r t = some h ∧ h.st = .halted ∧ h.cause = 2 ∧ h.prod = g.prod
          ∧ t.host.irqCause = s.host.irqCause ||| 8)
    ∧ (∀ p : Nat, r < 4 → p < 2 ^ 32 → g.st ≠ .running →
        exec (.commandDoorbell r p) s = .next (modRing r (fun g => { g with bellAt := s.now, stored := some p }) s))
    ∧ (∀ c : Nat, 4 ≤ r → c < 2 ^ 32 →
        if takeDoorbell.sub32 c g.cons ≤ takeDoorbell.sub32 g.prod g.cons then
          exec (.consumerDoorbell r c) s = .next (modRing r (fun g => { g with cons := c, doorbell := c }) s)
        else ∃ t, exec (.consumerDoorbell r c) s = .next t ∧ Only [.host, .outs] s t ∧ t.host.rings = s.host.rings ∧ t.host.doorbellErr = add32 s.host.doorbellErr 1
          ∧ t.host.irqCause = s.host.irqCause ||| 8)
    ∧ (g.st = .running → s.dma = true → exec (.ringDmaError r) s = .next (haltRing r 5 s))
    ∧ (∃ h, ringOf r (haltRing r 5 s) = some h ∧ h.st = .halted ∧ h.cause = 5 ∧ h.prod = g.prod ∧ h.cons = g.cons ∧ h.seq = g.seq)
    ∧ (∀ mask : Nat, ∃ t, exec (.irqCauseClear mask) s = .next t ∧ Only [.host] s t ∧ t.host = { s.host with irqCause := t.host.irqCause }
        ∧ ∀ b, t.host.irqCause.getLsbD b = (s.host.irqCause.getLsbD b && !mask.testBit b))
    ∧ (s.twin.gap = none → s.host.stUnsig ≠ 0 → (s.host.cfg.countStatus ≤ s.host.stUnsig ∨ s.host.stFirst + s.host.cfg.waitStatus ≤ s.now) → ∃ t, exec (.statusInterrupt false) s = .next t
        ∧ Only [.host, .outs] s t ∧ t.host.stUnsig = 0 ∧ t.host.evUnsig = s.host.evUnsig ∧ t.host.irqCause = s.host.irqCause ||| 1 ∧ t.host.rings = s.host.rings)
    ∧ (s.host.evUnsig ≠ 0 → s.host.evUnsig < s.host.cfg.countEvent → s.now < s.host.evFirst + s.host.cfg.waitEvent → exec (.statusInterrupt true) s = .next s)

/-- Fetching: the head packet of the ring whose turn it is goes in flight when its stream, slot, SEQ and tag are right, and the ring moves on; a wrong sequence or tag halts the
ring; a packet of another version is answered at once. A parked command goes on when what it waits for has come. -/
def Obligations.FetchAndWrite : Prop :=
  ∀ (s : State) (r : Nat) (g : Ring),
    (∀ p : Packet, s.alive = true → s.dma = true → nextRing s = some r → ringOf r s = some g →
      (p.stream = r → p.slot = g.cons % 2 ^ g.size → p.seq = g.seq → p.tagOk = true →
        ((∀ c ∈ packetChks p s, c.bad = false) → ∃ t h f, exec (.commandFetch r p) s = .next t ∧ Only [.host] s t ∧ (∀ q, q ≠ r → ringOf q t = ringOf q s)
          ∧ ringOf r t = some h ∧ h.cons = add32 g.cons 1 ∧ h.seq = add64 g.seq 1 ∧ h.prod = g.prod ∧ h.st = g.st ∧ h.inflight = some f ∧ f.opcode = pkOp p
          ∧ f.ctag = pkCtag p ∧ f.cseq = g.seq ∧ f.latch = pkLatch p ∧ f.outOff = pkOutOff p ∧ f.outLen = pkOutLen p ∧ f.fetched = s.now ∧ f.parked = none)
        ∧ (pkFmt p ≠ 1 → ∃ t, exec (.commandFetch r p) s = .next t ∧ Only [.host, .obs] s t ∧ inflightOf r t = none
          ∧ ∃ x : Reply, t.host.statusQ = s.host.statusQ ++ [x] ∧ x.opcode = pkOp p ∧ x.ctag = pkCtag p ∧ x.cseq = g.seq ∧ x.status = stVERSION ∧ x.stage = 1))
      ∧ (p.seq ≠ g.seq → exec (.commandFetch r p) s = .next (haltRing r 3 s))
      ∧ (p.stream = r → p.slot = g.cons % 2 ^ g.size → p.seq = g.seq → p.tagOk = false →
        exec (.commandFetch r p) s = .next (haltRing r 4 { s with host.authFail := add32 s.host.authFail 1 })))
    ∧ (∀ (x : Reply) (rest : List Reply), s.glb.hubReset = false → s.tal.running = true → s.twin.gap = none → s.dma = true → s.host.statusQ = x :: rest → ringOf 4 s = some g → g.st = .running →
        0 < freeSlots g → ∃ t h, exec (.outputEntryWrite 4) s = .next t ∧ Only [.host, .outs, .glb] s t ∧ t.host.statusQ = rest ∧ ringOf 4 t = some h
          ∧ h.prod = add32 g.prod 1 ∧ h.seq = add64 g.seq 1 ∧ t.host.stUnsig = s.host.stUnsig + 1
          ∧ t.hostOut = s.hostOut ++ (if x.items.isEmpty then [] else [HostOut.item x.ring x.cseq x.items]) ++ [.status (g.prod % 2 ^ g.size) g.seq (replyBytes x)]
          ∧ t.glb = { s.glb with resetDue := if x.opcode = 0x0B ∧ x.status = stOK then some (s.now + 1000000) else s.glb.resetDue })
    ∧ (∀ (x : FaultRec) (rest : List FaultRec), s.glb.hubReset = false → s.tal.running = true → s.twin.gap = none → s.dma = true → s.host.faultQ = x :: rest → ringOf 5 s = some g → g.st = .running →
        0 < freeSlots g → ∃ t, exec (.outputEntryWrite 5) s = .next t ∧ Only [.host, .outs, .xlt] s t ∧ t.host.faultQ = rest
          ∧ .fault (g.prod % 2 ^ g.size) g.seq (faultBytes x) ∈ t.hostOut ∧ t.xlt = { s.xlt with batchLast := x.batch }
          ∧ t.host.irqCause = if x.last then s.host.irqCause ||| 2 else s.host.irqCause)
    ∧ (∀ (x : Event) (rest : List Event), s.glb.hubReset = false → s.tal.running = true → s.twin.gap = none → s.dma = true → s.host.evBuf = x :: rest → ringOf 6 s = some g → g.st = .running →
        0 < freeSlots g → ∃ t, exec (.outputEntryWrite 6) s = .next t ∧ Only [.host, .outs] s t ∧ t.host.evBuf = rest ++ s.host.evKept.take 1
          ∧ t.host.evKept = s.host.evKept.drop 1 ∧ t.hostOut = s.hostOut ++ [.event (g.prod % 2 ^ g.size) g.seq (eventBytes x)] ∧ t.host.evUnsig = s.host.evUnsig + 1)
    ∧ (s.twin.gap.isSome = true → exec (.outputEntryWrite r) s = .next s)
    ∧ (∀ (f : Inflight) (cmds : List (Nat × Nat)), s.alive = true → r < 4 → inflightOf r s = some f → f.parked = some (.sysFence cmds) →
        (cmds.any (replyOwed s) = false → exec (.parkedCommandComplete r) s = .next (ok r [] s))
        ∧ (cmds.any (replyOwed s) = true → exec (.parkedCommandComplete r) s = .next s))
    ∧ (∀ (f : Inflight) (sid epoch : Nat), s.alive = true → r < 4 → inflightOf r s = some f → f.parked = some (.xltFence sid epoch) →
        exec (.parkedCommandComplete r) s = .next (if fenceOpen sid epoch s then ok r [] s else s))

/-- Registers and PCIe: a written register takes its fields, a read only one takes nothing; a read answers the word as it stands, and the low word of a 64-bit register keeps
its high word for the next read of that; without Bus Master Enable nothing is sent; a reset of the host path ends the session and stops every ring; a trained link is up. -/
def Obligations.RegistersAndPcie : Prop :=
  ∀ s : State, s.glb.hubReset = false →
    (∀ v : Word, exec (.registerWrite 0x600010 v) s = .next { s with pen.fwLen := v.toNat })
    ∧ (∀ v : Word, exec (.registerWrite 0x600008 v) s = .next { s with pen.fwAddr := (s.pen.fwAddr / 2 ^ 32 * 2 ^ 32 + v.toNat) / 64 * 64 })
    ∧ (∀ (off : Nat) (v : Word), off < 0x10000 → exec (.registerWrite off v) s = .next s)
    ∧ (∀ (r : Nat) (g : Ring) (v : Word), r < 7 → ringOf r s = some g → g.st = .stopped →
        exec (.registerWrite (0x10000 + 64 * r + 8) v) s = .next (modRing r (fun g => { g with size := v.toNat % 32 }) s))
    ∧ (∀ (r : Nat) (g : Ring) (v : Word), r < 7 → ringOf r s = some g → g.st ≠ .stopped →
        exec (.registerWrite (0x10000 + 64 * r + 8) v) s = .next { s with host.doorbellErr := add32 s.host.doorbellErr 1 })
    ∧ ((∀ g ∈ s.host.rings, g.st = .stopped) → ∀ v : Word, exec (.registerWrite 0x10210 v) s = .next { s with host.bounceSize := v.toNat % 2 ^ 15 })
    ∧ (∀ off : Nat, off % 4 = 0 → read64 off s = none → smGet off s.host.highs = none →
        exec (.lowWordRead off) s = .next { s with hostOut := s.hostOut ++ [.read off (readWord off s)] })
    ∧ (∀ off v : Nat, off % 4 = 0 → read64 off s = some v → ∃ t, exec (.lowWordRead off) s = .next t ∧ Only [.host, .outs] s t
        ∧ t.hostOut = s.hostOut ++ [.read off (v % 2 ^ 32)]
        ∧ ∀ u : State, u.glb.hubReset = false → u.host.highs = t.host.highs → read64 (off + 4) u = none →
            ∃ w, exec (.lowWordRead (off + 4)) u = .next w ∧ w.hostOut = u.hostOut ++ [.read (off + 4) (v / 2 ^ 32 % 2 ^ 32)])
    ∧ (∀ d3 : Bool, exec (.busMasterChange false d3) s = .next { s with host.bme := false, host.d3hot := d3 })
    ∧ (∀ (bme d3 : Bool) (v : Nat), ∃ t, exec (.busMasterChange bme d3) s = .next t ∧ Only [.host, .outs] s t ∧ t.host.bme = bme ∧ t.host.d3hot = d3
        ∧ t.host.rings = s.host.rings ∧ (v < 64 → t.dma = true → vecMasked v s = false → t.host.pba.getLsbD v = false ∧ (s.host.pba.getLsbD v = true → .msix v ∈ t.hostOut)))
    ∧ (∃ t, exec .hostPathReset s = .next t ∧ Only [.host, .pen] s t ∧ t.pen = { s.pen with session := false, handshake := false, keys := none, exch := none } ∧ t.host.bme = false
        ∧ t.host.rings.length = s.host.rings.length ∧ (∀ (r : Nat) (g : Ring), ringOf r s = some g → ∃ h, ringOf r t = some h ∧ h.st = .stopped ∧ h.cause = 6
          ∧ h.prod = 0 ∧ h.cons = 0 ∧ h.seq = g.seq ∧ h.inflight = g.inflight)
        ∧ t.host.statusQ = s.host.statusQ ∧ t.host.evBuf = s.host.evBuf ∧ t.host.faultQ = s.host.faultQ)
    ∧ (∀ w rate : Nat, ∃ t, exec (.pcieLinkTrained w rate) s = .next t ∧ Only [.host, .outs] s t ∧ t.host.linkWidth = w ∧ t.host.linkRate = rate ∧ t.host.linkUp = true
        ∧ t.host.rings = s.host.rings ∧ (linkDegraded t = true ↔ w < 8 ∨ rate < 128))

/-- MEM_START stores the rate and the repairs and starts the training of every die with matching DIMMs once the arrays are tested; MODULE_RESET is accepted when every sagger
is free or it is forced; POWER_OFF_PREPARE without work ends at once: ports Down, the record, READY_OFF. -/
def Obligations.PowerCommands : Prop :=
  ∀ (s : State) (r : Nat) (f : Inflight),
    (∀ rate : Nat, Ready r 0x0A 0 s f → rate < 4 → s.glb.memStarted = false → s.glb.arraysTested = false → ∀ (it : Item) (resv : Bool), it.off % 64 = 0 → ∃ t,
        exec (.memStart r rate it 0 ⟨resv, []⟩) s = .next t ∧ Only [.host, .glb, .mem, .obs, .tal] s t ∧ t.glb.memStarted = true ∧ t.glb.rate = rate ∧ t.mem.savedSppr = []
          ∧ t.mem.dies = s.mem.dies ∧ (inflightOf r t).map (·.parked) = some (some .memStart))
    ∧ (∀ rate : Nat, Ready r 0x0A 0 s f → s.glb.memStarted = true → rate < 4 → ∀ (it : Item) (resv : Bool), it.off % 64 = 0 →
        Refuses (.memStart r rate it 0 ⟨resv, []⟩) r 0x0A stCONFLICT 7 s)
    ∧ (∀ (rate len : Nat) (it : Item) (es : List (RowLoc × Bool)), Ready r 0x0A 0 s f → rate < 4 → s.glb.memStarted = false → s.glb.arraysTested = true →
        len % 8 = 0 → GoodItem it len s → es.length = len / 8 → es.length ≤ 512 → (∀ e ∈ es, e.1.channel < 6) →
        exec (.memStart r rate it len ⟨false, es⟩) s = .next (memBegin r { endHostWait f.bellAt (latched r 0 s) with
          glb.memStarted := true
          glb.rate := rate
          glb.step := max 5 (endHostWait f.bellAt (latched r 0 s)).glb.step
          mem.savedSppr := es }))
    ∧ (∀ die rate : Nat, s.glb.kilnIn.getLsbD die = true → ∀ d : DieMem, dieMem die s = some d → ∀ x : Dimm, (∀ c, c < 6 → (dimmsOf die s)[c]? = some (some x)) →
        ∃ m, dieMem die (startDie rate die s) = some m ∧ m.st = .training ∧ m.rate = rate ∧ m.size = x.size ∧ m.ranks = x.ranks ∧ m.rows = x.rows)
    ∧ (∀ force : Bool, Ready r 0x0B 0 s f → force = true ∨ tenantsFree s = true → exec (.moduleReset r force) s = .next (ok r [] (latched r 0 s)))
    ∧ (Ready r 0x0B 0 s f → tenantsFree s = false → Refuses (.moduleReset r false) r 0x0B stCONFLICT 7 s)
    ∧ (∀ force : Bool, Ready r 0x0C 0 s f → force = true ∨ tenantsFree s = true → s.kiln.firings = [] → (∀ x ∈ s.kiln.runs, x.mig = true) → ∃ t,
        exec (.powerOffPrepare r force) s = .next t ∧ t.glb.readyOff = true ∧ (∀ (p : Nat) (q : Port), portOf p t = some q → q.st = .down)
          ∧ inflightOf r t = none ∧ t.kiln = s.kiln ∧ t.mem = s.mem ∧ t.dir = s.dir ∧ t.xlt = s.xlt)
    ∧ (Ready r 0x0C 0 s f → tenantsFree s = false → Refuses (.powerOffPrepare r false) r 0x0C stCONFLICT 7 s)

/-! ### The Golha link (08) -/

/-- Port commands: PORT_CONFIG stores its values, takes a disabled port Down with its held flits, and is refused outside its ranges or when another enabled port has the AID;
AID_ALLOW notes the sagger of an AID; PORT_RESET trains an enabled port; SA_REKEY sends REKEY; PORT_READ reads an association; AID_DETACH ends an admission. -/
def Obligations.PortCommands : Prop :=
  ∀ (s : State) (r : Nat) (f : Inflight),
    (∀ (c : PortParams) (q : Port), Ready r 0x70 0 s f → portOf c.port s = some q → c.port < 16 → c.enable ≤ 1 → c.portAid ≤ 2047 → 1000000 ≤ c.completionTimeout →
        c.completionTimeout ≤ 10000000000 → 2000 ≤ c.replayTimeout → c.replayTimeout ≤ 1000000 → 1000 ≤ c.laneLimit → c.laneLimit ≤ 10000000 → 1 ≤ c.strangerRate →
        c.strangerRate ≤ 1000 → c.certEpochMin < 2 ^ 32 → aidTaken c s = false → ∃ t h, exec (.portConfig r c) s = .next t ∧ Only [.host, .ports, .obs] s t
          ∧ inflightOf r t = none ∧ portOf c.port t = some h ∧ h.par = c ∧ h.st = (if c.enable = 0 then .down else q.st) ∧ h.held = q.held ∧ h.assocs = q.assocs
          ∧ h.idKey = (if c.enable = 1 ∧ q.inSvc = true then s.pen.aliasKey.map fun k => portIdKey k c.port else q.idKey)
          ∧ ∀ p, p ≠ c.port → portOf p t = portOf p s)
    ∧ (∀ c : PortParams, Ready r 0x70 0 s f → c.port < 16 → c.enable ≤ 1 → c.certEpochMin < 2 ^ 32 → 2047 < c.portAid → Refuses (.portConfig r c) r 0x70 stDENIED 3 s)
    ∧ (∀ p aid sid : Nat, Ready r 0x71 0 s f → s.pen.otp.lc = 2 → p < 16 → aid < 2048 → sid ≠ 0 → sid < 4095 → sagState sid s = .active → assocOf p aid s = none →
        onOther p aid (fun a => a.adm == .admitted && a.sid != sid) s = 0 → onOther p aid (fun a => a.allow.isSome) s < 2 →
        exec (.aidAllow r p aid sid) s = .next (ok r [] (setAssoc p aid (freshAssoc (some sid)) (latched r 0 s))))
    ∧ (∀ p aid sid : Nat, Ready r 0x71 0 s f → s.pen.otp.lc ≠ 2 → Refuses (.aidAllow r p aid sid) r 0x71 stDENIED 3 s)
    ∧ (∀ (p mode : Nat) (q : Port), Ready r 0x72 0 s f → p < 16 → mode ≤ 1 → portOf p s = some q → q.inSvc = true → q.par.enable = 1 → ∃ t h,
        exec (.portReset r p mode) s = .next t ∧ Only [.host, .ports, .obs] s t ∧ portOf p t = some h ∧ h.st = .training ∧ h.fast = false ∧ h.trainAt = s.now
          ∧ h.held = q.held ∧ h.fresh = (q.fresh || mode == 1) ∧ inflightOf r t = none)
    ∧ (∀ p aid : Nat, Ready r 0x73 0 s f → admitted p aid s = true → exec (.saRekey r p aid) s = .next (ok r [] (startRekey p aid (latched r 0 s))))
    ∧ (∀ p aid : Nat, Ready r 0x73 0 s f → admitted p aid s = false → Refuses (.saRekey r p aid) r 0x73 stDENIED 3 s)
    ∧ (∀ (p aid : Nat) (a : Assoc), Ready r 0x74 0 s f → p < 16 → aid < 2048 → assocOf p aid s = some a → a.adm = .admitted →
        exec (.portRead r p aid) s = .next (ok r ([2, a.sid, a.gen, 0] ++ w64 a.txIvc ++ w64 (a.rx.next - 1)) (latched r 0 s)))
    ∧ (∀ p aid : Nat, Ready r 0x75 0 s f → p < 16 → aid < 2048 → ∃ t, exec (.aidDetach r p aid) s = .next t ∧ Only [.host, .ports, .outst, .obs] s t
        ∧ admitted p aid t = false ∧ (assocOf p aid t).bind (·.allow) = (assocOf p aid s).bind (·.allow) ∧ inflightOf r t = none)

/-- Training, lanes and replay of a port in service: each event in the state of the port in which it can come. -/
def Obligations.LinkTraining : Prop :=
  ∀ (s : State) (p : Nat) (q : Port), s.powered = true → portOf p s = some q → q.inSvc = true →
    (q.par.enable = 1 → q.st = .down → exec (.signalDetect p) s = .next (toTraining false p s))
    ∧ (q.par.enable = 0 → exec (.signalDetect p) s = .next s)
    ∧ (q.st = .up → exec (.retrain p) s = .next (toTraining true p s))
    ∧ (∀ fast : Bool, ∃ h, portOf p (toTraining fast p s) = some h ∧ h.st = .training ∧ h.fast = fast ∧ h.trainAt = s.now ∧ h.attempts = 0 ∧ h.held = q.held
        ∧ h.txSeq = q.txSeq ∧ h.rxE = q.rxE ∧ h.assocs = q.assocs ∧ h.txq = q.txq)
    ∧ (q.st = .up → ∃ t h, exec (.lockLost p) s = .next t ∧ Only [.ports, .free] s t ∧ portOf p t = some h ∧ h.st = .training ∧ h.fast = true ∧ h.held = q.held)
    ∧ (∀ narrow : Bool, q.st = .training → q.retryAt = none → s.now ≤ q.trainAt + (if q.fast then 2000000 else 60000000) → ∃ t h,
        exec (.trained p narrow) s = .next t ∧ Only [.ports] s t ∧ portOf p t = some h ∧ h.st = .resuming ∧ h.narrow = narrow ∧ h.trainNo = (q.trainNo + 1) % 256
          ∧ h.lctl = [⟨1, 0, 0, none⟩] ∧ h.held = q.held ∧ (q.fast = false → h.swapped = 15 ∧ h.failedLanes = []))
    ∧ (q.st = .training → q.retryAt = none → q.trainAt + (if q.fast then 2000000 else 60000000) < s.now → ∃ t h, exec (.trainingTimeout p) s = .next t
        ∧ portOf p t = some h ∧ h.st = .training ∧ h.attempts = q.attempts + 1 ∧ h.retryAt = some (s.now + 10000000) ∧ h.wasUp = false
        ∧ (q.wasUp = false → t.host = s.host))
    ∧ (∀ t0 : Nat, q.st = .training → q.retryAt = some t0 → t0 ≤ s.now →
        exec (.trainingRetry p) s = .next (modPort p (fun q => { q with fast := false, trainAt := s.now, retryAt := none }) s))
    ∧ (∀ (rxAck : Nat) (credits : List Nat), q.st = .resuming → ∃ t h, exec (.resume p true q.trainNo rxAck credits) s = .next t ∧ portOf p t = some h
        ∧ h.st = .up ∧ h.held = [] ∧ h.txSeq = 0 ∧ h.rxE = 0 ∧ h.lastAck = 4095 ∧ h.fresh = false ∧ h.ctr.freshDiscard = add32 q.ctr.freshDiscard q.held.length
        ∧ h.assocs = q.assocs ∧ h.txq = q.txq)
    ∧ (∀ (n rxAck : Nat) (credits : List Nat), q.st = .resuming → n ≠ q.trainNo → exec (.resume p true n rxAck credits) s = .next s)
    ∧ (∀ credits : List Nat, q.st = .resuming → q.fresh = false → ∃ t h, exec (.resume p false q.trainNo q.lastAck credits) s = .next t ∧ portOf p t = some h
        ∧ h.st = .up ∧ h.held = q.held ∧ h.resend = q.held.length ∧ h.txSeq = q.txSeq ∧ h.rxE = q.rxE)
    ∧ (∀ lane cw : Nat, q.st = .up → lane < 8 → q.failedLanes = [] → q.swapped = 15 → (∀ c ∈ q.lctl, c.op ≠ 2) → ∃ t h, exec (.laneFail p lane cw) s = .next t
        ∧ Only [.ports] s t ∧ portOf p t = some h ∧ h.st = .up ∧ h.failedLanes = [lane] ∧ h.lctl = q.lctl ++ [⟨2, lane, (cw + 1024) % 2 ^ 32, none⟩])
    ∧ (∀ lane cw : Nat, q.st = .up → lane < 8 → lane ∉ q.failedLanes → q.swapped ≠ 15 → ∃ t h, exec (.laneFail p lane cw) s = .next t ∧ portOf p t = some h
        ∧ h.st = .training ∧ h.fast = true ∧ h.held = q.held)
    ∧ (∀ lane cw : Nat, q.st = .up → lane < 8 → q.txSwap = none → ∃ t h, exec (.laneSwap p lane cw) s = .next t ∧ portOf p t = some h ∧ h.txSwap = some (lane, cw)
        ∧ h.lctl = q.lctl ++ [⟨3, lane, cw, none⟩] ∧ h.st = .up)
    ∧ (∀ lane cw : Nat, q.st = .up → (∃ c ∈ q.lctl, c.op = 2 ∧ c.lane = lane ∧ c.codeword = cw) → ∃ t h, exec (.laneSwapAck p lane cw) s = .next t ∧ portOf p t = some h
        ∧ h.swapped = lane ∧ ∀ c ∈ h.lctl, ¬(c.op = 2 ∧ c.lane = lane ∧ c.codeword = cw))
    ∧ (q.st = .up → ∃ t h, exec (.lctlResend p) s = .next t ∧ Only [.ports] s t ∧ portOf p t = some h ∧ h.lctl.length = q.lctl.length
        ∧ ∀ (i : Nat) (c d : Lctl), q.lctl[i]? = some c → h.lctl[i]? = some d → d.op = c.op ∧ d.lane = c.lane ∧ d.codeword = c.codeword
          ∧ d.sent = if ∃ x, c.sent = some x ∧ x + 1000 ≤ s.now then none else c.sent)
    ∧ (∀ (h0 : HeldFlit) (rest : List HeldFlit), q.st = .up → q.held = h0 :: rest → q.resend = 0 → h0.sentAt + q.par.replayTimeout ≤ s.now → q.replaysNoAck < 7 →
        exec (.replayTimeout p) s = .next (modPort p (fun q => { q with
          resend := q.held.length, replaysNoAck := q.replaysNoAck + 1, ctr := { q.ctr with replays := add32 q.ctr.replays 1 } }) s))
    ∧ (∀ (h0 : HeldFlit) (rest : List HeldFlit), q.st = .up → q.held = h0 :: rest → q.resend = 0 → h0.sentAt + q.par.replayTimeout ≤ s.now → q.replaysNoAck = 7 →
        ∃ t h, exec (.replayTimeout p) s = .next t ∧ portOf p t = some h ∧ h.st = .training ∧ h.fast = true)
    ∧ (∀ cause : Nat, 1 ≤ cause → cause ≤ 4 → exec (.portLost p cause) s = .next (losePort p cause s))

/-- Flits: one that fails its CRC or carries another TRAIN_NO counts and asks for a NAK; the expected SEQ flit is accepted, a later one asks for a NAK, an earlier one does
neither; a port sends an IDLE that is due first, then link control, then what is being replayed, then a message, else IDLE. -/
def Obligations.Flits : Prop :=
  ∀ (s : State) (p : Nat) (q : Port), s.powered = true → portOf p s = some q → q.inSvc = true → q.st = .up →
    (∀ f : RxFlit, f.crcOk = false ∨ f.trainNo ≠ q.trainNo → ∃ t h, exec (.flitReceive p f) s = .next t ∧ Only [.ports, .free] s t ∧ portOf p t = some h
        ∧ h.nakSent = true ∧ h.ctr.crcFail = add32 q.ctr.crcFail 1 ∧ h.rxE = q.rxE ∧ h.held = q.held ∧ h.assocs = q.assocs)
    ∧ (∀ f : RxFlit, f.crcOk = true → f.fmt = 1 → f.ftype = 1 → f.trainNo = q.trainNo → f.nak = false → f.msgs = [] → ∃ t h, exec (.flitReceive p f) s = .next t
        ∧ Only [.ports, .free] s t ∧ portOf p t = some h
        ∧ (f.seq % 4096 = q.rxE % 4096 → h.rxE = (q.rxE + 1) % 4096 ∧ h.nakSent = false)
        ∧ (0 < (f.seq + 4096 - q.rxE) % 4096 → (f.seq + 4096 - q.rxE) % 4096 < 2048 → h.rxE = q.rxE ∧ h.nakSent = true)
        ∧ (2048 ≤ (f.seq + 4096 - q.rxE) % 4096 → h.rxE = q.rxE ∧ h.nakSent = q.nakSent)
        ∧ (f.ack = q.lastAck → h.held = q.held)
        ∧ (∀ n, 0 < n → n ≤ q.held.length → n < 4096 → q.lastAck < 4096 → f.ack = (q.lastAck + n) % 4096 → h.held = q.held.drop n))
    ∧ (∀ c : Lctl, q.sinceIdle < 4095 → q.lctl.find? (·.sent.isNone) = some c → ∃ t f, exec (.flitSend p) s = .next t ∧ Only [.ports, .outs] s t ∧ t.fabOut = s.fabOut ++ [f]
        ∧ f.ftype = 3 ∧ f.ctl.map (fun x => x.1.op) = some c.op ∧ f.ack = (q.rxE + 4095) % 4096 ∧ f.nak = q.nakSent)
    ∧ (∀ h0 : HeldFlit, q.sinceIdle < 4095 → (∀ c ∈ q.lctl, c.sent.isSome = true) → q.resend ≠ 0 → q.held[q.held.length - q.resend]? = some h0 → ∃ t f h, exec (.flitSend p) s = .next t
        ∧ Only [.ports, .outs] s t ∧ t.fabOut = s.fabOut ++ [f] ∧ f.ftype = 1 ∧ f.seq = h0.seq ∧ f.msgs = h0.msgs ∧ portOf p t = some h ∧ h.resend = q.resend - 1
        ∧ h.txSeq = q.txSeq)
    ∧ (4095 ≤ q.sinceIdle ∨ ((∀ c ∈ q.lctl, c.sent.isSome = true) ∧ q.resend = 0 ∧ q.txq = [] ∧ q.txLeft = 0) → ∃ t f h, exec (.flitSend p) s = .next t ∧ Only [.ports, .outs] s t
        ∧ t.fabOut = s.fabOut ++ [f] ∧ f.ftype = 2 ∧ f.ack = (q.rxE + 4095) % 4096 ∧ f.nak = q.nakSent ∧ portOf p t = some h ∧ h.held = q.held ∧ h.txSeq = q.txSeq)
    ∧ (∀ x : TxItem, (∀ c ∈ q.lctl, c.sent.isSome = true) → q.resend = 0 → q.held.length < 1024 → q.sinceIdle < 4095 → q.txLeft = 0 → q.txq = [x] → creditFor q x = true →
        gateTx p x s = true → plainMsg x.msg = true ∨ admitted p x.msg.dst s = true → wireLen x.msg ≤ 238 → ∃ t f h, exec (.flitSend p) s = .next t
          ∧ Only [.ports, .outs, .sags, .obs, .host] s t ∧ t.fabOut = s.fabOut ++ [f] ∧ f.ftype = 1 ∧ f.seq = q.txSeq ∧ f.msgs = [x.msg]
          ∧ portOf p t = some h ∧ h.txq = [] ∧ h.txSeq = (q.txSeq + 1) % 4096 ∧ h.held = q.held ++ [⟨q.txSeq, s.now, 0, [x.msg]⟩])

/-- Admission and rekeying: HELLO of an allowed AID is answered with REPLY, another is turned away; a good PROVE admits the AID and binds it to the SID of AID_ALLOW, a bad one
does not; the keys of generation 0 come from the handshake, those of the next from the ones before (the layout of the transcripts that are hashed: log 77); REKEY switches the generation and is
acknowledged. -/
def Obligations.Admission : Prop :=
  ∀ (s : State) (m : Mhd) (q : Port) (a : Assoc), s.powered = true → portOf m.port s = some q → q.inSvc = true → q.st ≠ .down → smGet m.src q.assocs = some a →
    m.dst = q.par.portAid → m.resv = false → s.holds = false →
    (∀ nonceA xa versions : Nat, a.adm = .stranger → q.strangerAt ≤ s.now →
        ((∃ sid, a.allow = some sid) → bitOf versions 1 = true → (q.assocs.filter fun x => x.2.adm == .replied && x.1 != m.src).length < 64 → s.pen.rngFail = false →
          ∃ t b h, exec (.admitHello m ⟨nonceA, xa, versions⟩) s = .next t ∧ Only [.ports, .free] s t ∧ assocOf m.port m.src t = some b ∧ b.adm = .replied
            ∧ b.replyAt = s.now ∧ b.hand = some ((draw s).1 % 2 ^ 448, xa, transcript1 (edPublic (storedKey m.port s)) nonceA xa versions
              ((draw (draw s).2).1 % 2 ^ 256) ((draw s).1 % 2 ^ 448)) ∧ b.allow = a.allow ∧ portOf m.port t = some h ∧ ∃ x, h.txq = q.txq ++ [x] ∧ x.msg.op = 0xA1 ∧ x.msg.dst = m.src ∧ x.msg.tag = m.tag)
        ∧ (a.allow = none → ∃ t h, exec (.admitHello m ⟨nonceA, xa, versions⟩) s = .next t ∧ Only [.ports] s t ∧ assocOf m.port m.src t = some a ∧ portOf m.port t = some h
            ∧ h.ctr.strangerDrop = add32 q.ctr.strangerDrop 1 ∧ ∃ x, h.txq = q.txq ++ [x] ∧ x.msg.op = 0xA3 ∧ x.msg.status = stNOTADMITTED ∧ x.msg.dst = m.src))
    ∧ (∀ nonceA xa versions : Nat, a.adm = .stranger → s.now < q.strangerAt → exec (.admitHello m ⟨nonceA, xa, versions⟩) s = .next (dropStranger m.port s))
    ∧ (∀ ida certSig keyslot ce sid : Nat, a.adm = .replied → q.strangerAt ≤ s.now → a.allow = some sid → fabricKey keyslot s = true → q.par.certEpochMin ≤ ce → ∃ t b h,
        exec (.admitProve m ⟨ida, certSig, keyslot⟩ ce true true) s = .next t ∧ assocOf m.port m.src t = some b ∧ b.adm = .admitted ∧ b.sid = sid ∧ b.gen = 0 ∧ b.txIvc = 0
          ∧ b.certEpoch = ce ∧ (∀ x xa t1, a.hand = some (x, xa, t1) → b.keys = [(0, firstKey x xa (transcript2 t1 ida ce keyslot certSig))]) ∧ portOf m.port t = some h ∧ ∃ x, h.txq = q.txq ++ [x] ∧ x.msg.op = 0xA3 ∧ x.msg.status = stOK ∧ x.msg.body = [sid])
    ∧ (∀ (ida certSig keyslot ce : Nat) (c1 c2 : Bool), a.adm = .replied → q.strangerAt ≤ s.now → fabricKey keyslot s = false ∨ c1 = false ∨ c2 = false ∨ ce < q.par.certEpochMin →
        ∃ t b, exec (.admitProve m ⟨ida, certSig, keyslot⟩ ce c1 c2) s = .next t ∧ assocOf m.port m.src t = some b ∧ b.adm = .stranger ∧ b.allow = a.allow)
    ∧ (a.adm = .replied → a.replyAt + 100000000 ≤ s.now →
        exec (.admitTimeout m.port m.src) s = .next (modAssoc m.port m.src (fun a => freshAssoc a.allow) s))
    ∧ (∀ gen : Nat, a.adm = .admitted → a.rekeying = false → gen = a.gen + 1 → ∃ t b h, exec (.rekey m gen) s = .next t ∧ Only [.ports] s t
        ∧ assocOf m.port m.src t = some b ∧ b.gen = gen ∧ b.txIvc = 0 ∧ b.rekeying = false
        ∧ (∀ k, smGet a.gen a.keys = some k → smGet gen a.keys = none → smGet gen b.keys = some (nextKey k)) ∧ portOf m.port t = some h
        ∧ ∃ x, h.txq = q.txq ++ [x] ∧ x.msg.op = 0xA5 ∧ x.msg.dst = m.src ∧ x.msg.body = [gen])
    ∧ (∀ gen : Nat, a.adm = .admitted → gen ≠ a.gen + 1 → exec (.rekey m gen) s = .next (protoErr m.port s))
    ∧ (∀ gen : Nat, a.adm = .admitted → a.rekeying = true → gen = a.gen + 1 → ∃ t b, exec (.rekeyAck m gen) s = .next t ∧ Only [.ports] s t
        ∧ assocOf m.port m.src t = some b ∧ b.gen = gen ∧ b.txIvc = 0 ∧ b.rekeying = false ∧ b.sid = a.sid ∧ b.adm = .admitted)
    ∧ (s.alive = true → a.adm = .admitted → a.rekeying = false → 2 ^ 47 ≤ a.txIvc → ∃ t b h, exec (.ivcLimit m.port m.src) s = .next t ∧ Only [.ports] s t
        ∧ assocOf m.port m.src t = some b ∧ b.rekeying = true ∧ b.gen = a.gen ∧ portOf m.port t = some h
        ∧ ∃ x, h.txq = q.txq ++ [x] ∧ x.msg.op = 0xA4 ∧ x.msg.body = [a.gen + 1])
    ∧ (∀ w : IvcWin, a.old = some w → a.oldUntil ≤ s.now →
        exec (.rekeyWindowEnd m.port m.src) s = .next (modAssoc m.port m.src (fun a => eraseKeys { a with old := none, oldUntil := 0 }) s))

/-! ### Observation (15) -/

/-- Counters, mirrors, trace and shelves: OBS_COUNTERS answers the counter block and starts the peaks again; OBS_MIRROR_SET sets or stops a mirror; TRACE_CONFIG stores its
parameters while the trace does not run; TRACE_CTRL starts, stops, clears and acknowledges; TRACE_READ answers records; the shelf commands need their scope bits. -/
def Obligations.ObservationCommands : Prop :=
  ∀ (s : State) (r : Nat) (f : Inflight),
    (∀ sid : Nat, Ready r 0x80 256 s f → sid ≤ 4094 → sagState sid s ≠ .free →
        exec (.obsCounters r sid) s = .next (okItem r [.words (ctrBlock sid 0 (latched r 0 s))] (clearPeaks sid (latched r 0 s))))
    ∧ (∀ sid : Nat, Ready r 0x80 256 s f → sagState sid s = .free → Refuses (.obsCounters r sid) r 0x80 stDENIED 3 s)
    ∧ (∀ sid p hb hp he : Nat, Ready r 0x81 0 s f → sid ≤ 4094 → sagState sid s ≠ .free →
        exec (.obsMirrorSet r sid 0 p hb hp he) s = .next (ok r [] { latched r sid s with obs.mirrors := smDel sid s.obs.mirrors }))
    ∧ (∀ sid ppa p hb hp he : Nat, Ready r 0x81 0 s f → sid ≤ 4094 → sagState sid s ≠ .free → ppa ≠ 0 → ppa % 2 ^ 21 = 0 → localValid ppa s = true → warmPage ppa s = false →
        dieState (ppa / 2 ^ 42 % 8) s = .inService → 1000000 ≤ p → p ≤ 60000000000 → hb % 2 ^ 21 = 0 → hb < 2 ^ 52 → hp ≤ 524288 → 1 ≤ he → he ≤ 65535 → ∃ t,
        exec (.obsMirrorSet r sid ppa p hb hp he) s = .next t ∧ Only [.host, .obs] s t ∧ smGet sid t.obs.mirrors = some ⟨ppa, p, hb, hp, he, s.now + p, 0, 0, 0, 0⟩)
    ∧ (∀ c : TraceCfg, Ready r 0x82 0 s f → c.mode < 3 → c.sources < 512 → c.sagger = 0 → c.data = 0 → c.ports < 65536 → c.vcs < 128 → c.sidFilter ≤ 4095 →
        100 ≤ c.spillRate → c.spillRate ≤ 32000 → s.obs.trace.st = 0 ∨ s.obs.trace.st = 2 →
        exec (.traceConfig r c) s = .next (ok r [] { latched r 0 s with obs.trace.cfg := c }))
    ∧ (∀ c : TraceCfg, Ready r 0x82 0 s f → c.mode < 3 → c.sources < 512 → c.sagger = 1 → c.data < 2 → scopeOpen 0 s = false →
        Refuses (.traceConfig r c) r 0x82 stDENIED 3 s)
    ∧ (∀ n : Nat, Ready r 0x83 0 s f → s.obs.trace.st = 0 ∨ s.obs.trace.st = 2 → exec (.traceCtrl r 0 n) s = .next (ok r [] (traceState 1 (latched r 0 s))))
    ∧ (∀ n : Nat, Ready r 0x83 0 s f → s.obs.trace.st = 1 ∨ s.obs.trace.st = 3 → ∃ t, exec (.traceCtrl r 1 n) s = .next t ∧ t.obs.trace.st = 2
        ∧ t.obs.contact.resumeTrace = false ∧ inflightOf r t = none)
    ∧ (∀ n : Nat, Ready r 0x83 0 s f → s.obs.trace.spillAck ≤ n → n ≤ s.obs.trace.spillPos →
        exec (.traceCtrl r 3 n) s = .next (ok r [] { latched r 0 s with obs.trace.spillAck := n }))
    ∧ (∀ first count : Nat, Ready r 0x84 (32 * count) s f → 0 < count → first + count ≤ s.obs.trace.written → exec (.traceRead r first count) s = .next (okItem r
        [.words ((List.range count).flatMap fun i => traceWords (traceAt (first + i) (latched r 0 s)))] (latched r 0 s)))
    ∧ (∀ first count : Nat, Ready r 0x84 (32 * count) s f → s.obs.trace.written < first + count → Refuses (.traceRead r first count) r 0x84 stLENGTH 4 s)
    ∧ (∀ (n : Nat) (ppas : List Nat), Ready r 0x85 0 s f → (∀ c ∈ grantChks n ppas s, c.bad = false) → s.obs.trace.cfg.mode ≠ 2 → exec (.traceSpillGrant r n ppas) s
        = .next (ok r [] (wipePages (grantPages n ppas) { latched r 0 s with obs.trace.spillPages := s.obs.trace.spillPages ++ grantPages n ppas })))
    ∧ (∀ (sh off len : Nat) (x : Shelf), Ready r 0x89 len s f → sh < 320 → shelfOf sh s = some x → scopeOpen 2 s = true → 0 < len → len ≤ 2 ^ 20 → off + len ≤ 0x600000 →
        exec (.shelfSramRead r sh off len) s = .next (okItem r [.words (byteSlice (sramWord x) off len)] (latched r 0 s)))
    ∧ (∀ sh off len : Nat, Ready r 0x89 len s f → scopeOpen 2 s = false → Refuses (.shelfSramRead r sh off len) r 0x89 stDENIED 3 s)
    ∧ (∀ (sh mode steps : Nat) (x : Shelf), Ready r 0x8A 32800 s f → sh < 320 → shelfOf sh s = some x → scopeOpen 3 s = true → mode < 3 → ∃ t y,
        exec (.shelfStep r sh mode steps) s = .next t ∧ Only [.host, .kiln, .obs] s t ∧ shelfOf sh t = some y ∧ y.lanes = x.lanes ∧ y.idx = x.idx
          ∧ (mode = 0 → y.hold = 0 ∧ y.held = false) ∧ (mode = 1 → y.hold = 1 ∧ y.held = x.held) ∧ (mode = 2 → 0 < steps → y.hold = 2 ∧ y.steps = steps ∧ y.held = false))

/-- Contact sheets: CONTACT_TAKE begins the cut and waits; each die's marker adds its sections; with the last the pause ends and the sheet is held; CONTACT_READ gives its
bytes and CONTACT_RELEASE frees it. -/
def Obligations.ContactSheets : Prop :=
  ∀ (s : State) (r : Nat) (f : Inflight),
    (Ready r 0x86 0 s f → 32 ≤ s.obs.trace.banks → s.obs.contact.st = 0 → (∀ p ∈ s.twin.planes, p.st ≠ .resync) → ∃ t, exec (.contactTake r false) s = .next t
        ∧ t.obs.contact.st = 1 ∧ t.obs.contact.number = s.obs.contact.number + 1 ∧ t.obs.contact.ring = r ∧ t.obs.contact.tStart = s.now
        ∧ (∀ u, u ∈ t.obs.contact.units ↔ u < 24 ∧ unitUp u s = true) ∧ t.obs.contact.waitUnits = t.obs.contact.units ∧ (inflightOf r t).map (·.parked) = some (some .contact)
        ∧ t.holds = true ∧ t.mem = s.mem ∧ t.dir = s.dir ∧ t.kiln = s.kiln ∧ t.xlt = s.xlt ∧ t.sags = s.sags)
    ∧ (∀ data : Bool, Ready r 0x86 0 s f → s.obs.trace.banks < 32 → Refuses (.contactTake r data) r 0x86 stDENIED 3 s)
    ∧ (Ready r 0x86 0 s f → 32 ≤ s.obs.trace.banks → s.obs.contact.st = 2 → Refuses (.contactTake r false) r 0x86 stBUSY 7 s)
    ∧ (∀ u : Nat, s.on = true → s.obs.contact.st = 1 → u ∈ s.obs.contact.waitUnits → unitUp u s = true → ∃ t, exec (.contactMarker u) s = .next t ∧ Only [.obs] s t
        ∧ t.obs = { s.obs with contact := t.obs.contact } ∧ u ∉ t.obs.contact.waitUnits ∧ (∀ v ∈ s.obs.contact.waitUnits, v ≠ u → v ∈ t.obs.contact.waitUnits)
        ∧ t.obs.contact.sections = s.obs.contact.sections ++ (if u < 8 then kilnSects u s else portSects (u - 8) s) ∧ t.obs.contact.st = 1)
    ∧ (s.on = true → s.obs.contact.st = 1 → (∀ u ∈ s.obs.contact.waitUnits, unitUp u s = false) → s.twin.rxWait = [] → ∃ t, exec .contactDone s = .next t
        ∧ t.obs.contact.st = 2 ∧ t.obs.contact.tEnd = s.now ∧ t.obs.contact.pause = min (s.now - s.obs.contact.tStart) 200000
        ∧ t.obs.contact.sections = s.obs.contact.sections ∧ t.twin.pauseLen = min (s.now - s.obs.contact.tStart) 200000 ∧ t.mem = s.mem
        ∧ ∀ (aid : Nat) (a : Agent), smGet aid s.dir.agents = some a → a.kind = 1 → a.lapsed = false → ∃ b, smGet aid t.dir.agents = some b
          ∧ b.expiry = a.expiry + min (s.now - s.obs.contact.tStart) 200000)
    ∧ ((∃ u ∈ s.obs.contact.waitUnits, unitUp u s = true) → exec .contactDone s = .next s)
    ∧ (∀ off len : Nat, Ready r 0x87 len s f → s.obs.contact.st = 2 → 0 < len → off + len ≤ sheetLen s.obs.contact → exec (.contactRead r off len) s
        = .next (okItem r [.words (byteSlice (fun i => (sheetWords s.obs.contact).getD i 0) off len)] (latched r 0 s)))
    ∧ (∀ off len : Nat, Ready r 0x87 len s f → s.obs.contact.st = 2 → sheetLen s.obs.contact < off + len → Refuses (.contactRead r off len) r 0x87 stLENGTH 4 s)
    ∧ (∀ off len : Nat, Ready r 0x87 len s f → s.obs.contact.st = 0 → Refuses (.contactRead r off len) r 0x87 stCONFLICT 7 s)
    ∧ (Ready r 0x88 0 s f → s.obs.contact.st = 2 → s.obs.contact.resumeTrace = false → ∃ t, exec (.contactRelease r) s = .next t ∧ Only [.host, .obs] s t ∧ t.obs.contact.st = 0
        ∧ t.obs.contact.sections = [] ∧ inflightOf r t = none)
    ∧ (Ready r 0x88 0 s f → s.obs.contact.st ≠ 2 → Refuses (.contactRelease r) r 0x88 stCONFLICT 7 s)

/-- Records: an event record takes the next EVSEQ and goes to the hub buffer, waits at its source, or is lost and counted; the trace takes the records that its filters
want; the mirror pages and the spill ring are written when they are due. -/
def Obligations.RecordsAndMirrors : Prop :=
  ∀ s : State,
    (∀ (k sid region unit : Nat) (body : List Nat), ∃ e : Event, (emitRaw k sid region unit body s).host.evSeq = add64 s.host.evSeq 1 ∧ e.kind = k ∧ e.sid = sid
        ∧ e.region = region ∧ e.unit = unit ∧ e.body = body ∧ e.seq = s.host.evSeq
        ∧ (s.host.evBuf.length < 4096 → (emitRaw k sid region unit body s).host.evBuf = s.host.evBuf ++ [e]
          ∧ (emitRaw k sid region unit body s).host.evKept = s.host.evKept ∧ (emitRaw k sid region unit body s).host.evtLost = s.host.evtLost)
        ∧ (4096 ≤ s.host.evBuf.length → keptKind k = true → (emitRaw k sid region unit body s).host.evBuf = s.host.evBuf
          ∧ (emitRaw k sid region unit body s).host.evKept = s.host.evKept ++ [e] ∧ (emitRaw k sid region unit body s).host.evtLost = s.host.evtLost)
        ∧ (4096 ≤ s.host.evBuf.length → keptKind k = false → (emitRaw k sid region unit body s).host.evBuf = s.host.evBuf
          ∧ (emitRaw k sid region unit body s).host.evKept = s.host.evKept ∧ (emitRaw k sid region unit body s).host.evtLost = add32 s.host.evtLost 1))
    ∧ (∀ (x : TraceRec) (body : List Nat), traceWants x s.obs.trace = false → traceMsg x body s = s)
    ∧ (∀ (x : TraceRec) (body : List Nat), s.obs.trace.st = 0 → traceMsg x body s = s)
    ∧ (∀ x : TraceRec, traceWants x s.obs.trace = true → s.obs.trace.st = 1 → s.obs.trace.cfg.mode = 0 → s.obs.trace.cfg.data = 0 → smGet x.source s.obs.trace.missed = none →
        0 < s.obs.trace.recs.length → ∃ t, traceMsg x [] s = t ∧ t.obs.trace.written = add64 s.obs.trace.written 1 ∧ t.obs.trace.recs.getLast? = some (maskRec s x)
          ∧ (s.obs.trace.recs.length < traceCap s → t.obs.trace.recs = s.obs.trace.recs ++ [maskRec s x] ∧ t.obs.trace.first = s.obs.trace.first)
          ∧ (traceCap s ≤ s.obs.trace.recs.length → t.obs.trace.recs = s.obs.trace.recs.drop 1 ++ [maskRec s x] ∧ t.obs.trace.first = s.obs.trace.first + 1))
    ∧ (∀ (sid : Nat) (m : Mirror), s.powered = true → smGet sid s.obs.mirrors = some m → m.due ≤ s.now → ∃ t, exec (.mirrorUpdate sid) s = .next t
        ∧ smGet sid t.obs.mirrors = some { m with seq := m.seq + 2, updates := m.updates + 1, due := m.due + m.period })
    ∧ (∀ (sid : Nat) (m : Mirror), smGet sid s.obs.mirrors = some m → s.now < m.due → exec (.mirrorUpdate sid) s = .next s)
    ∧ (∀ (sid : Nat) (m : Mirror), s.powered = true → smGet sid s.obs.mirrors = some m → m.heatPages ≠ 0 → m.heatEvery ≤ m.updates → ∃ t,
        exec (.heatMirrorUpdate sid) s = .next t ∧ smGet sid t.obs.mirrors = some { m with updates := 0, heatSeq := m.heatSeq + 2, heatTally := s.now })
    ∧ (∀ (x : TraceRec) (rest : List TraceRec), s.powered = true → s.obs.trace.recs = x :: rest → s.obs.trace.st = 1 → s.obs.trace.cfg.mode = 2 →
        s.obs.trace.spillPos - s.obs.trace.spillAck < 65536 * s.obs.trace.spillPages.length → ∃ t, exec .traceSpill s = .next t ∧ t.obs.trace.recs = rest
          ∧ t.obs.trace.first = s.obs.trace.first + 1 ∧ t.obs.trace.spillPos = s.obs.trace.spillPos + 1 ∧ t.host = s.host)
    ∧ (∀ (x : TraceRec) (rest : List TraceRec), s.powered = true → s.obs.trace.recs = x :: rest → s.obs.trace.st = 1 → s.obs.trace.cfg.mode = 2 →
        65536 * s.obs.trace.spillPages.length ≤ s.obs.trace.spillPos - s.obs.trace.spillAck → exec .traceSpill s = .next (traceState 2 s))

/-! ### Peneno (12) -/

/-- Token commands: the token's check consumes the nonce whether it passes or fails; with a right token the safelight opens, the life cycle moves or factory debug opens. A nonce
lapses after its time, and the safelight closes by command, at its duration, or not at all. -/
def Obligations.TokensAndSafelight : Prop :=
  ∀ (s : State) (r : Nat) (f : Inflight),
    (Ready r 0x97 0 s f → s.pen.rngFail = false → ∃ t n, exec (.tokenNonce r) s = .next t ∧ t.pen = { s.pen with nonce := some (n, s.now) } ∧ n < 2 ^ 256
        ∧ Only [.host, .obs, .pen, .free] s t ∧ Replied r 0x97 stOK (w256 n) [] s t)
    ∧ (Ready r 0x97 0 s f → s.pen.rngFail = true → Refuses (.tokenNonce r) r 0x97 stBUSY 7 s)
    ∧ (∀ n t0 : Nat, s.powered = true → s.pen.nonce = some (n, t0) → t0 + 60000000000 ≤ s.now → exec .nonceLapse s = .next { s with pen.nonce := none })
    ∧ (∀ n t0 : Nat, s.pen.nonce = some (n, t0) → s.now < t0 + 60000000000 → exec .nonceLapse s = .next s)
    ∧ (Ready r 0x95 0 s f → s.pen.safelight = 0 →
        exec (.safelightArm r) s = .next (ok r [] (emit 0x23 4095 3 0 [] { latched r 0 s with pen.safelight := 1, pen.slSince := s.now })))
    ∧ (Ready r 0x95 0 s f → s.pen.safelight ≠ 0 → Refuses (.safelightArm r) r 0x95 stCONFLICT 7 s)
    ∧ (Ready r 0x98 0 s f → s.pen.safelight ≠ 0 → ∃ t, exec (.safelightClose r) s = .next t ∧ t.pen = { s.pen with safelight := 0, slSince := s.now, slScope := 0, slDuration := 0 }
        ∧ inflightOf r t = none ∧ t.mem = s.mem ∧ t.kiln = s.kiln)
    ∧ (Ready r 0x98 0 s f → s.pen.safelight = 0 → Refuses (.safelightClose r) r 0x98 stCONFLICT 7 s)
    ∧ (s.powered = true → s.pen.safelight = 2 → s.pen.slSince + s.pen.slDuration ≤ s.now → ∃ t, exec .safelightExpiry s = .next t
        ∧ t.pen = { s.pen with safelight := 0, slSince := s.now, slScope := 0, slDuration := 0 })
    ∧ (∀ (it : Item) (t : Token), (∀ c ∈ tokenChks it t [] s, c.bad = false) →
        (∀ (g : GenRec), Ready r 0x96 0 s f → t.purpose = 3 → 1000000000 ≤ t.duration → t.duration ≤ 86400000000000 → t.scope < 32 → tokenBad 3 t s = false →
            s.pen.safelight = 1 → s.pen.otp.lc = 2 → genNow s = some g → s.pen.slSince + g.armNotice ≤ s.now → ∃ u, exec (.safelightOpen r it t) s = .next u
              ∧ u.pen = { s.pen with nonce := none, safelight := 2, slSince := s.now, slScope := t.scope, slDuration := t.duration } ∧ inflightOf r u = none)
        ∧ (∀ (g : GenRec), Ready r 0x96 0 s f → t.purpose = 3 → 1000000000 ≤ t.duration → t.duration ≤ 86400000000000 → t.scope < 32 → tokenBad 3 t s = false →
            s.pen.safelight = 1 → s.pen.otp.lc = 2 → genNow s = some g → s.now < s.pen.slSince + g.armNotice → ∃ u, exec (.safelightOpen r it t) s = .next u
              ∧ u.pen = { s.pen with nonce := none } ∧ ∃ x : Reply, u.host.statusQ.getLast? = some x ∧ x.status = stBUSY)
        ∧ (Ready r 0x96 0 s f → t.purpose = 3 → 1000000000 ≤ t.duration → t.duration ≤ 86400000000000 → t.scope < 32 → tokenBad 3 t s = true →
            ∃ u, exec (.safelightOpen r it t) s = .next u ∧ u.pen = { s.pen with nonce := none } ∧ ∃ x : Reply, u.host.statusQ.getLast? = some x ∧ x.status = stDENIED)
        ∧ (Ready r 0x93 0 s f → s.pen.otp.lc = 1 ∨ s.pen.otp.lc = 2 → tokenBad 1 t s = false → tenantsFree s = true → s.pen.busy = none →
            exec (.lcReturn r it t) s = .next (ok r [] { latched r 0 s with pen.nonce := none, pen.busy := some (.lc 3) }))
        ∧ (Ready r 0x94 0 s f → s.pen.otp.lc ≠ 4 → tokenBad 2 t s = false → tenantsFree s = true → s.pen.busy = none →
            exec (.lcScrap r it t) s = .next (ok r [] { latched r 0 s with pen.nonce := none, pen.busy := some (.lc 4) }))
        ∧ (Ready r 0x93 0 s f → s.pen.otp.lc = 1 ∨ s.pen.otp.lc = 2 → tokenBad 1 t s = false → tenantsFree s = false → ∃ u, exec (.lcReturn r it t) s = .next u
            ∧ u.pen = { s.pen with nonce := none } ∧ ∃ x : Reply, u.host.statusQ.getLast? = some x ∧ x.status = stCONFLICT)
        ∧ (Ready r 0xF3 0 s f → s.pen.otp.lc = 0 ∨ s.pen.otp.lc = 3 → tokenBad 4 t s = false →
            exec (.facDebugOpen r it t) s = .next (ok r [] { latched r 0 s with pen.nonce := none, pen.factoryDebug := true })))

/-- Burning: a command that writes OTP in the life cycle that allows it starts its burn and waits; the burn that ends has set its bits; LC_CHANGED moves the life cycle,
erases the tenants' state and ends the session. -/
def Obligations.OneTimeMemory : Prop :=
  ∀ (s : State) (r : Nat) (f : Inflight),
    (∀ (len : Nat) (it : Item) (g : GenRec), len ≠ 0 → (∀ c ∈ genChks len it g false false s, c.bad = false) → s.pen.busy = none →
        (Ready r 0x91 0 s f → s.pen.otp.lc = 2 → slotsUsed s ≠ 4 → g.gen = slotsUsed s + 1 →
          exec (.otpGenWrite r len it g true) s = .next (burn r (.gen g) { latched r 0 s with pen.otp.used := s.pen.otp.used.set (g.gen - 1) true }))
        ∧ (Ready r 0x92 0 s f → s.pen.otp.lc = 1 → g.gen = 1 → s.pen.otp.used.getD 0 false = false →
          exec (.lcSeal r len it g true) s = .next (burn r (.seal g) { latched r 0 s with pen.otp.used := s.pen.otp.used.set 0 true }))
        ∧ (Ready r 0x91 0 s f → Refuses (.otpGenWrite r len it g false) r 0x91 stDENIED 3 s)
        ∧ (Ready r 0x92 0 s f → s.pen.otp.lc ≠ 1 → Refuses (.lcSeal r len it g true) r 0x92 stDENIED 3 s))
    ∧ (∀ (it : Item) (g : GenRec) (k : Bool), it.off % 64 = 0 →
        (Ready r 0x91 0 s f → s.pen.otp.lc = 2 → slotsUsed s ≠ 4 → exec (.otpGenWrite r 0 it g k) s = .next (ok r [] (latched r 0 s)))
        ∧ (Ready r 0x92 0 s f → s.pen.otp.lc = 1 → exec (.lcSeal r 0 it g k) s = .next (ok r [] (latched r 0 s)))
        ∧ (∀ c : Nat, Ready r 0xF0 0 s f → s.pen.otp.lc = 0 → exec (.facCertWrite r 0 it c k) s = .next (ok r [] (latched r 0 s))))
    ∧ (∀ type : Nat, Ready r 0x99 0 s f → 1 ≤ type → type ≤ 4 → s.pen.busy = none → ∃ v, exec (.fwSvnCommit r type) s = .next (burn r (.svn type v) (latched r 0 s))
        ∧ svnMin type s ≤ v ∧ (∀ x : Loaded, imageOf type s = some x → svnMin type s ≤ x.svn → x.svn ≤ 64 → v = x.svn) ∧ (imageOf type s = none → v = svnMin type s))
    ∧ (∀ (len c : Nat) (it : Item) (k : Bool), Ready r 0xF0 0 s f → GoodItem it len s → s.pen.otp.lc = 0 → len ≠ 0 → len ≤ 2048 → s.pen.busy = none →
        exec (.facCertWrite r len it c k) s = .next (burn r (.cert c k) (latched r 0 s)))
    ∧ (Ready r 0xF1 0 s f → s.pen.otp.lc = 0 → (s.pen.otp.cert.map (·.2)) = some true → s.pen.busy = none →
        exec (.facProvision r) s = .next (burn r .provision (latched r 0 s)))
    ∧ (Ready r 0xF1 0 s f → s.pen.otp.lc = 0 → s.pen.otp.cert = none → Refuses (.facProvision r) r 0xF1 stCONFLICT 7 s)
    ∧ (∀ mask : Nat, Ready r 0xF2 0 s f → mask < 64 → s.pen.otp.lc = 0 ∨ s.pen.otp.lc = 3 → s.pen.busy = none →
        exec (.facFwRevoke r mask) s = .next (burn r (.revoke mask) (latched r 0 s)))
    ∧ (∀ mask : Nat, Ready r 0xF2 0 s f → mask < 64 → s.pen.otp.lc = 2 → Refuses (.facFwRevoke r mask) r 0xF2 stDENIED 3 s)
    ∧ (Ready r 0xF4 24576 s f → s.pen.otp.lc = 0 ∨ s.pen.otp.lc = 3 → exec (.facOtpDump r) s = .next (okItem r [.words (otpWords s)] (latched r 0 s)))
    ∧ (Ready r 0xF4 24576 s f → s.pen.otp.lc = 2 → Refuses (.facOtpDump r) r 0xF4 stDENIED 3 s)
    ∧ (∀ b : Burn, s.alive = true → r < 4 → inflightOf r s = some f → f.parked = some .peneno → s.pen.busy = some b → (∀ t, b ≠ .lc t) →
        exec (.parkedCommandComplete r) s = .next (ok r [] (endBurn b s)))
    ∧ (∀ g : GenRec, (endBurn (.seal g) s).pen.otp.lc = max s.pen.otp.lc 2 ∧ (endBurn (.seal g) s).pen.inForce = 1 ∧ (endBurn (.seal g) s).pen.busy = none)
    ∧ (∀ m : Nat, (endBurn (.revoke m) s).pen.otp.fwRevoke = Nat.lor s.pen.otp.fwRevoke m)
    ∧ (∀ t : Nat, s.powered = true → s.pen.busy = some (.lc t) → lcReplied s = true → ∃ u, exec .lcChanged s = .next u ∧ u.pen.busy = none ∧ max s.pen.otp.lc t = u.pen.otp.lc
        ∧ (t = 3 → u.pen.otp.killOwner = true ∧ u.pen.inForce = 0) ∧ (t = 4 → u.pen.otp.killUds = true) ∧ u.pen.session = false ∧ u.pen.safelight = 0
        ∧ u.xlt = resetXlt ∧ u.dir = resetDir ∧ u.outst = [] ∧ u.kiln.firings = [] ∧ u.kiln.library = [] ∧ (∀ (p : Nat) (q : Port), portOf p u = some q → q.st = .down ∧ q.assocs = [])
        ∧ u.mem = s.mem)
    ∧ (∀ t : Nat, s.pen.busy = some (.lc t) → lcReplied s = false → exec .lcChanged s = .next s)

/-- Start, firmware, proof and session: Peneno starts with a right ROM; an image that passes every check is loaded, in order; the proof waits for its walk; SPDM requests are
answered; KEY_EXCHANGE makes the secrets of a handshake (what stands in for the message bytes: log 77); FINISH opens a session with its keys and stops every ring with SEQ 0, a failed one leaves the session; a failed health test is recorded. -/
def Obligations.PenenoAndSession : Prop :=
  ∀ s : State,
    (s.powered = true → s.pen.started = false → ∃ t, exec (.penenoStart false true) s = .next t ∧ t.pen = { s.pen with romError := true } ∧ t.glb.hubReset = true
        ∧ t.mem = s.mem)
    ∧ (s.powered = true → s.pen.started = false → s.pen.otp.half = none → s.pen.otp.lc ≠ 4 → ∃ t, exec (.penenoStart true true) s = .next t ∧ t.pen.started = true
        ∧ t.pen.inForce = newestGen s.pen.otp ∧ t.pen.otp.lc = s.pen.otp.lc ∧ t.glb.step = max 2 s.glb.step ∧ t.host.irqCause = s.host.irqCause ||| 16
        ∧ t.pen.otp.udsBurned = (s.pen.otp.udsBurned || s.pen.otp.lc == 0) ∧ t.pen.romError = s.pen.romError ∧ t.pen.idKey = some (identityKey t.pen.otp.uds))
    ∧ (s.powered = true → s.pen.started = true → s.pen.rngFail = false → exec (.rngFail 1) s = .next (failRng 1 s))
    ∧ (failRng 1 s).pen = { s.pen with rngFail := true }
    ∧ (∀ v : Word, s.powered = true → s.pen.started = true → s.pen.otp.lc ≠ 4 → v.getLsbD 0 = true → s.pen.verifying = false → s.pen.fwNext ≠ 0 →
        exec (.penFwGo v) s = .next (endHostWait s.now { s with pen.verifying := true }))
    ∧ (∀ img : FwImage, s.powered = true → s.pen.verifying = true → s.host.bme = true → s.host.d3hot = false → s.pen.fwLen = 64 + img.length + 114 → 64 ≤ img.length →
        img.length ≤ 16777216 → img.length % 64 = 0 → img.fmt = 1 → img.resv = false → img.type = s.pen.fwNext → fwKeyOk img.factory img.slot s = true →
        svnMin img.type s ≤ img.svn → ∃ t, exec (.firmwareVerified true img true) s = .next t ∧ t.pen.fwResult = 1 ∧ t.pen.verifying = false
          ∧ t.pen.fwNext = (if img.type = 4 then 0 else img.type + 1) ∧ t.pen.fwLoaded = Nat.lor s.pen.fwLoaded (2 ^ (img.type - 1))
          ∧ t.pen.images = s.pen.images ++ [⟨img.type, img.slot, img.factory, img.svn, img.version, img.digest⟩] ∧ t.pen.otp = s.pen.otp)
    ∧ (∀ (dma sig : Bool) (img : FwImage), s.powered = true → s.pen.verifying = true → fwResultOf dma img sig s ≠ 1 → ∃ t, exec (.firmwareVerified dma img sig) s = .next t
        ∧ t.pen = { s.pen with verifying := false, fwResult := fwResultOf dma img sig s })
    ∧ (∀ (dma sig : Bool) (img : FwImage), fwResultOf dma img sig s = 1 → img.type = s.pen.fwNext ∧ svnMin img.type s ≤ img.svn ∧ sig = true ∧ dma = true ∧ img.fmt = 1)
    ∧ (∀ (r n : Nat) (f : Inflight), Ready r 0x90 (proofLen s) s f →
        exec (.proofGet r n) s = .next (park r (.proof (n % 2 ^ 256) []) (latched r 0 s)))
    ∧ (∀ (r n : Nat) (ch : List Nat) (f : Inflight), s.alive = true → r < 4 → inflightOf r s = some f → f.parked = some (.proof n ch) → outNeed f (proofLen s) ≤ f.outLen →
        exec (.parkedCommandComplete r) s = .next (finish r stOK 0 0xFFFFF [proofLen s, ((liveSaggers s).filter fun g => ch.contains g.1).length]
          [.words (proofWords n ch s)] s))
    ∧ (spdmReady s = true →
        exec .getVersion s = .next (spdmSay 0x04 [1, 0x1300] s) ∧ exec .getCapabilities s = .next (spdmSay 0x61 [14, 0x83D6, 4096, 4096] s)
        ∧ exec .negotiateAlgorithms s = .next (spdmSay 0x63 [1, 2, 3] s) ∧ exec .spdmUnsupported s = .next (spdmError 7 s)
        ∧ (s.pen.otp.lc ≠ 4 → (∃ ws, exec (.getCertificate 0) s = .next (spdmSay 0x02 ws s)) ∧ (∃ ws, exec (.challenge 0 0xFF) s = .next (spdmSay 0x03 ws s))
          ∧ exec (.challenge 1 0) s = .next (spdmError 1 s)
          ∧ (∀ i, 1 ≤ i → i ≤ 11 → exec (.getMeasurements i false) s = .next (spdmSay 0x60 (measurement i s) s))
          ∧ exec (.getMeasurements 0xFF true) s = .next (spdmSay 0x60 (signed (allMeasurements s) s) s)
          ∧ exec (.getMeasurements 0 true) s = .next (spdmError 1 s)
          ∧ (∀ x pub msgs z th1 verify : Nat, s.pen.rngFail = false → x = (draw s).1 % 2 ^ 448 → pub = (draw (draw s).2).1 % 2 ^ 448 → msgs = (draw (draw (draw s).2).2).1 →
              z = Config.x448 x pub % 2 ^ 448 →
              th1 = hash64 (bytesLE 64 msgs ++ leBytes (exchangeRsp x s)) → verify = hash64 (bytesLE 32 (handshakeSecret z th1 % 2 ^ 256) ++ bytesLE 64 th1) →
              exec .keyExchange s = .next (spdmSay 0x64 (exchangeRsp x s ++ natWords 16 verify)
                { (draw (draw (draw s).2).2).2 with pen.handshake := true, pen.exch := some (z, th1, verify) }))
          ∧ (s.pen.rngFail = true → exec .keyExchange s = .next (spdmError 5 s)))
        ∧ (s.pen.otp.lc = 4 → exec (.getCertificate 0) s = .next (spdmError 7 s)
          ∧ exec .keyExchange s = .next (spdmError 7 s)))
    ∧ (spdmReady s = true → s.pen.otp.lc ≠ 4 → s.pen.handshake = true → (s.pen.otp.lc = 2 → (genNow s).isSome = true) → ∀ fin : List Nat, ∃ t ws, exec (.finish true ⟨true, fin⟩) s = .next t
        ∧ t.pen = { s.pen with session := true, handshake := false, exch := none, keys := s.pen.exch.map fun e => sessionKeys e.1 e.2.1 e.2.2 fin }
        ∧ t.hostOut = s.hostOut ++ [.spdm 0x65 ws]
        ∧ ∀ (r : Nat) (g : Ring), ringOf r s = some g → ∃ h, ringOf r t = some h ∧ h.st = .stopped ∧ h.seq = 0 ∧ h.prod = 0 ∧ h.cons = 0 ∧ h.base = g.base ∧ h.size = g.size)
    ∧ (∀ (k v : Bool) (fin : List Nat), spdmReady s = true → s.pen.otp.lc ≠ 4 → s.pen.handshake = true → (v = false ∨ s.pen.otp.lc = 2 ∧ k = false) →
        exec (.finish k ⟨v, fin⟩) s = .next (spdmError 6 { s with pen.handshake := false, pen.exch := none }))

/-! ### Power, start, tally and planes (11, 13, 14) -/

/-- Power and start: 64 V good starts the rails in the state that power-on leaves; the rails, the hub's reset, the tally, the dies, the arrays, the firmware and the pool come up in
order, each under its conditions; a bad rail, an input that is lost or too hot a hub stops the module; a module reset keeps the rails. -/
def Obligations.PowerAndStart : Prop :=
  ∀ s : State,
    (∀ b : Board, s.glb.inputGood = false → s.glb.blocked = false → s.glb.pwrFail = false → ∃ t, exec (.inputGood b) s = .next t ∧ t.glb.inputGood = true
        ∧ t.glb.board = some b ∧ t.glb.hubReset = true ∧ t.glb.group = 0 ∧ t.tal.running = false ∧ t.mem.lines = [] ∧ t.mem.fills = [] ∧ t.xlt = resetXlt ∧ t.dir = resetDir
        ∧ t.host = resetHost ∧ t.mem.hardRows = s.mem.hardRows ∧ t.pending = s.pending)
    ∧ (s.glb.inputGood = true → s.glb.blocked = false → s.glb.pwrFail = false → s.glb.group < 3 →
        exec .railGroupGood s = .next { s with glb.group := s.glb.group + 1, side.pwrGood := s.glb.group == 2 }
        ∧ ∀ rail, exec (.railFault rail) s = .next (ibi 0x04 { s with glb.group := 0, glb.blocked := true, glb.railFault := true, side.pwrGood := false }))
    ∧ (s.glb.group = 3 → s.glb.pwrFail = false → s.glb.mrst = false → s.pen.romError = false → s.glb.hubReset = true →
        exec .hubResetRelease s = .next { s with glb.hubReset := false })
    ∧ (∀ b : Board, s.glb.hubReset = false → s.glb.pwrFail = false → s.tal.running = false → s.glb.board = some b → b.refOk = true →
        exec .tallyStart s = .next { (draw s).2 with tal.now := 0, tal.running := true, tal.locked := true, tal.refOk := true, dir.handleKey := (draw s).1 })
    ∧ (∀ mv : Nat, s.glb.inputGood = true → s.on = true → 53000 ≤ mv → mv < 56000 → s.glb.lastLow = none →
        exec (.inputLow mv) s = .next (ibi 0x06 (emit 0x1F 4095 0 0 [mv] { s with glb.inputLow := true, glb.lastLow := some s.now })))
    ∧ (∀ mv t0 : Nat, s.glb.inputGood = true → s.on = true → 53000 ≤ mv → mv < 56000 → s.glb.lastLow = some t0 → s.now < t0 + 1000000000 →
        exec (.inputLow mv) s = .next { s with glb.inputLow := true })
    ∧ exec .inputLowClear s = .next { s with glb.inputLow := false }
    ∧ (∀ ov : Bool, s.glb.inputGood = true → s.glb.blocked = false → s.glb.pwrFail = false → ∃ t, exec (.pwrFail ov) s = .next t ∧ t.glb.pwrFail = true
        ∧ t.glb.pwrFailAt = s.now ∧ t.glb.inputGood = false ∧ t.side.pwrGood = false ∧ t.on = false ∧ (∀ (p : Nat) (q : Port), portOf p t = some q → q.st = .down)
        ∧ t.mem = s.mem ∧ (ov = true → t.glb.disconnected = true) ∧ (s.side.ibiOn = true → .ibi 0x03 ∈ t.sideOut))
    ∧ (s.glb.group = 3 → s.glb.pwrFail = false → ∃ t, exec .hubOvertemp s = .next t ∧ t.glb.pwrFail = true ∧ t.glb.blocked = true ∧ t.glb.disconnected = true ∧ t.mem = s.mem)
    ∧ (s.glb.pwrFail = true → s.glb.pwrFailAt + 200000 ≤ s.now → ∃ t, exec .pwrFailRailsOff s = .next t ∧ t.glb.pwrFail = false ∧ t.glb.hubReset = true ∧ t.glb.group = 0
        ∧ t.tal.running = false ∧ t.mem.lines = [] ∧ t.glb.inputGood = s.glb.inputGood)
    ∧ (s.glb.mrst = false → s.glb.pwrFail = false → s.glb.inputGood = true → s.glb.group = 3 → ∃ t, exec .mrstN s = .next t ∧ t.glb.mrst = true ∧ t.glb.resetCause = 1
        ∧ t.glb.hubReset = true ∧ t.glb.group = 3 ∧ t.glb.board = s.glb.board ∧ t.mem.softRows = s.mem.softRows ∧ t.xlt = resetXlt ∧ t.pen.session = false)
    ∧ (s.glb.mrst = true → s.glb.group = 3 → s.glb.pwrFail = false → ∃ t, exec .mrstNRelease s = .next t ∧ Only [.glb, .side] s t ∧ t.glb.mrst = false ∧ t.glb.hubReset = false)
    ∧ (∀ t0 : Nat, s.on = true → s.glb.resetDue = some t0 → t0 ≤ s.now → ∃ t, exec .moduleResetBegin s = .next t ∧ t.glb.resetCause = 2 ∧ t.glb.hubReset = true
        ∧ t.glb.group = s.glb.group ∧ t.mem.softRows = s.mem.softRows ∧ t.side.dynAddr = s.side.dynAddr ∧ t.xlt = resetXlt ∧ t.dir = resetDir)
    ∧ (∀ (u delay : Nat) (d : DieTally), s.powered = true → u < 8 → s.tal.dies[u]? = some d → d.joined = false → d.failed = false → ∃ t e, exec (.dieJoin u true delay) s = .next t
        ∧ t.tal.dies[u]? = some e ∧ e.joined = true ∧ e.synced = true ∧ e.delay = delay ∧ -2 ≤ e.offset ∧ e.offset ≤ 2 ∧ t.glb.kilnIn.getLsbD u = true
        ∧ (∀ v, v ≠ u → v < 8 → t.glb.kilnIn.getLsbD v = s.glb.kilnIn.getLsbD v) ∧ Only [.free, .glb, .tal] s t)
    ∧ (∀ (u delay : Nat) (d : DieTally), s.powered = true → 8 ≤ u → s.tal.dies[u]? = some d → d.joined = false → d.failed = false → ∃ t e, exec (.dieJoin u false delay) s = .next t
        ∧ t.tal.dies[u]? = some e ∧ e.joined = false ∧ e.failed = true ∧ (portOf (u - 8) t).map (·.outCause) = (portOf (u - 8) s).map (fun _ => 5))
    ∧ (s.powered = true → s.glb.arraysTested = false → allJoined s = true → ∃ t, exec (.arrayTest ⟨[], []⟩ [] [] false false) s = .next t ∧ t.glb.arraysTested = true
        ∧ t.obs.trace.banks = 64 ∧ Only [.glb, .kiln, .obs] s t ∧ ∀ (i : Nat) (x : Shelf), shelfOf i t = some x → x.free = (List.range 8).map (· + 256))
    ∧ (∀ x : Spare, s.powered = true → s.glb.arraysTested = false → allJoined s = true → x ∉ s.mem.spares →
        (sparesLeft x s ≠ 0 → ∃ t, exec (.arrayTest ⟨[x], []⟩ [] [] false false) s = .next t ∧ t.mem.spares = s.mem.spares ++ [x] ∧ Only [.glb, .kiln, .obs, .mem] s t
          ∧ ∀ (i : Nat) (h : Shelf), shelfOf i t = some h → (shelfOf i s).map (·.out) = some h.out)
        ∧ (sparesLeft x s = 0 → x.array = 0 → x.unit < s.kiln.shelves.length → ∃ t h, exec (.arrayTest ⟨[x], []⟩ [] [] false false) s = .next t
          ∧ t.mem.spares = s.mem.spares ∧ shelfOf x.unit t = some h ∧ h.out = true))
    ∧ (s.powered = true → s.glb.arraysTested = false → allJoined s = true → (s.twin.mode ≠ .fatal) → ∃ t, exec (.arrayTest ⟨[], []⟩ [] [] true true) s = .next t
        ∧ t.twin.mode = .fatal ∧ t.twin.fatalCause = 1)
    ∧ (s.powered = true → s.glb.arraysTested = true → s.pen.fwLoaded = 15 → s.glb.fwStarted = false → ∃ t, exec .firmwareStart s = .next t ∧ Only [.glb, .pen, .twin] s t
        ∧ t.glb.fwStarted = true ∧ t.pen.aliasReady = true ∧ t.pen.aliasKey = some (aliasKeyOf s) ∧ t.twin.mode = if planeIn 0 s && planeIn 1 s then .duplex else .solo)
    ∧ (s.powered = true → s.glb.poolReady = false → s.pen.fwLoaded = 15 → s.glb.arraysTested = true → s.glb.memStarted = true → s.twin.mode = .duplex →
        (∀ k, k < 8 → dieState k s = .inService ∨ dieState k s = .absent ∨ dieState k s = .lost) → ∃ u, u = { s with
          glb.poolReady := true, glb.readyAt := s.now, glb.step := max 7 s.glb.step, glb.waitStart := none } ∧
          exec .poolReady s = .next (ibi 0x07 (emit 0x20 4095 0 0 (w64 s.glb.hostWaitTotal) u)))
    ∧ (∀ k, k < 8 → dieState k s = .training ∨ dieState k s = .wedging → exec .poolReady s = .next s)
    ∧ (∀ c, s.glb.hubReset = false → 3 ≤ c → c ≤ 5 → s.twin.mode ≠ .fatal → ∃ t, exec (.fatal c) s = .next t ∧ t.twin.mode = .fatal ∧ t.twin.fatalCause = c
        ∧ t.side.fatalN = false ∧ t.on = false ∧ (∀ (p : Nat) (q : Port), portOf p t = some q → q.st = .down) ∧ t.mem = s.mem ∧ t.pen = s.pen
        ∧ (s.side.ibiOn = true → .ibi 0x01 ∈ t.sideOut))

/-- Dies, their links, the power governor, tally copies, crossings and frozen regions. The lane voltages between 500 and 420 mV are the device's own (log 6)
and a crossing moves on one state a tick (the model's choice, log 69). -/
def Obligations.UnitsAndTally : Prop :=
  ∀ s : State,
    (∀ (die c : Nat) (d : DieMem), s.powered = true → dieMem die s = some d → d.st = .training → c < 6 → d.trained.length = 6 → d.trained[c]? = some false →
        ((∃ i, i < 6 ∧ i ≠ c ∧ d.trained[i]? = some false) → exec (.channelTrained die c true) s = .next (modDie die (fun d => { d with trained := d.trained.set c true }) s))
        ∧ ((∀ i, i < 6 → i ≠ c → d.trained[i]? = some true) → s.mem.savedSppr = [] → ∃ t, exec (.channelTrained die c true) s = .next t ∧ dieState die t = .wedging
          ∧ t.glb.step = max s.glb.step 6)
        ∧ (d.attempts.getD c 0 < 2 → exec (.channelTrained die c false) s = .next (modDie die (fun x => { x with attempts := x.attempts.set c (d.attempts.getD c 0 + 1) }) s)))
    ∧ (∀ (die : Nat) (d : DieMem), s.powered = true → dieMem die s = some d → d.st = .wedging → ∃ t e, exec (.wedgePassDone die) s = .next t ∧ Only [.mem] s t
        ∧ dieMem die t = some e ∧ e.st = .inService ∧ e.wgen = 1 ∧ e.pos = 0 ∧ e.sweepAt = s.now)
    ∧ (∀ (die c : Nat), s.powered = true → die < 8 → memoryUp die s = true → 4 ≤ c → c ≤ 6 → exec (.dieLost die false c) s = .next (loseMemory die 0 c s))
    ∧ (∀ (die c : Nat), s.powered = true → die < 8 → s.glb.kilnIn.getLsbD die = true → 1 ≤ c → c ≤ 3 → ∃ t, exec (.dieLost die true c) s = .next t
        ∧ t.glb.kilnIn.getLsbD die = false ∧ (∀ k, k < 8 → k ≠ die → t.glb.kilnIn.getLsbD k = s.glb.kilnIn.getLsbD k))
    ∧ (∀ (u id n : Nat) (header payload got frame : List Nat) (d : DieTally), s.powered = true → s.tal.dies[u]? = some d → d.joined = true →
        (smGet id d.d2d).getD (0, d2dFrame header payload) = (n, frame) →
        (d2dGood got = true → exec (.d2dTransfer u ⟨id, header, payload, got⟩) s = .next (modTally u (fun d => { d with d2d := smDel id d.d2d }) s))
        ∧ (d2dGood got = false → n < 7 → exec (.d2dTransfer u ⟨id, header, payload, got⟩) s = .next (modTally u (fun d => { d with d2d := smSet id (n + 1, frame) d.d2d }) s))
        ∧ (d2dGood got = false → n = 7 → u < 8 → s.glb.kilnIn.getLsbD u = true → ∃ t, exec (.d2dTransfer u ⟨id, header, payload, got⟩) s = .next t ∧ t.glb.kilnIn.getLsbD u = false)
        ∧ d2dGood (d2dFrame header payload) = true)
    ∧ (∀ u : Nat, s.powered = true → u < 24 → exec (.dieOvertemp u) s = .next (loseUnit u 3 s))
    ∧ (∀ watts n : Nat, s.powered = true → s.glb.powerStep = n →
        (950 ≤ watts → n < govLast → exec (.powerGovernor watts) s = .next (emit 0x1E 4095 0 0 [0, laneMv (n + 1), govShelves s] { s with glb.powerStep := n + 1 }))
        ∧ (950 ≤ watts → govLast ≤ n → s.glb.heldPlacement = false →
          exec (.powerGovernor watts) s = .next (emit 0x1E 4095 0 0 [0, laneMv n, govShelves s] { s with glb.heldPlacement := true }))
        ∧ (950 ≤ watts → govLast ≤ n → s.glb.heldPlacement = true → exec (.powerGovernor watts) s = .next s)
        ∧ (watts < 950 → s.glb.heldPlacement = true →
          exec (.powerGovernor watts) s = .next (emit 0x1E 4095 0 0 [1, laneMv n, govShelves s] { s with glb.heldPlacement := false }))
        ∧ (watts < 950 → s.glb.heldPlacement = false → 0 < n →
          exec (.powerGovernor watts) s = .next (emit 0x1E 4095 0 0 [1, laneMv (n - 1), govShelves s] { s with glb.powerStep := n - 1 }))
        ∧ (watts < 950 → s.glb.heldPlacement = false → n = 0 → exec (.powerGovernor watts) s = .next s))
    ∧ laneMv 0 = 500 ∧ laneMv govLast = 420 ∧ (∀ k, k < govLast → laneMv (k + 1) < laneMv k)
    ∧ (s.on = true → s.now % 65536 = 0 → ∃ t, exec .tallySync s = .next t ∧ Only [.free, .tal] s t ∧ t.tal.now = s.tal.now ∧ t.tal.skew ≤ 7
        ∧ ∀ (u : Nat) (d e : DieTally), s.tal.dies[u]? = some d → t.tal.dies[u]? = some e → (d.synced = false ∨ d.freeze ≠ 0 → e = d) ∧ e.synced = d.synced ∧ e.freeze = d.freeze
          ∧ d.offset ≤ e.offset)
    ∧ (s.on = true → s.now % 65536 ≠ 0 → exec .tallySync s = .next s)
    ∧ (∀ d : ClockDomain, s.on = true → d ∉ s.tal.stopped → clockArmed d s = true → ∃ t, exec (.clockStop d) s = .next t ∧ d ∈ t.tal.stopped
        ∧ t.tal.clkStop = add32 s.tal.clkStop 1 ∧ (d, Cross.flush) ∈ t.tal.crossings ∧ (d = .hubTally → s.twin.mode ≠ .fatal → t.twin.mode = .fatal ∧ t.twin.fatalCause = 4)
        ∧ (d = .pcie → t.pen.session = false ∧ t.host.linkUp = false) ∧ (∀ p, d = .golhaRx p → (portOf p s).map (·.st) = some .up → s.powered = true →
          (portOf p t).map (·.st) = some .training))
    ∧ (∀ d : ClockDomain, d ∈ s.tal.stopped → ∃ t, exec (.clockReturn d) s = .next t ∧ Only [.tal] s t ∧ d ∉ t.tal.stopped ∧ t.tal.crossings = s.tal.crossings
        ∧ ∀ e, e ≠ d → (e ∈ t.tal.stopped ↔ e ∈ s.tal.stopped))
    ∧ (∀ d : ClockDomain, s.on = true → d ≠ .pcie → ∃ t, exec (.crossingReset d) s = .next t ∧ Only [.tal] s t ∧ t.tal.stopped = s.tal.stopped
        ∧ (d, Cross.flush) ∈ t.tal.crossings ∧ ∀ c, (d, c) ∈ t.tal.crossings → c = .flush)
    ∧ (∀ (d : ClockDomain) (c : Cross), (d, c) ∈ s.tal.crossings → crossNext (s.tal.stopped.contains d) c ≠ .run →
        (d, crossNext (s.tal.stopped.contains d) c) ∈ (stepCrossings s).tal.crossings)
    ∧ (s.on = true → s.glb.hubReset = false → ∃ t, exec (.crossingReset .pcie) s = .next t ∧ t.pen.session = false ∧ t.host.linkUp = false)
    ∧ (∀ (u : Nat) (d : DieTally), s.on = true → s.tal.dies[u]? = some d → d.synced = true → d.freeze = 0 → exec (.regionFreeze u 3) s = .next (freezeRegion u 3 s))
    ∧ (∀ (u : Nat) (d : DieTally), s.on = true → u < 8 → s.tal.dies[u]? = some d → couldSleep u s = false → exec (.regionFreeze u 1) s = .next s)
    ∧ (∀ (u : Nat) (d : DieTally), s.on = true → s.tal.dies[u]? = some d → d.freeze = 3 → ∃ t e, exec (.tallyGap u) s = .next t ∧ t.tal.dies[u]? = some e ∧ e.freeze = 0
        ∧ d.frozenLocal < (s.now : Int) + e.offset ∧ 0 ≤ e.offset ∧ t.tal.gaps = add32 s.tal.gaps 1 ∧ t.tal.now = s.tal.now)
    ∧ (∀ (u t0 : Nat) (d : DieTally), s.powered = true → s.tal.dies[u]? = some d → d.wakeAt = some t0 → t0 + 1000000 ≤ s.now →
        exec (.regionSyncTimeout u) s = .next (loseUnit u 1 s))

/-- The planes: outputs that agree pass a gate once, outputs that differ start a gap whose verdict decides; a silent or lone plane leaves and the other goes on in SOLO with a
higher claim; a gap's end passes what the remaining plane held; a plane tested good comes back through resync. -/
def Obligations.TwinPlanes : Prop :=
  ∀ s : State,
    (∀ (p : Nat) (x : Plane), s.powered = true → planeIn 0 s = true → planeIn 1 s = true → planeOf p s = some x → x.pulseAt + 1000 ≤ s.now →
        exec (.pulseSend p) s = .next (modPlane p (fun x => { x with pulseAt := s.now }) s))
    ∧ (∀ (w : Nat) (x z : Plane), s.powered = true → w ≤ 1 → planeIn 0 s = true → planeIn 1 s = true → s.twin.mode = .duplex → planeOf (1 - w) s = some x →
        planeOf w s = some z →
        exec (.pulseWindow w true true) s = .next (modPlane (1 - w) (fun x => { x with missed := 0 }) (modPlane w (fun x => { x with windowAt := s.now }) s))
        ∧ (s.now < z.windowAt + 1100 → exec (.pulseWindow w false false) s = .next s)
        ∧ (z.windowAt + 1100 ≤ s.now → x.missed < 2 → exec (.pulseWindow w false false) s
          = .next (modPlane (1 - w) (fun x => { x with missed := x.missed + 1 }) (modPlane w (fun x => { x with windowAt := z.windowAt + 1100 }) s)))
        ∧ (z.windowAt + 1100 ≤ s.now → x.missed = 2 → ∃ t y, exec (.pulseWindow w false false) s = .next t ∧ planeOf (1 - w) t = some y ∧ y.st = .out ∧ y.fenced = true ∧ t.twin.mode = .solo
          ∧ t.twin.gap.isSome = true ∧ (planeActive 0 s = true ∨ planeActive 1 s = true → planeActive w t = true))
        ∧ (∃ t, exec (.pulseWindow w true false) s = .next t ∧ t.twin.alarmMail = satAdd 65535 s.twin.alarmMail 1 ∧ t.twin.mode = .duplex))
    ∧ (∀ g p v : Nat, s.glb.hubReset = false → s.holds = false → s.twin.mode = .duplex → planeIn p s = true →
        (gateHeld g s = [] → exec (.gateOutput g p v) s = .next (setHeld g [(p, v, s.now)] s))
        ∧ (∀ q t0 : Nat, q ≠ p → smWf s.twin.gates = true → gateHeld g s = [(q, v, t0)] → ∃ t, exec (.gateOutput g p v) s = .next t ∧ Only [.twin] s t ∧ t.twin.passed = s.twin.passed ++ [(g, v)]
          ∧ gateHeld g t = [] ∧ t.twin.gap = none)
        ∧ (∀ q w t0 : Nat, q ≠ p → w ≠ v → gateHeld g s = [(q, w, t0)] → ∃ t, exec (.gateOutput g p v) s = .next t ∧ t.twin.passed = s.twin.passed
          ∧ t.twin.gap = some ⟨s.now, 3, true, activeClaim s, 2⟩ ∧ t.holds = true))
    ∧ (∀ g p v : Nat, s.glb.hubReset = false → s.holds = false → s.twin.mode = .solo → planeIn p s = true →
        exec (.gateOutput g p v) s = .next { s with twin.passed := s.twin.passed ++ [(g, v)] })
    ∧ (∀ g p v : Nat, planeIn p s = false → exec (.gateOutput g p v) s = .next s)
    ∧ (∀ (g q v t0 : Nat) (rest : List (Nat × Nat × Nat)), s.alive = true → s.twin.mode = .duplex → q ≤ 1 → gateHeld g s = (q, v, t0) :: rest → t0 + 2000 ≤ s.now →
        exec (.gateUnpaired g) s = .next (leavePlane (1 - q) 2 t0 s))
    ∧ (∀ p c start : Nat, p ≤ 1 → planeIn 0 s = true → planeIn 1 s = true → planeActive p s = true → planeActive (1 - p) s = false → s.twin.mode = .duplex → ∃ y z,
        planeOf p (leavePlane p c start s) = some y ∧ y.st = .out ∧ y.fenced = true ∧ planeOf (1 - p) (leavePlane p c start s) = some z ∧ z.st = .active
          ∧ (some z.claim = (planeOf p s).map fun x => add32 x.claim 1) ∧ (leavePlane p c start s).twin.mode = .solo)
    ∧ (∀ (p c start : Nat), planeIn p s = true → planeIn (1 - p) s = false → s.twin.mode ≠ .fatal → (leavePlane p c start s).twin.mode = .fatal
        ∧ (leavePlane p c start s).twin.fatalCause = 1)
    ∧ (∀ g : Gap, s.powered = true → s.twin.gap = some g → g.divergence = true →
        (∃ t, exec (.divergenceParity true true) s = .next t ∧ t.twin.mode = .fatal ∧ t.twin.fatalCause = 2 ∧ t.twin.divUnlocated = satAdd 65535 s.twin.divUnlocated 1)
        ∧ (planeIn 0 s = true → planeIn 1 s = true → s.twin.mode = .duplex → ∃ t y, exec (.divergenceParity true false) s = .next t ∧ planeOf 0 t = some y ∧ y.st = .out
          ∧ t.twin.divLocated = satAdd 65535 s.twin.divLocated 1 ∧ t.twin.mode = .solo))
    ∧ (∀ p : Nat, s.powered = true → p < 2 → s.twin.mode = .duplex → exec (.parityError p) s = .next (leavePlane p 4 s.now s))
    ∧ (∀ (p : Nat) (e : Bool) (ws : List Spare) (gs : List (Nat × Nat)), s.now < tableDue s → exec (.tableSweep p ⟨e, ws, gs⟩) s = .next s)
    ∧ (∀ p : Nat, s.alive = true → tableDue s ≤ s.now → exec (.tableSweep p ⟨true, [], []⟩) s = .next { s with mem.tableAt := s.now }
        ∧ (∀ (x : Spare) (h : Shelf), x.array = 0 → shelfOf x.unit s = some h → h.run = none → h.out = false →
          exec (.tableSweep p ⟨true, [x], []⟩) s = .next (noteRowErr x { s with mem.tableAt := s.now }))
        ∧ (s.twin.mode = .duplex → ∃ t, exec (.tableSweep p ⟨false, [], []⟩) s = .next t ∧ t.twin.gap = some ⟨s.now, 3, true, activeClaim s, 2⟩))
    ∧ (∀ g : Gap, s.powered = true → s.twin.gap = some g → g.divergence = false → s.twin.rxWait = [] → ∃ t, exec .gapEnd s = .next t ∧ t.twin.gap = none ∧ t.twin.gates = []
        ∧ t.twin.gaps = add32 s.twin.gaps 1 ∧ t.twin.lastGap = min (s.now - g.start) 4096
        ∧ t.twin.passed = s.twin.passed ++ s.twin.gates.flatMap (fun e => (e.2.filter (·.1 != g.left)).map fun o => (e.1, o.2.1)) ∧ t.mem = s.mem)
    ∧ (∀ (p : Nat) (x : Plane), s.powered = true → planeOf p s = some x → x.st = .out → x.testing = true →
        (x.losses ≤ 3 → ∃ t y, exec (.planeTestDone p true) s = .next t ∧ Only [.twin] s t ∧ planeOf p t = some y ∧ y.st = .resync ∧ t.twin.resyncAt = s.now)
        ∧ (∃ t y, exec (.planeTestDone p false) s = .next t ∧ planeOf p t = some y ∧ y.st = .dead)
        ∧ (3 < x.losses → ∃ t y, exec (.planeTestDone p true) s = .next t ∧ planeOf p t = some y ∧ y.st = .dead))
    ∧ (∀ p : Nat, p ≤ 1 → s.alive = true → s.twin.planes.findIdx? (·.st == .resync) = some p → planeActive (1 - p) s = true → s.twin.mode = .solo → ∃ t y,
        exec .twinRejoin s = .next t ∧ planeOf p t = some y ∧ y.st = .standby ∧ y.claim = (activeClaim s + (2 ^ 32 - 1)) % 2 ^ 32 ∧ y.fenced = false ∧ t.twin.mode = .duplex
          ∧ t.twin.gaps = add32 s.twin.gaps 1)
    ∧ (∀ p : Nat, s.powered = true → s.twin.planes.findIdx? (·.st == .resync) = some p →
        exec (.resyncTimeout true) s = .next (modPlane p (fun x => { x with st := .out, testing := true }) s))

/-! ### The management side (16) -/

/-- Sideband reads and the I3C target: each answers its bytes while the carrier controller runs; a page, an address and the enable of in-band interrupts are set; a code that
the table does not give sets CML. -/
def Obligations.SidebandAndI3c : Prop :=
  ∀ s : State, carrier s = true →
    (∀ v : Nat, exec (.page v) s = .next { s with side.pageSel := v % 256 })
    ∧ exec .voutMode s = .next (sideData 0x20 [0x14] s)
    ∧ (s.side.pageSel = 0 → exec .statusWord s = .next (sideData 0x79 [2 * b2n s.side.cml, 0] s))
    ∧ (∀ m : Nat, s.side.pageSel = 0 → exec (.readVin m) s = .next (sideData 0x88 [m % 256, m / 256 % 256] s)
        ∧ exec (.readIin m) s = .next (sideData 0x89 [m % 256, m / 256 % 256] s) ∧ exec (.readPin m) s = .next (sideData 0x97 [m % 256, m / 256 % 256] s)
        ∧ exec (.readVout m) s = .next (sideData 0x8B [0xFF, 0xFF] { s with side.cml := true }))
    ∧ (∀ m : Nat, 1 ≤ s.side.pageSel → s.side.pageSel ≤ 13 → exec (.readVout m) s = .next (sideData 0x8B [m % 256, m / 256 % 256] s)
        ∧ exec (.readIout m) s = .next (sideData 0x8C [m % 256, m / 256 % 256] s) ∧ exec (.readPout m) s = .next (sideData 0x96 [m % 256, m / 256 % 256] s))
    ∧ (∀ m : Nat, 14 ≤ s.side.pageSel → s.side.pageSel ≤ 38 → s.glb.hubReset = false →
        exec (.readTemperature1 m) s = .next (sideData 0x8D [m % 256, m / 256 % 256] s))
    ∧ exec .moduleStatus s = .next (sideData 0xD0 [b2n s.glb.poolReady + 2 * b2n (s.twin.mode == .fatal) + 4 * b2n s.glb.readyOff + 8 * b2n s.glb.pwrFail
        + 16 * b2n s.glb.inputLow + 32 * b2n s.glb.railFault] s)
    ∧ (∀ code len : Nat, exec (.sidebandInvalid code len false) s = .next (sideData code (List.replicate len 0xFF) { s with side.cml := true })
        ∧ exec (.sidebandInvalid code len true) s = .next { s with side.cml := true })
    ∧ exec .evtResult s = .next (sideData 0xD3 [s.side.evtResult] s)
    ∧ (∀ d : Nat, s.side.dynAddr = 0 → exec (.setdasa (staticAddr s) d) s = .next { s with side.dynAddr := d }
        ∧ (∃ bs, bs.length = 8 ∧ exec (.entdaa d) s = .next (sideData 0x07 bs { s with side.dynAddr := d }))
        ∧ exec .getpid s = .next { s with sideOut := s.sideOut ++ [.nack 0x8D] })
    ∧ (∀ a d : Nat, a ≠ staticAddr s → exec (.setdasa a d) s = .next s)
    ∧ (∀ a d : Nat, s.side.dynAddr ≠ 0 → exec (.setdasa a d) s = .next s ∧ exec (.entdaa d) s = .next s)
    ∧ exec .rstdaa s = .next { s with side.dynAddr := 0 }
    ∧ (s.side.dynAddr ≠ 0 → (∃ bs, bs.length = 6 ∧ exec .getpid s = .next (sideData 0x8D bs s)) ∧ (∃ bs, bs.length = 1 ∧ exec .getbcr s = .next (sideData 0x8E bs s))
        ∧ (∃ bs, bs.length = 1 ∧ exec .getdcr s = .next (sideData 0x8F bs s)) ∧ (∃ bs, bs.length = 2 ∧ exec .getstatus s = .next (sideData 0x90 bs s))
        ∧ (∃ bs, bs.length = 2 ∧ exec .getmrl s = .next (sideData 0x8C bs s)) ∧ (∃ bs, bs.length = 2 ∧ exec .getmwl s = .next (sideData 0x8B bs s)))
    ∧ exec .enec s = .next { s with side.ibiOn := true } ∧ exec .disec s = .next { s with side.ibiOn := false }

/-- The event block and the test access port: a timer or a pin is set when its values are in range, no other owns the pin and no scan holds it; a timer that expires drives its pin
for WIDTH ticks; a selected edge is captured, four at most, and read oldest first; scan instructions need MRST_N low and the tests need factory debug. -/
def Obligations.EventsAndTap : Prop :=
  ∀ s : State,
    (∀ (n pin width start period : Nat) (p : EvtPinSt), carrier s = true → s.on = true → scanHolds s = false → n < 16 → pin < 8 → s.side.pins[pin]? = some p → p.mode = 0 →
        p.owner = none → s.side.timers.length = 16 → s.now < start → 1 ≤ width → width < period → 16 ≤ period → period ≤ 4000000000 → timerOf n s = ⟨0, 255, 0, 0, 0, 0⟩ →
        s.side.pins.length = 8 → ∃ t q, exec (.evtTimer n 2 pin 0 width start period) s = .next t ∧ Only [.side] s t ∧ t.side.evtResult = 0
          ∧ timerOf n t = ⟨2, pin, width, start, period, start⟩ ∧ (∀ k, k ≠ n → timerOf k t = timerOf k s) ∧ t.side.pins[pin]? = some q ∧ q.owner = some n ∧ q.level = p.level
          ∧ (∀ k, k ≠ pin → t.side.pins[k]? = s.side.pins[k]?))
    ∧ (∀ (n mode pin low width start period : Nat), carrier s = true → timerResult n mode pin low width start period s ≠ 0 →
        exec (.evtTimer n mode pin low width start period) s = .next { s with side.evtResult := timerResult n mode pin low width start period s })
    ∧ (∀ n mode pin low width start period : Nat, s.on = true → scanHolds s = false → start ≤ s.now → timerResult n mode pin low width start period s = 2)
    ∧ (∀ (pin mode : Nat) (p : EvtPinSt), carrier s = true → s.on = true → scanHolds s = false → pin < 8 → mode < 4 → s.side.pins[pin]? = some p →
        (p.owner = none → ∃ t q, exec (.evtPin pin mode) s = .next t ∧ Only [.side] s t ∧ t.side.evtResult = 0 ∧ t.side.pins[pin]? = some q ∧ q = { p with mode := mode }
          ∧ t.side.timers = s.side.timers)
        ∧ (p.owner ≠ none → exec (.evtPin pin mode) s = .next { s with side.evtResult := 1 }))
    ∧ (∀ pin mode : Nat, carrier s = true → s.on = true → scanHolds s = false → 8 ≤ pin ∨ 4 ≤ mode → exec (.evtPin pin mode) s = .next { s with side.evtResult := 2 })
    ∧ (∀ (pin : Nat) (rising : Bool) (p : EvtPinSt), s.side.pins[pin]? = some p → p.mode = 0 → ∃ t q, exec (.evtEdge pin rising) s = .next t ∧ Only [.side] s t
        ∧ t.side.pins[pin]? = some q ∧ q.captures = p.captures)
    ∧ (∀ (n : Nat) (e : EvtTimer) (p : EvtPinSt), s.on = true → n < 16 → s.side.timers[n]? = some e → e.mode = 2 → e.next ≠ 0 → e.next ≤ s.now + 3 → e.pin < 8 →
        s.side.pins[e.pin]? = some p → ∃ t q, exec (.evtTimerExpiry n) s = .next t ∧ Only [.side, .outs] s t ∧ timerOf n t = { e with next := add64 e.next e.period }
          ∧ t.side.pins[e.pin]? = some q ∧ q.level = true ∧ q.pulseEnd = some (s.now + e.width) ∧ (p.level = false → t.sideOut = s.sideOut ++ [.pin e.pin true]))
    ∧ (∀ (n : Nat) (e : EvtTimer), s.side.timers[n]? = some e → s.now + 3 < e.next → exec (.evtTimerExpiry n) s = .next s)
    ∧ (∀ (pin t0 : Nat) (p : EvtPinSt), s.on = true → s.side.pins[pin]? = some p → p.pulseEnd = some t0 → t0 ≤ s.now → ∃ t q, exec (.evtPulseEnd pin) s = .next t
        ∧ Only [.side, .outs] s t ∧ t.side.pins[pin]? = some q ∧ q.level = false ∧ q.pulseEnd = none ∧ t.side.timers = s.side.timers)
    ∧ (∀ (pin : Nat) (p : EvtPinSt), s.on = true → s.side.pins[pin]? = some p → p.mode = 1 →
        (p.captures.length < 4 → ∃ t q c, exec (.evtEdge pin true) s = .next t ∧ Only [.side, .outs, .free] s t ∧ t.side.pins[pin]? = some q ∧ q.captures = p.captures ++ [(c, true)]
          ∧ c ≤ s.now + 3 ∧ s.now ≤ c + 3 ∧ q.input = true ∧ (s.side.ibiOn = true → t.sideOut = s.sideOut ++ [.ibi 0x05]))
        ∧ (∃ t q, exec (.evtEdge pin false) s = .next t ∧ Only [.side] s t ∧ t.side.pins[pin]? = some q ∧ q.captures = p.captures ∧ q.input = false)
        ∧ (4 ≤ p.captures.length → ∃ t q, exec (.evtEdge pin true) s = .next t ∧ t.side.pins[pin]? = some q ∧ q.captures = p.captures))
    ∧ (∀ (pin at0 : Nat) (e : Bool) (p : EvtPinSt) (rest : List (Nat × Bool)), carrier s = true → s.side.pins[pin]? = some p → p.captures = (at0, e) :: rest →
        (∀ (k : Nat) (q : EvtPinSt), k ≠ pin → s.side.pins[k]? = some q → q.captures = []) → ∃ t q bs, exec .evtCapture s = .next t ∧ Only [.side, .outs] s t
          ∧ t.side.pins[pin]? = some q ∧ q = { p with captures := rest } ∧ t.sideOut = s.sideOut ++ [.data 0xD4 bs] ∧ bs.length = 10 ∧ bs[0]? = some pin
          ∧ ∀ i, i < 8 → bs[2 + i]? = some (at0 / 2 ^ (8 * i) % 256))
    ∧ (carrier s = true → (∀ q ∈ s.side.pins, q.captures = []) → ∃ bs, exec .evtCapture s = .next (sideData 0xD4 (0xFF :: bs) s))
    ∧ (∀ i v, (i, v) ∈ [(Instr.extest, 0x00), (.clamp, 0x03), (.highz, 0x04)] → exec i s = .next { s with side.tapIr := if s.glb.mrst then v else 0xFF })
    ∧ exec .samplePreload s = .next { s with side.tapIr := 1, sideOut := s.sideOut ++ [.tdo 0x01 (s.side.pins.map fun p => p.level || p.input)] }
    ∧ (∃ bs : List Bool, bs.length = 32 ∧ exec .idcode s = .next { s with side.tapIr := 2, sideOut := s.sideOut ++ [.tdo 0x02 bs] } ∧ bs[0]? = some true)
    ∧ exec .bypass s = .next { s with side.tapIr := 0xFF } ∧ exec .tapReset s = .next { s with side.tapIr := 2 }
    ∧ (∀ k u : Nat, s.pen.factoryDebug = false → exec (.arraytest k u) s = .next { s with side.tapIr := 0xFF } ∧ exec .intscan s = .next { s with side.tapIr := 0xFF })
    ∧ (∀ u : Nat, s.pen.factoryDebug = true → u < 320 → ∃ t b, exec (.arraytest 1 u) s = .next t ∧ Only [.side, .outs, .free] s t ∧ t.side.tapIr = 0x40
        ∧ t.sideOut = s.sideOut ++ [.tdo 0x40 [b]])
    ∧ (s.pen.factoryDebug = true → s.on = true → ∃ t, exec .intscan s = .next t ∧ t.twin.mode = .fatal ∧ t.twin.fatalCause = 1 ∧ t.side.tapIr = 0x41)
end

