-- ==== Sys2Proof/Laws/State.lean ====
section
/-! SUPPORT. What the named updates leave alone: one lemma per update and component, so that no proof unfolds a record update. -/

namespace Sys2Proof.Machine

/-! ### `modCtr` -/

@[simp] theorem modCtr_pending (sid : Nat) (f : Counters → Counters) (s : State) : (modCtr sid f s).pending = s.pending := rfl

@[simp] theorem modCtr_freeCtr (sid : Nat) (f : Counters → Counters) (s : State) : (modCtr sid f s).freeCtr = s.freeCtr := rfl

@[simp] theorem modCtr_glb (sid : Nat) (f : Counters → Counters) (s : State) : (modCtr sid f s).glb = s.glb := rfl

@[simp] theorem modCtr_host (sid : Nat) (f : Counters → Counters) (s : State) : (modCtr sid f s).host = s.host := rfl

@[simp] theorem modCtr_xlt (sid : Nat) (f : Counters → Counters) (s : State) : (modCtr sid f s).xlt = s.xlt := rfl

@[simp] theorem modCtr_mem (sid : Nat) (f : Counters → Counters) (s : State) : (modCtr sid f s).mem = s.mem := rfl

@[simp] theorem modCtr_dir (sid : Nat) (f : Counters → Counters) (s : State) : (modCtr sid f s).dir = s.dir := rfl

@[simp] theorem modCtr_kiln (sid : Nat) (f : Counters → Counters) (s : State) : (modCtr sid f s).kiln = s.kiln := rfl

@[simp] theorem modCtr_ports (sid : Nat) (f : Counters → Counters) (s : State) : (modCtr sid f s).ports = s.ports := rfl

@[simp] theorem modCtr_outst (sid : Nat) (f : Counters → Counters) (s : State) : (modCtr sid f s).outst = s.outst := rfl

@[simp] theorem modCtr_twin (sid : Nat) (f : Counters → Counters) (s : State) : (modCtr sid f s).twin = s.twin := rfl

@[simp] theorem modCtr_pen (sid : Nat) (f : Counters → Counters) (s : State) : (modCtr sid f s).pen = s.pen := rfl

@[simp] theorem modCtr_tal (sid : Nat) (f : Counters → Counters) (s : State) : (modCtr sid f s).tal = s.tal := rfl

@[simp] theorem modCtr_obs (sid : Nat) (f : Counters → Counters) (s : State) : (modCtr sid f s).obs = s.obs := rfl

@[simp] theorem modCtr_side (sid : Nat) (f : Counters → Counters) (s : State) : (modCtr sid f s).side = s.side := rfl

@[simp] theorem modCtr_hostOut (sid : Nat) (f : Counters → Counters) (s : State) : (modCtr sid f s).hostOut = s.hostOut := rfl

@[simp] theorem modCtr_fabOut (sid : Nat) (f : Counters → Counters) (s : State) : (modCtr sid f s).fabOut = s.fabOut := rfl

@[simp] theorem modCtr_sideOut (sid : Nat) (f : Counters → Counters) (s : State) : (modCtr sid f s).sideOut = s.sideOut := rfl

@[simp] theorem modCtr_sags_shape (sid : Nat) (f : Counters → Counters) (s : State) : (modCtr sid f s).sags.shape = s.sags.shape := rfl

@[simp] theorem modCtr_sags_breaches (sid : Nat) (f : Counters → Counters) (s : State) : (modCtr sid f s).sags.breaches = s.sags.breaches := rfl

@[simp] theorem modCtr_sags_breachCnt (sid : Nat) (f : Counters → Counters) (s : State) : (modCtr sid f s).sags.breachCnt = s.sags.breachCnt := rfl

@[simp] theorem modCtr_sags_sampleAt (sid : Nat) (f : Counters → Counters) (s : State) : (modCtr sid f s).sags.sampleAt = s.sags.sampleAt := rfl

/-! ### `addGlobal` -/

@[simp] theorem addGlobal_pending (n : Nat) (k : Nat) (s : State) : (addGlobal n k s).pending = s.pending := rfl

@[simp] theorem addGlobal_freeCtr (n : Nat) (k : Nat) (s : State) : (addGlobal n k s).freeCtr = s.freeCtr := rfl

@[simp] theorem addGlobal_glb (n : Nat) (k : Nat) (s : State) : (addGlobal n k s).glb = s.glb := rfl

@[simp] theorem addGlobal_host (n : Nat) (k : Nat) (s : State) : (addGlobal n k s).host = s.host := rfl

@[simp] theorem addGlobal_xlt (n : Nat) (k : Nat) (s : State) : (addGlobal n k s).xlt = s.xlt := rfl

@[simp] theorem addGlobal_mem (n : Nat) (k : Nat) (s : State) : (addGlobal n k s).mem = s.mem := rfl

@[simp] theorem addGlobal_dir (n : Nat) (k : Nat) (s : State) : (addGlobal n k s).dir = s.dir := rfl

@[simp] theorem addGlobal_kiln (n : Nat) (k : Nat) (s : State) : (addGlobal n k s).kiln = s.kiln := rfl

@[simp] theorem addGlobal_ports (n : Nat) (k : Nat) (s : State) : (addGlobal n k s).ports = s.ports := rfl

@[simp] theorem addGlobal_outst (n : Nat) (k : Nat) (s : State) : (addGlobal n k s).outst = s.outst := rfl

@[simp] theorem addGlobal_sags (n : Nat) (k : Nat) (s : State) : (addGlobal n k s).sags = s.sags := rfl

@[simp] theorem addGlobal_twin (n : Nat) (k : Nat) (s : State) : (addGlobal n k s).twin = s.twin := rfl

@[simp] theorem addGlobal_pen (n : Nat) (k : Nat) (s : State) : (addGlobal n k s).pen = s.pen := rfl

@[simp] theorem addGlobal_tal (n : Nat) (k : Nat) (s : State) : (addGlobal n k s).tal = s.tal := rfl

@[simp] theorem addGlobal_side (n : Nat) (k : Nat) (s : State) : (addGlobal n k s).side = s.side := rfl

@[simp] theorem addGlobal_hostOut (n : Nat) (k : Nat) (s : State) : (addGlobal n k s).hostOut = s.hostOut := rfl

@[simp] theorem addGlobal_fabOut (n : Nat) (k : Nat) (s : State) : (addGlobal n k s).fabOut = s.fabOut := rfl

@[simp] theorem addGlobal_sideOut (n : Nat) (k : Nat) (s : State) : (addGlobal n k s).sideOut = s.sideOut := rfl

@[simp] theorem addGlobal_obs_trace (n : Nat) (k : Nat) (s : State) : (addGlobal n k s).obs.trace = s.obs.trace := rfl

@[simp] theorem addGlobal_obs_contact (n : Nat) (k : Nat) (s : State) : (addGlobal n k s).obs.contact = s.obs.contact := rfl

@[simp] theorem addGlobal_obs_mirrors (n : Nat) (k : Nat) (s : State) : (addGlobal n k s).obs.mirrors = s.obs.mirrors := rfl

/-! ### `modRing` -/

@[simp] theorem modRing_pending (r : Nat) (f : Ring → Ring) (s : State) : (modRing r f s).pending = s.pending := rfl

@[simp] theorem modRing_freeCtr (r : Nat) (f : Ring → Ring) (s : State) : (modRing r f s).freeCtr = s.freeCtr := rfl

@[simp] theorem modRing_glb (r : Nat) (f : Ring → Ring) (s : State) : (modRing r f s).glb = s.glb := rfl

@[simp] theorem modRing_xlt (r : Nat) (f : Ring → Ring) (s : State) : (modRing r f s).xlt = s.xlt := rfl

@[simp] theorem modRing_mem (r : Nat) (f : Ring → Ring) (s : State) : (modRing r f s).mem = s.mem := rfl

@[simp] theorem modRing_dir (r : Nat) (f : Ring → Ring) (s : State) : (modRing r f s).dir = s.dir := rfl

@[simp] theorem modRing_kiln (r : Nat) (f : Ring → Ring) (s : State) : (modRing r f s).kiln = s.kiln := rfl

@[simp] theorem modRing_ports (r : Nat) (f : Ring → Ring) (s : State) : (modRing r f s).ports = s.ports := rfl

@[simp] theorem modRing_outst (r : Nat) (f : Ring → Ring) (s : State) : (modRing r f s).outst = s.outst := rfl

@[simp] theorem modRing_sags (r : Nat) (f : Ring → Ring) (s : State) : (modRing r f s).sags = s.sags := rfl

@[simp] theorem modRing_twin (r : Nat) (f : Ring → Ring) (s : State) : (modRing r f s).twin = s.twin := rfl

@[simp] theorem modRing_pen (r : Nat) (f : Ring → Ring) (s : State) : (modRing r f s).pen = s.pen := rfl

@[simp] theorem modRing_tal (r : Nat) (f : Ring → Ring) (s : State) : (modRing r f s).tal = s.tal := rfl

@[simp] theorem modRing_obs (r : Nat) (f : Ring → Ring) (s : State) : (modRing r f s).obs = s.obs := rfl

@[simp] theorem modRing_side (r : Nat) (f : Ring → Ring) (s : State) : (modRing r f s).side = s.side := rfl

@[simp] theorem modRing_hostOut (r : Nat) (f : Ring → Ring) (s : State) : (modRing r f s).hostOut = s.hostOut := rfl

@[simp] theorem modRing_fabOut (r : Nat) (f : Ring → Ring) (s : State) : (modRing r f s).fabOut = s.fabOut := rfl

@[simp] theorem modRing_sideOut (r : Nat) (f : Ring → Ring) (s : State) : (modRing r f s).sideOut = s.sideOut := rfl

@[simp] theorem modRing_host_bounceSize (r : Nat) (f : Ring → Ring) (s : State) : (modRing r f s).host.bounceSize = s.host.bounceSize := rfl

@[simp] theorem modRing_host_irqCause (r : Nat) (f : Ring → Ring) (s : State) : (modRing r f s).host.irqCause = s.host.irqCause := rfl

@[simp] theorem modRing_host_msix (r : Nat) (f : Ring → Ring) (s : State) : (modRing r f s).host.msix = s.host.msix := rfl

@[simp] theorem modRing_host_pba (r : Nat) (f : Ring → Ring) (s : State) : (modRing r f s).host.pba = s.host.pba := rfl

@[simp] theorem modRing_host_bme (r : Nat) (f : Ring → Ring) (s : State) : (modRing r f s).host.bme = s.host.bme := rfl

@[simp] theorem modRing_host_d3hot (r : Nat) (f : Ring → Ring) (s : State) : (modRing r f s).host.d3hot = s.host.d3hot := rfl

@[simp] theorem modRing_host_linkUp (r : Nat) (f : Ring → Ring) (s : State) : (modRing r f s).host.linkUp = s.host.linkUp := rfl

@[simp] theorem modRing_host_cfg (r : Nat) (f : Ring → Ring) (s : State) : (modRing r f s).host.cfg = s.host.cfg := rfl

@[simp] theorem modRing_host_statusQ (r : Nat) (f : Ring → Ring) (s : State) : (modRing r f s).host.statusQ = s.host.statusQ := rfl

@[simp] theorem modRing_host_faultQ (r : Nat) (f : Ring → Ring) (s : State) : (modRing r f s).host.faultQ = s.host.faultQ := rfl

@[simp] theorem modRing_host_evBuf (r : Nat) (f : Ring → Ring) (s : State) : (modRing r f s).host.evBuf = s.host.evBuf := rfl

@[simp] theorem modRing_host_evSeq (r : Nat) (f : Ring → Ring) (s : State) : (modRing r f s).host.evSeq = s.host.evSeq := rfl

/-! ### `park` -/

@[simp] theorem park_pending (r : Nat) (p : Park) (s : State) : (park r p s).pending = s.pending := rfl

@[simp] theorem park_freeCtr (r : Nat) (p : Park) (s : State) : (park r p s).freeCtr = s.freeCtr := rfl

@[simp] theorem park_glb (r : Nat) (p : Park) (s : State) : (park r p s).glb = s.glb := rfl

@[simp] theorem park_xlt (r : Nat) (p : Park) (s : State) : (park r p s).xlt = s.xlt := rfl

@[simp] theorem park_mem (r : Nat) (p : Park) (s : State) : (park r p s).mem = s.mem := rfl

@[simp] theorem park_dir (r : Nat) (p : Park) (s : State) : (park r p s).dir = s.dir := rfl

@[simp] theorem park_kiln (r : Nat) (p : Park) (s : State) : (park r p s).kiln = s.kiln := rfl

@[simp] theorem park_ports (r : Nat) (p : Park) (s : State) : (park r p s).ports = s.ports := rfl

@[simp] theorem park_outst (r : Nat) (p : Park) (s : State) : (park r p s).outst = s.outst := rfl

@[simp] theorem park_sags (r : Nat) (p : Park) (s : State) : (park r p s).sags = s.sags := rfl

@[simp] theorem park_twin (r : Nat) (p : Park) (s : State) : (park r p s).twin = s.twin := rfl

@[simp] theorem park_pen (r : Nat) (p : Park) (s : State) : (park r p s).pen = s.pen := rfl

@[simp] theorem park_tal (r : Nat) (p : Park) (s : State) : (park r p s).tal = s.tal := rfl

@[simp] theorem park_obs (r : Nat) (p : Park) (s : State) : (park r p s).obs = s.obs := rfl

@[simp] theorem park_side (r : Nat) (p : Park) (s : State) : (park r p s).side = s.side := rfl

@[simp] theorem park_hostOut (r : Nat) (p : Park) (s : State) : (park r p s).hostOut = s.hostOut := rfl

@[simp] theorem park_fabOut (r : Nat) (p : Park) (s : State) : (park r p s).fabOut = s.fabOut := rfl

@[simp] theorem park_sideOut (r : Nat) (p : Park) (s : State) : (park r p s).sideOut = s.sideOut := rfl

@[simp] theorem park_host_bounceSize (r : Nat) (p : Park) (s : State) : (park r p s).host.bounceSize = s.host.bounceSize := rfl

@[simp] theorem park_host_irqCause (r : Nat) (p : Park) (s : State) : (park r p s).host.irqCause = s.host.irqCause := rfl

@[simp] theorem park_host_msix (r : Nat) (p : Park) (s : State) : (park r p s).host.msix = s.host.msix := rfl

@[simp] theorem park_host_pba (r : Nat) (p : Park) (s : State) : (park r p s).host.pba = s.host.pba := rfl

@[simp] theorem park_host_bme (r : Nat) (p : Park) (s : State) : (park r p s).host.bme = s.host.bme := rfl

@[simp] theorem park_host_d3hot (r : Nat) (p : Park) (s : State) : (park r p s).host.d3hot = s.host.d3hot := rfl

@[simp] theorem park_host_linkUp (r : Nat) (p : Park) (s : State) : (park r p s).host.linkUp = s.host.linkUp := rfl

@[simp] theorem park_host_cfg (r : Nat) (p : Park) (s : State) : (park r p s).host.cfg = s.host.cfg := rfl

@[simp] theorem park_host_statusQ (r : Nat) (p : Park) (s : State) : (park r p s).host.statusQ = s.host.statusQ := rfl

@[simp] theorem park_host_faultQ (r : Nat) (p : Park) (s : State) : (park r p s).host.faultQ = s.host.faultQ := rfl

@[simp] theorem park_host_evBuf (r : Nat) (p : Park) (s : State) : (park r p s).host.evBuf = s.host.evBuf := rfl

@[simp] theorem park_host_evSeq (r : Nat) (p : Park) (s : State) : (park r p s).host.evSeq = s.host.evSeq := rfl

/-! ### `disarm` -/

@[simp] theorem disarm_pending  (s : State) : (disarm s).pending = s.pending := rfl

@[simp] theorem disarm_freeCtr  (s : State) : (disarm s).freeCtr = s.freeCtr := rfl

@[simp] theorem disarm_glb  (s : State) : (disarm s).glb = s.glb := rfl

@[simp] theorem disarm_host  (s : State) : (disarm s).host = s.host := rfl

@[simp] theorem disarm_xlt  (s : State) : (disarm s).xlt = s.xlt := rfl

@[simp] theorem disarm_mem  (s : State) : (disarm s).mem = s.mem := rfl

@[simp] theorem disarm_dir  (s : State) : (disarm s).dir = s.dir := rfl

@[simp] theorem disarm_kiln  (s : State) : (disarm s).kiln = s.kiln := rfl

@[simp] theorem disarm_ports  (s : State) : (disarm s).ports = s.ports := rfl

@[simp] theorem disarm_outst  (s : State) : (disarm s).outst = s.outst := rfl

@[simp] theorem disarm_sags  (s : State) : (disarm s).sags = s.sags := rfl

@[simp] theorem disarm_twin  (s : State) : (disarm s).twin = s.twin := rfl

@[simp] theorem disarm_pen  (s : State) : (disarm s).pen = s.pen := rfl

@[simp] theorem disarm_tal  (s : State) : (disarm s).tal = s.tal := rfl

@[simp] theorem disarm_obs  (s : State) : (disarm s).obs = s.obs := rfl

@[simp] theorem disarm_hostOut  (s : State) : (disarm s).hostOut = s.hostOut := rfl

@[simp] theorem disarm_fabOut  (s : State) : (disarm s).fabOut = s.fabOut := rfl

@[simp] theorem disarm_sideOut  (s : State) : (disarm s).sideOut = s.sideOut := rfl

/-! ### `ibi` -/

@[simp] theorem ibi_pending (c : Nat) (s : State) : (ibi c s).pending = s.pending := by unfold ibi; split <;> rfl

@[simp] theorem ibi_freeCtr (c : Nat) (s : State) : (ibi c s).freeCtr = s.freeCtr := by unfold ibi; split <;> rfl

@[simp] theorem ibi_glb (c : Nat) (s : State) : (ibi c s).glb = s.glb := by unfold ibi; split <;> rfl

@[simp] theorem ibi_host (c : Nat) (s : State) : (ibi c s).host = s.host := by unfold ibi; split <;> rfl

@[simp] theorem ibi_xlt (c : Nat) (s : State) : (ibi c s).xlt = s.xlt := by unfold ibi; split <;> rfl

@[simp] theorem ibi_mem (c : Nat) (s : State) : (ibi c s).mem = s.mem := by unfold ibi; split <;> rfl

@[simp] theorem ibi_dir (c : Nat) (s : State) : (ibi c s).dir = s.dir := by unfold ibi; split <;> rfl

@[simp] theorem ibi_kiln (c : Nat) (s : State) : (ibi c s).kiln = s.kiln := by unfold ibi; split <;> rfl

@[simp] theorem ibi_ports (c : Nat) (s : State) : (ibi c s).ports = s.ports := by unfold ibi; split <;> rfl

@[simp] theorem ibi_outst (c : Nat) (s : State) : (ibi c s).outst = s.outst := by unfold ibi; split <;> rfl

@[simp] theorem ibi_sags (c : Nat) (s : State) : (ibi c s).sags = s.sags := by unfold ibi; split <;> rfl

@[simp] theorem ibi_twin (c : Nat) (s : State) : (ibi c s).twin = s.twin := by unfold ibi; split <;> rfl

@[simp] theorem ibi_pen (c : Nat) (s : State) : (ibi c s).pen = s.pen := by unfold ibi; split <;> rfl

@[simp] theorem ibi_tal (c : Nat) (s : State) : (ibi c s).tal = s.tal := by unfold ibi; split <;> rfl

@[simp] theorem ibi_obs (c : Nat) (s : State) : (ibi c s).obs = s.obs := by unfold ibi; split <;> rfl

@[simp] theorem ibi_side (c : Nat) (s : State) : (ibi c s).side = s.side := by unfold ibi; split <;> rfl

@[simp] theorem ibi_hostOut (c : Nat) (s : State) : (ibi c s).hostOut = s.hostOut := by unfold ibi; split <;> rfl

@[simp] theorem ibi_fabOut (c : Nat) (s : State) : (ibi c s).fabOut = s.fabOut := by unfold ibi; split <;> rfl

/-! ### `touchDie` -/

@[simp] theorem touchDie_pending (d : Nat) (s : State) : (touchDie d s).pending = s.pending := rfl

@[simp] theorem touchDie_freeCtr (d : Nat) (s : State) : (touchDie d s).freeCtr = s.freeCtr := rfl

@[simp] theorem touchDie_glb (d : Nat) (s : State) : (touchDie d s).glb = s.glb := rfl

@[simp] theorem touchDie_host (d : Nat) (s : State) : (touchDie d s).host = s.host := rfl

@[simp] theorem touchDie_xlt (d : Nat) (s : State) : (touchDie d s).xlt = s.xlt := rfl

@[simp] theorem touchDie_mem (d : Nat) (s : State) : (touchDie d s).mem = s.mem := rfl

@[simp] theorem touchDie_dir (d : Nat) (s : State) : (touchDie d s).dir = s.dir := rfl

@[simp] theorem touchDie_kiln (d : Nat) (s : State) : (touchDie d s).kiln = s.kiln := rfl

@[simp] theorem touchDie_ports (d : Nat) (s : State) : (touchDie d s).ports = s.ports := rfl

@[simp] theorem touchDie_outst (d : Nat) (s : State) : (touchDie d s).outst = s.outst := rfl

@[simp] theorem touchDie_sags (d : Nat) (s : State) : (touchDie d s).sags = s.sags := rfl

@[simp] theorem touchDie_twin (d : Nat) (s : State) : (touchDie d s).twin = s.twin := rfl

@[simp] theorem touchDie_pen (d : Nat) (s : State) : (touchDie d s).pen = s.pen := rfl

@[simp] theorem touchDie_obs (d : Nat) (s : State) : (touchDie d s).obs = s.obs := rfl

@[simp] theorem touchDie_side (d : Nat) (s : State) : (touchDie d s).side = s.side := rfl

@[simp] theorem touchDie_hostOut (d : Nat) (s : State) : (touchDie d s).hostOut = s.hostOut := rfl

@[simp] theorem touchDie_fabOut (d : Nat) (s : State) : (touchDie d s).fabOut = s.fabOut := rfl

@[simp] theorem touchDie_sideOut (d : Nat) (s : State) : (touchDie d s).sideOut = s.sideOut := rfl

@[simp] theorem touchDie_tal_now (d : Nat) (s : State) : (touchDie d s).tal.now = s.tal.now := rfl

@[simp] theorem touchDie_tal_running (d : Nat) (s : State) : (touchDie d s).tal.running = s.tal.running := rfl

/-! ### `countStamped` -/

@[simp] theorem countStamped_pending (rg : Nat) (u : Nat) (s : State) : (countStamped rg u s).pending = s.pending := by unfold countStamped; split <;> rfl

@[simp] theorem countStamped_freeCtr (rg : Nat) (u : Nat) (s : State) : (countStamped rg u s).freeCtr = s.freeCtr := by unfold countStamped; split <;> rfl

@[simp] theorem countStamped_glb (rg : Nat) (u : Nat) (s : State) : (countStamped rg u s).glb = s.glb := by unfold countStamped; split <;> rfl

@[simp] theorem countStamped_host (rg : Nat) (u : Nat) (s : State) : (countStamped rg u s).host = s.host := by unfold countStamped; split <;> rfl

@[simp] theorem countStamped_xlt (rg : Nat) (u : Nat) (s : State) : (countStamped rg u s).xlt = s.xlt := by unfold countStamped; split <;> rfl

@[simp] theorem countStamped_mem (rg : Nat) (u : Nat) (s : State) : (countStamped rg u s).mem = s.mem := by unfold countStamped; split <;> rfl

@[simp] theorem countStamped_dir (rg : Nat) (u : Nat) (s : State) : (countStamped rg u s).dir = s.dir := by unfold countStamped; split <;> rfl

@[simp] theorem countStamped_kiln (rg : Nat) (u : Nat) (s : State) : (countStamped rg u s).kiln = s.kiln := by unfold countStamped; split <;> rfl

@[simp] theorem countStamped_ports (rg : Nat) (u : Nat) (s : State) : (countStamped rg u s).ports = s.ports := by unfold countStamped; split <;> rfl

@[simp] theorem countStamped_outst (rg : Nat) (u : Nat) (s : State) : (countStamped rg u s).outst = s.outst := by unfold countStamped; split <;> rfl

@[simp] theorem countStamped_sags (rg : Nat) (u : Nat) (s : State) : (countStamped rg u s).sags = s.sags := by unfold countStamped; split <;> rfl

@[simp] theorem countStamped_twin (rg : Nat) (u : Nat) (s : State) : (countStamped rg u s).twin = s.twin := by unfold countStamped; split <;> rfl

@[simp] theorem countStamped_pen (rg : Nat) (u : Nat) (s : State) : (countStamped rg u s).pen = s.pen := by unfold countStamped; split <;> rfl

@[simp] theorem countStamped_obs (rg : Nat) (u : Nat) (s : State) : (countStamped rg u s).obs = s.obs := by unfold countStamped; split <;> rfl

@[simp] theorem countStamped_side (rg : Nat) (u : Nat) (s : State) : (countStamped rg u s).side = s.side := by unfold countStamped; split <;> rfl

@[simp] theorem countStamped_hostOut (rg : Nat) (u : Nat) (s : State) : (countStamped rg u s).hostOut = s.hostOut := by unfold countStamped; split <;> rfl

@[simp] theorem countStamped_fabOut (rg : Nat) (u : Nat) (s : State) : (countStamped rg u s).fabOut = s.fabOut := by unfold countStamped; split <;> rfl

@[simp] theorem countStamped_sideOut (rg : Nat) (u : Nat) (s : State) : (countStamped rg u s).sideOut = s.sideOut := by unfold countStamped; split <;> rfl

@[simp] theorem countStamped_tal_now (rg : Nat) (u : Nat) (s : State) : (countStamped rg u s).tal.now = s.tal.now := by unfold countStamped; split <;> rfl

@[simp] theorem countStamped_tal_running (rg : Nat) (u : Nat) (s : State) : (countStamped rg u s).tal.running = s.tal.running := by unfold countStamped; split <;> rfl

/-! ### `emitRaw` -/

@[simp] theorem emitRaw_pending (k : Nat) (sid : Nat) (rg : Nat) (u : Nat) (b : List Nat) (s : State) : (emitRaw k sid rg u b s).pending = s.pending := by simp [emitRaw]

@[simp] theorem emitRaw_freeCtr (k : Nat) (sid : Nat) (rg : Nat) (u : Nat) (b : List Nat) (s : State) : (emitRaw k sid rg u b s).freeCtr = s.freeCtr := by simp [emitRaw]

@[simp] theorem emitRaw_glb (k : Nat) (sid : Nat) (rg : Nat) (u : Nat) (b : List Nat) (s : State) : (emitRaw k sid rg u b s).glb = s.glb := by simp [emitRaw]

@[simp] theorem emitRaw_xlt (k : Nat) (sid : Nat) (rg : Nat) (u : Nat) (b : List Nat) (s : State) : (emitRaw k sid rg u b s).xlt = s.xlt := by simp [emitRaw]

@[simp] theorem emitRaw_mem (k : Nat) (sid : Nat) (rg : Nat) (u : Nat) (b : List Nat) (s : State) : (emitRaw k sid rg u b s).mem = s.mem := by simp [emitRaw]

@[simp] theorem emitRaw_dir (k : Nat) (sid : Nat) (rg : Nat) (u : Nat) (b : List Nat) (s : State) : (emitRaw k sid rg u b s).dir = s.dir := by simp [emitRaw]

@[simp] theorem emitRaw_kiln (k : Nat) (sid : Nat) (rg : Nat) (u : Nat) (b : List Nat) (s : State) : (emitRaw k sid rg u b s).kiln = s.kiln := by simp [emitRaw]

@[simp] theorem emitRaw_ports (k : Nat) (sid : Nat) (rg : Nat) (u : Nat) (b : List Nat) (s : State) : (emitRaw k sid rg u b s).ports = s.ports := by simp [emitRaw]

@[simp] theorem emitRaw_outst (k : Nat) (sid : Nat) (rg : Nat) (u : Nat) (b : List Nat) (s : State) : (emitRaw k sid rg u b s).outst = s.outst := by simp [emitRaw]

@[simp] theorem emitRaw_sags (k : Nat) (sid : Nat) (rg : Nat) (u : Nat) (b : List Nat) (s : State) : (emitRaw k sid rg u b s).sags = s.sags := by simp [emitRaw]

@[simp] theorem emitRaw_twin (k : Nat) (sid : Nat) (rg : Nat) (u : Nat) (b : List Nat) (s : State) : (emitRaw k sid rg u b s).twin = s.twin := by simp [emitRaw]

@[simp] theorem emitRaw_pen (k : Nat) (sid : Nat) (rg : Nat) (u : Nat) (b : List Nat) (s : State) : (emitRaw k sid rg u b s).pen = s.pen := by simp [emitRaw]

@[simp] theorem emitRaw_obs (k : Nat) (sid : Nat) (rg : Nat) (u : Nat) (b : List Nat) (s : State) : (emitRaw k sid rg u b s).obs = s.obs := by simp [emitRaw]

@[simp] theorem emitRaw_side (k : Nat) (sid : Nat) (rg : Nat) (u : Nat) (b : List Nat) (s : State) : (emitRaw k sid rg u b s).side = s.side := by simp [emitRaw]

@[simp] theorem emitRaw_hostOut (k : Nat) (sid : Nat) (rg : Nat) (u : Nat) (b : List Nat) (s : State) : (emitRaw k sid rg u b s).hostOut = s.hostOut := by simp [emitRaw]

@[simp] theorem emitRaw_fabOut (k : Nat) (sid : Nat) (rg : Nat) (u : Nat) (b : List Nat) (s : State) : (emitRaw k sid rg u b s).fabOut = s.fabOut := by simp [emitRaw]

@[simp] theorem emitRaw_sideOut (k : Nat) (sid : Nat) (rg : Nat) (u : Nat) (b : List Nat) (s : State) : (emitRaw k sid rg u b s).sideOut = s.sideOut := by simp [emitRaw]

@[simp] theorem emitRaw_tal_now (k : Nat) (sid : Nat) (rg : Nat) (u : Nat) (b : List Nat) (s : State) : (emitRaw k sid rg u b s).tal.now = s.tal.now := by simp [emitRaw]

@[simp] theorem emitRaw_tal_running (k : Nat) (sid : Nat) (rg : Nat) (u : Nat) (b : List Nat) (s : State) : (emitRaw k sid rg u b s).tal.running = s.tal.running := by simp [emitRaw]

@[simp] theorem emitRaw_host_rings (k : Nat) (sid : Nat) (rg : Nat) (u : Nat) (b : List Nat) (s : State) : (emitRaw k sid rg u b s).host.rings = s.host.rings := by unfold emitRaw; dsimp only; (repeat' split) <;> simp

@[simp] theorem emitRaw_host_bounceSize (k : Nat) (sid : Nat) (rg : Nat) (u : Nat) (b : List Nat) (s : State) : (emitRaw k sid rg u b s).host.bounceSize = s.host.bounceSize := by unfold emitRaw; dsimp only; (repeat' split) <;> simp

@[simp] theorem emitRaw_host_irqCause (k : Nat) (sid : Nat) (rg : Nat) (u : Nat) (b : List Nat) (s : State) : (emitRaw k sid rg u b s).host.irqCause = s.host.irqCause := by unfold emitRaw; dsimp only; (repeat' split) <;> simp

@[simp] theorem emitRaw_host_msix (k : Nat) (sid : Nat) (rg : Nat) (u : Nat) (b : List Nat) (s : State) : (emitRaw k sid rg u b s).host.msix = s.host.msix := by unfold emitRaw; dsimp only; (repeat' split) <;> simp

@[simp] theorem emitRaw_host_pba (k : Nat) (sid : Nat) (rg : Nat) (u : Nat) (b : List Nat) (s : State) : (emitRaw k sid rg u b s).host.pba = s.host.pba := by unfold emitRaw; dsimp only; (repeat' split) <;> simp

@[simp] theorem emitRaw_host_bme (k : Nat) (sid : Nat) (rg : Nat) (u : Nat) (b : List Nat) (s : State) : (emitRaw k sid rg u b s).host.bme = s.host.bme := by unfold emitRaw; dsimp only; (repeat' split) <;> simp

@[simp] theorem emitRaw_host_d3hot (k : Nat) (sid : Nat) (rg : Nat) (u : Nat) (b : List Nat) (s : State) : (emitRaw k sid rg u b s).host.d3hot = s.host.d3hot := by unfold emitRaw; dsimp only; (repeat' split) <;> simp

@[simp] theorem emitRaw_host_linkUp (k : Nat) (sid : Nat) (rg : Nat) (u : Nat) (b : List Nat) (s : State) : (emitRaw k sid rg u b s).host.linkUp = s.host.linkUp := by unfold emitRaw; dsimp only; (repeat' split) <;> simp

@[simp] theorem emitRaw_host_cfg (k : Nat) (sid : Nat) (rg : Nat) (u : Nat) (b : List Nat) (s : State) : (emitRaw k sid rg u b s).host.cfg = s.host.cfg := by unfold emitRaw; dsimp only; (repeat' split) <;> simp

@[simp] theorem emitRaw_host_statusQ (k : Nat) (sid : Nat) (rg : Nat) (u : Nat) (b : List Nat) (s : State) : (emitRaw k sid rg u b s).host.statusQ = s.host.statusQ := by unfold emitRaw; dsimp only; (repeat' split) <;> simp

@[simp] theorem emitRaw_host_faultQ (k : Nat) (sid : Nat) (rg : Nat) (u : Nat) (b : List Nat) (s : State) : (emitRaw k sid rg u b s).host.faultQ = s.host.faultQ := by unfold emitRaw; dsimp only; (repeat' split) <;> simp

@[simp] theorem emitRaw_tal_0 (k sid u : Nat) (b : List Nat) (s : State) : (emitRaw k sid 0 u b s).tal = s.tal := by simp [emitRaw, countStamped, regionFrozen, tallyUnit]

@[simp] theorem emitRaw_tal_3 (k sid u : Nat) (b : List Nat) (s : State) : (emitRaw k sid 3 u b s).tal = s.tal := by simp [emitRaw, countStamped, regionFrozen, tallyUnit]

/-! ### `traceState` -/

@[simp] theorem traceState_pending (st : Nat) (s : State) : (traceState st s).pending = s.pending := by simp [traceState]

@[simp] theorem traceState_freeCtr (st : Nat) (s : State) : (traceState st s).freeCtr = s.freeCtr := by simp [traceState]

@[simp] theorem traceState_glb (st : Nat) (s : State) : (traceState st s).glb = s.glb := by simp [traceState]

@[simp] theorem traceState_xlt (st : Nat) (s : State) : (traceState st s).xlt = s.xlt := by simp [traceState]

@[simp] theorem traceState_mem (st : Nat) (s : State) : (traceState st s).mem = s.mem := by simp [traceState]

@[simp] theorem traceState_dir (st : Nat) (s : State) : (traceState st s).dir = s.dir := by simp [traceState]

@[simp] theorem traceState_kiln (st : Nat) (s : State) : (traceState st s).kiln = s.kiln := by simp [traceState]

@[simp] theorem traceState_ports (st : Nat) (s : State) : (traceState st s).ports = s.ports := by simp [traceState]

@[simp] theorem traceState_outst (st : Nat) (s : State) : (traceState st s).outst = s.outst := by simp [traceState]

@[simp] theorem traceState_sags (st : Nat) (s : State) : (traceState st s).sags = s.sags := by simp [traceState]

@[simp] theorem traceState_twin (st : Nat) (s : State) : (traceState st s).twin = s.twin := by simp [traceState]

@[simp] theorem traceState_pen (st : Nat) (s : State) : (traceState st s).pen = s.pen := by simp [traceState]

@[simp] theorem traceState_tal (st : Nat) (s : State) : (traceState st s).tal = s.tal := by simp [traceState]

@[simp] theorem traceState_side (st : Nat) (s : State) : (traceState st s).side = s.side := by simp [traceState]

@[simp] theorem traceState_hostOut (st : Nat) (s : State) : (traceState st s).hostOut = s.hostOut := by simp [traceState]

@[simp] theorem traceState_fabOut (st : Nat) (s : State) : (traceState st s).fabOut = s.fabOut := by simp [traceState]

@[simp] theorem traceState_sideOut (st : Nat) (s : State) : (traceState st s).sideOut = s.sideOut := by simp [traceState]

@[simp] theorem traceState_obs_contact (st : Nat) (s : State) : (traceState st s).obs.contact = s.obs.contact := by simp [traceState]

@[simp] theorem traceState_obs_global (st : Nat) (s : State) : (traceState st s).obs.global = s.obs.global := by simp [traceState]

@[simp] theorem traceState_obs_mirrors (st : Nat) (s : State) : (traceState st s).obs.mirrors = s.obs.mirrors := by simp [traceState]

@[simp] theorem traceState_obs_trace_cfg (st : Nat) (s : State) : (traceState st s).obs.trace.cfg = s.obs.trace.cfg := by simp [traceState]

@[simp] theorem traceState_host_rings (st : Nat) (s : State) : (traceState st s).host.rings = s.host.rings := by simp [traceState]

@[simp] theorem traceState_host_bounceSize (st : Nat) (s : State) : (traceState st s).host.bounceSize = s.host.bounceSize := by simp [traceState]

@[simp] theorem traceState_host_irqCause (st : Nat) (s : State) : (traceState st s).host.irqCause = s.host.irqCause := by simp [traceState]

@[simp] theorem traceState_host_msix (st : Nat) (s : State) : (traceState st s).host.msix = s.host.msix := by simp [traceState]

@[simp] theorem traceState_host_pba (st : Nat) (s : State) : (traceState st s).host.pba = s.host.pba := by simp [traceState]

@[simp] theorem traceState_host_bme (st : Nat) (s : State) : (traceState st s).host.bme = s.host.bme := by simp [traceState]

@[simp] theorem traceState_host_d3hot (st : Nat) (s : State) : (traceState st s).host.d3hot = s.host.d3hot := by simp [traceState]

@[simp] theorem traceState_host_linkUp (st : Nat) (s : State) : (traceState st s).host.linkUp = s.host.linkUp := by simp [traceState]

@[simp] theorem traceState_host_cfg (st : Nat) (s : State) : (traceState st s).host.cfg = s.host.cfg := by simp [traceState]

@[simp] theorem traceState_host_statusQ (st : Nat) (s : State) : (traceState st s).host.statusQ = s.host.statusQ := by simp [traceState]

@[simp] theorem traceState_host_faultQ (st : Nat) (s : State) : (traceState st s).host.faultQ = s.host.faultQ := by simp [traceState]

/-! ### `traceStore` -/

@[simp] theorem traceStore_pending (x : TraceRec) (s : State) : (traceStore x s).pending = s.pending := by unfold traceStore; dsimp only; (repeat' split) <;> simp

@[simp] theorem traceStore_freeCtr (x : TraceRec) (s : State) : (traceStore x s).freeCtr = s.freeCtr := by unfold traceStore; dsimp only; (repeat' split) <;> simp

@[simp] theorem traceStore_glb (x : TraceRec) (s : State) : (traceStore x s).glb = s.glb := by unfold traceStore; dsimp only; (repeat' split) <;> simp

@[simp] theorem traceStore_xlt (x : TraceRec) (s : State) : (traceStore x s).xlt = s.xlt := by unfold traceStore; dsimp only; (repeat' split) <;> simp

@[simp] theorem traceStore_mem (x : TraceRec) (s : State) : (traceStore x s).mem = s.mem := by unfold traceStore; dsimp only; (repeat' split) <;> simp

@[simp] theorem traceStore_dir (x : TraceRec) (s : State) : (traceStore x s).dir = s.dir := by unfold traceStore; dsimp only; (repeat' split) <;> simp

@[simp] theorem traceStore_kiln (x : TraceRec) (s : State) : (traceStore x s).kiln = s.kiln := by unfold traceStore; dsimp only; (repeat' split) <;> simp

@[simp] theorem traceStore_ports (x : TraceRec) (s : State) : (traceStore x s).ports = s.ports := by unfold traceStore; dsimp only; (repeat' split) <;> simp

@[simp] theorem traceStore_outst (x : TraceRec) (s : State) : (traceStore x s).outst = s.outst := by unfold traceStore; dsimp only; (repeat' split) <;> simp

@[simp] theorem traceStore_sags (x : TraceRec) (s : State) : (traceStore x s).sags = s.sags := by unfold traceStore; dsimp only; (repeat' split) <;> simp

@[simp] theorem traceStore_twin (x : TraceRec) (s : State) : (traceStore x s).twin = s.twin := by unfold traceStore; dsimp only; (repeat' split) <;> simp

@[simp] theorem traceStore_pen (x : TraceRec) (s : State) : (traceStore x s).pen = s.pen := by unfold traceStore; dsimp only; (repeat' split) <;> simp

@[simp] theorem traceStore_tal (x : TraceRec) (s : State) : (traceStore x s).tal = s.tal := by unfold traceStore; dsimp only; (repeat' split) <;> simp

@[simp] theorem traceStore_side (x : TraceRec) (s : State) : (traceStore x s).side = s.side := by unfold traceStore; dsimp only; (repeat' split) <;> simp

@[simp] theorem traceStore_hostOut (x : TraceRec) (s : State) : (traceStore x s).hostOut = s.hostOut := by unfold traceStore; dsimp only; (repeat' split) <;> simp

@[simp] theorem traceStore_fabOut (x : TraceRec) (s : State) : (traceStore x s).fabOut = s.fabOut := by unfold traceStore; dsimp only; (repeat' split) <;> simp

@[simp] theorem traceStore_sideOut (x : TraceRec) (s : State) : (traceStore x s).sideOut = s.sideOut := by unfold traceStore; dsimp only; (repeat' split) <;> simp

@[simp] theorem traceStore_obs_contact (x : TraceRec) (s : State) : (traceStore x s).obs.contact = s.obs.contact := by unfold traceStore; dsimp only; (repeat' split) <;> simp

@[simp] theorem traceStore_obs_global (x : TraceRec) (s : State) : (traceStore x s).obs.global = s.obs.global := by unfold traceStore; dsimp only; (repeat' split) <;> simp

@[simp] theorem traceStore_obs_mirrors (x : TraceRec) (s : State) : (traceStore x s).obs.mirrors = s.obs.mirrors := by unfold traceStore; dsimp only; (repeat' split) <;> simp

@[simp] theorem traceStore_obs_trace_cfg (x : TraceRec) (s : State) : (traceStore x s).obs.trace.cfg = s.obs.trace.cfg := by unfold traceStore; dsimp only; (repeat' split) <;> simp

@[simp] theorem traceStore_host_rings (x : TraceRec) (s : State) : (traceStore x s).host.rings = s.host.rings := by unfold traceStore; dsimp only; (repeat' split) <;> simp

@[simp] theorem traceStore_host_bounceSize (x : TraceRec) (s : State) : (traceStore x s).host.bounceSize = s.host.bounceSize := by unfold traceStore; dsimp only; (repeat' split) <;> simp

@[simp] theorem traceStore_host_irqCause (x : TraceRec) (s : State) : (traceStore x s).host.irqCause = s.host.irqCause := by unfold traceStore; dsimp only; (repeat' split) <;> simp

@[simp] theorem traceStore_host_msix (x : TraceRec) (s : State) : (traceStore x s).host.msix = s.host.msix := by unfold traceStore; dsimp only; (repeat' split) <;> simp

@[simp] theorem traceStore_host_pba (x : TraceRec) (s : State) : (traceStore x s).host.pba = s.host.pba := by unfold traceStore; dsimp only; (repeat' split) <;> simp

@[simp] theorem traceStore_host_bme (x : TraceRec) (s : State) : (traceStore x s).host.bme = s.host.bme := by unfold traceStore; dsimp only; (repeat' split) <;> simp

@[simp] theorem traceStore_host_d3hot (x : TraceRec) (s : State) : (traceStore x s).host.d3hot = s.host.d3hot := by unfold traceStore; dsimp only; (repeat' split) <;> simp

@[simp] theorem traceStore_host_linkUp (x : TraceRec) (s : State) : (traceStore x s).host.linkUp = s.host.linkUp := by unfold traceStore; dsimp only; (repeat' split) <;> simp

@[simp] theorem traceStore_host_cfg (x : TraceRec) (s : State) : (traceStore x s).host.cfg = s.host.cfg := by unfold traceStore; dsimp only; (repeat' split) <;> simp

@[simp] theorem traceStore_host_statusQ (x : TraceRec) (s : State) : (traceStore x s).host.statusQ = s.host.statusQ := by unfold traceStore; dsimp only; (repeat' split) <;> simp

@[simp] theorem traceStore_host_faultQ (x : TraceRec) (s : State) : (traceStore x s).host.faultQ = s.host.faultQ := by unfold traceStore; dsimp only; (repeat' split) <;> simp

/-! ### `traceLose` -/

@[simp] theorem traceLose_pending (x : Nat) (s : State) : (traceLose x s).pending = s.pending := rfl

@[simp] theorem traceLose_freeCtr (x : Nat) (s : State) : (traceLose x s).freeCtr = s.freeCtr := rfl

@[simp] theorem traceLose_glb (x : Nat) (s : State) : (traceLose x s).glb = s.glb := rfl

@[simp] theorem traceLose_host (x : Nat) (s : State) : (traceLose x s).host = s.host := rfl

@[simp] theorem traceLose_xlt (x : Nat) (s : State) : (traceLose x s).xlt = s.xlt := rfl

@[simp] theorem traceLose_mem (x : Nat) (s : State) : (traceLose x s).mem = s.mem := rfl

@[simp] theorem traceLose_dir (x : Nat) (s : State) : (traceLose x s).dir = s.dir := rfl

@[simp] theorem traceLose_kiln (x : Nat) (s : State) : (traceLose x s).kiln = s.kiln := rfl

@[simp] theorem traceLose_ports (x : Nat) (s : State) : (traceLose x s).ports = s.ports := rfl

@[simp] theorem traceLose_outst (x : Nat) (s : State) : (traceLose x s).outst = s.outst := rfl

@[simp] theorem traceLose_sags (x : Nat) (s : State) : (traceLose x s).sags = s.sags := rfl

@[simp] theorem traceLose_twin (x : Nat) (s : State) : (traceLose x s).twin = s.twin := rfl

@[simp] theorem traceLose_pen (x : Nat) (s : State) : (traceLose x s).pen = s.pen := rfl

@[simp] theorem traceLose_tal (x : Nat) (s : State) : (traceLose x s).tal = s.tal := rfl

@[simp] theorem traceLose_side (x : Nat) (s : State) : (traceLose x s).side = s.side := rfl

@[simp] theorem traceLose_hostOut (x : Nat) (s : State) : (traceLose x s).hostOut = s.hostOut := rfl

@[simp] theorem traceLose_fabOut (x : Nat) (s : State) : (traceLose x s).fabOut = s.fabOut := rfl

@[simp] theorem traceLose_sideOut (x : Nat) (s : State) : (traceLose x s).sideOut = s.sideOut := rfl

@[simp] theorem traceLose_obs_contact (x : Nat) (s : State) : (traceLose x s).obs.contact = s.obs.contact := rfl

@[simp] theorem traceLose_obs_global (x : Nat) (s : State) : (traceLose x s).obs.global = s.obs.global := rfl

@[simp] theorem traceLose_obs_mirrors (x : Nat) (s : State) : (traceLose x s).obs.mirrors = s.obs.mirrors := rfl

@[simp] theorem traceLose_obs_trace_cfg (x : Nat) (s : State) : (traceLose x s).obs.trace.cfg = s.obs.trace.cfg := rfl

/-! ### `traceMarker` -/

@[simp] theorem traceMarker_pending (c : Nat) (n : Nat) (s : State) : (traceMarker c n s).pending = s.pending := by unfold traceMarker; split <;> simp

@[simp] theorem traceMarker_freeCtr (c : Nat) (n : Nat) (s : State) : (traceMarker c n s).freeCtr = s.freeCtr := by unfold traceMarker; split <;> simp

@[simp] theorem traceMarker_glb (c : Nat) (n : Nat) (s : State) : (traceMarker c n s).glb = s.glb := by unfold traceMarker; split <;> simp

@[simp] theorem traceMarker_xlt (c : Nat) (n : Nat) (s : State) : (traceMarker c n s).xlt = s.xlt := by unfold traceMarker; split <;> simp

@[simp] theorem traceMarker_mem (c : Nat) (n : Nat) (s : State) : (traceMarker c n s).mem = s.mem := by unfold traceMarker; split <;> simp

@[simp] theorem traceMarker_dir (c : Nat) (n : Nat) (s : State) : (traceMarker c n s).dir = s.dir := by unfold traceMarker; split <;> simp

@[simp] theorem traceMarker_kiln (c : Nat) (n : Nat) (s : State) : (traceMarker c n s).kiln = s.kiln := by unfold traceMarker; split <;> simp

@[simp] theorem traceMarker_ports (c : Nat) (n : Nat) (s : State) : (traceMarker c n s).ports = s.ports := by unfold traceMarker; split <;> simp

@[simp] theorem traceMarker_outst (c : Nat) (n : Nat) (s : State) : (traceMarker c n s).outst = s.outst := by unfold traceMarker; split <;> simp

@[simp] theorem traceMarker_sags (c : Nat) (n : Nat) (s : State) : (traceMarker c n s).sags = s.sags := by unfold traceMarker; split <;> simp

@[simp] theorem traceMarker_twin (c : Nat) (n : Nat) (s : State) : (traceMarker c n s).twin = s.twin := by unfold traceMarker; split <;> simp

@[simp] theorem traceMarker_pen (c : Nat) (n : Nat) (s : State) : (traceMarker c n s).pen = s.pen := by unfold traceMarker; split <;> simp

@[simp] theorem traceMarker_tal (c : Nat) (n : Nat) (s : State) : (traceMarker c n s).tal = s.tal := by unfold traceMarker; split <;> simp

@[simp] theorem traceMarker_side (c : Nat) (n : Nat) (s : State) : (traceMarker c n s).side = s.side := by unfold traceMarker; split <;> simp

@[simp] theorem traceMarker_hostOut (c : Nat) (n : Nat) (s : State) : (traceMarker c n s).hostOut = s.hostOut := by unfold traceMarker; split <;> simp

@[simp] theorem traceMarker_fabOut (c : Nat) (n : Nat) (s : State) : (traceMarker c n s).fabOut = s.fabOut := by unfold traceMarker; split <;> simp

@[simp] theorem traceMarker_sideOut (c : Nat) (n : Nat) (s : State) : (traceMarker c n s).sideOut = s.sideOut := by unfold traceMarker; split <;> simp

@[simp] theorem traceMarker_obs_contact (c : Nat) (n : Nat) (s : State) : (traceMarker c n s).obs.contact = s.obs.contact := by unfold traceMarker; split <;> simp

@[simp] theorem traceMarker_obs_global (c : Nat) (n : Nat) (s : State) : (traceMarker c n s).obs.global = s.obs.global := by unfold traceMarker; split <;> simp

@[simp] theorem traceMarker_obs_mirrors (c : Nat) (n : Nat) (s : State) : (traceMarker c n s).obs.mirrors = s.obs.mirrors := by unfold traceMarker; split <;> simp

@[simp] theorem traceMarker_obs_trace_cfg (c : Nat) (n : Nat) (s : State) : (traceMarker c n s).obs.trace.cfg = s.obs.trace.cfg := by unfold traceMarker; split <;> simp

@[simp] theorem traceMarker_host_rings (c : Nat) (n : Nat) (s : State) : (traceMarker c n s).host.rings = s.host.rings := by unfold traceMarker; split <;> simp

@[simp] theorem traceMarker_host_bounceSize (c : Nat) (n : Nat) (s : State) : (traceMarker c n s).host.bounceSize = s.host.bounceSize := by unfold traceMarker; split <;> simp

@[simp] theorem traceMarker_host_irqCause (c : Nat) (n : Nat) (s : State) : (traceMarker c n s).host.irqCause = s.host.irqCause := by unfold traceMarker; split <;> simp

@[simp] theorem traceMarker_host_msix (c : Nat) (n : Nat) (s : State) : (traceMarker c n s).host.msix = s.host.msix := by unfold traceMarker; split <;> simp

@[simp] theorem traceMarker_host_pba (c : Nat) (n : Nat) (s : State) : (traceMarker c n s).host.pba = s.host.pba := by unfold traceMarker; split <;> simp

@[simp] theorem traceMarker_host_bme (c : Nat) (n : Nat) (s : State) : (traceMarker c n s).host.bme = s.host.bme := by unfold traceMarker; split <;> simp

@[simp] theorem traceMarker_host_d3hot (c : Nat) (n : Nat) (s : State) : (traceMarker c n s).host.d3hot = s.host.d3hot := by unfold traceMarker; split <;> simp

@[simp] theorem traceMarker_host_linkUp (c : Nat) (n : Nat) (s : State) : (traceMarker c n s).host.linkUp = s.host.linkUp := by unfold traceMarker; split <;> simp

@[simp] theorem traceMarker_host_cfg (c : Nat) (n : Nat) (s : State) : (traceMarker c n s).host.cfg = s.host.cfg := by unfold traceMarker; split <;> simp

@[simp] theorem traceMarker_host_statusQ (c : Nat) (n : Nat) (s : State) : (traceMarker c n s).host.statusQ = s.host.statusQ := by unfold traceMarker; split <;> simp

@[simp] theorem traceMarker_host_faultQ (c : Nat) (n : Nat) (s : State) : (traceMarker c n s).host.faultQ = s.host.faultQ := by unfold traceMarker; split <;> simp

/-! ### `tracePut` -/

@[simp] theorem tracePut_pending (x : TraceRec) (s : State) : (tracePut x s).pending = s.pending := by unfold tracePut; dsimp only; (repeat' split) <;> simp

@[simp] theorem tracePut_freeCtr (x : TraceRec) (s : State) : (tracePut x s).freeCtr = s.freeCtr := by unfold tracePut; dsimp only; (repeat' split) <;> simp

@[simp] theorem tracePut_glb (x : TraceRec) (s : State) : (tracePut x s).glb = s.glb := by unfold tracePut; dsimp only; (repeat' split) <;> simp

@[simp] theorem tracePut_xlt (x : TraceRec) (s : State) : (tracePut x s).xlt = s.xlt := by unfold tracePut; dsimp only; (repeat' split) <;> simp

@[simp] theorem tracePut_mem (x : TraceRec) (s : State) : (tracePut x s).mem = s.mem := by unfold tracePut; dsimp only; (repeat' split) <;> simp

@[simp] theorem tracePut_dir (x : TraceRec) (s : State) : (tracePut x s).dir = s.dir := by unfold tracePut; dsimp only; (repeat' split) <;> simp

@[simp] theorem tracePut_kiln (x : TraceRec) (s : State) : (tracePut x s).kiln = s.kiln := by unfold tracePut; dsimp only; (repeat' split) <;> simp

@[simp] theorem tracePut_ports (x : TraceRec) (s : State) : (tracePut x s).ports = s.ports := by unfold tracePut; dsimp only; (repeat' split) <;> simp

@[simp] theorem tracePut_outst (x : TraceRec) (s : State) : (tracePut x s).outst = s.outst := by unfold tracePut; dsimp only; (repeat' split) <;> simp

@[simp] theorem tracePut_sags (x : TraceRec) (s : State) : (tracePut x s).sags = s.sags := by unfold tracePut; dsimp only; (repeat' split) <;> simp

@[simp] theorem tracePut_twin (x : TraceRec) (s : State) : (tracePut x s).twin = s.twin := by unfold tracePut; dsimp only; (repeat' split) <;> simp

@[simp] theorem tracePut_pen (x : TraceRec) (s : State) : (tracePut x s).pen = s.pen := by unfold tracePut; dsimp only; (repeat' split) <;> simp

@[simp] theorem tracePut_tal (x : TraceRec) (s : State) : (tracePut x s).tal = s.tal := by unfold tracePut; dsimp only; (repeat' split) <;> simp

@[simp] theorem tracePut_side (x : TraceRec) (s : State) : (tracePut x s).side = s.side := by unfold tracePut; dsimp only; (repeat' split) <;> simp

@[simp] theorem tracePut_hostOut (x : TraceRec) (s : State) : (tracePut x s).hostOut = s.hostOut := by unfold tracePut; dsimp only; (repeat' split) <;> simp

@[simp] theorem tracePut_fabOut (x : TraceRec) (s : State) : (tracePut x s).fabOut = s.fabOut := by unfold tracePut; dsimp only; (repeat' split) <;> simp

@[simp] theorem tracePut_sideOut (x : TraceRec) (s : State) : (tracePut x s).sideOut = s.sideOut := by unfold tracePut; dsimp only; (repeat' split) <;> simp

@[simp] theorem tracePut_obs_contact (x : TraceRec) (s : State) : (tracePut x s).obs.contact = s.obs.contact := by unfold tracePut; dsimp only; (repeat' split) <;> simp

@[simp] theorem tracePut_obs_global (x : TraceRec) (s : State) : (tracePut x s).obs.global = s.obs.global := by unfold tracePut; dsimp only; (repeat' split) <;> simp

@[simp] theorem tracePut_obs_mirrors (x : TraceRec) (s : State) : (tracePut x s).obs.mirrors = s.obs.mirrors := by unfold tracePut; dsimp only; (repeat' split) <;> simp

@[simp] theorem tracePut_obs_trace_cfg (x : TraceRec) (s : State) : (tracePut x s).obs.trace.cfg = s.obs.trace.cfg := by unfold tracePut; dsimp only; (repeat' split) <;> simp

@[simp] theorem tracePut_host_rings (x : TraceRec) (s : State) : (tracePut x s).host.rings = s.host.rings := by unfold tracePut; dsimp only; (repeat' split) <;> simp

@[simp] theorem tracePut_host_bounceSize (x : TraceRec) (s : State) : (tracePut x s).host.bounceSize = s.host.bounceSize := by unfold tracePut; dsimp only; (repeat' split) <;> simp

@[simp] theorem tracePut_host_irqCause (x : TraceRec) (s : State) : (tracePut x s).host.irqCause = s.host.irqCause := by unfold tracePut; dsimp only; (repeat' split) <;> simp

@[simp] theorem tracePut_host_msix (x : TraceRec) (s : State) : (tracePut x s).host.msix = s.host.msix := by unfold tracePut; dsimp only; (repeat' split) <;> simp

@[simp] theorem tracePut_host_pba (x : TraceRec) (s : State) : (tracePut x s).host.pba = s.host.pba := by unfold tracePut; dsimp only; (repeat' split) <;> simp

@[simp] theorem tracePut_host_bme (x : TraceRec) (s : State) : (tracePut x s).host.bme = s.host.bme := by unfold tracePut; dsimp only; (repeat' split) <;> simp

@[simp] theorem tracePut_host_d3hot (x : TraceRec) (s : State) : (tracePut x s).host.d3hot = s.host.d3hot := by unfold tracePut; dsimp only; (repeat' split) <;> simp

@[simp] theorem tracePut_host_linkUp (x : TraceRec) (s : State) : (tracePut x s).host.linkUp = s.host.linkUp := by unfold tracePut; dsimp only; (repeat' split) <;> simp

@[simp] theorem tracePut_host_cfg (x : TraceRec) (s : State) : (tracePut x s).host.cfg = s.host.cfg := by unfold tracePut; dsimp only; (repeat' split) <;> simp

@[simp] theorem tracePut_host_statusQ (x : TraceRec) (s : State) : (tracePut x s).host.statusQ = s.host.statusQ := by unfold tracePut; dsimp only; (repeat' split) <;> simp

@[simp] theorem tracePut_host_faultQ (x : TraceRec) (s : State) : (tracePut x s).host.faultQ = s.host.faultQ := by unfold tracePut; dsimp only; (repeat' split) <;> simp

/-! ### `traceMsg` -/

@[simp] theorem traceMsg_pending (x : TraceRec) (b : List Nat) (s : State) : (traceMsg x b s).pending = s.pending := by unfold traceMsg; dsimp only; (repeat' split) <;> simp

@[simp] theorem traceMsg_freeCtr (x : TraceRec) (b : List Nat) (s : State) : (traceMsg x b s).freeCtr = s.freeCtr := by unfold traceMsg; dsimp only; (repeat' split) <;> simp

@[simp] theorem traceMsg_glb (x : TraceRec) (b : List Nat) (s : State) : (traceMsg x b s).glb = s.glb := by unfold traceMsg; dsimp only; (repeat' split) <;> simp

@[simp] theorem traceMsg_xlt (x : TraceRec) (b : List Nat) (s : State) : (traceMsg x b s).xlt = s.xlt := by unfold traceMsg; dsimp only; (repeat' split) <;> simp

@[simp] theorem traceMsg_mem (x : TraceRec) (b : List Nat) (s : State) : (traceMsg x b s).mem = s.mem := by unfold traceMsg; dsimp only; (repeat' split) <;> simp

@[simp] theorem traceMsg_dir (x : TraceRec) (b : List Nat) (s : State) : (traceMsg x b s).dir = s.dir := by unfold traceMsg; dsimp only; (repeat' split) <;> simp

@[simp] theorem traceMsg_kiln (x : TraceRec) (b : List Nat) (s : State) : (traceMsg x b s).kiln = s.kiln := by unfold traceMsg; dsimp only; (repeat' split) <;> simp

@[simp] theorem traceMsg_ports (x : TraceRec) (b : List Nat) (s : State) : (traceMsg x b s).ports = s.ports := by unfold traceMsg; dsimp only; (repeat' split) <;> simp

@[simp] theorem traceMsg_outst (x : TraceRec) (b : List Nat) (s : State) : (traceMsg x b s).outst = s.outst := by unfold traceMsg; dsimp only; (repeat' split) <;> simp

@[simp] theorem traceMsg_sags (x : TraceRec) (b : List Nat) (s : State) : (traceMsg x b s).sags = s.sags := by unfold traceMsg; dsimp only; (repeat' split) <;> simp

@[simp] theorem traceMsg_twin (x : TraceRec) (b : List Nat) (s : State) : (traceMsg x b s).twin = s.twin := by unfold traceMsg; dsimp only; (repeat' split) <;> simp

@[simp] theorem traceMsg_pen (x : TraceRec) (b : List Nat) (s : State) : (traceMsg x b s).pen = s.pen := by unfold traceMsg; dsimp only; (repeat' split) <;> simp

@[simp] theorem traceMsg_tal (x : TraceRec) (b : List Nat) (s : State) : (traceMsg x b s).tal = s.tal := by unfold traceMsg; dsimp only; (repeat' split) <;> simp

@[simp] theorem traceMsg_side (x : TraceRec) (b : List Nat) (s : State) : (traceMsg x b s).side = s.side := by unfold traceMsg; dsimp only; (repeat' split) <;> simp

@[simp] theorem traceMsg_hostOut (x : TraceRec) (b : List Nat) (s : State) : (traceMsg x b s).hostOut = s.hostOut := by unfold traceMsg; dsimp only; (repeat' split) <;> simp

@[simp] theorem traceMsg_fabOut (x : TraceRec) (b : List Nat) (s : State) : (traceMsg x b s).fabOut = s.fabOut := by unfold traceMsg; dsimp only; (repeat' split) <;> simp

@[simp] theorem traceMsg_sideOut (x : TraceRec) (b : List Nat) (s : State) : (traceMsg x b s).sideOut = s.sideOut := by unfold traceMsg; dsimp only; (repeat' split) <;> simp

@[simp] theorem traceMsg_obs_contact (x : TraceRec) (b : List Nat) (s : State) : (traceMsg x b s).obs.contact = s.obs.contact := by unfold traceMsg; dsimp only; (repeat' split) <;> simp

@[simp] theorem traceMsg_obs_global (x : TraceRec) (b : List Nat) (s : State) : (traceMsg x b s).obs.global = s.obs.global := by unfold traceMsg; dsimp only; (repeat' split) <;> simp

@[simp] theorem traceMsg_obs_mirrors (x : TraceRec) (b : List Nat) (s : State) : (traceMsg x b s).obs.mirrors = s.obs.mirrors := by unfold traceMsg; dsimp only; (repeat' split) <;> simp

@[simp] theorem traceMsg_obs_trace_cfg (x : TraceRec) (b : List Nat) (s : State) : (traceMsg x b s).obs.trace.cfg = s.obs.trace.cfg := by unfold traceMsg; dsimp only; (repeat' split) <;> simp

@[simp] theorem traceMsg_host_rings (x : TraceRec) (b : List Nat) (s : State) : (traceMsg x b s).host.rings = s.host.rings := by unfold traceMsg; dsimp only; (repeat' split) <;> simp

@[simp] theorem traceMsg_host_bounceSize (x : TraceRec) (b : List Nat) (s : State) : (traceMsg x b s).host.bounceSize = s.host.bounceSize := by unfold traceMsg; dsimp only; (repeat' split) <;> simp

@[simp] theorem traceMsg_host_irqCause (x : TraceRec) (b : List Nat) (s : State) : (traceMsg x b s).host.irqCause = s.host.irqCause := by unfold traceMsg; dsimp only; (repeat' split) <;> simp

@[simp] theorem traceMsg_host_msix (x : TraceRec) (b : List Nat) (s : State) : (traceMsg x b s).host.msix = s.host.msix := by unfold traceMsg; dsimp only; (repeat' split) <;> simp

@[simp] theorem traceMsg_host_pba (x : TraceRec) (b : List Nat) (s : State) : (traceMsg x b s).host.pba = s.host.pba := by unfold traceMsg; dsimp only; (repeat' split) <;> simp

@[simp] theorem traceMsg_host_bme (x : TraceRec) (b : List Nat) (s : State) : (traceMsg x b s).host.bme = s.host.bme := by unfold traceMsg; dsimp only; (repeat' split) <;> simp

@[simp] theorem traceMsg_host_d3hot (x : TraceRec) (b : List Nat) (s : State) : (traceMsg x b s).host.d3hot = s.host.d3hot := by unfold traceMsg; dsimp only; (repeat' split) <;> simp

@[simp] theorem traceMsg_host_linkUp (x : TraceRec) (b : List Nat) (s : State) : (traceMsg x b s).host.linkUp = s.host.linkUp := by unfold traceMsg; dsimp only; (repeat' split) <;> simp

@[simp] theorem traceMsg_host_cfg (x : TraceRec) (b : List Nat) (s : State) : (traceMsg x b s).host.cfg = s.host.cfg := by unfold traceMsg; dsimp only; (repeat' split) <;> simp

@[simp] theorem traceMsg_host_statusQ (x : TraceRec) (b : List Nat) (s : State) : (traceMsg x b s).host.statusQ = s.host.statusQ := by unfold traceMsg; dsimp only; (repeat' split) <;> simp

@[simp] theorem traceMsg_host_faultQ (x : TraceRec) (b : List Nat) (s : State) : (traceMsg x b s).host.faultQ = s.host.faultQ := by unfold traceMsg; dsimp only; (repeat' split) <;> simp

/-! ### `traceHub` -/

@[simp] theorem traceHub_pending (a : Nat) (b : Nat) (c : Nat) (d : Nat) (e : Nat) (g : Nat) (h : Nat) (s : State) : (traceHub a b c d e g h s).pending = s.pending := by simp [traceHub]

@[simp] theorem traceHub_freeCtr (a : Nat) (b : Nat) (c : Nat) (d : Nat) (e : Nat) (g : Nat) (h : Nat) (s : State) : (traceHub a b c d e g h s).freeCtr = s.freeCtr := by simp [traceHub]

@[simp] theorem traceHub_glb (a : Nat) (b : Nat) (c : Nat) (d : Nat) (e : Nat) (g : Nat) (h : Nat) (s : State) : (traceHub a b c d e g h s).glb = s.glb := by simp [traceHub]

@[simp] theorem traceHub_xlt (a : Nat) (b : Nat) (c : Nat) (d : Nat) (e : Nat) (g : Nat) (h : Nat) (s : State) : (traceHub a b c d e g h s).xlt = s.xlt := by simp [traceHub]

@[simp] theorem traceHub_mem (a : Nat) (b : Nat) (c : Nat) (d : Nat) (e : Nat) (g : Nat) (h : Nat) (s : State) : (traceHub a b c d e g h s).mem = s.mem := by simp [traceHub]

@[simp] theorem traceHub_dir (a : Nat) (b : Nat) (c : Nat) (d : Nat) (e : Nat) (g : Nat) (h : Nat) (s : State) : (traceHub a b c d e g h s).dir = s.dir := by simp [traceHub]

@[simp] theorem traceHub_kiln (a : Nat) (b : Nat) (c : Nat) (d : Nat) (e : Nat) (g : Nat) (h : Nat) (s : State) : (traceHub a b c d e g h s).kiln = s.kiln := by simp [traceHub]

@[simp] theorem traceHub_ports (a : Nat) (b : Nat) (c : Nat) (d : Nat) (e : Nat) (g : Nat) (h : Nat) (s : State) : (traceHub a b c d e g h s).ports = s.ports := by simp [traceHub]

@[simp] theorem traceHub_outst (a : Nat) (b : Nat) (c : Nat) (d : Nat) (e : Nat) (g : Nat) (h : Nat) (s : State) : (traceHub a b c d e g h s).outst = s.outst := by simp [traceHub]

@[simp] theorem traceHub_sags (a : Nat) (b : Nat) (c : Nat) (d : Nat) (e : Nat) (g : Nat) (h : Nat) (s : State) : (traceHub a b c d e g h s).sags = s.sags := by simp [traceHub]

@[simp] theorem traceHub_twin (a : Nat) (b : Nat) (c : Nat) (d : Nat) (e : Nat) (g : Nat) (h : Nat) (s : State) : (traceHub a b c d e g h s).twin = s.twin := by simp [traceHub]

@[simp] theorem traceHub_pen (a : Nat) (b : Nat) (c : Nat) (d : Nat) (e : Nat) (g : Nat) (h : Nat) (s : State) : (traceHub a b c d e g h s).pen = s.pen := by simp [traceHub]

@[simp] theorem traceHub_tal (a : Nat) (b : Nat) (c : Nat) (d : Nat) (e : Nat) (g : Nat) (h : Nat) (s : State) : (traceHub a b c d e g h s).tal = s.tal := by simp [traceHub]

@[simp] theorem traceHub_side (a : Nat) (b : Nat) (c : Nat) (d : Nat) (e : Nat) (g : Nat) (h : Nat) (s : State) : (traceHub a b c d e g h s).side = s.side := by simp [traceHub]

@[simp] theorem traceHub_hostOut (a : Nat) (b : Nat) (c : Nat) (d : Nat) (e : Nat) (g : Nat) (h : Nat) (s : State) : (traceHub a b c d e g h s).hostOut = s.hostOut := by simp [traceHub]

@[simp] theorem traceHub_fabOut (a : Nat) (b : Nat) (c : Nat) (d : Nat) (e : Nat) (g : Nat) (h : Nat) (s : State) : (traceHub a b c d e g h s).fabOut = s.fabOut := by simp [traceHub]

@[simp] theorem traceHub_sideOut (a : Nat) (b : Nat) (c : Nat) (d : Nat) (e : Nat) (g : Nat) (h : Nat) (s : State) : (traceHub a b c d e g h s).sideOut = s.sideOut := by simp [traceHub]

@[simp] theorem traceHub_obs_contact (a : Nat) (b : Nat) (c : Nat) (d : Nat) (e : Nat) (g : Nat) (h : Nat) (s : State) : (traceHub a b c d e g h s).obs.contact = s.obs.contact := by simp [traceHub]

@[simp] theorem traceHub_obs_global (a : Nat) (b : Nat) (c : Nat) (d : Nat) (e : Nat) (g : Nat) (h : Nat) (s : State) : (traceHub a b c d e g h s).obs.global = s.obs.global := by simp [traceHub]

@[simp] theorem traceHub_obs_mirrors (a : Nat) (b : Nat) (c : Nat) (d : Nat) (e : Nat) (g : Nat) (h : Nat) (s : State) : (traceHub a b c d e g h s).obs.mirrors = s.obs.mirrors := by simp [traceHub]

@[simp] theorem traceHub_obs_trace_cfg (a : Nat) (b : Nat) (c : Nat) (d : Nat) (e : Nat) (g : Nat) (h : Nat) (s : State) : (traceHub a b c d e g h s).obs.trace.cfg = s.obs.trace.cfg := by simp [traceHub]

@[simp] theorem traceHub_host_rings (a : Nat) (b : Nat) (c : Nat) (d : Nat) (e : Nat) (g : Nat) (h : Nat) (s : State) : (traceHub a b c d e g h s).host.rings = s.host.rings := by simp [traceHub]

@[simp] theorem traceHub_host_bounceSize (a : Nat) (b : Nat) (c : Nat) (d : Nat) (e : Nat) (g : Nat) (h : Nat) (s : State) : (traceHub a b c d e g h s).host.bounceSize = s.host.bounceSize := by simp [traceHub]

@[simp] theorem traceHub_host_irqCause (a : Nat) (b : Nat) (c : Nat) (d : Nat) (e : Nat) (g : Nat) (h : Nat) (s : State) : (traceHub a b c d e g h s).host.irqCause = s.host.irqCause := by simp [traceHub]

@[simp] theorem traceHub_host_msix (a : Nat) (b : Nat) (c : Nat) (d : Nat) (e : Nat) (g : Nat) (h : Nat) (s : State) : (traceHub a b c d e g h s).host.msix = s.host.msix := by simp [traceHub]

@[simp] theorem traceHub_host_pba (a : Nat) (b : Nat) (c : Nat) (d : Nat) (e : Nat) (g : Nat) (h : Nat) (s : State) : (traceHub a b c d e g h s).host.pba = s.host.pba := by simp [traceHub]

@[simp] theorem traceHub_host_bme (a : Nat) (b : Nat) (c : Nat) (d : Nat) (e : Nat) (g : Nat) (h : Nat) (s : State) : (traceHub a b c d e g h s).host.bme = s.host.bme := by simp [traceHub]

@[simp] theorem traceHub_host_d3hot (a : Nat) (b : Nat) (c : Nat) (d : Nat) (e : Nat) (g : Nat) (h : Nat) (s : State) : (traceHub a b c d e g h s).host.d3hot = s.host.d3hot := by simp [traceHub]

@[simp] theorem traceHub_host_linkUp (a : Nat) (b : Nat) (c : Nat) (d : Nat) (e : Nat) (g : Nat) (h : Nat) (s : State) : (traceHub a b c d e g h s).host.linkUp = s.host.linkUp := by simp [traceHub]

@[simp] theorem traceHub_host_cfg (a : Nat) (b : Nat) (c : Nat) (d : Nat) (e : Nat) (g : Nat) (h : Nat) (s : State) : (traceHub a b c d e g h s).host.cfg = s.host.cfg := by simp [traceHub]

@[simp] theorem traceHub_host_statusQ (a : Nat) (b : Nat) (c : Nat) (d : Nat) (e : Nat) (g : Nat) (h : Nat) (s : State) : (traceHub a b c d e g h s).host.statusQ = s.host.statusQ := by simp [traceHub]

@[simp] theorem traceHub_host_faultQ (a : Nat) (b : Nat) (c : Nat) (d : Nat) (e : Nat) (g : Nat) (h : Nat) (s : State) : (traceHub a b c d e g h s).host.faultQ = s.host.faultQ := by simp [traceHub]

/-! ### `emit` -/

@[simp] theorem emit_pending (k : Nat) (sid : Nat) (rg : Nat) (u : Nat) (b : List Nat) (s : State) : (emit k sid rg u b s).pending = s.pending := by simp [emit]

@[simp] theorem emit_freeCtr (k : Nat) (sid : Nat) (rg : Nat) (u : Nat) (b : List Nat) (s : State) : (emit k sid rg u b s).freeCtr = s.freeCtr := by simp [emit]

@[simp] theorem emit_glb (k : Nat) (sid : Nat) (rg : Nat) (u : Nat) (b : List Nat) (s : State) : (emit k sid rg u b s).glb = s.glb := by simp [emit]

@[simp] theorem emit_xlt (k : Nat) (sid : Nat) (rg : Nat) (u : Nat) (b : List Nat) (s : State) : (emit k sid rg u b s).xlt = s.xlt := by simp [emit]

@[simp] theorem emit_mem (k : Nat) (sid : Nat) (rg : Nat) (u : Nat) (b : List Nat) (s : State) : (emit k sid rg u b s).mem = s.mem := by simp [emit]

@[simp] theorem emit_dir (k : Nat) (sid : Nat) (rg : Nat) (u : Nat) (b : List Nat) (s : State) : (emit k sid rg u b s).dir = s.dir := by simp [emit]

@[simp] theorem emit_kiln (k : Nat) (sid : Nat) (rg : Nat) (u : Nat) (b : List Nat) (s : State) : (emit k sid rg u b s).kiln = s.kiln := by simp [emit]

@[simp] theorem emit_ports (k : Nat) (sid : Nat) (rg : Nat) (u : Nat) (b : List Nat) (s : State) : (emit k sid rg u b s).ports = s.ports := by simp [emit]

@[simp] theorem emit_outst (k : Nat) (sid : Nat) (rg : Nat) (u : Nat) (b : List Nat) (s : State) : (emit k sid rg u b s).outst = s.outst := by simp [emit]

@[simp] theorem emit_sags (k : Nat) (sid : Nat) (rg : Nat) (u : Nat) (b : List Nat) (s : State) : (emit k sid rg u b s).sags = s.sags := by simp [emit]

@[simp] theorem emit_twin (k : Nat) (sid : Nat) (rg : Nat) (u : Nat) (b : List Nat) (s : State) : (emit k sid rg u b s).twin = s.twin := by simp [emit]

@[simp] theorem emit_pen (k : Nat) (sid : Nat) (rg : Nat) (u : Nat) (b : List Nat) (s : State) : (emit k sid rg u b s).pen = s.pen := by simp [emit]

@[simp] theorem emit_side (k : Nat) (sid : Nat) (rg : Nat) (u : Nat) (b : List Nat) (s : State) : (emit k sid rg u b s).side = s.side := by simp [emit]

@[simp] theorem emit_hostOut (k : Nat) (sid : Nat) (rg : Nat) (u : Nat) (b : List Nat) (s : State) : (emit k sid rg u b s).hostOut = s.hostOut := by simp [emit]

@[simp] theorem emit_fabOut (k : Nat) (sid : Nat) (rg : Nat) (u : Nat) (b : List Nat) (s : State) : (emit k sid rg u b s).fabOut = s.fabOut := by simp [emit]

@[simp] theorem emit_sideOut (k : Nat) (sid : Nat) (rg : Nat) (u : Nat) (b : List Nat) (s : State) : (emit k sid rg u b s).sideOut = s.sideOut := by simp [emit]

@[simp] theorem emit_obs_contact (k : Nat) (sid : Nat) (rg : Nat) (u : Nat) (b : List Nat) (s : State) : (emit k sid rg u b s).obs.contact = s.obs.contact := by simp [emit]

@[simp] theorem emit_obs_global (k : Nat) (sid : Nat) (rg : Nat) (u : Nat) (b : List Nat) (s : State) : (emit k sid rg u b s).obs.global = s.obs.global := by simp [emit]

@[simp] theorem emit_obs_mirrors (k : Nat) (sid : Nat) (rg : Nat) (u : Nat) (b : List Nat) (s : State) : (emit k sid rg u b s).obs.mirrors = s.obs.mirrors := by simp [emit]

@[simp] theorem emit_obs_trace_cfg (k : Nat) (sid : Nat) (rg : Nat) (u : Nat) (b : List Nat) (s : State) : (emit k sid rg u b s).obs.trace.cfg = s.obs.trace.cfg := by simp [emit]

@[simp] theorem emit_host_rings (k : Nat) (sid : Nat) (rg : Nat) (u : Nat) (b : List Nat) (s : State) : (emit k sid rg u b s).host.rings = s.host.rings := by simp [emit]

@[simp] theorem emit_host_bounceSize (k : Nat) (sid : Nat) (rg : Nat) (u : Nat) (b : List Nat) (s : State) : (emit k sid rg u b s).host.bounceSize = s.host.bounceSize := by simp [emit]

@[simp] theorem emit_host_irqCause (k : Nat) (sid : Nat) (rg : Nat) (u : Nat) (b : List Nat) (s : State) : (emit k sid rg u b s).host.irqCause = s.host.irqCause := by simp [emit]

@[simp] theorem emit_host_msix (k : Nat) (sid : Nat) (rg : Nat) (u : Nat) (b : List Nat) (s : State) : (emit k sid rg u b s).host.msix = s.host.msix := by simp [emit]

@[simp] theorem emit_host_pba (k : Nat) (sid : Nat) (rg : Nat) (u : Nat) (b : List Nat) (s : State) : (emit k sid rg u b s).host.pba = s.host.pba := by simp [emit]

@[simp] theorem emit_host_bme (k : Nat) (sid : Nat) (rg : Nat) (u : Nat) (b : List Nat) (s : State) : (emit k sid rg u b s).host.bme = s.host.bme := by simp [emit]

@[simp] theorem emit_host_d3hot (k : Nat) (sid : Nat) (rg : Nat) (u : Nat) (b : List Nat) (s : State) : (emit k sid rg u b s).host.d3hot = s.host.d3hot := by simp [emit]

@[simp] theorem emit_host_linkUp (k : Nat) (sid : Nat) (rg : Nat) (u : Nat) (b : List Nat) (s : State) : (emit k sid rg u b s).host.linkUp = s.host.linkUp := by simp [emit]

@[simp] theorem emit_host_cfg (k : Nat) (sid : Nat) (rg : Nat) (u : Nat) (b : List Nat) (s : State) : (emit k sid rg u b s).host.cfg = s.host.cfg := by simp [emit]

@[simp] theorem emit_host_statusQ (k : Nat) (sid : Nat) (rg : Nat) (u : Nat) (b : List Nat) (s : State) : (emit k sid rg u b s).host.statusQ = s.host.statusQ := by simp [emit]

@[simp] theorem emit_host_faultQ (k : Nat) (sid : Nat) (rg : Nat) (u : Nat) (b : List Nat) (s : State) : (emit k sid rg u b s).host.faultQ = s.host.faultQ := by simp [emit]

@[simp] theorem emit_tal_0 (k sid u : Nat) (b : List Nat) (s : State) : (emit k sid 0 u b s).tal = s.tal := by simp [emit, regionFrozen, tallyUnit]

@[simp] theorem emit_tal_3 (k sid u : Nat) (b : List Nat) (s : State) : (emit k sid 3 u b s).tal = s.tal := by simp [emit, regionFrozen, tallyUnit]

/-! ### `finish` -/

@[simp] theorem finish_pending (r : Nat) (st : Nat) (sg : Nat) (ix : Nat) (res : List Nat) (items : List OutItem) (s : State) : (finish r st sg ix res items s).pending = s.pending := by unfold finish; split <;> simp

@[simp] theorem finish_freeCtr (r : Nat) (st : Nat) (sg : Nat) (ix : Nat) (res : List Nat) (items : List OutItem) (s : State) : (finish r st sg ix res items s).freeCtr = s.freeCtr := by unfold finish; split <;> simp

@[simp] theorem finish_glb (r : Nat) (st : Nat) (sg : Nat) (ix : Nat) (res : List Nat) (items : List OutItem) (s : State) : (finish r st sg ix res items s).glb = s.glb := by unfold finish; split <;> simp

@[simp] theorem finish_xlt (r : Nat) (st : Nat) (sg : Nat) (ix : Nat) (res : List Nat) (items : List OutItem) (s : State) : (finish r st sg ix res items s).xlt = s.xlt := by unfold finish; split <;> simp

@[simp] theorem finish_mem (r : Nat) (st : Nat) (sg : Nat) (ix : Nat) (res : List Nat) (items : List OutItem) (s : State) : (finish r st sg ix res items s).mem = s.mem := by unfold finish; split <;> simp

@[simp] theorem finish_dir (r : Nat) (st : Nat) (sg : Nat) (ix : Nat) (res : List Nat) (items : List OutItem) (s : State) : (finish r st sg ix res items s).dir = s.dir := by unfold finish; split <;> simp

@[simp] theorem finish_kiln (r : Nat) (st : Nat) (sg : Nat) (ix : Nat) (res : List Nat) (items : List OutItem) (s : State) : (finish r st sg ix res items s).kiln = s.kiln := by unfold finish; split <;> simp

@[simp] theorem finish_ports (r : Nat) (st : Nat) (sg : Nat) (ix : Nat) (res : List Nat) (items : List OutItem) (s : State) : (finish r st sg ix res items s).ports = s.ports := by unfold finish; split <;> simp

@[simp] theorem finish_outst (r : Nat) (st : Nat) (sg : Nat) (ix : Nat) (res : List Nat) (items : List OutItem) (s : State) : (finish r st sg ix res items s).outst = s.outst := by unfold finish; split <;> simp

@[simp] theorem finish_sags (r : Nat) (st : Nat) (sg : Nat) (ix : Nat) (res : List Nat) (items : List OutItem) (s : State) : (finish r st sg ix res items s).sags = s.sags := by unfold finish; split <;> simp

@[simp] theorem finish_twin (r : Nat) (st : Nat) (sg : Nat) (ix : Nat) (res : List Nat) (items : List OutItem) (s : State) : (finish r st sg ix res items s).twin = s.twin := by unfold finish; split <;> simp

@[simp] theorem finish_pen (r : Nat) (st : Nat) (sg : Nat) (ix : Nat) (res : List Nat) (items : List OutItem) (s : State) : (finish r st sg ix res items s).pen = s.pen := by unfold finish; split <;> simp

@[simp] theorem finish_tal (r : Nat) (st : Nat) (sg : Nat) (ix : Nat) (res : List Nat) (items : List OutItem) (s : State) : (finish r st sg ix res items s).tal = s.tal := by unfold finish; split <;> simp

@[simp] theorem finish_side (r : Nat) (st : Nat) (sg : Nat) (ix : Nat) (res : List Nat) (items : List OutItem) (s : State) : (finish r st sg ix res items s).side = s.side := by unfold finish; split <;> simp

@[simp] theorem finish_hostOut (r : Nat) (st : Nat) (sg : Nat) (ix : Nat) (res : List Nat) (items : List OutItem) (s : State) : (finish r st sg ix res items s).hostOut = s.hostOut := by unfold finish; split <;> simp

@[simp] theorem finish_fabOut (r : Nat) (st : Nat) (sg : Nat) (ix : Nat) (res : List Nat) (items : List OutItem) (s : State) : (finish r st sg ix res items s).fabOut = s.fabOut := by unfold finish; split <;> simp

@[simp] theorem finish_sideOut (r : Nat) (st : Nat) (sg : Nat) (ix : Nat) (res : List Nat) (items : List OutItem) (s : State) : (finish r st sg ix res items s).sideOut = s.sideOut := by unfold finish; split <;> simp

@[simp] theorem finish_obs_contact (r : Nat) (st : Nat) (sg : Nat) (ix : Nat) (res : List Nat) (items : List OutItem) (s : State) : (finish r st sg ix res items s).obs.contact = s.obs.contact := by unfold finish; split <;> simp

@[simp] theorem finish_obs_mirrors (r : Nat) (st : Nat) (sg : Nat) (ix : Nat) (res : List Nat) (items : List OutItem) (s : State) : (finish r st sg ix res items s).obs.mirrors = s.obs.mirrors := by unfold finish; split <;> simp

@[simp] theorem finish_obs_trace_cfg (r : Nat) (st : Nat) (sg : Nat) (ix : Nat) (res : List Nat) (items : List OutItem) (s : State) : (finish r st sg ix res items s).obs.trace.cfg = s.obs.trace.cfg := by unfold finish; split <;> simp

@[simp] theorem finish_host_bounceSize (r : Nat) (st : Nat) (sg : Nat) (ix : Nat) (res : List Nat) (items : List OutItem) (s : State) : (finish r st sg ix res items s).host.bounceSize = s.host.bounceSize := by unfold finish; split <;> simp

@[simp] theorem finish_host_irqCause (r : Nat) (st : Nat) (sg : Nat) (ix : Nat) (res : List Nat) (items : List OutItem) (s : State) : (finish r st sg ix res items s).host.irqCause = s.host.irqCause := by unfold finish; split <;> simp

@[simp] theorem finish_host_msix (r : Nat) (st : Nat) (sg : Nat) (ix : Nat) (res : List Nat) (items : List OutItem) (s : State) : (finish r st sg ix res items s).host.msix = s.host.msix := by unfold finish; split <;> simp

@[simp] theorem finish_host_pba (r : Nat) (st : Nat) (sg : Nat) (ix : Nat) (res : List Nat) (items : List OutItem) (s : State) : (finish r st sg ix res items s).host.pba = s.host.pba := by unfold finish; split <;> simp

@[simp] theorem finish_host_bme (r : Nat) (st : Nat) (sg : Nat) (ix : Nat) (res : List Nat) (items : List OutItem) (s : State) : (finish r st sg ix res items s).host.bme = s.host.bme := by unfold finish; split <;> simp

@[simp] theorem finish_host_d3hot (r : Nat) (st : Nat) (sg : Nat) (ix : Nat) (res : List Nat) (items : List OutItem) (s : State) : (finish r st sg ix res items s).host.d3hot = s.host.d3hot := by unfold finish; split <;> simp

@[simp] theorem finish_host_linkUp (r : Nat) (st : Nat) (sg : Nat) (ix : Nat) (res : List Nat) (items : List OutItem) (s : State) : (finish r st sg ix res items s).host.linkUp = s.host.linkUp := by unfold finish; split <;> simp

@[simp] theorem finish_host_cfg (r : Nat) (st : Nat) (sg : Nat) (ix : Nat) (res : List Nat) (items : List OutItem) (s : State) : (finish r st sg ix res items s).host.cfg = s.host.cfg := by unfold finish; split <;> simp

@[simp] theorem finish_host_faultQ (r : Nat) (st : Nat) (sg : Nat) (ix : Nat) (res : List Nat) (items : List OutItem) (s : State) : (finish r st sg ix res items s).host.faultQ = s.host.faultQ := by unfold finish; split <;> simp

/-! ### `sendVec` -/

@[simp] theorem sendVec_pending (v : Nat) (s : State) : (sendVec v s).pending = s.pending := by unfold sendVec; split <;> rfl

@[simp] theorem sendVec_freeCtr (v : Nat) (s : State) : (sendVec v s).freeCtr = s.freeCtr := by unfold sendVec; split <;> rfl

@[simp] theorem sendVec_glb (v : Nat) (s : State) : (sendVec v s).glb = s.glb := by unfold sendVec; split <;> rfl

@[simp] theorem sendVec_xlt (v : Nat) (s : State) : (sendVec v s).xlt = s.xlt := by unfold sendVec; split <;> rfl

@[simp] theorem sendVec_mem (v : Nat) (s : State) : (sendVec v s).mem = s.mem := by unfold sendVec; split <;> rfl

@[simp] theorem sendVec_dir (v : Nat) (s : State) : (sendVec v s).dir = s.dir := by unfold sendVec; split <;> rfl

@[simp] theorem sendVec_kiln (v : Nat) (s : State) : (sendVec v s).kiln = s.kiln := by unfold sendVec; split <;> rfl

@[simp] theorem sendVec_ports (v : Nat) (s : State) : (sendVec v s).ports = s.ports := by unfold sendVec; split <;> rfl

@[simp] theorem sendVec_outst (v : Nat) (s : State) : (sendVec v s).outst = s.outst := by unfold sendVec; split <;> rfl

@[simp] theorem sendVec_sags (v : Nat) (s : State) : (sendVec v s).sags = s.sags := by unfold sendVec; split <;> rfl

@[simp] theorem sendVec_twin (v : Nat) (s : State) : (sendVec v s).twin = s.twin := by unfold sendVec; split <;> rfl

@[simp] theorem sendVec_pen (v : Nat) (s : State) : (sendVec v s).pen = s.pen := by unfold sendVec; split <;> rfl

@[simp] theorem sendVec_tal (v : Nat) (s : State) : (sendVec v s).tal = s.tal := by unfold sendVec; split <;> rfl

@[simp] theorem sendVec_obs (v : Nat) (s : State) : (sendVec v s).obs = s.obs := by unfold sendVec; split <;> rfl

@[simp] theorem sendVec_side (v : Nat) (s : State) : (sendVec v s).side = s.side := by unfold sendVec; split <;> rfl

@[simp] theorem sendVec_fabOut (v : Nat) (s : State) : (sendVec v s).fabOut = s.fabOut := by unfold sendVec; split <;> rfl

@[simp] theorem sendVec_sideOut (v : Nat) (s : State) : (sendVec v s).sideOut = s.sideOut := by unfold sendVec; split <;> rfl

@[simp] theorem sendVec_host_rings (v : Nat) (s : State) : (sendVec v s).host.rings = s.host.rings := by unfold sendVec; split <;> rfl

@[simp] theorem sendVec_host_bounceSize (v : Nat) (s : State) : (sendVec v s).host.bounceSize = s.host.bounceSize := by unfold sendVec; split <;> rfl

@[simp] theorem sendVec_host_irqCause (v : Nat) (s : State) : (sendVec v s).host.irqCause = s.host.irqCause := by unfold sendVec; split <;> rfl

@[simp] theorem sendVec_host_msix (v : Nat) (s : State) : (sendVec v s).host.msix = s.host.msix := by unfold sendVec; split <;> rfl

@[simp] theorem sendVec_host_bme (v : Nat) (s : State) : (sendVec v s).host.bme = s.host.bme := by unfold sendVec; split <;> rfl

@[simp] theorem sendVec_host_d3hot (v : Nat) (s : State) : (sendVec v s).host.d3hot = s.host.d3hot := by unfold sendVec; split <;> rfl

@[simp] theorem sendVec_host_linkUp (v : Nat) (s : State) : (sendVec v s).host.linkUp = s.host.linkUp := by unfold sendVec; split <;> rfl

@[simp] theorem sendVec_host_cfg (v : Nat) (s : State) : (sendVec v s).host.cfg = s.host.cfg := by unfold sendVec; split <;> rfl

@[simp] theorem sendVec_host_statusQ (v : Nat) (s : State) : (sendVec v s).host.statusQ = s.host.statusQ := by unfold sendVec; split <;> rfl

@[simp] theorem sendVec_host_faultQ (v : Nat) (s : State) : (sendVec v s).host.faultQ = s.host.faultQ := by unfold sendVec; split <;> rfl

@[simp] theorem sendVec_host_evBuf (v : Nat) (s : State) : (sendVec v s).host.evBuf = s.host.evBuf := by unfold sendVec; split <;> rfl

@[simp] theorem sendVec_host_evSeq (v : Nat) (s : State) : (sendVec v s).host.evSeq = s.host.evSeq := by unfold sendVec; split <;> rfl

/-! ### `raiseIrq` -/

@[simp] theorem raiseIrq_pending (v : Nat) (s : State) : (raiseIrq v s).pending = s.pending := by simp [raiseIrq]

@[simp] theorem raiseIrq_freeCtr (v : Nat) (s : State) : (raiseIrq v s).freeCtr = s.freeCtr := by simp [raiseIrq]

@[simp] theorem raiseIrq_glb (v : Nat) (s : State) : (raiseIrq v s).glb = s.glb := by simp [raiseIrq]

@[simp] theorem raiseIrq_xlt (v : Nat) (s : State) : (raiseIrq v s).xlt = s.xlt := by simp [raiseIrq]

@[simp] theorem raiseIrq_mem (v : Nat) (s : State) : (raiseIrq v s).mem = s.mem := by simp [raiseIrq]

@[simp] theorem raiseIrq_dir (v : Nat) (s : State) : (raiseIrq v s).dir = s.dir := by simp [raiseIrq]

@[simp] theorem raiseIrq_kiln (v : Nat) (s : State) : (raiseIrq v s).kiln = s.kiln := by simp [raiseIrq]

@[simp] theorem raiseIrq_ports (v : Nat) (s : State) : (raiseIrq v s).ports = s.ports := by simp [raiseIrq]

@[simp] theorem raiseIrq_outst (v : Nat) (s : State) : (raiseIrq v s).outst = s.outst := by simp [raiseIrq]

@[simp] theorem raiseIrq_sags (v : Nat) (s : State) : (raiseIrq v s).sags = s.sags := by simp [raiseIrq]

@[simp] theorem raiseIrq_twin (v : Nat) (s : State) : (raiseIrq v s).twin = s.twin := by simp [raiseIrq]

@[simp] theorem raiseIrq_pen (v : Nat) (s : State) : (raiseIrq v s).pen = s.pen := by simp [raiseIrq]

@[simp] theorem raiseIrq_tal (v : Nat) (s : State) : (raiseIrq v s).tal = s.tal := by simp [raiseIrq]

@[simp] theorem raiseIrq_obs (v : Nat) (s : State) : (raiseIrq v s).obs = s.obs := by simp [raiseIrq]

@[simp] theorem raiseIrq_side (v : Nat) (s : State) : (raiseIrq v s).side = s.side := by simp [raiseIrq]

@[simp] theorem raiseIrq_fabOut (v : Nat) (s : State) : (raiseIrq v s).fabOut = s.fabOut := by simp [raiseIrq]

@[simp] theorem raiseIrq_sideOut (v : Nat) (s : State) : (raiseIrq v s).sideOut = s.sideOut := by simp [raiseIrq]

@[simp] theorem raiseIrq_host_rings (v : Nat) (s : State) : (raiseIrq v s).host.rings = s.host.rings := by simp [raiseIrq]

@[simp] theorem raiseIrq_host_bounceSize (v : Nat) (s : State) : (raiseIrq v s).host.bounceSize = s.host.bounceSize := by simp [raiseIrq]

@[simp] theorem raiseIrq_host_msix (v : Nat) (s : State) : (raiseIrq v s).host.msix = s.host.msix := by simp [raiseIrq]

@[simp] theorem raiseIrq_host_bme (v : Nat) (s : State) : (raiseIrq v s).host.bme = s.host.bme := by simp [raiseIrq]

@[simp] theorem raiseIrq_host_d3hot (v : Nat) (s : State) : (raiseIrq v s).host.d3hot = s.host.d3hot := by simp [raiseIrq]

@[simp] theorem raiseIrq_host_linkUp (v : Nat) (s : State) : (raiseIrq v s).host.linkUp = s.host.linkUp := by simp [raiseIrq]

@[simp] theorem raiseIrq_host_cfg (v : Nat) (s : State) : (raiseIrq v s).host.cfg = s.host.cfg := by simp [raiseIrq]

@[simp] theorem raiseIrq_host_statusQ (v : Nat) (s : State) : (raiseIrq v s).host.statusQ = s.host.statusQ := by simp [raiseIrq]

@[simp] theorem raiseIrq_host_faultQ (v : Nat) (s : State) : (raiseIrq v s).host.faultQ = s.host.faultQ := by simp [raiseIrq]

@[simp] theorem raiseIrq_host_evBuf (v : Nat) (s : State) : (raiseIrq v s).host.evBuf = s.host.evBuf := by simp [raiseIrq]

@[simp] theorem raiseIrq_host_evSeq (v : Nat) (s : State) : (raiseIrq v s).host.evSeq = s.host.evSeq := by simp [raiseIrq]

/-! ### `haltRing` -/

@[simp] theorem haltRing_pending (r : Nat) (c : Nat) (s : State) : (haltRing r c s).pending = s.pending := by simp [haltRing]

@[simp] theorem haltRing_freeCtr (r : Nat) (c : Nat) (s : State) : (haltRing r c s).freeCtr = s.freeCtr := by simp [haltRing]

@[simp] theorem haltRing_glb (r : Nat) (c : Nat) (s : State) : (haltRing r c s).glb = s.glb := by simp [haltRing]

@[simp] theorem haltRing_xlt (r : Nat) (c : Nat) (s : State) : (haltRing r c s).xlt = s.xlt := by simp [haltRing]

@[simp] theorem haltRing_mem (r : Nat) (c : Nat) (s : State) : (haltRing r c s).mem = s.mem := by simp [haltRing]

@[simp] theorem haltRing_dir (r : Nat) (c : Nat) (s : State) : (haltRing r c s).dir = s.dir := by simp [haltRing]

@[simp] theorem haltRing_kiln (r : Nat) (c : Nat) (s : State) : (haltRing r c s).kiln = s.kiln := by simp [haltRing]

@[simp] theorem haltRing_ports (r : Nat) (c : Nat) (s : State) : (haltRing r c s).ports = s.ports := by simp [haltRing]

@[simp] theorem haltRing_outst (r : Nat) (c : Nat) (s : State) : (haltRing r c s).outst = s.outst := by simp [haltRing]

@[simp] theorem haltRing_sags (r : Nat) (c : Nat) (s : State) : (haltRing r c s).sags = s.sags := by simp [haltRing]

@[simp] theorem haltRing_twin (r : Nat) (c : Nat) (s : State) : (haltRing r c s).twin = s.twin := by simp [haltRing]

@[simp] theorem haltRing_pen (r : Nat) (c : Nat) (s : State) : (haltRing r c s).pen = s.pen := by simp [haltRing]

@[simp] theorem haltRing_tal (r : Nat) (c : Nat) (s : State) : (haltRing r c s).tal = s.tal := by simp [haltRing]

@[simp] theorem haltRing_obs (r : Nat) (c : Nat) (s : State) : (haltRing r c s).obs = s.obs := by simp [haltRing]

@[simp] theorem haltRing_side (r : Nat) (c : Nat) (s : State) : (haltRing r c s).side = s.side := by simp [haltRing]

@[simp] theorem haltRing_fabOut (r : Nat) (c : Nat) (s : State) : (haltRing r c s).fabOut = s.fabOut := by simp [haltRing]

@[simp] theorem haltRing_sideOut (r : Nat) (c : Nat) (s : State) : (haltRing r c s).sideOut = s.sideOut := by simp [haltRing]

@[simp] theorem haltRing_host_bounceSize (r : Nat) (c : Nat) (s : State) : (haltRing r c s).host.bounceSize = s.host.bounceSize := by simp [haltRing]

@[simp] theorem haltRing_host_msix (r : Nat) (c : Nat) (s : State) : (haltRing r c s).host.msix = s.host.msix := by simp [haltRing]

@[simp] theorem haltRing_host_bme (r : Nat) (c : Nat) (s : State) : (haltRing r c s).host.bme = s.host.bme := by simp [haltRing]

@[simp] theorem haltRing_host_d3hot (r : Nat) (c : Nat) (s : State) : (haltRing r c s).host.d3hot = s.host.d3hot := by simp [haltRing]

@[simp] theorem haltRing_host_linkUp (r : Nat) (c : Nat) (s : State) : (haltRing r c s).host.linkUp = s.host.linkUp := by simp [haltRing]

@[simp] theorem haltRing_host_cfg (r : Nat) (c : Nat) (s : State) : (haltRing r c s).host.cfg = s.host.cfg := by simp [haltRing]

@[simp] theorem haltRing_host_statusQ (r : Nat) (c : Nat) (s : State) : (haltRing r c s).host.statusQ = s.host.statusQ := by simp [haltRing]

@[simp] theorem haltRing_host_faultQ (r : Nat) (c : Nat) (s : State) : (haltRing r c s).host.faultQ = s.host.faultQ := by simp [haltRing]

/-! ### `modDie` -/

@[simp] theorem modDie_pending (k : Nat) (f : DieMem → DieMem) (s : State) : (modDie k f s).pending = s.pending := rfl

@[simp] theorem modDie_freeCtr (k : Nat) (f : DieMem → DieMem) (s : State) : (modDie k f s).freeCtr = s.freeCtr := rfl

@[simp] theorem modDie_glb (k : Nat) (f : DieMem → DieMem) (s : State) : (modDie k f s).glb = s.glb := rfl

@[simp] theorem modDie_host (k : Nat) (f : DieMem → DieMem) (s : State) : (modDie k f s).host = s.host := rfl

@[simp] theorem modDie_xlt (k : Nat) (f : DieMem → DieMem) (s : State) : (modDie k f s).xlt = s.xlt := rfl

@[simp] theorem modDie_dir (k : Nat) (f : DieMem → DieMem) (s : State) : (modDie k f s).dir = s.dir := rfl

@[simp] theorem modDie_kiln (k : Nat) (f : DieMem → DieMem) (s : State) : (modDie k f s).kiln = s.kiln := rfl

@[simp] theorem modDie_ports (k : Nat) (f : DieMem → DieMem) (s : State) : (modDie k f s).ports = s.ports := rfl

@[simp] theorem modDie_outst (k : Nat) (f : DieMem → DieMem) (s : State) : (modDie k f s).outst = s.outst := rfl

@[simp] theorem modDie_sags (k : Nat) (f : DieMem → DieMem) (s : State) : (modDie k f s).sags = s.sags := rfl

@[simp] theorem modDie_twin (k : Nat) (f : DieMem → DieMem) (s : State) : (modDie k f s).twin = s.twin := rfl

@[simp] theorem modDie_pen (k : Nat) (f : DieMem → DieMem) (s : State) : (modDie k f s).pen = s.pen := rfl

@[simp] theorem modDie_tal (k : Nat) (f : DieMem → DieMem) (s : State) : (modDie k f s).tal = s.tal := rfl

@[simp] theorem modDie_obs (k : Nat) (f : DieMem → DieMem) (s : State) : (modDie k f s).obs = s.obs := rfl

@[simp] theorem modDie_side (k : Nat) (f : DieMem → DieMem) (s : State) : (modDie k f s).side = s.side := rfl

@[simp] theorem modDie_hostOut (k : Nat) (f : DieMem → DieMem) (s : State) : (modDie k f s).hostOut = s.hostOut := rfl

@[simp] theorem modDie_fabOut (k : Nat) (f : DieMem → DieMem) (s : State) : (modDie k f s).fabOut = s.fabOut := rfl

@[simp] theorem modDie_sideOut (k : Nat) (f : DieMem → DieMem) (s : State) : (modDie k f s).sideOut = s.sideOut := rfl

@[simp] theorem modDie_mem_lines (k : Nat) (f : DieMem → DieMem) (s : State) : (modDie k f s).mem.lines = s.mem.lines := rfl

@[simp] theorem modDie_mem_fills (k : Nat) (f : DieMem → DieMem) (s : State) : (modDie k f s).mem.fills = s.mem.fills := rfl

@[simp] theorem modDie_mem_softRows (k : Nat) (f : DieMem → DieMem) (s : State) : (modDie k f s).mem.softRows = s.mem.softRows := rfl

@[simp] theorem modDie_mem_hardRows (k : Nat) (f : DieMem → DieMem) (s : State) : (modDie k f s).mem.hardRows = s.mem.hardRows := rfl

@[simp] theorem modDie_mem_presence (k : Nat) (f : DieMem → DieMem) (s : State) : (modDie k f s).mem.presence = s.mem.presence := rfl

/-! ### `modPort` -/

@[simp] theorem modPort_pending (p : Nat) (f : Port → Port) (s : State) : (modPort p f s).pending = s.pending := rfl

@[simp] theorem modPort_freeCtr (p : Nat) (f : Port → Port) (s : State) : (modPort p f s).freeCtr = s.freeCtr := rfl

@[simp] theorem modPort_glb (p : Nat) (f : Port → Port) (s : State) : (modPort p f s).glb = s.glb := rfl

@[simp] theorem modPort_host (p : Nat) (f : Port → Port) (s : State) : (modPort p f s).host = s.host := rfl

@[simp] theorem modPort_xlt (p : Nat) (f : Port → Port) (s : State) : (modPort p f s).xlt = s.xlt := rfl

@[simp] theorem modPort_mem (p : Nat) (f : Port → Port) (s : State) : (modPort p f s).mem = s.mem := rfl

@[simp] theorem modPort_dir (p : Nat) (f : Port → Port) (s : State) : (modPort p f s).dir = s.dir := rfl

@[simp] theorem modPort_kiln (p : Nat) (f : Port → Port) (s : State) : (modPort p f s).kiln = s.kiln := rfl

@[simp] theorem modPort_outst (p : Nat) (f : Port → Port) (s : State) : (modPort p f s).outst = s.outst := rfl

@[simp] theorem modPort_sags (p : Nat) (f : Port → Port) (s : State) : (modPort p f s).sags = s.sags := rfl

@[simp] theorem modPort_twin (p : Nat) (f : Port → Port) (s : State) : (modPort p f s).twin = s.twin := rfl

@[simp] theorem modPort_pen (p : Nat) (f : Port → Port) (s : State) : (modPort p f s).pen = s.pen := rfl

@[simp] theorem modPort_tal (p : Nat) (f : Port → Port) (s : State) : (modPort p f s).tal = s.tal := rfl

@[simp] theorem modPort_obs (p : Nat) (f : Port → Port) (s : State) : (modPort p f s).obs = s.obs := rfl

@[simp] theorem modPort_side (p : Nat) (f : Port → Port) (s : State) : (modPort p f s).side = s.side := rfl

@[simp] theorem modPort_hostOut (p : Nat) (f : Port → Port) (s : State) : (modPort p f s).hostOut = s.hostOut := rfl

@[simp] theorem modPort_fabOut (p : Nat) (f : Port → Port) (s : State) : (modPort p f s).fabOut = s.fabOut := rfl

@[simp] theorem modPort_sideOut (p : Nat) (f : Port → Port) (s : State) : (modPort p f s).sideOut = s.sideOut := rfl

/-! ### `modShelf` -/

@[simp] theorem modShelf_pending (k : Nat) (f : Shelf → Shelf) (s : State) : (modShelf k f s).pending = s.pending := rfl

@[simp] theorem modShelf_freeCtr (k : Nat) (f : Shelf → Shelf) (s : State) : (modShelf k f s).freeCtr = s.freeCtr := rfl

@[simp] theorem modShelf_glb (k : Nat) (f : Shelf → Shelf) (s : State) : (modShelf k f s).glb = s.glb := rfl

@[simp] theorem modShelf_host (k : Nat) (f : Shelf → Shelf) (s : State) : (modShelf k f s).host = s.host := rfl

@[simp] theorem modShelf_xlt (k : Nat) (f : Shelf → Shelf) (s : State) : (modShelf k f s).xlt = s.xlt := rfl

@[simp] theorem modShelf_mem (k : Nat) (f : Shelf → Shelf) (s : State) : (modShelf k f s).mem = s.mem := rfl

@[simp] theorem modShelf_dir (k : Nat) (f : Shelf → Shelf) (s : State) : (modShelf k f s).dir = s.dir := rfl

@[simp] theorem modShelf_ports (k : Nat) (f : Shelf → Shelf) (s : State) : (modShelf k f s).ports = s.ports := rfl

@[simp] theorem modShelf_outst (k : Nat) (f : Shelf → Shelf) (s : State) : (modShelf k f s).outst = s.outst := rfl

@[simp] theorem modShelf_sags (k : Nat) (f : Shelf → Shelf) (s : State) : (modShelf k f s).sags = s.sags := rfl

@[simp] theorem modShelf_twin (k : Nat) (f : Shelf → Shelf) (s : State) : (modShelf k f s).twin = s.twin := rfl

@[simp] theorem modShelf_pen (k : Nat) (f : Shelf → Shelf) (s : State) : (modShelf k f s).pen = s.pen := rfl

@[simp] theorem modShelf_tal (k : Nat) (f : Shelf → Shelf) (s : State) : (modShelf k f s).tal = s.tal := rfl

@[simp] theorem modShelf_obs (k : Nat) (f : Shelf → Shelf) (s : State) : (modShelf k f s).obs = s.obs := rfl

@[simp] theorem modShelf_side (k : Nat) (f : Shelf → Shelf) (s : State) : (modShelf k f s).side = s.side := rfl

@[simp] theorem modShelf_hostOut (k : Nat) (f : Shelf → Shelf) (s : State) : (modShelf k f s).hostOut = s.hostOut := rfl

@[simp] theorem modShelf_fabOut (k : Nat) (f : Shelf → Shelf) (s : State) : (modShelf k f s).fabOut = s.fabOut := rfl

@[simp] theorem modShelf_sideOut (k : Nat) (f : Shelf → Shelf) (s : State) : (modShelf k f s).sideOut = s.sideOut := rfl

@[simp] theorem modShelf_kiln_firings (k : Nat) (f : Shelf → Shelf) (s : State) : (modShelf k f s).kiln.firings = s.kiln.firings := rfl

@[simp] theorem modShelf_kiln_library (k : Nat) (f : Shelf → Shelf) (s : State) : (modShelf k f s).kiln.library = s.kiln.library := rfl

@[simp] theorem modShelf_kiln_wins (k : Nat) (f : Shelf → Shelf) (s : State) : (modShelf k f s).kiln.wins = s.kiln.wins := rfl

@[simp] theorem modShelf_kiln_ctxs (k : Nat) (f : Shelf → Shelf) (s : State) : (modShelf k f s).kiln.ctxs = s.kiln.ctxs := rfl

@[simp] theorem modShelf_kiln_runs (k : Nat) (f : Shelf → Shelf) (s : State) : (modShelf k f s).kiln.runs = s.kiln.runs := rfl

@[simp] theorem modShelf_kiln_dies (k : Nat) (f : Shelf → Shelf) (s : State) : (modShelf k f s).kiln.dies = s.kiln.dies := rfl

/-! ### `modKiln` -/

@[simp] theorem modKiln_pending (k : Nat) (f : KilnDie → KilnDie) (s : State) : (modKiln k f s).pending = s.pending := rfl

@[simp] theorem modKiln_freeCtr (k : Nat) (f : KilnDie → KilnDie) (s : State) : (modKiln k f s).freeCtr = s.freeCtr := rfl

@[simp] theorem modKiln_glb (k : Nat) (f : KilnDie → KilnDie) (s : State) : (modKiln k f s).glb = s.glb := rfl

@[simp] theorem modKiln_host (k : Nat) (f : KilnDie → KilnDie) (s : State) : (modKiln k f s).host = s.host := rfl

@[simp] theorem modKiln_xlt (k : Nat) (f : KilnDie → KilnDie) (s : State) : (modKiln k f s).xlt = s.xlt := rfl

@[simp] theorem modKiln_mem (k : Nat) (f : KilnDie → KilnDie) (s : State) : (modKiln k f s).mem = s.mem := rfl

@[simp] theorem modKiln_dir (k : Nat) (f : KilnDie → KilnDie) (s : State) : (modKiln k f s).dir = s.dir := rfl

@[simp] theorem modKiln_ports (k : Nat) (f : KilnDie → KilnDie) (s : State) : (modKiln k f s).ports = s.ports := rfl

@[simp] theorem modKiln_outst (k : Nat) (f : KilnDie → KilnDie) (s : State) : (modKiln k f s).outst = s.outst := rfl

@[simp] theorem modKiln_sags (k : Nat) (f : KilnDie → KilnDie) (s : State) : (modKiln k f s).sags = s.sags := rfl

@[simp] theorem modKiln_twin (k : Nat) (f : KilnDie → KilnDie) (s : State) : (modKiln k f s).twin = s.twin := rfl

@[simp] theorem modKiln_pen (k : Nat) (f : KilnDie → KilnDie) (s : State) : (modKiln k f s).pen = s.pen := rfl

@[simp] theorem modKiln_tal (k : Nat) (f : KilnDie → KilnDie) (s : State) : (modKiln k f s).tal = s.tal := rfl

@[simp] theorem modKiln_obs (k : Nat) (f : KilnDie → KilnDie) (s : State) : (modKiln k f s).obs = s.obs := rfl

@[simp] theorem modKiln_side (k : Nat) (f : KilnDie → KilnDie) (s : State) : (modKiln k f s).side = s.side := rfl

@[simp] theorem modKiln_hostOut (k : Nat) (f : KilnDie → KilnDie) (s : State) : (modKiln k f s).hostOut = s.hostOut := rfl

@[simp] theorem modKiln_fabOut (k : Nat) (f : KilnDie → KilnDie) (s : State) : (modKiln k f s).fabOut = s.fabOut := rfl

@[simp] theorem modKiln_sideOut (k : Nat) (f : KilnDie → KilnDie) (s : State) : (modKiln k f s).sideOut = s.sideOut := rfl

@[simp] theorem modKiln_kiln_firings (k : Nat) (f : KilnDie → KilnDie) (s : State) : (modKiln k f s).kiln.firings = s.kiln.firings := rfl

@[simp] theorem modKiln_kiln_library (k : Nat) (f : KilnDie → KilnDie) (s : State) : (modKiln k f s).kiln.library = s.kiln.library := rfl

@[simp] theorem modKiln_kiln_wins (k : Nat) (f : KilnDie → KilnDie) (s : State) : (modKiln k f s).kiln.wins = s.kiln.wins := rfl

@[simp] theorem modKiln_kiln_ctxs (k : Nat) (f : KilnDie → KilnDie) (s : State) : (modKiln k f s).kiln.ctxs = s.kiln.ctxs := rfl

@[simp] theorem modKiln_kiln_runs (k : Nat) (f : KilnDie → KilnDie) (s : State) : (modKiln k f s).kiln.runs = s.kiln.runs := rfl

@[simp] theorem modKiln_kiln_shelves (k : Nat) (f : KilnDie → KilnDie) (s : State) : (modKiln k f s).kiln.shelves = s.kiln.shelves := rfl

/-! ### `modFiring` -/

@[simp] theorem modFiring_pending (k : Nat) (f : Firing → Firing) (s : State) : (modFiring k f s).pending = s.pending := rfl

@[simp] theorem modFiring_freeCtr (k : Nat) (f : Firing → Firing) (s : State) : (modFiring k f s).freeCtr = s.freeCtr := rfl

@[simp] theorem modFiring_glb (k : Nat) (f : Firing → Firing) (s : State) : (modFiring k f s).glb = s.glb := rfl

@[simp] theorem modFiring_host (k : Nat) (f : Firing → Firing) (s : State) : (modFiring k f s).host = s.host := rfl

@[simp] theorem modFiring_xlt (k : Nat) (f : Firing → Firing) (s : State) : (modFiring k f s).xlt = s.xlt := rfl

@[simp] theorem modFiring_mem (k : Nat) (f : Firing → Firing) (s : State) : (modFiring k f s).mem = s.mem := rfl

@[simp] theorem modFiring_dir (k : Nat) (f : Firing → Firing) (s : State) : (modFiring k f s).dir = s.dir := rfl

@[simp] theorem modFiring_ports (k : Nat) (f : Firing → Firing) (s : State) : (modFiring k f s).ports = s.ports := rfl

@[simp] theorem modFiring_outst (k : Nat) (f : Firing → Firing) (s : State) : (modFiring k f s).outst = s.outst := rfl

@[simp] theorem modFiring_sags (k : Nat) (f : Firing → Firing) (s : State) : (modFiring k f s).sags = s.sags := rfl

@[simp] theorem modFiring_twin (k : Nat) (f : Firing → Firing) (s : State) : (modFiring k f s).twin = s.twin := rfl

@[simp] theorem modFiring_pen (k : Nat) (f : Firing → Firing) (s : State) : (modFiring k f s).pen = s.pen := rfl

@[simp] theorem modFiring_tal (k : Nat) (f : Firing → Firing) (s : State) : (modFiring k f s).tal = s.tal := rfl

@[simp] theorem modFiring_obs (k : Nat) (f : Firing → Firing) (s : State) : (modFiring k f s).obs = s.obs := rfl

@[simp] theorem modFiring_side (k : Nat) (f : Firing → Firing) (s : State) : (modFiring k f s).side = s.side := rfl

@[simp] theorem modFiring_hostOut (k : Nat) (f : Firing → Firing) (s : State) : (modFiring k f s).hostOut = s.hostOut := rfl

@[simp] theorem modFiring_fabOut (k : Nat) (f : Firing → Firing) (s : State) : (modFiring k f s).fabOut = s.fabOut := rfl

@[simp] theorem modFiring_sideOut (k : Nat) (f : Firing → Firing) (s : State) : (modFiring k f s).sideOut = s.sideOut := rfl

@[simp] theorem modFiring_kiln_dies (k : Nat) (f : Firing → Firing) (s : State) : (modFiring k f s).kiln.dies = s.kiln.dies := rfl

@[simp] theorem modFiring_kiln_library (k : Nat) (f : Firing → Firing) (s : State) : (modFiring k f s).kiln.library = s.kiln.library := rfl

@[simp] theorem modFiring_kiln_wins (k : Nat) (f : Firing → Firing) (s : State) : (modFiring k f s).kiln.wins = s.kiln.wins := rfl

@[simp] theorem modFiring_kiln_ctxs (k : Nat) (f : Firing → Firing) (s : State) : (modFiring k f s).kiln.ctxs = s.kiln.ctxs := rfl

@[simp] theorem modFiring_kiln_runs (k : Nat) (f : Firing → Firing) (s : State) : (modFiring k f s).kiln.runs = s.kiln.runs := rfl

@[simp] theorem modFiring_kiln_shelves (k : Nat) (f : Firing → Firing) (s : State) : (modFiring k f s).kiln.shelves = s.kiln.shelves := rfl

/-! ### `modWin` -/

@[simp] theorem modWin_pending (k : Nat) (f : Window → Window) (s : State) : (modWin k f s).pending = s.pending := rfl

@[simp] theorem modWin_freeCtr (k : Nat) (f : Window → Window) (s : State) : (modWin k f s).freeCtr = s.freeCtr := rfl

@[simp] theorem modWin_glb (k : Nat) (f : Window → Window) (s : State) : (modWin k f s).glb = s.glb := rfl

@[simp] theorem modWin_host (k : Nat) (f : Window → Window) (s : State) : (modWin k f s).host = s.host := rfl

@[simp] theorem modWin_xlt (k : Nat) (f : Window → Window) (s : State) : (modWin k f s).xlt = s.xlt := rfl

@[simp] theorem modWin_mem (k : Nat) (f : Window → Window) (s : State) : (modWin k f s).mem = s.mem := rfl

@[simp] theorem modWin_dir (k : Nat) (f : Window → Window) (s : State) : (modWin k f s).dir = s.dir := rfl

@[simp] theorem modWin_ports (k : Nat) (f : Window → Window) (s : State) : (modWin k f s).ports = s.ports := rfl

@[simp] theorem modWin_outst (k : Nat) (f : Window → Window) (s : State) : (modWin k f s).outst = s.outst := rfl

@[simp] theorem modWin_sags (k : Nat) (f : Window → Window) (s : State) : (modWin k f s).sags = s.sags := rfl

@[simp] theorem modWin_twin (k : Nat) (f : Window → Window) (s : State) : (modWin k f s).twin = s.twin := rfl

@[simp] theorem modWin_pen (k : Nat) (f : Window → Window) (s : State) : (modWin k f s).pen = s.pen := rfl

@[simp] theorem modWin_tal (k : Nat) (f : Window → Window) (s : State) : (modWin k f s).tal = s.tal := rfl

@[simp] theorem modWin_obs (k : Nat) (f : Window → Window) (s : State) : (modWin k f s).obs = s.obs := rfl

@[simp] theorem modWin_side (k : Nat) (f : Window → Window) (s : State) : (modWin k f s).side = s.side := rfl

@[simp] theorem modWin_hostOut (k : Nat) (f : Window → Window) (s : State) : (modWin k f s).hostOut = s.hostOut := rfl

@[simp] theorem modWin_fabOut (k : Nat) (f : Window → Window) (s : State) : (modWin k f s).fabOut = s.fabOut := rfl

@[simp] theorem modWin_sideOut (k : Nat) (f : Window → Window) (s : State) : (modWin k f s).sideOut = s.sideOut := rfl

@[simp] theorem modWin_kiln_firings (k : Nat) (f : Window → Window) (s : State) : (modWin k f s).kiln.firings = s.kiln.firings := rfl

@[simp] theorem modWin_kiln_library (k : Nat) (f : Window → Window) (s : State) : (modWin k f s).kiln.library = s.kiln.library := rfl

@[simp] theorem modWin_kiln_ctxs (k : Nat) (f : Window → Window) (s : State) : (modWin k f s).kiln.ctxs = s.kiln.ctxs := rfl

@[simp] theorem modWin_kiln_runs (k : Nat) (f : Window → Window) (s : State) : (modWin k f s).kiln.runs = s.kiln.runs := rfl

@[simp] theorem modWin_kiln_shelves (k : Nat) (f : Window → Window) (s : State) : (modWin k f s).kiln.shelves = s.kiln.shelves := rfl

/-! ### `modSag` -/

@[simp] theorem modSag_pending (k : Nat) (f : Sagger → Sagger) (s : State) : (modSag k f s).pending = s.pending := rfl

@[simp] theorem modSag_freeCtr (k : Nat) (f : Sagger → Sagger) (s : State) : (modSag k f s).freeCtr = s.freeCtr := rfl

@[simp] theorem modSag_glb (k : Nat) (f : Sagger → Sagger) (s : State) : (modSag k f s).glb = s.glb := rfl

@[simp] theorem modSag_host (k : Nat) (f : Sagger → Sagger) (s : State) : (modSag k f s).host = s.host := rfl

@[simp] theorem modSag_xlt (k : Nat) (f : Sagger → Sagger) (s : State) : (modSag k f s).xlt = s.xlt := rfl

@[simp] theorem modSag_mem (k : Nat) (f : Sagger → Sagger) (s : State) : (modSag k f s).mem = s.mem := rfl

@[simp] theorem modSag_dir (k : Nat) (f : Sagger → Sagger) (s : State) : (modSag k f s).dir = s.dir := rfl

@[simp] theorem modSag_kiln (k : Nat) (f : Sagger → Sagger) (s : State) : (modSag k f s).kiln = s.kiln := rfl

@[simp] theorem modSag_ports (k : Nat) (f : Sagger → Sagger) (s : State) : (modSag k f s).ports = s.ports := rfl

@[simp] theorem modSag_outst (k : Nat) (f : Sagger → Sagger) (s : State) : (modSag k f s).outst = s.outst := rfl

@[simp] theorem modSag_twin (k : Nat) (f : Sagger → Sagger) (s : State) : (modSag k f s).twin = s.twin := rfl

@[simp] theorem modSag_pen (k : Nat) (f : Sagger → Sagger) (s : State) : (modSag k f s).pen = s.pen := rfl

@[simp] theorem modSag_tal (k : Nat) (f : Sagger → Sagger) (s : State) : (modSag k f s).tal = s.tal := rfl

@[simp] theorem modSag_obs (k : Nat) (f : Sagger → Sagger) (s : State) : (modSag k f s).obs = s.obs := rfl

@[simp] theorem modSag_side (k : Nat) (f : Sagger → Sagger) (s : State) : (modSag k f s).side = s.side := rfl

@[simp] theorem modSag_hostOut (k : Nat) (f : Sagger → Sagger) (s : State) : (modSag k f s).hostOut = s.hostOut := rfl

@[simp] theorem modSag_fabOut (k : Nat) (f : Sagger → Sagger) (s : State) : (modSag k f s).fabOut = s.fabOut := rfl

@[simp] theorem modSag_sideOut (k : Nat) (f : Sagger → Sagger) (s : State) : (modSag k f s).sideOut = s.sideOut := rfl

@[simp] theorem modSag_sags_shape (k : Nat) (f : Sagger → Sagger) (s : State) : (modSag k f s).sags.shape = s.sags.shape := rfl

@[simp] theorem modSag_sags_breaches (k : Nat) (f : Sagger → Sagger) (s : State) : (modSag k f s).sags.breaches = s.sags.breaches := rfl

@[simp] theorem modSag_sags_breachCnt (k : Nat) (f : Sagger → Sagger) (s : State) : (modSag k f s).sags.breachCnt = s.sags.breachCnt := rfl

@[simp] theorem modSag_sags_sampleAt (k : Nat) (f : Sagger → Sagger) (s : State) : (modSag k f s).sags.sampleAt = s.sags.sampleAt := rfl

/-! ### `modPlane` -/

@[simp] theorem modPlane_pending (k : Nat) (f : Plane → Plane) (s : State) : (modPlane k f s).pending = s.pending := rfl

@[simp] theorem modPlane_freeCtr (k : Nat) (f : Plane → Plane) (s : State) : (modPlane k f s).freeCtr = s.freeCtr := rfl

@[simp] theorem modPlane_glb (k : Nat) (f : Plane → Plane) (s : State) : (modPlane k f s).glb = s.glb := rfl

@[simp] theorem modPlane_host (k : Nat) (f : Plane → Plane) (s : State) : (modPlane k f s).host = s.host := rfl

@[simp] theorem modPlane_xlt (k : Nat) (f : Plane → Plane) (s : State) : (modPlane k f s).xlt = s.xlt := rfl

@[simp] theorem modPlane_mem (k : Nat) (f : Plane → Plane) (s : State) : (modPlane k f s).mem = s.mem := rfl

@[simp] theorem modPlane_dir (k : Nat) (f : Plane → Plane) (s : State) : (modPlane k f s).dir = s.dir := rfl

@[simp] theorem modPlane_kiln (k : Nat) (f : Plane → Plane) (s : State) : (modPlane k f s).kiln = s.kiln := rfl

@[simp] theorem modPlane_ports (k : Nat) (f : Plane → Plane) (s : State) : (modPlane k f s).ports = s.ports := rfl

@[simp] theorem modPlane_outst (k : Nat) (f : Plane → Plane) (s : State) : (modPlane k f s).outst = s.outst := rfl

@[simp] theorem modPlane_sags (k : Nat) (f : Plane → Plane) (s : State) : (modPlane k f s).sags = s.sags := rfl

@[simp] theorem modPlane_pen (k : Nat) (f : Plane → Plane) (s : State) : (modPlane k f s).pen = s.pen := rfl

@[simp] theorem modPlane_tal (k : Nat) (f : Plane → Plane) (s : State) : (modPlane k f s).tal = s.tal := rfl

@[simp] theorem modPlane_obs (k : Nat) (f : Plane → Plane) (s : State) : (modPlane k f s).obs = s.obs := rfl

@[simp] theorem modPlane_side (k : Nat) (f : Plane → Plane) (s : State) : (modPlane k f s).side = s.side := rfl

@[simp] theorem modPlane_hostOut (k : Nat) (f : Plane → Plane) (s : State) : (modPlane k f s).hostOut = s.hostOut := rfl

@[simp] theorem modPlane_fabOut (k : Nat) (f : Plane → Plane) (s : State) : (modPlane k f s).fabOut = s.fabOut := rfl

@[simp] theorem modPlane_sideOut (k : Nat) (f : Plane → Plane) (s : State) : (modPlane k f s).sideOut = s.sideOut := rfl

@[simp] theorem modPlane_twin_mode (k : Nat) (f : Plane → Plane) (s : State) : (modPlane k f s).twin.mode = s.twin.mode := rfl

@[simp] theorem modPlane_twin_gap (k : Nat) (f : Plane → Plane) (s : State) : (modPlane k f s).twin.gap = s.twin.gap := rfl

@[simp] theorem modPlane_twin_gates (k : Nat) (f : Plane → Plane) (s : State) : (modPlane k f s).twin.gates = s.twin.gates := rfl

/-! ### `modTally` -/

@[simp] theorem modTally_pending (k : Nat) (f : DieTally → DieTally) (s : State) : (modTally k f s).pending = s.pending := rfl

@[simp] theorem modTally_freeCtr (k : Nat) (f : DieTally → DieTally) (s : State) : (modTally k f s).freeCtr = s.freeCtr := rfl

@[simp] theorem modTally_glb (k : Nat) (f : DieTally → DieTally) (s : State) : (modTally k f s).glb = s.glb := rfl

@[simp] theorem modTally_host (k : Nat) (f : DieTally → DieTally) (s : State) : (modTally k f s).host = s.host := rfl

@[simp] theorem modTally_xlt (k : Nat) (f : DieTally → DieTally) (s : State) : (modTally k f s).xlt = s.xlt := rfl

@[simp] theorem modTally_mem (k : Nat) (f : DieTally → DieTally) (s : State) : (modTally k f s).mem = s.mem := rfl

@[simp] theorem modTally_dir (k : Nat) (f : DieTally → DieTally) (s : State) : (modTally k f s).dir = s.dir := rfl

@[simp] theorem modTally_kiln (k : Nat) (f : DieTally → DieTally) (s : State) : (modTally k f s).kiln = s.kiln := rfl

@[simp] theorem modTally_ports (k : Nat) (f : DieTally → DieTally) (s : State) : (modTally k f s).ports = s.ports := rfl

@[simp] theorem modTally_outst (k : Nat) (f : DieTally → DieTally) (s : State) : (modTally k f s).outst = s.outst := rfl

@[simp] theorem modTally_sags (k : Nat) (f : DieTally → DieTally) (s : State) : (modTally k f s).sags = s.sags := rfl

@[simp] theorem modTally_twin (k : Nat) (f : DieTally → DieTally) (s : State) : (modTally k f s).twin = s.twin := rfl

@[simp] theorem modTally_pen (k : Nat) (f : DieTally → DieTally) (s : State) : (modTally k f s).pen = s.pen := rfl

@[simp] theorem modTally_obs (k : Nat) (f : DieTally → DieTally) (s : State) : (modTally k f s).obs = s.obs := rfl

@[simp] theorem modTally_side (k : Nat) (f : DieTally → DieTally) (s : State) : (modTally k f s).side = s.side := rfl

@[simp] theorem modTally_hostOut (k : Nat) (f : DieTally → DieTally) (s : State) : (modTally k f s).hostOut = s.hostOut := rfl

@[simp] theorem modTally_fabOut (k : Nat) (f : DieTally → DieTally) (s : State) : (modTally k f s).fabOut = s.fabOut := rfl

@[simp] theorem modTally_sideOut (k : Nat) (f : DieTally → DieTally) (s : State) : (modTally k f s).sideOut = s.sideOut := rfl

@[simp] theorem modTally_tal_now (k : Nat) (f : DieTally → DieTally) (s : State) : (modTally k f s).tal.now = s.tal.now := rfl

@[simp] theorem modTally_tal_running (k : Nat) (f : DieTally → DieTally) (s : State) : (modTally k f s).tal.running = s.tal.running := rfl

@[simp] theorem modTally_tal_crossings (k : Nat) (f : DieTally → DieTally) (s : State) : (modTally k f s).tal.crossings = s.tal.crossings := rfl

end Sys2Proof.Machine
end

