-- ==== Sys2Proof/Laws/Host.lean ====
section
/-! SUPPORT. Host commands (10 R355, R361 to R363): when one passes its checks, what completing one leaves, and the frame of both. -/

namespace Sys2Proof.Machine

/-! ### Checks -/

/-- Every check passes exactly when none is bad. -/
theorem firstBad_none {l : List Chk} : firstBad l = none ↔ ∀ c ∈ l, c.bad = false := by
  induction l with
  | nil => simp [firstBad]
  | cons c r ih =>
    simp only [firstBad, List.mem_cons, forall_eq_or_imp, ← ih]
    cases c.bad <;> simp

/-- The checks with those of the output item are the same checks in another order. -/
theorem withLatch_mem (f : Inflight) (s : State) (l : List Chk) (c : Chk) :
    c ∈ withLatch f s l ↔ c ∈ l ∨ c = outChk3 f ∨ c = outChk4 f 0 s := by
  unfold withLatch
  generalize ha : (l.takeWhile fun c => c.stage ≤ 3) = a
  have hp : a = l.take a.length := List.prefix_iff_eq_take.1 (ha ▸ List.takeWhile_prefix _)
  have hl : a ++ l.drop a.length = l := by
    conv_lhs => lhs; rw [hp]
    simp
  have hb : ∀ c, c ∈ l.drop a.length ↔ c ∈ (l.drop a.length).takeWhile (·.stage != 7) ∨ c ∈ (l.drop a.length).dropWhile (·.stage != 7) := by
    intro c
    rw [← List.mem_append, List.takeWhile_append_dropWhile]
  have hc : c ∈ l ↔ c ∈ a ∨ c ∈ l.drop a.length := by
    conv_lhs => rw [← hl]
    simp
  rw [hc, hb]
  simp only [List.mem_append, List.mem_cons]
  tauto

theorem firstBad_withLatch (f : Inflight) (s : State) (l : List Chk) :
    firstBad (withLatch f s l) = none ↔ (∀ c ∈ l, c.bad = false) ∧ (outChk3 f).bad = false ∧ (outChk4 f 0 s).bad = false := by
  simp only [firstBad_none, withLatch_mem]
  constructor
  · intro h
    exact ⟨fun c hc => h c (.inl hc), h _ (.inr (.inl rfl)), h _ (.inr (.inr rfl))⟩
  · rintro ⟨h1, h2, h3⟩ c (hc | rfl | rfl)
    exacts [h1 c hc, h2, h3]

/-- A check that passes does not matter. -/
theorem firstBad_cons_good {c : Chk} {l : List Chk} (h : c.bad = false) : firstBad (c :: l) = firstBad l := by simp [firstBad, h]

theorem firstBad_append (l k : List Chk) : firstBad (l ++ k) = (firstBad l).or (firstBad k) := by
  induction l with
  | nil => simp [firstBad]
  | cons c r ih => simp only [List.cons_append, firstBad, ih]; split <;> simp

@[simp] theorem chk_bad (b : Bool) (st sg : Nat) : (chk b st sg).bad = b := rfl
@[simp] theorem chkResv_bad (b : Bool) : (chkResv b).bad = b := rfl
@[simp] theorem chkDeny_bad (b : Bool) : (chkDeny b).bad = b := rfl
@[simp] theorem chkLen_bad (b : Bool) : (chkLen b).bad = b := rfl
@[simp] theorem chkExec_bad (b : Bool) (st : Nat) : (chkExec b st).bad = b := rfl
@[simp] theorem chkWarm_bad (b : Bool) : (chkWarm b).bad = b := rfl

theorem chkEach_good {α : Type} (bad : α → Bool) (l : List α) : (chkEach bad l).bad = false ↔ ∀ x ∈ l, bad x = false := by
  unfold chkEach
  split
  · rename_i i h
    simp only [Bool.true_eq_false, false_iff]
    intro hh
    have := List.findIdx?_eq_some_iff_findIdx_eq.1 h
    have := List.findIdx_lt_length.1 (this.2 ▸ this.1)
    obtain ⟨x, hx, hb⟩ := this
    simp [hh x hx] at hb
  · rename_i h
    simp only [chkDeny_bad, true_iff]
    intro x hx
    have := List.findIdx?_eq_none_iff.1 h x hx
    simpa using this

/-- The output item's checks pass when it has room. -/
theorem outRoom_checks {f : Inflight} {need : Nat} {s : State} (h : OutRoom f need s) :
    (outChk3 f).bad = false ∧ (outChk4 f need s).bad = false ∧ (outChk4 f 0 s).bad = false := by
  obtain ⟨h1, h2, h3⟩ := h
  have h0 : outNeed f 0 ≤ f.outLen := by
    refine le_trans ?_ h2
    unfold outNeed
    split
    · have : ceilDiv 0 64 = 0 := by decide
      simp [this]
    · simp
  simp only [outChk3, outChk4, chkDeny_bad, chkLen_bad]
  refine ⟨?_, ?_, ?_⟩
  · rcases h1 with h | h <;> simp [h]
  · rcases h3 with h | h
    · simp [h] at h2 ⊢; omega
    · simp; omega
  · rcases h3 with h | h
    · simp [h] at h0 ⊢; omega
    · simp; omega

/-- With room in the output item the latch's own checks pass, so the command's checks decide, in their order. -/
theorem firstBad_withLatch_room {f : Inflight} {need : Nat} {s : State} (h : OutRoom f need s) (l : List Chk) :
    firstBad (withLatch f s l) = firstBad l := by
  obtain ⟨o1, -, o3⟩ := outRoom_checks h
  obtain ⟨b, hb⟩ : ∃ b, l = (l.takeWhile fun c => c.stage ≤ 3) ++ b :=
    (List.takeWhile_prefix fun c : Chk => decide (c.stage ≤ 3)).imp fun _ h => h.symm
  unfold withLatch
  generalize (l.takeWhile fun c => c.stage ≤ 3) = a at hb
  subst hb
  simp only [List.drop_left]
  have e : firstBad b = firstBad (b.takeWhile (·.stage != 7) ++ b.dropWhile (·.stage != 7)) := by rw [List.takeWhile_append_dropWhile]
  simp only [firstBad_append, firstBad_cons_good o1, firstBad_cons_good o3, List.append_assoc, List.cons_append] at e ⊢
  rw [e]

/-- An input item's checks pass when it reads well. -/
theorem itemRead_good {it : Item} {len : Nat} {s : State} (h : GoodItem it len s) : ∀ c ∈ itemRead it len s, c.bad = false := by
  obtain ⟨-, h2, h3⟩ := h
  intro c hc
  simp only [itemRead, List.mem_cons, List.not_mem_nil, or_false] at hc
  rcases hc with rfl | rfl | rfl <;> simp [h3]
  omega

theorem itemChk_good {it : Item} {len : Nat} {s : State} (h : GoodItem it len s) : ∀ c ∈ itemChk it len s, c.bad = false := by
  intro c hc
  rcases List.mem_cons.1 hc with rfl | hc
  · simp [itemAlign, h.1]
  · exact itemRead_good h c hc

/-! ### Accepting -/

/-- A command that is ready and passes its checks acts. -/
theorem cmdFor_acts {r op sid need : Nat} {s : State} {f : Inflight} {checks : Inflight → State → List Chk} {act : State → State}
    (h : Ready r op need s f) (hc : ∀ c ∈ checks f s, c.bad = false) :
    cmdFor r op sid checks act s = .next (act (latched r sid s)) := by
  obtain ⟨h1, h2, h3, h4, h5, h6⟩ := h
  obtain ⟨o1, -, o3⟩ := outRoom_checks h6
  have hb : firstBad (withLatch f s (checks f s ++ [chkExec (offRefuses op s) stCONFLICT])) = none := by
    rw [firstBad_withLatch]
    refine ⟨?_, o1, o3⟩
    intro c hm
    rcases List.mem_append.1 hm with hm | hm
    · exact hc c hm
    · simp only [List.mem_singleton] at hm
      subst hm
      simp [offRefuses, h2]
  simp [cmdFor, h3, h4, h5, h1, hb, latched]

theorem cmd_acts {r op need : Nat} {s : State} {f : Inflight} {checks : Inflight → State → List Chk} {act : State → State}
    (h : Ready r op need s f) (hc : ∀ c ∈ checks f s, c.bad = false) :
    cmd r op checks act s = .next (act (latched r 0 s)) := cmdFor_acts h hc

/-- A command that is ready and fails a check is refused with it (10 R361). -/
theorem cmdFor_refuses {r op sid need : Nat} {s : State} {f : Inflight} {checks : Inflight → State → List Chk} {act : State → State} {c : Chk}
    (h : Ready r op need s f) (hc : firstBad (checks f s) = some c) (h5 : c.stage ≠ 5) :
    cmdFor r op sid checks act s = .next (finish r c.status c.stage c.index [] [] s) := by
  obtain ⟨h1, h2, h3, h4, h5', h6⟩ := h
  simp [cmdFor, h3, h4, h5', h1, firstBad_withLatch_room h6, firstBad_append, hc, h5]

/-! ### Completing -/

theorem ringOf_modRing (r q : Nat) (g : Ring → Ring) (s : State) :
    ringOf q (modRing r g s) = if q = r then (ringOf q s).map g else ringOf q s := by
  unfold ringOf modRing
  simp only [List.getElem?_modify]
  by_cases h : r = q
  · subst h; simp
  · simp [h, Ne.symm h]

theorem inflightOf_modRing_self (r : Nat) (g : Ring → Ring) (s : State) :
    inflightOf r (modRing r g s) = (ringOf r s).bind fun x => (g x).inflight := by
  simp [inflightOf, ringOf_modRing, Option.bind_map]

/-- The command in flight after latching. -/
theorem inflightOf_latched {r sid : Nat} {s : State} {f : Inflight} (h : inflightOf r s = some f) :
    inflightOf r (latched r sid s) = some { f with lsid := sid, start := latchOf sid s } := by
  unfold latched
  rw [inflightOf_modRing_self]
  unfold inflightOf at h
  cases hr : ringOf r s with
  | none => simp [hr] at h
  | some g => simp [hr] at h; simp [h]

theorem ringOf_latched_ne {r q sid : Nat} {s : State} (h : q ≠ r) : ringOf q (latched r sid s) = ringOf q s := by
  simp [latched, ringOf_modRing, h]

/-! ### Frames -/

theorem Only.rfl' (ps : List Comp) (s : State) : Only ps s s := by
  intro p _
  cases p <;> simp [Comp.same]

theorem Only.trans {ps : List Comp} {s t u : State} (h : Only ps s t) (k : Only ps t u) : Only ps s u := by
  intro p hp
  have a := h p hp
  have b := k p hp
  cases p <;> simp_all [Comp.same]

theorem Only.mono {ps qs : List Comp} {s t : State} (h : Only ps s t) (k : ∀ p ∈ ps, p ∈ qs) : Only qs s t :=
  fun p hp => h p fun m => hp (k p m)

/-- A frame says so of each component outside its list. -/
theorem Only.mk {ps : List Comp} {s t : State} (h : ∀ p : Comp, p ∈ ps ∨ p.same s t) : Only ps s t :=
  fun p hp => (h p).resolve_left hp

theorem latched_only (r sid : Nat) (s : State) : Only [.host] s (latched r sid s) := by
  intro p hp
  cases p <;> simp_all [latched, Comp.same]

theorem finish_only (r st sg ix : Nat) (res : List Nat) (items : List OutItem) (s : State) :
    Only [.host, .obs] s (finish r st sg ix res items s) := by
  unfold finish
  split
  · exact Only.rfl' _ s
  · intro p hp
    dsimp only
    cases p <;> simp_all [Comp.same]

/-- What completing a command leaves: its ring free, the reply last in the queue, the other rings as they were. -/
theorem finish_replied {r st ix : Nat} {res : List Nat} {items : List OutItem} {s u : State} {f : Inflight}
    (hu : inflightOf r u = some f) (hq : ∀ q, q ≠ r → ringOf q u = ringOf q s) :
    Replied r f.opcode st res items s (finish r st 0 ix res items u) := by
  unfold finish
  rw [hu]
  dsimp only
  refine ⟨?_, ?_, ?_⟩
  · simp [inflightOf, ringOf, modRing]
  · intro q h
    rw [← hq q h]
    simp [ringOf, modRing, Ne.symm h]
  · simp only [addGlobal_host, traceHub_host_statusQ, List.getLast?_append, List.getLast?_singleton, Option.some_or]
    refine ⟨_, rfl, rfl, rfl, rfl, rfl, rfl, ?_⟩
    dsimp only
    split <;> simp

/-- What a refusal leaves (10 R361). -/
theorem cmdFor_refused {i : Instr} {r op sid need : Nat} {s : State} {f : Inflight} {checks : Inflight → State → List Chk} {act : State → State}
    {c : Chk} (hx : exec i s = cmdFor r op sid checks act s) (h : Ready r op need s f) (hc : firstBad (checks f s) = some c) (h5 : c.stage ≠ 5) :
    Refuses i r op c.status c.stage s := by
  refine ⟨_, hx.trans (cmdFor_refuses h hc h5), finish_only _ _ _ _ _ _ _, ?_⟩
  obtain ⟨-, -, h3, h4, -, -⟩ := h
  unfold finish
  rw [h3]
  dsimp only
  refine ⟨?_, ?_, ?_⟩
  · simp [inflightOf, ringOf, modRing]
  · intro q h
    simp [ringOf, modRing, Ne.symm h]
  · simp only [addGlobal_host, traceHub_host_statusQ, List.getLast?_append, List.getLast?_singleton, Option.some_or]
    exact ⟨_, rfl, rfl, h4, rfl, rfl⟩

/-- A command completes when it is ready, passes its checks, and its effect ends in `finish` with OK. -/
theorem completes {i : Instr} {r op sid need : Nat} {s u : State} {f : Inflight} {checks : Inflight → State → List Chk}
    {act : State → State} {res : List Nat} {items : List OutItem} {ps : List Comp} {Q : State → Prop}
    (hx : exec i s = cmdFor r op sid checks act s) (h : Ready r op need s f) (hc : ∀ c ∈ checks f s, c.bad = false)
    (ha : act (latched r sid s) = finish r stOK 0 0xFFFFF res items u)
    (hr : ringOf r u = ringOf r (latched r sid s)) (hq : ∀ q, q ≠ r → ringOf q u = ringOf q s)
    (hf : Only (.host :: .obs :: ps) s u) (hQ : Q (finish r stOK 0 0xFFFFF res items u)) : Completes i r op s res items ps Q := by
  refine ⟨finish r stOK 0 0xFFFFF res items u, ?_, ?_, ?_, hQ⟩
  · rw [hx, cmdFor_acts h hc, ha]
  · exact hf.trans (Only.mono (finish_only _ _ _ _ _ _ _) (by simp))
  · have hi : inflightOf r u = inflightOf r (latched r sid s) := by simp [inflightOf, hr]
    have := finish_replied (st := stOK) (ix := 0xFFFFF) (res := res) (items := items) (hi.trans (inflightOf_latched h.2.2.1)) hq
    simpa [h.2.2.2.1] using this

end Sys2Proof.Machine
end

