-- ==== Sys2Proof/Laws/Mem.lean ====
section
/-! SUPPORT. Tables with rising keys, and pool memory: a line stored is the line read back, every other line is as before, and every
operation keeps the canonical form (log 7). -/

namespace Sys2Proof.Machine

/-! ### Tables with rising keys -/

/-- The form as a proposition: the first key is below all the others, and so on. -/
theorem smWf_cons {α : Type} (j : Nat) (v : α) (r : SMap α) : smWf ((j, v) :: r) = true ↔ (∀ e ∈ r, j < e.1) ∧ smWf r = true := by
  simp [smWf, List.pairwise_cons]

theorem smWf_tail {α : Type} {j : Nat} {v : α} {r : SMap α} (h : smWf ((j, v) :: r) = true) : smWf r = true := ((smWf_cons j v r).1 h).2

theorem smWf_filter {α : Type} (p : Nat × α → Bool) {m : SMap α} (h : smWf m = true) : smWf (m.filter p) = true := by
  simp only [smWf, decide_eq_true_eq] at h ⊢
  exact List.Pairwise.sublist (List.Sublist.map _ List.filter_sublist) h

/-- A key below every key of a table is not in it. -/
theorem smGet_below {α : Type} (k : Nat) (m : SMap α) (h : ∀ e ∈ m, k < e.1) : smGet k m = none := by
  cases m with
  | nil => rfl
  | cons e r =>
    have := h e (by simp)
    simp only [smGet]
    rw [if_neg (by omega), if_pos this]

theorem smGet_mem {α : Type} {k : Nat} {m : SMap α} {v : α} (h : smGet k m = some v) : (k, v) ∈ m := by
  induction m with
  | nil => simp [smGet] at h
  | cons e r ih =>
    obtain ⟨j, u⟩ := e
    simp only [smGet] at h
    split at h
    · next e => subst e; simp at h; simp [h]
    · split at h
      · cases h
      · exact List.mem_cons_of_mem _ (ih h)

theorem smGet_of_mem {α : Type} {k : Nat} {m : SMap α} {v : α} (hw : smWf m = true) (h : (k, v) ∈ m) : smGet k m = some v := by
  induction m with
  | nil => simp at h
  | cons e r ih =>
    obtain ⟨j, u⟩ := e
    obtain ⟨hj, hr⟩ := (smWf_cons j u r).1 hw
    rcases List.mem_cons.1 h with h | h
    · cases h; simp [smGet]
    · have := hj _ h
      simp only [smGet]
      rw [if_neg (by simp at this; omega), if_neg (by simp at this; omega)]
      exact ih hr h

theorem smGet_smSet_same {α : Type} (k : Nat) (v : α) (m : SMap α) : smGet k (smSet k v m) = some v := by
  induction m with
  | nil => simp [smSet, smGet]
  | cons e r ih =>
    obtain ⟨j, u⟩ := e
    simp only [smSet]
    split
    · simp [smGet]
    · split
      · simp [smGet]
      · next h1 h2 => simp only [smGet]; rw [if_neg h1, if_neg h2]; exact ih

theorem smGet_smSet_ne {α : Type} {i k : Nat} (v : α) (m : SMap α) (hw : smWf m = true) (h : i ≠ k) : smGet i (smSet k v m) = smGet i m := by
  induction m with
  | nil => simp only [smSet, smGet]; rw [if_neg (Ne.symm h)]; split <;> rfl
  | cons e r ih =>
    obtain ⟨j, u⟩ := e
    obtain ⟨hj, hr⟩ := (smWf_cons j u r).1 hw
    simp only [smSet]
    split
    · next e => subst e; simp only [smGet]; rw [if_neg (Ne.symm h), if_neg (Ne.symm h)]
    · split
      · next h1 h2 =>
        simp only [smGet]
        rw [if_neg (Ne.symm h)]
        by_cases hik : i < k
        · rw [if_pos hik, if_neg (by omega), if_pos (by omega)]
        · rw [if_neg hik]
      · simp only [smGet, ih hr]

theorem mem_smSet {α : Type} {k : Nat} {v : α} {m : SMap α} {e : Nat × α} (h : e ∈ smSet k v m) : e = (k, v) ∨ e ∈ m := by
  induction m with
  | nil => simpa [smSet] using h
  | cons d r ih =>
    obtain ⟨j, u⟩ := d
    simp only [smSet] at h
    split at h
    · rcases List.mem_cons.1 h with h | h
      · exact .inl h
      · exact .inr (List.mem_cons_of_mem _ h)
    · split at h
      · rcases List.mem_cons.1 h with h | h
        · exact .inl h
        · exact .inr h
      · rcases List.mem_cons.1 h with h | h
        · exact .inr (h ▸ List.mem_cons_self ..)
        · rcases ih h with h | h
          · exact .inl h
          · exact .inr (List.mem_cons_of_mem _ h)

theorem smWf_smSet {α : Type} (k : Nat) (v : α) {m : SMap α} (h : smWf m = true) : smWf (smSet k v m) = true := by
  induction m with
  | nil => simp [smSet, smWf]
  | cons e r ih =>
    obtain ⟨j, u⟩ := e
    obtain ⟨hj, hr⟩ := (smWf_cons j u r).1 h
    simp only [smSet]
    split
    · next e => subst e; exact (smWf_cons ..).2 ⟨hj, hr⟩
    · split
      · next h1 h2 =>
        refine (smWf_cons ..).2 ⟨fun e he => ?_, h⟩
        rcases List.mem_cons.1 he with rfl | he
        · exact h2
        · exact Nat.lt_trans h2 (hj e he)
      · next h1 h2 =>
        refine (smWf_cons ..).2 ⟨fun e he => ?_, ih hr⟩
        rcases mem_smSet he with rfl | he
        · simp; omega
        · exact hj e he

theorem mem_smDel {α : Type} {k : Nat} {m : SMap α} {e : Nat × α} (hw : smWf m = true) : e ∈ smDel k m ↔ e ∈ m ∧ e.1 ≠ k := by
  induction m with
  | nil => simp [smDel]
  | cons d r ih =>
    obtain ⟨j, u⟩ := d
    obtain ⟨hj, hr⟩ := (smWf_cons j u r).1 hw
    have hn : ∀ e ∈ r, j ≤ k → k ≤ j → e.1 ≠ k := fun e he h1 h2 => by have := hj e he; omega
    simp only [smDel]
    split
    · next h =>
      subst h
      constructor
      · exact fun he => ⟨List.mem_cons_of_mem _ he, by have := hj e he; omega⟩
      · rintro ⟨he, hne⟩
        rcases List.mem_cons.1 he with rfl | he
        · exact absurd rfl hne
        · exact he
    · split
      · next h1 h2 =>
        constructor
        · intro he
          refine ⟨he, ?_⟩
          rcases List.mem_cons.1 he with rfl | he
          · exact h1
          · have := hj e he; omega
        · exact fun he => he.1
      · next h1 h2 =>
        rw [List.mem_cons, ih hr, List.mem_cons]
        constructor
        · rintro (rfl | ⟨he, hk⟩)
          · exact ⟨.inl rfl, h1⟩
          · exact ⟨.inr he, hk⟩
        · rintro ⟨rfl | he, hk⟩
          · exact .inl rfl
          · exact .inr ⟨he, hk⟩

theorem smWf_smDel {α : Type} (k : Nat) {m : SMap α} (h : smWf m = true) : smWf (smDel k m) = true := by
  induction m with
  | nil => simp [smDel, smWf]
  | cons e r ih =>
    obtain ⟨j, u⟩ := e
    obtain ⟨hj, hr⟩ := (smWf_cons j u r).1 h
    simp only [smDel]
    split
    · exact hr
    · split
      · exact h
      · exact (smWf_cons ..).2 ⟨fun e he => hj e ((mem_smDel hr).1 he).1, ih hr⟩

theorem smGet_smDel_ne {α : Type} {i k : Nat} (m : SMap α) (hw : smWf m = true) (h : i ≠ k) : smGet i (smDel k m) = smGet i m := by
  cases hg : smGet i m with
  | some v => exact smGet_of_mem (smWf_smDel k hw) ((mem_smDel hw).2 ⟨smGet_mem hg, h⟩)
  | none =>
    cases hd : smGet i (smDel k m) with
    | none => rfl
    | some v => rw [smGet_of_mem hw ((mem_smDel hw).1 (smGet_mem hd)).1] at hg; cases hg

theorem smGet_smDel_same {α : Type} (k : Nat) (m : SMap α) (hw : smWf m = true) : smGet k (smDel k m) = none := by
  cases hd : smGet k (smDel k m) with
  | none => rfl
  | some v => exact absurd rfl ((mem_smDel hw).1 (smGet_mem hd)).2

theorem smGet_filter {α : Type} {k : Nat} (p : Nat × α → Bool) {m : SMap α} (hw : smWf m = true) (hp : ∀ v, p (k, v) = true) :
    smGet k (m.filter p) = smGet k m := by
  cases hg : smGet k m with
  | some v => exact smGet_of_mem (smWf_filter p hw) (List.mem_filter.2 ⟨smGet_mem hg, hp v⟩)
  | none =>
    cases hd : smGet k (m.filter p) with
    | none => rfl
    | some v => rw [smGet_of_mem hw (List.mem_filter.1 (smGet_mem hd)).1] at hg; cases hg

/-! ### Storing a line -/

/-- The parts of the canonical form. -/
theorem memWf_iff (m : MemSt) : memWf m = true ↔
    smWf m.fills = true ∧ smWf m.lines = true ∧ (∀ e ∈ m.fills, e.2 ≠ ⟨0xFFF#12, 0⟩) ∧ ∀ e ∈ m.lines, e.2 ≠ lineDefault e.1 m := by
  simp [memWf, and_assoc]

/-- What an unlisted line reads as depends on the fills only. -/
theorem lineDefault_fills (l : Nat) {m n : MemSt} (h : n.fills = m.fills) : lineDefault l n = lineDefault l m := by simp [lineDefault, h]

@[simp] theorem putLine_fills (l : Nat) (x : Line) (m : MemSt) : (putLine l x m).fills = m.fills := by unfold putLine; split <;> rfl

@[simp] theorem putLine_default (k l : Nat) (x : Line) (m : MemSt) : lineDefault k (putLine l x m) = lineDefault k m :=
  lineDefault_fills k (putLine_fills l x m)

/-- Storing a line keeps the canonical form. -/
theorem memWf_putLine (l : Nat) (x : Line) {m : MemSt} (h : memWf m = true) : memWf (putLine l x m) = true := by
  obtain ⟨h1, h2, h3, h4⟩ := (memWf_iff m).1 h
  rw [memWf_iff]
  simp only [putLine_fills, putLine_default]
  unfold putLine
  split
  · exact ⟨h1, smWf_smDel l h2, h3, fun e he => h4 e ((mem_smDel h2).1 he).1⟩
  · next hx =>
    refine ⟨h1, smWf_smSet l x h2, h3, fun e he => ?_⟩
    rcases mem_smSet he with rfl | he
    · exact hx
    · exact h4 e he

/-- A line stored is the line read back. -/
theorem lineOf_putLine_same (l : Nat) (x : Line) {m : MemSt} (h : memWf m = true) : lineOf l (putLine l x m) = x := by
  have hw := ((memWf_iff m).1 h).2.1
  unfold lineOf
  rw [putLine_default]
  unfold putLine
  split
  · next hx => simp [smGet_smDel_same l m.lines hw, hx]
  · simp [smGet_smSet_same]

/-- Every other line reads as before. -/
theorem lineOf_putLine_other {k l : Nat} (x : Line) {m : MemSt} (h : memWf m = true) (hk : k ≠ l) : lineOf k (putLine l x m) = lineOf k m := by
  have hw := ((memWf_iff m).1 h).2.1
  unfold lineOf
  rw [putLine_default]
  unfold putLine
  split
  · simp only; rw [smGet_smDel_ne m.lines hw hk]
  · simp only; rw [smGet_smSet_ne x m.lines hw hk]

/-- Storing lines one after another keeps the canonical form. -/
theorem memWf_foldl_putLine {α : Type} (f : α → Nat) (g : α → MemSt → Line) (xs : List α) {m : MemSt} (h : memWf m = true) :
    memWf (xs.foldl (fun m a => putLine (f a) (g a m) m) m) = true := by
  induction xs generalizing m with
  | nil => exact h
  | cons a r ih => exact ih (memWf_putLine _ _ h)

/-! ### Filling pages -/

/-- Fills set one after another. -/
theorem foldl_smSet (page n : Nat) (v : Fill) (m : SMap Fill) (h : smWf m = true) :
    smWf ((List.range n).foldl (fun acc i => smSet (page + i) v acc) m) = true
      ∧ (∀ e ∈ (List.range n).foldl (fun acc i => smSet (page + i) v acc) m, e.2 = v ∨ e ∈ m)
      ∧ ∀ p, smGet p ((List.range n).foldl (fun acc i => smSet (page + i) v acc) m) = if page ≤ p ∧ p < page + n then some v else smGet p m := by
  induction n with
  | zero => exact ⟨h, fun e he => .inr he, fun p => by rw [if_neg (by omega)]; rfl⟩
  | succ n ih =>
    obtain ⟨h1, h2, h3⟩ := ih
    simp only [List.range_succ, List.foldl_append, List.foldl_cons, List.foldl_nil]
    refine ⟨smWf_smSet _ _ h1, fun e he => ?_, fun p => ?_⟩
    · rcases mem_smSet he with rfl | he
      · exact .inl rfl
      · exact h2 e he
    · by_cases hp : p = page + n
      · subst hp; rw [smGet_smSet_same, if_pos (by omega)]
      · rw [smGet_smSet_ne _ _ h1 hp, h3]
        by_cases hc : page ≤ p ∧ p < page + n
        · rw [if_pos hc, if_pos (by omega)]
        · rw [if_neg hc, if_neg (by omega)]

/-- The fills after `fillPages`: the canonical form stays, and every page outside reads as before. -/
theorem fillPages_fills (page n : Nat) (f : Option Fill) {m : MemSt} (h : memWf m = true) :
    smWf (fillPages page n f m).fills = true ∧ (∀ e ∈ (fillPages page n f m).fills, e.2 ≠ ⟨0xFFF#12, 0⟩)
      ∧ (∀ p, ¬ (page ≤ p ∧ p < page + n) → smGet p (fillPages page n f m).fills = smGet p m.fills)
      ∧ ∀ p, page ≤ p → p < page + n → smGet p (fillPages page n f m).fills = f.filter (· ≠ ⟨0xFFF#12, 0⟩) := by
  obtain ⟨h1, -, h3, -⟩ := (memWf_iff m).1 h
  have hw := smWf_filter (fun e : Nat × Fill => !(decide (page ≤ e.1) && decide (e.1 < page + n))) h1
  have hf : ∀ e ∈ m.fills.filter (fun e : Nat × Fill => !(decide (page ≤ e.1) && decide (e.1 < page + n))), e.2 ≠ ⟨0xFFF#12, 0⟩ :=
    fun e he => h3 e (List.mem_filter.1 he).1
  have ho : ∀ p, ¬ (page ≤ p ∧ p < page + n) →
      smGet p (m.fills.filter (fun e : Nat × Fill => !(decide (page ≤ e.1) && decide (e.1 < page + n)))) = smGet p m.fills :=
    fun p hp => smGet_filter _ h1 fun v => by simp; omega
  have hi : ∀ p, page ≤ p → p < page + n →
      smGet p (m.fills.filter (fun e : Nat × Fill => !(decide (page ≤ e.1) && decide (e.1 < page + n)))) = none := by
    intro p hp hq
    cases hg : smGet p (m.fills.filter (fun e : Nat × Fill => !(decide (page ≤ e.1) && decide (e.1 < page + n)))) with
    | none => rfl
    | some v => have := (List.mem_filter.1 (smGet_mem hg)).2; simp [hp, hq] at this
  unfold fillPages
  cases f with
  | none => exact ⟨hw, hf, ho, fun p hp hq => hi p hp hq⟩
  | some v =>
    simp only
    split
    · next hv => exact ⟨hw, hf, ho, fun p hp hq => by simp only [hi p hp hq, hv]; rfl⟩
    · next hv =>
      obtain ⟨a1, a2, a3⟩ := foldl_smSet page n v _ hw
      refine ⟨a1, fun e he => ?_, fun p hp => ?_, fun p hp hq => ?_⟩
      · rcases a2 e he with h | h
        · exact h ▸ hv
        · exact hf e h
      · rw [a3, if_neg hp, ho p hp]
      · rw [a3, if_pos ⟨hp, hq⟩, Option.filter_some, if_pos (by simpa using hv)]

@[simp] theorem fillPages_lines (page n : Nat) (f : Option Fill) (m : MemSt) :
    (fillPages page n f m).lines = m.lines.filter fun e => !(decide (page ≤ linePage e.1) && decide (linePage e.1 < page + n)) := by
  unfold fillPages; rfl

/-- Filling pages keeps the canonical form. -/
theorem memWf_fillPages (page n : Nat) (f : Option Fill) {m : MemSt} (h : memWf m = true) : memWf (fillPages page n f m) = true := by
  obtain ⟨-, h2, -, h4⟩ := (memWf_iff m).1 h
  obtain ⟨a1, a2, a3, -⟩ := fillPages_fills page n f h
  rw [memWf_iff]
  refine ⟨a1, ?_, a2, fun e he => ?_⟩
  · rw [fillPages_lines]; exact smWf_filter _ h2
  · rw [fillPages_lines] at he
    obtain ⟨he, hp⟩ := List.mem_filter.1 he
    have : smGet (linePage e.1) (fillPages page n f m).fills = smGet (linePage e.1) m.fills := a3 _ (by simp at hp; omega)
    unfold lineDefault
    rw [this]
    exact h4 e he

/-- A line of a page outside the filled ones reads as before. -/
theorem lineOf_fillPages_other {l page n : Nat} (f : Option Fill) {m : MemSt} (h : memWf m = true) (hl : ¬ (page ≤ linePage l ∧ linePage l < page + n)) :
    lineOf l (fillPages page n f m) = lineOf l m := by
  obtain ⟨-, h2, -, -⟩ := (memWf_iff m).1 h
  obtain ⟨-, -, a3, -⟩ := fillPages_fills page n f h
  have hd : lineDefault l (fillPages page n f m) = lineDefault l m := by unfold lineDefault; rw [a3 _ hl]
  unfold lineOf
  rw [hd, fillPages_lines, smGet_filter _ h2 fun v => by simp; omega]

/-- A line of a filled page reads as its fill; without one as the wedged state. -/
theorem lineOf_fillPages_inside {l page n : Nat} (f : Option Fill) {m : MemSt} (h : memWf m = true) (h1 : page ≤ linePage l) (h2 : linePage l < page + n) :
    lineOf l (fillPages page n f m) = match f.filter (· ≠ ⟨0xFFF#12, 0⟩) with
      | some v => mkLine 0 0 v.tag 0 v.wgen
      | none => wedgedLine := by
  obtain ⟨-, -, -, a4⟩ := fillPages_fills page n f h
  have hg : smGet l (fillPages page n f m).lines = none := by
    cases hg : smGet l (fillPages page n f m).lines with
    | none => rfl
    | some v => rw [fillPages_lines] at hg; have := (List.mem_filter.1 (smGet_mem hg)).2; simp [h1, h2] at this
  unfold lineOf lineDefault
  rw [hg, a4 _ h1 h2]
  rfl

/-! ### The operations over memory -/

/-- Reset memory is canonical. -/
theorem memWf_resetMem : memWf resetMem = true := rfl

/-- A list of operations that keep the form keeps it. -/
theorem memWf_foldl {α : Type} (f : State → α → State) (hf : ∀ s a, memWf s.mem = true → memWf (f s a).mem = true) (xs : List α) {s : State}
    (h : memWf s.mem = true) : memWf (xs.foldl f s).mem = true := by
  induction xs generalizing s with
  | nil => exact h
  | cons a r ih => exact ih (hf s a h)

/-- The form looks at lines and fills only. -/
theorem memWf_same {m n : MemSt} (h1 : n.lines = m.lines) (h2 : n.fills = m.fills) : memWf n = memWf m := by
  have : ∀ l, lineDefault l n = lineDefault l m := fun l => lineDefault_fills l h2
  simp [memWf, h1, h2, this]

theorem memWf_ownLine (l tag : Nat) (d : LineData) {s : State} (h : memWf s.mem = true) : memWf (ownLine l tag d s).mem = true :=
  memWf_putLine _ _ h

theorem memWf_modDie (k : Nat) (f : DieMem → DieMem) {s : State} (h : memWf s.mem = true) : memWf (modDie k f s).mem = true :=
  (memWf_same rfl rfl).trans h

/-- A state whose memory has a line stored. -/
theorem memWf_store (l : Nat) (x : Line) {s : State} (h : memWf s.mem = true) : memWf ({ s with mem := putLine l x s.mem } : State).mem = true :=
  memWf_putLine l x h

/-- What decoding counts changes neither lines nor fills. -/
theorem noteUE_store (l sid finder : Nat) (s : State) : (noteUE l sid finder s).mem.lines = s.mem.lines ∧ (noteUE l sid finder s).mem.fills = s.mem.fills := by
  unfold noteUE modDie
  dsimp only
  repeat' split
  all_goals simp only [emit_mem, and_self]

theorem noteCE_store (l : Nat) (s : State) : (noteCE l s).mem.lines = s.mem.lines ∧ (noteCE l s).mem.fills = s.mem.fills := by
  unfold noteCE modDie
  dsimp only
  generalize (_ && _ && _) = b
  cases b <;> exact ⟨rfl, rfl⟩

theorem memWf_noteUE (l sid finder : Nat) {s : State} (h : memWf s.mem = true) : memWf (noteUE l sid finder s).mem = true :=
  (memWf_same (noteUE_store l sid finder s).1 (noteUE_store l sid finder s).2).trans h

theorem memWf_noteCE (l : Nat) {s : State} (h : memWf s.mem = true) : memWf (noteCE l s).mem = true :=
  (memWf_same (noteCE_store l s).1 (noteCE_store l s).2).trans h

/-- Counting what decoding a line found changes neither lines nor fills. -/
theorem noteDecode_store (l sid finder : Nat) (s : State) :
    (noteDecode l sid finder s).mem.lines = s.mem.lines ∧ (noteDecode l sid finder s).mem.fills = s.mem.fills := by
  unfold noteDecode
  split
  · exact ⟨rfl, rfl⟩
  · exact noteCE_store l s
  · exact noteUE_store l sid finder s

theorem memWf_noteDecode (l sid finder : Nat) {s : State} (h : memWf s.mem = true) : memWf (noteDecode l sid finder s).mem = true :=
  (memWf_same (noteDecode_store l sid finder s).1 (noteDecode_store l sid finder s).2).trans h

/-- A line reads after the count as before it. -/
@[simp] theorem lineOf_noteDecode (k l sid finder : Nat) (s : State) : lineOf k (noteDecode l sid finder s).mem = lineOf k s.mem := by
  unfold lineOf
  rw [(noteDecode_store l sid finder s).1, lineDefault_fills k (noteDecode_store l sid finder s).2]

/-- Changing the side fields of a line keeps the canonical form. -/
theorem memWf_setSide (l : Nat) (f : Line → Line) {s : State} (h : memWf s.mem = true) : memWf (setSide l f s).mem = true :=
  memWf_putLine _ _ (memWf_noteDecode l 4095 0 h)

/-- The line holds its side fields changed by the rule of R94; every other line is as before. -/
theorem lineOf_setSide {k l : Nat} (f : Line → Line) {s : State} (h : memWf s.mem = true) :
    lineOf k (setSide l f s).mem = if k = l then sideUpdate f (lineOf l s.mem) else lineOf k s.mem := by
  have hw := memWf_noteDecode l 4095 0 h
  unfold setSide
  dsimp only
  split
  · next e => subst e; rw [lineOf_putLine_same _ _ hw, lineOf_noteDecode]
  · next e => rw [lineOf_putLine_other _ hw e, lineOf_noteDecode]

theorem memWf_setSummary (l : Nat) (v : BitVec 16) {s : State} (h : memWf s.mem = true) : memWf (setSummary l v s).mem = true :=
  memWf_setSide l _ h

theorem memWf_setCraze (l : Nat) (v : BitVec 4) {s : State} (h : memWf s.mem = true) : memWf (setCraze l v s).mem = true :=
  memWf_setSide l _ h

/-- A write of a local line for a SID: the die is in service, the line is not another SID's, and the line written is `writtenLine`; what the
read before the write found is counted. -/
theorem writeLocal_some {l sid tag cause : Nat} {d : LineData} {m : BitVec 64} {sm : Option (BitVec 16)} {s t : State}
    (h : writeLocal l sid tag d m cause sm s = some t) :
    dieState (lineDie l) s = .inService ∧ writeRefused l sid s = false
      ∧ t = addGlobal 1 1 { noteDecode l sid 0 s with
          mem := putLine l (writtenLine (lineOf l s.mem) (readLine l s.mem) (dieGen (lineDie l) s) tag d m cause sm) (noteDecode l sid 0 s).mem } := by
  unfold writeLocal at h
  split at h
  · next hd =>
    split at h
    · cases h
    · next hr => exact ⟨hd, by simpa using hr, (Option.some.inj h).symm⟩
  · cases h

theorem memWf_writeLocal {l sid tag cause : Nat} {d : LineData} {m : BitVec 64} {sm : Option (BitVec 16)} {s t : State} (hw : memWf s.mem = true)
    (h : writeLocal l sid tag d m cause sm s = some t) : memWf t.mem = true := by
  obtain ⟨-, -, rfl⟩ := writeLocal_some h
  exact memWf_putLine _ _ (memWf_noteDecode l sid 0 hw)

/-- After a write the line reads as written and every other line as before. -/
theorem lineOf_writeLocal {k l sid tag cause : Nat} {d : LineData} {m : BitVec 64} {sm : Option (BitVec 16)} {s t : State} (hw : memWf s.mem = true)
    (h : writeLocal l sid tag d m cause sm s = some t) :
    lineOf k t.mem = if k = l then writtenLine (lineOf l s.mem) (readLine l s.mem) (dieGen (lineDie l) s) tag d m cause sm else lineOf k s.mem := by
  obtain ⟨-, -, rfl⟩ := writeLocal_some h
  have hn := memWf_noteDecode l sid 0 hw
  simp only [addGlobal_mem]
  split
  · next e => subst e; exact lineOf_putLine_same _ _ hn
  · next e => rw [lineOf_putLine_other _ hn e, lineOf_noteDecode]

theorem memWf_wipePages (pages : List Nat) {s : State} (h : memWf s.mem = true) : memWf (wipePages pages s).mem = true :=
  memWf_foldl _ (fun _ _ hs => memWf_fillPages _ _ _ hs) pages h

theorem memWf_repairLine (l : Nat) {s : State} (h : memWf s.mem = true) : memWf (repairLine l s).mem = true := by
  have hn := memWf_noteDecode l 4095 0 h
  unfold repairLine
  cases lineDecode (lineOf l s.mem) with
  | clean => exact h
  | mended x => exact memWf_store l x hn
  | uncorrectable => exact memWf_store l _ hn

theorem memWf_softRepair (c : RowLoc) {s : State} (h : memWf s.mem = true) : memWf (softRepair c s).mem = true := by
  have h1 := memWf_foldl (fun s l => repairLine l s) (fun _ _ hs => memWf_repairLine _ hs) ((s.mem.lines.map (·.1)).filter (inRow c)) h
  unfold softRepair
  dsimp only
  rw [emit_mem]
  exact memWf_modDie _ _ ((memWf_same rfl rfl).trans h1)

theorem memWf_pprExhausted (c : RowLoc) {s : State} (h : memWf s.mem = true) : memWf (pprExhausted c s).mem = true := by
  unfold pprExhausted
  rw [emit_mem]
  exact memWf_modDie _ _ h

theorem memWf_wedgeRow (c : RowLoc) {s : State} (h : memWf s.mem = true) : memWf (wedgeRow c s).mem = true :=
  memWf_foldl_putLine id (fun _ _ => wedgedLine) _ h

theorem memWf_sweepLine (l : Nat) {s : State} (h : memWf s.mem = true) : memWf (sweepLine l s).mem = true := by
  unfold sweepLine
  extract_lets g
  split
  · split
    · exact memWf_store _ _ h
    · exact h
  · exact memWf_store _ _ (memWf_noteCE l h)
  · exact memWf_noteUE _ _ _ h

end Sys2Proof.Machine
end

