-- ==== Sys2Proof/Tests/Slice0.lean ====
section
/-! SUPPORT. Tests: an ill-formed command for each check of WellFormed, and for every obligation with hypotheses small states and operands
that meet them, clause by clause. -/

open Sys2Proof Sys2Proof.Machine

namespace Sys2Proof.Tests

set_option maxRecDepth 8000
set_option exponentiation.threshold 1024

/-! ### Small states -/

/-- The working state: the hub runs, die 0 is in service, its shelves are blank, the rings run, the life cycle is In service. -/
def up : State :=
  { State.reset with
    glb := { State.reset.glb with inputGood := true, hubReset := false, group := 3, arraysTested := true, memStarted := true, poolReady := true, rate := 1, kilnIn := 255 }
    host := { State.reset.host with bounceSize := 1, bme := true, linkUp := true, rings := List.replicate 7 { resetRing with st := .running, size := 4 } }
    mem := { State.reset.mem with dies := (List.range 8).map fun k => if k < 2 then { resetDie with st := .inService, rate := 1, size := 1, ranks := 1, rows := 65536, wgen := 1, fullPass := true } else resetDie }
    twin := { State.reset.twin with planes := [resetPlane .active 2, resetPlane .standby 1], mode := .duplex }
    pen := { State.reset.pen with otp.lc := 2 }
    tal := { State.reset.tal with now := 100000, running := true } }

/-- A command in flight. -/
def fl (op : Nat) : Inflight := ⟨op, 7, 0, false, 0, 4096, 50000, ⟨0, 0, 0, 0⟩, 0, 0, none⟩

/-- The state with a command of this opcode in flight on ring 0. -/
def rdy (op : Nat) (s : State) : State := modRing 0 (fun g => { g with inflight := some (fl op) }) s

/-- A leaf that maps its page with all permissions. -/
def leaf1 (ppa : Nat) : Leaf := ⟨false, true, true, true, true, true, false, false, 0, false, 0, ppa, false⟩

/-- SID 5 is Active and its page 1 maps page 3 of die 0. -/
def up5 : State :=
  { up with
    sags.tab := [(0, resetSagger), (5, resetSagger)]
    xlt := { up.xlt with tables := [⟨1, 5, 0, localPpa 0⟩, ⟨2, 5, 0, localPpa 2097152⟩, ⟨3, 5, 0, localPpa 2101248⟩], epochs := [(5, 1)]
                         leaves := [(leafKey 5 1, leaf1 (localPpa (3 * 2 ^ 21)))] } }

/-- A line of ones, not wedged, with TAG 5. -/
def line5 : Line := mkLine (BitVec.allOnes 512) 0 5 0 1

/-- Line 98304, the first of page 3, holds `line5`. -/
def mem5 (s : State) : State := { s with mem.lines := [(98304, line5)] }

/-- Port 0 is up and AID 40 admitted there for SID 5, a caching agent with lease epoch 3. -/
def fab : State :=
  { modPort 0 (fun q => { q with
      inSvc := true, st := .up, par := { q.par with enable := 1, portAid := 2047 }
      assocs := [(40, ⟨.admitted, some 5, 5, 1, 0, 1, ⟨0, []⟩, none, 0, false, false, 0, 0, 0, 0, none, []⟩)] }) (mem5 up5) with
    dir.agents := [(40, ⟨1, false, 3, 200000, 5, 0, 0, none⟩)] }

/-- Header of a message of AID 40. -/
def mh : Mhd := ⟨0, 40, 2047, 3, 1, false⟩

/-! ### Ill-formed commands -/

def gz0 : GArgs := ⟨false, 0, 0, 0, 0, 0⟩
def md0 : MoveDesc := ⟨1, 1, false, false, 0, 64, 0, 0, 0, false⟩
def fd0 : FireDesc := ⟨1, 0, 0, false, 0, 0, 0, 0, 0, 0, 0, 0, [], [], false⟩
def pk0 : Packet := ⟨0, 0, 0, true, 1 :: List.replicate 15 0, false⟩
def fl0 : RxFlit := ⟨1, 1, 0, 0, false, false, 0, 0, 0, 0, true, []⟩
def mh0 : Mhd := ⟨0, 0, 0, 0, 0, false⟩
def cx0 : Ctx := ⟨1, 0, 0, 4096, 0, 0, 0, false, 0, 0, 0, 0, 0, 0, 0, false⟩
def sg0 : SagParams := ⟨0, 0, 0, 0, 0, 0, 0, 0, 0, [2 ^ 40], 0, 0⟩

/-- A ring that takes no commands, a number that does not fit its field, a die, port, shelf, plane, timer or pin that does not exist. -/
theorem test_wellFormed_refuses_numbers :
    wellFormed (.nop 4) = false ∧ wellFormed (.saggerRead 0 (2 ^ 32)) = false ∧ wellFormed (.memWedge 0 (2 ^ 32) 0 0) = false
      ∧ wellFormed (.xltRead 0 0 (2 ^ 64)) = false ∧ wellFormed (.ringStart 7) = false ∧ wellFormed (.lockLost 16) = false
      ∧ wellFormed (.partPlaced 8) = false ∧ wellFormed (.shelfOut 320) = false ∧ wellFormed (.retrain 16) = false
      ∧ wellFormed (.leaseExpiry 2048) = false ∧ wellFormed (.moverStart 64) = false ∧ wellFormed (.windowDeadline 8192) = false
      ∧ wellFormed (.parityError 2) = false ∧ wellFormed (.tallyGap 24) = false ∧ wellFormed (.evtPulseEnd 8) = false
      ∧ wellFormed (.page 256) = false ∧ wellFormed (.setdasa 128 0) = false ∧ wellFormed (.proofGet 0 (2 ^ 256)) = false
      ∧ wellFormed (.laneFail 0 9 0) = false ∧ wellFormed (.laneFail 0 8 (2 ^ 32)) = false
      ∧ wellFormed (.finish true ⟨true, [256]⟩) = false
      ∧ wellFormed (.admitHello ⟨0, 0, 0, 0, 0, false⟩ ⟨2 ^ 256, 0, 0⟩) = false ∧ wellFormed (.d2dTransfer 0 ⟨0, [], [], [256]⟩) = false
      ∧ wellFormed (.admitProve ⟨0, 0, 0, 0, 0, false⟩ ⟨2 ^ 456, 0, 0⟩ 0 true true) = false ∧ wellFormed (.poolWrite 0 0 0 0 ⟨0, .good⟩ [(0, 16)]) = false ∧ wellFormed (.pcieLinkTrained 17 0) = false := by decide

/-- Structured operands: item, header, handle, glaze fields, descriptors, contexts, parameters, packet, flit, clock domain. -/
theorem test_wellFormed_refuses_structures :
    wellFormed (.lcReturn 0 ⟨2 ^ 32, .good⟩ ⟨1, 1, 0, 0, 0, true, 192, false⟩) = false
      ∧ wellFormed (.fence ⟨16, 0, 0, 0, 0, false⟩) = false ∧ wellFormed (.fence ⟨0, 2048, 0, 0, 0, false⟩) = false
      ∧ wellFormed (.rspClean ⟨0, 0, 0, 0, 0, false⟩ ⟨2 ^ 58, 0⟩) = false ∧ wellFormed (.rspClean ⟨0, 0, 0, 0, 0, false⟩ ⟨0, 4096⟩) = false
      ∧ wellFormed (.iadd 0 { gz0 with d := 32 }) = false ∧ wellFormed (.iadd 0 { gz0 with md := 128 }) = false
      ∧ wellFormed (.moveSubmit 0 0 ⟨0, .good⟩ { md0 with op := 16 }) = false ∧ wellFormed (.clockStop (.ddr 0 6)) = false
      ∧ wellFormed (.clockStop (.dieTally 24)) = false ∧ wellFormed (.kilnFire 0 0 ⟨0, .good⟩ { fd0 with spread := 64 }) = false
      ∧ wellFormed (.kilnFire 0 0 ⟨0, .good⟩ { fd0 with slots := List.replicate 11 ⟨0, 0, 0, 0, 0, 0, false, false, false⟩ }) = false
      ∧ wellFormed (.commandFetch 0 { pk0 with head := [1, 256] ++ List.replicate 14 0 }) = false ∧ wellFormed (.flitReceive 0 { fl0 with seq := 4096 }) = false
      ∧ wellFormed (.flitReceive 0 { fl0 with msgs := [⟨1, false, 0, 256, 0, 0, 0, 0, 0, true, true⟩] }) = false
      ∧ wellFormed (.agentCtxSet mh0 0 cx0) = false ∧ wellFormed (.saggerCreate 0 1 sg0) = false := by decide

/-- The same operands in range are taken. -/
theorem test_wellFormed_takes : wellFormed (.nop 3) = true ∧ wellFormed (.iadd 319 { gz0 with d := 31 }) = true
    ∧ wellFormed (.moveSubmit 0 0 ⟨0, .good⟩ md0) = true ∧ wellFormed (.kilnFire 0 0 ⟨0, .good⟩ fd0) = true
    ∧ wellFormed (.commandFetch 0 pk0) = true ∧ wellFormed (.commandFetch 0 { pk0 with head := [1] }) = false ∧ wellFormed (.flitReceive 15 fl0) = true ∧ wellFormed (.fence mh0) = true
    ∧ wellFormed (.clockStop (.ddr 7 5)) = true := by decide

/-! ### Witnesses -/

theorem witness_FirstFailingCheckAnswers_1 :
    (rdy 0x01 up).alive = true ∧ inflightOf 0 (rdy 0x01 up) = some (fl 0x01) ∧ (fl 0x01).opcode = 0x01 ∧ (fl 0x01).parked = none
      ∧ firstBad (withLatch (fl 0x01) (rdy 0x01 up) ([chkDeny true] ++ [chkExec (offRefuses 0x01 (rdy 0x01 up)) stCONFLICT])) = some (chkDeny true) ∧ (chkDeny true).stage ≠ 5 := by decide

theorem witness_CompletionReply_1 :
    inflightOf 0 (rdy 0x00 up) = some (fl 0x00) := by decide

def pl (op : Nat) : State := rdy op (mem5 up5)

def migd (s : State) : State := { s with xlt.leaves := [(leafKey 5 1, { leaf1 (localPpa (3 * 2 ^ 21)) with mig := true })], xlt.migs := [⟨5, 1, localPpa (3 * 2 ^ 21), localPpa (4 * 2 ^ 21), 1, []⟩] }

def good : Item := ⟨0, .good⟩

def cfg1 : HostCfg := ⟨[0, 1, 2, 3, 63], 4096, 1000000, 4096, 1000000, 1⟩

def held1 (s : State) : State := modRing 1 (fun g => { g with inflight := some { fl 0x02 with cseq := 9, parked := some (.sysFence [(0, 0)]) } }) s

theorem witness_SystemCommands_1 :
    Ready 0 0x00 0 (rdy 0x00 up) (fl 0x00) := by decide

theorem witness_SystemCommands_2 :
    Ready 0 0x01 0 (rdy 0x01 up) (fl 0x01) ∧ cfg1.vec.length = 5 ∧ (∀ v ∈ cfg1.vec, v ≤ 63) ∧ cfg1.countStatus = 4096 ∧ cfg1.waitStatus = 1000000
      ∧ cfg1.poison ≤ 1 := by decide

theorem witness_SystemCommands_3 :
    ∃ v ∈ [0, 1, 64], 63 < v := by decide

theorem witness_SystemCommands_4 :
    Ready 0 0x02 0 (rdy 0x02 up) (fl 0x02) ∧ owedReplies 0 (rdy 0x02 up) = [] := by decide

theorem witness_SystemCommands_5 :
    Ready 0 0x02 0 (rdy 0x02 (held1 up)) (fl 0x02) ∧ owedReplies 0 (rdy 0x02 (held1 up)) ≠ [] := by decide

theorem witness_SystemCommands_6 :
    Ready 0 0x05 0 (rdy 0x05 (held1 up)) (fl 0x05) ∧ inflightOf 1 (rdy 0x05 (held1 up)) = some { fl 0x02 with cseq := 9, parked := some (.sysFence [(0, 0)]) } ∧ parkedFence { fl 0x02 with cseq := 9, parked := some (.sysFence [(0, 0)]) } = true := by decide

theorem witness_SystemCommands_7 :
    Ready 0 0x05 0 (rdy 0x05 up) (fl 0x05) := by decide

theorem witness_SystemCommands_8 :
    Ready 0 0x03 (poolItem 64) (pl 3) (fl 3) ∧ (∀ c ∈ poolChks 5 2097152 64 1 (pl 3), c.bad = false)
      ∧ poolMigrates 5 2097152 64 1 (pl 3) = false := by decide

theorem witness_SystemCommands_9 :
    Ready 0 0x03 (poolItem 64) (migd (pl 3)) (fl 3) ∧ (∀ c ∈ poolChks 5 2097152 64 1 (migd (pl 3)), c.bad = false)
      ∧ poolMigrates 5 2097152 64 1 (migd (pl 3)) = true := by decide

theorem witness_SystemCommands_10 :
    Ready 0 0x04 0 (pl 4) (fl 4) ∧ (∀ c ∈ poolChks 5 2097152 64 2 (pl 4), c.bad = false) ∧ GoodItem good (poolItem 64) (pl 4)
      ∧ poolMigrates 5 2097152 64 2 (pl 4) = false := by decide

theorem witness_SystemCommands_11 :
    Ready 0 0x04 0 (pl 4) (fl 4) ∧ (∀ c ∈ poolChks 5 2097152 0 2 (pl 4), c.bad = false) ∧ good.off % 64 = 0
      ∧ poolMigrates 5 2097152 0 2 (pl 4) = false := by decide

def stored (x : Line) : State := { up5 with mem.lines := [(98304, x)] }

theorem witness_LineReadsAndWrites_1 :
    memWf (mem5 up5).mem = true ∧ dieGen (lineDie 98304) (mem5 up5) < 256
      ∧ (writeLocal 98304 5 5 0 fullMask 2 none (mem5 up5)).isSome = true := by decide

theorem witness_LineReadsAndWrites_2 :
    readLine 98304 (mem5 up5).mem = some line5 ∧ unwedged line5 (dieGen (lineDie 98304) (mem5 up5)) = false ∧ line5.tag ≠ 0xFFF#12
      ∧ line5.tag.toNat ≠ 6 ∧ dieState (lineDie 98304) (mem5 up5) = .inService := by decide

theorem witness_LineReadsAndWrites_3 :
    readLine 98304 (stored { line5 with crc := 5 }).mem = none ∧ dieState (lineDie 98304) (stored line5) = .inService
      ∧ memWf (stored { line5 with crc := 5 }).mem = true ∧ (writeLocal 98304 5 5 0 1 2 none (stored { line5 with crc := 5 })).isSome = true := by decide

theorem witness_LineReadsAndWrites_4 :
    readLine 98304 (stored (mkLine 77 3 9 0x201 7)).mem = some (mkLine 77 3 9 0x201 7)
      ∧ unwedged (mkLine 77 3 9 0x201 7) (dieGen (lineDie 98304) (stored line5)) = true := by decide

theorem witness_LineReadsAndWrites_5 :
    readLine 98304 (stored (mkLine 1 6 0xFFF 0 1)).mem = some (mkLine 1 6 0xFFF 0 1)
      ∧ unwedged (mkLine 1 6 0xFFF 0 1) (dieGen (lineDie 98304) (stored line5)) = false ∧ lineOf 98304 up5.mem = wedgedLine := by decide

theorem witness_SingleBadBits_1 :
    lineDecode line5 = .clean ∧ lineDecode wedgedLine = .clean := by decide

def off1 (s : State) : State := { s with mem.dies := s.mem.dies.modify 0 fun d => { d with st := .offline, covered := [(0, 7), (9, 32768 * 8)] } }

theorem witness_MemWedge_1 :
    Ready 0 0x3E 0 (rdy 0x3E (mem5 up5)) (fl 0x3E) ∧ memWf (mem5 up5).mem = true ∧ warmDie 0 (mem5 up5) = false
      ∧ dieState 0 (mem5 up5) = .inService ∧ 3 + 2 ≤ diePages 0 (mem5 up5) := by decide

theorem witness_MemWedge_2 :
    dieState 0 (off1 up) = .offline := by decide

def row1 : RowLoc := ⟨0, 0, 0, 0, 0, 0, 5⟩

def dieSt (st : MemState) (s : State) : State := { s with mem.dies := s.mem.dies.modify 0 fun d => { d with st := st } }

def due1 (p : Nat) (s : State) : State := { modDie 0 (fun d => { d with pos := p }) s with tal := { s.tal with now := 100000000000000 } }

def sp1 : Spare := ⟨1, 3, 2, false, 9⟩

def errs3 (s : State) : State := { s with mem.rowErrs := [(sp1, 90000), (sp1, 90001), (sp1, 90002)] }

theorem witness_MemoryCommands_1 :
    Ready 0 0x3D 0 (rdy 0x3D (mem5 up5)) (fl 0x3D) ∧ ppaFormat (localPpa 6291456) = 1 ∧ ppaHid (localPpa 6291456) = 0
      ∧ ppaOffset (localPpa 6291456) / 2 ^ 45 = 0 ∧ dieGone 0 up5 = false
      ∧ dieLine (ppaOffset (localPpa 6291456) / 64) + 2 ≤ diePages 0 up5 * 32768 := by decide

theorem witness_MemoryCommands_2 :
    entOf (localKey 98304) (mem5 up5) = none ∧ readLine 98304 (mem5 up5).mem = some line5 ∧ line5.summary = 0 := by decide

theorem witness_MemoryCommands_3 :
    Ready 0 0x3F 0 (rdy 0x3F (dieSt .offline up)) (fl 0x3F) ∧ dieState 0 (dieSt .offline up) = .offline := by decide

theorem witness_MemoryCommands_4 :
    (dieMem 0 (modDie 0 (fun d => { d with wgen := 255 }) (dieSt .offline up))).map (fun m => (m.st, m.wgen, m.fullPass)) = some (.offline, 255, true) := by decide

theorem witness_MemoryCommands_5 :
    (dieMem 0 (modDie 0 (fun d => { d with wgen := 255, fullPass := false }) (dieSt .offline up))).map (fun m => (m.st, m.wgen, m.fullPass)) = some (.offline, 255, false) := by decide

theorem witness_MemoryCommands_6 :
    Ready 0 0x40 0 (rdy 0x40 (mem5 up5)) (fl 0x40) ∧ locBad row1 up5 = false ∧ row1 ∉ up5.mem.softRows ∧ warmDie row1.die up5 = false
      ∧ dieGone row1.die up5 = false := by decide

theorem witness_MemoryCommands_7 :
    dieState 0 (rdy 0x40 (dieSt .offline (mem5 up5))) = .offline ∧ locBad row1 (rdy 0x40 (dieSt .offline (mem5 up5))) = false := by decide

theorem witness_MemoryCommands_8 :
    Ready 0 0x41 0 (rdy 0x41 up5) (fl 0x41) ∧ warmDie 0 up5 = false ∧ dieState 0 up5 = .inService
      ∧ dieQuiet 0 (latched 0 0 (touchDie 0 (rdy 0x41 up5))) = true := by decide

theorem witness_MemoryCommands_9 :
    Ready 0 0x42 0 (rdy 0x42 up5) (fl 0x42) ∧ bisqueOk ⟨86400000000000, 60000000000, 4, 1⟩ = true ∧ warmDie 1 up5 = false
      ∧ dieGone 1 up5 = false := by decide

theorem witness_MemoryCommands_10 :
    (due1 98304 (mem5 up5)).powered = true ∧ dieFrozen 0 (due1 98304 (mem5 up5)) = false
      ∧ (dieMem 0 (due1 98304 (mem5 up5))).map (fun d => (d.pos, sweepDue 0 d (due1 98304 (mem5 up5)))) = some (98304, true)
      ∧ 98304 + 1 < diePages 0 (mem5 up5) * 32768 := by decide

theorem witness_MemoryCommands_11 :
    (dieMem 0 (due1 (diePages 0 up5 * 32768 - 1) up5)).map (fun d => (d.pos, sweepDue 0 d (due1 (diePages 0 up5 * 32768 - 1) up5))) = some (diePages 0 up5 * 32768 - 1, true) ∧ 0 < diePages 0 up5 := by decide

theorem witness_MemoryCommands_12 :
    (dieMem 0 (modDie 0 (fun d => { d with pos := 98304 }) up5)).map (fun d => sweepDue 0 d (modDie 0 (fun d => { d with pos := 98304 }) up5)) = some false := by decide

theorem witness_MemoryCommands_13 :
    up.powered = true ∧ (shelfOf 3 up).map (fun x => (x.run, x.out)) = some (none, false) ∧ 50 < 56 ∧ recentErrs sp1 up < 3 := by decide

theorem witness_MemoryCommands_14 :
    (errs3 up).powered = true ∧ (shelfOf 3 (errs3 up)).map (fun x => (x.run, x.out)) = some (none, false) ∧ 3 ≤ recentErrs sp1 (errs3 up)
      ∧ sp1 ∉ (errs3 up).mem.spares := by decide

def par5 : SagParams := { resetSagParams with fCrate := 1000, lCrate := 2000, fCburst := 100, lCburst := 100, shelves := [3, 0, 0, 0, 0, 0, 0, 1] }

def sagIs (st : SagState) (sd : Bool) (s : State) : State := modSag 5 (fun g => { g with st := st, sealed := sd }) s

theorem witness_SaggerCommands_1 :
    Ready 0 0x10 0 (rdy 0x10 up5) (fl 0x10) ∧ (∀ m ∈ par5.shelves, m < 2 ^ 40) ∧ up5.pen.otp.lc = 2 ∧ sagRanges par5 = true ∧ par5.sealLoad ≤ 15
      ∧ sagState 6 up5 = .free ∧ commitBad 6 par5.fCrate par5.lCrate up5 = false
      ∧ (∀ k, k < 8 → maskClash 6 k (par5.shelves.getD k 0) (·.sealed) up5 = false) ∧ smWf up5.sags.tab = true ∧ sagState 5 up5 ≠ .free := by decide

theorem witness_SaggerCommands_2 :
    Ready 0 0x11 0 (rdy 0x11 up5) (fl 0x11) ∧ sagState 5 up5 = .active ∧ sagRanges par5 = true
      ∧ commitBad 5 par5.fCrate par5.lCrate up5 = false := by decide

theorem witness_SaggerCommands_3 :
    Ready 0 0x12 0 (rdy 0x12 up5) (fl 0x12) ∧ warmDie 1 up5 = false ∧ maskClash 5 1 (2 ^ 40 - 1) (·.sealed) up5 = false
      ∧ windowHolds 5 1 (2 ^ 40 - 1) up5 = false ∧ maskClash 5 1 (2 ^ 40 - 1) (fun _ => true) (sagIs .active true up5) = false := by decide

theorem witness_SaggerCommands_4 :
    Ready 0 0x13 0 (rdy 0x13 up5) (fl 0x13) ∧ sealClash 5 16 16 (releaseParts up5) = false ∧ sealClash 5 0 0 (releaseParts up5) = false := by decide

theorem witness_SaggerCommands_5 :
    Ready 0 0x14 0 (rdy 0x14 up5) (fl 0x14) ∧ (sagOf 5 (sagIs .active true up5)).map (·.sealed) = some true
      ∧ (sagOf 5 up5).map (·.sealed) = some false := by decide

theorem witness_SaggerCommands_6 :
    Ready 0 0x15 0 (rdy 0x15 (sagIs .draining false up5)) (fl 0x15) ∧ sagState 5 (sagIs .draining false up5) = .draining := by decide

theorem witness_SaggerCommands_7 :
    Ready 0 0x16 0 (rdy 0x16 (sagIs .draining false up5)) (fl 0x16) := by decide

theorem witness_SaggerCommands_8 :
    Ready 0 0x17 0 (rdy 0x17 { sagIs .draining false up5 with xlt.leaves := [] }) (fl 0x17)
      ∧ destroyBad 5 { sagIs .draining false up5 with xlt.leaves := [] } = false ∧ destroyBad 5 up5 = true ∧ smWf up5.sags.tab = true := by decide

theorem witness_SaggerCommands_9 :
    Ready 0 0x1A 128 (rdy 0x1A up5) (fl 0x1A) := by decide

theorem witness_SaggerCommands_10 :
    Ready 0 0x19 0 (rdy 0x19 up5) (fl 0x19) := by decide

def es2 : List GateEntry := [⟨40000, 0, 0, 0, 0, 0, false⟩, ⟨5000, 0, 0, 0, 0, 0, false⟩]

def gate2 (cur : Nat) (s : State) : State := modPort 0 (fun q => { q with gate := some ⟨es2, 8, 0, cur, 40000 * cur, 3⟩ }) s

theorem witness_GateSchedules_1 :
    Ready 0 0x18 0 (rdy 0x18 up5) (fl 0x18) ∧ GoodItem ⟨0, .good⟩ (8 * 2) up5 ∧ (∀ e ∈ es2.take 2, e.resv = false ∧ e.kind < 3)
      ∧ gateBad 8 (es2.take 2) up5 = false ∧ gateBad 4096 (es2.take 0) up5 = false ∧ (64 : Nat) % 64 = 0 := by decide

theorem witness_GateSchedules_2 :
    (portOf 0 (gate2 0 up5)).map (·.gate.isSome) = some true ∧ Ready 0 0x18 0 (rdy 0x18 (gate2 0 up5)) (fl 0x18) := by decide

theorem witness_GateSchedules_3 :
    (gate2 0 up5).powered = true ∧ es2[0]? = some ⟨40000, 0, 0, 0, 0, 0, false⟩ ∧ 0 + 40000 ≤ (gate2 0 up5).now
      ∧ es2[1]? = some ⟨5000, 0, 0, 0, 0, 0, false⟩ ∧ 40000 + 5000 ≤ (gate2 1 up5).now
      ∧ ((portOf 0 (gate2 1 up5)).bind (·.gateNext)) = none := by decide

def waiting5 : State := modSag 5 (fun g => { g with waiting := [⟨0, 90000, 64, 1, .rdShared mh 2097152⟩] }) up5

def breach5 : State := { up5 with sags.breaches := [⟨5, 5, 0, 255, 255, 1, 0, 10, 0, 1⟩], sags.shape := { up5.sags.shape with breachWindow := 100000 } }

theorem witness_ShapingEvents_1 :
    up5.alive = true ∧ up5.sags.sampleAt + up5.sags.shape.samplePeriod ≤ up5.now := by decide

theorem witness_ShapingEvents_2 :
    (sagOf 5 waiting5).map (·.waiting) = some [⟨0, 90000, 64, 1, .rdShared mh 2097152⟩] ∧ cmdMhd (.rdShared mh 2097152) = some mh
      ∧ (letPass 0 40 3 5 64 1 90000 waiting5).1 = true := by decide

theorem witness_ShapingEvents_3 :
    breach5.alive = true ∧ (sagOf 5 breach5).map (fun g => bitOf g.par.breachMask (5 - 4)) = some true
      ∧ 0 + breach5.sags.shape.breachWindow ≤ breach5.now := by decide

theorem witness_ShapingEvents_4 :
    (sagOf 5 (modSag 5 (fun g => { g with st := .draining, drainDue := true }) up5)).map (fun g => (g.st, g.drainDue)) = some (.draining, true)
      ∧ sagWork 5 (modSag 5 (fun g => { g with st := .draining, drainDue := true }) up5) = false := by decide

def coh1 : CohCfg := ⟨16000, 1000000, 250000, 1000000, 64, 1048576⟩

def pub1 (v : Nat) : Pub := ⟨3, v, 0, 1, 99, 1, 40, 0⟩

def reg1 (hid : Option Nat) (cont : Option Pub) (s : State) : State := { s with dir.regions := [(77, ⟨5, hid, pub1 4, cont, []⟩)] }

theorem witness_CoherenceCommands_1 :
    Ready 0 0x28 0 (rdy 0x28 fab) (fl 0x28) ∧ sagState 5 (rdy 0x28 fab) ≠ .free ∧ 4 * coh1.pulse ≤ coh1.lease
      ∧ coh1.snoopLimit ≤ coh1.lease := by decide

theorem witness_CoherenceCommands_2 :
    Ready 0 0x29 0 (rdy 0x29 fab) (fl 0x29) ∧ (agentOf 40 fab).kind ≠ 0 ∧ (agentOf 40 fab).lapsed = false ∧ (agentOf 41 fab).kind = 0 := by decide

theorem witness_CoherenceCommands_3 :
    Ready 0 0x2A 0 (rdy 0x2A (reg1 none none fab)) (fl 0x2A) ∧ hidTied 4094 (rdy 0x2A (reg1 none none fab)) = false := by decide

theorem witness_CoherenceCommands_4 :
    Ready 0 0x2B 0 (rdy 0x2B (reg1 none (some (pub1 4)) fab)) (fl 0x2B) := by decide

theorem witness_CoherenceCommands_5 :
    Ready 0 0x2A 0 (rdy 0x2A (reg1 none (some (pub1 6)) fab)) (fl 0x2A) ∧ hidTied 7 (rdy 0x2A (reg1 none (some (pub1 6)) fab)) = false
      ∧ smGet 77 (reg1 none (some (pub1 6)) fab).dir.regions = some ⟨5, none, pub1 4, some (pub1 6), []⟩ := by decide

theorem witness_CoherenceCommands_6 :
    Ready 0 0x2A 0 (rdy 0x2A (reg1 (some 7) none fab)) (fl 0x2A) ∧ (smGet 77 (reg1 (some 7) none fab).dir.regions).map (·.hid) = some (some 7)
      ∧ (smGet 78 (reg1 (some 7) none fab).dir.regions).map (·.sid) ≠ some 5 ∧ smGet 78 (reg1 none none fab).dir.regions = none := by decide

theorem witness_CoherenceCommands_7 :
    smWf (reg1 none (some (pub1 6)) fab).dir.regions = true ∧ smGet 77 (reg1 none (some (pub1 6)) fab).dir.regions = some ⟨5, none, pub1 4, some (pub1 6), []⟩ := by decide

theorem witness_CoherenceCommands_8 :
    warmPage (2 * 2 ^ 60 + 7 * 2 ^ 48) fab = false ∧ ppaFormat (2 * 2 ^ 60 + 7 * 2 ^ 48) = 2 ∧ ppaHid (2 * 2 ^ 60 + 7 * 2 ^ 48) = 7 ∧ 2048 > 2047
      ∧ 16001 > coh1.hold := by decide

theorem witness_CoherenceCommands_9 :
    Ready 0 0x2C 0 (rdy 0x2C fab) (fl 0x2C) ∧ warmPage (localPpa (3 * 2 ^ 21)) fab = false
      ∧ localValid (localPpa (3 * 2 ^ 21)) fab = true := by decide

def publ (e v dg : Nat) : Publication := ⟨77, 5, e, v, 0, 1, dg, 1⟩

theorem witness_PublicationOutcomes_1 :
    mh.resv = false ∧ (publ 3 4 99).sid = 5 ∧ smGet 77 fab.dir.regions = none ∧ fab.dir.regions.length < 4096
      ∧ (fab.dir.regions.filter fun e => e.2.sid == 5 && e.2.hid.isNone && e.2.cont.isNone).length < 256 := by decide

theorem witness_PublicationOutcomes_2 :
    (smGet 77 (reg1 (some 7) (some (pub1 4)) fab).dir.regions).map (·.cont.isSome) = some true := by decide

theorem witness_PublicationOutcomes_3 :
    (smGet 77 (reg1 (some 7) none fab).dir.regions).map (fun r => (r.cont, r.sid)) = some (none, 5) ∧ (pub1 4).version < 2 ^ 32 := by decide

def gap1 (s : State) : State := { s with twin.gap := some ⟨90000, 1, false, 2, 0⟩ }

def o1 (op : Nat) (p : Purpose) : Outst := ⟨0, 40, 3, 1, op, 90000, false, p⟩

theorem witness_MessagesAndAnswers_1 :
    Delivered mh fab ∧ mh.resv = false ∧ (gap1 fab).holds = true ∧ (gap1 fab).powered = true ∧ admitted 0 41 fab = false
      ∧ some 2046 ≠ (portOf 0 fab).map (·.par.portAid) := by decide

theorem witness_MessagesAndAnswers_2 :
    meterBusy (sidOf mh.port mh.src fab) (openReq mh.port mh.src mh.tag mh.tgen true fab) = false ∧ fab.powerOff = false
      ∧ (letPass mh.port mh.src mh.tag (sidOf mh.port mh.src fab) fab.sags.shape.fOvh 1 fab.now (openReq mh.port mh.src mh.tag mh.tgen true fab)).1 = true := by decide

theorem witness_MessagesAndAnswers_3 :
    outstOf 0 40 3 1 0x0C { fab with outst := [o1 0x0C (.dirRead 5)] } = some (o1 0x0C (.dirRead 5))
      ∧ outstOf 0 40 3 1 0x0D { fab with outst := [o1 0x0D (.dirWrite 5)] } = some (o1 0x0D (.dirWrite 5))
      ∧ outstOf 0 40 3 1 0x0B { fab with outst := [o1 0x0B (.fence 40)] } = some (o1 0x0B (.fence 40)) ∧ outstOf 0 40 3 1 0x0C fab = none
      ∧ outstOf 0 40 3 1 0x0D fab = none ∧ outstOf 0 40 3 1 0x0B fab = none := by decide

def rq (op : LineOp) : Req := ⟨op, 0, 40, 3, 1, 0, 0, 0, false, false, 0, 0, 0, 0, 0, 0, 0, 0, false, .agent⟩

theorem witness_CoherentRequests_1 :
    lineReq (.rdShared mh 2097152) = some (mh, rq .rdShared, 2097152, 64, none)
      ∧ Passes mh (64 + fab.sags.shape.fOvh) 1 fab (letPass 0 40 3 5 (64 + fab.sags.shape.fOvh) 1 fab.now (openReq 0 40 3 1 false fab)).2 := by decide

theorem witness_CoherentRequests_2 :
    (2097153 % 64 ≠ 0) ∧ (agentOf 41 fab).kind = 0 ∧ (agentOf 40 (setAgent 40 { agentOf 40 fab with kind := 2 } fab)).kind = 2
      ∧ (agentOf 40 (setAgent 40 { agentOf 40 fab with lapsed := true } fab)).lapsed = true ∧ (agentOf 40 fab).lapsed = false
      ∧ 4 ≠ (agentOf 40 fab).lepoch ∧ translate (sidOf 0 40 fab) (2 * 2097152) 1 fab = .denied := by decide

def ent1 (st : DState) (cs : List (Nat × Nat)) : DirEnt := { freshEnt 5 1 with st := st, copies := cs }

theorem witness_WritebacksAndSnoops_1 :
    (rq .rdOwn).op = .rdOwn ∧ (ent1 .uncached []).st = .uncached ∧ (ent1 .uncached []).wide = false ∧ (ent1 .uncached []).copies = []
      ∧ 2 ≤ (ent1 .shared [(8, 1), (9, 1)]).copies.length ∧ (ent1 .shared [(8, 1), (9, 1)]).copies.any (·.1 == (rq .rdShared).src) = false
      ∧ (ent1 .shared [(8, 1), (9, 1)]).gone = false ∧ smWf fab.dir.ents = true := by decide

def hd : Handle := ⟨localKey 98304, 5⟩

def owned1 (s : State) : State := { s with dir.ents := [(localKey 98304, ent1 .owned [(40, 1)])] }

theorem witness_WritebacksAndSnoops_2 :
    Delivered mh (owned1 fab) ∧ (agentOf mh.src (owned1 fab)).kind ≠ 0 ∧ (agentOf mh.src (owned1 fab)).lapsed = false
      ∧ 3 = (agentOf mh.src (owned1 fab)).lepoch ∧ entOf hd.line (owned1 fab) = some (ent1 .owned [(40, 1)])
      ∧ hd.sid = sidOf mh.port mh.src (owned1 fab) ∧ isLocal hd.line = true
      ∧ (writeLocal (keyLine hd.line) 5 5 9 fullMask 0 none (owned1 fab)).isSome = true := by decide

theorem witness_WritebacksAndSnoops_3 :
    4 ≠ (agentOf mh.src (owned1 fab)).lepoch ∧ 6 ≠ sidOf mh.port mh.src (owned1 fab) := by decide

theorem witness_WritebacksAndSnoops_4 :
    (ent1 .owned [(40, 1)]).snoops.contains mh.src = false ∧ entOf hd.line fab = none := by decide

def stray1 : State := { fab with dir.strays := [(localKey 98304, 40, 5), (localKey 98305, 40, 6)] }

theorem witness_WritebacksAndSnoops_5 :
    Delivered mh stray1 ∧ stray1.dir.strays = (hd.line, mh.src, 5) :: [(localKey 98305, 40, 6)]
      ∧ (∀ x ∈ fab.dir.strays, x.1 ≠ hd.line ∨ x.2.1 ≠ mh.src) ∧ entOf hd.line fab = none := by decide

def owing (k : Nat) (s : State) : State := { s with dir.regions := [(77, ⟨5, some 7, pub1 5, none, [⟨k, 7, pub1 4, pub1 5, 3⟩, ⟨2, 7, pub1 5, pub1 6, 0⟩]⟩)] }

def recall7 (s : State) : State := { s with outst := [⟨0, 40, 3, 1, 0x0D, 0, false, .writeBack (remoteKey 7 5)⟩] }

def noLease : State := { fab with dir.agents := [(40, ⟨0, false, 3, 0, 0, 0, 6, none⟩)] }

def late1 : State := { fab with dir.agents := [(40, ⟨1, false, 3, 99999, 5, 0, 0, none⟩)] }

def ended1 : State := { fab with dir.agents := [(40, ⟨1, true, 3, 99999, 5, 0, 0, some (1, 2, 7)⟩)] }

def snooped1 : State := { fab with dir.ents := [(localKey 98304, { ent1 .owned [(40, 1)] with snoops := [40], snoopAt := 0 })], dir.cohCfg := [(5, ⟨256, 1000000, 100000, 100000, 64, 64⟩)] }

def jn (nk le k : Nat) (s : State) : Agent := ⟨k, false, le, s.now + (cohOf 5 s).lease, 5, 0, nk, none⟩

def oF : Outst := ⟨0, 40, 3, 1, 0x0B, 0, false, .fence 40⟩

def fenced1 : State := modPort 0 (fun q => { q with par := { q.par with completionTimeout := 10000 } }) { fab with outst := [oF] }

theorem witness_LeasesAndTimers_1 :
    Delivered mh noLease ∧ (agentOf 40 noLease).kind = 0 ∧ (agentOf 40 noLease).ending = none
      ∧ (jn 6 4 1 noLease).lepoch = add32 (agentOf 40 noLease).lepoch 1 := by decide

theorem witness_LeasesAndTimers_2 :
    Delivered mh fab ∧ (agentOf 40 fab).kind = 1 ∧ (agentOf 40 fab).lapsed = false ∧ fab.now ≤ (agentOf 40 fab).expiry
      ∧ (agentOf 40 late1).expiry < late1.now ∧ isCaching 40 late1 = true ∧ late1.alive = true := by decide

theorem witness_LeasesAndTimers_3 :
    snoopLate 40 snooped1 = true ∧ snoopLate 40 fab = false := by decide

theorem witness_LeasesAndTimers_4 :
    (agentOf 40 ended1).ending = some (1, 2, 7) ∧ ended1.dir.ents = [] ∧ ended1.outst = [] ∧ ended1.alive = true := by decide

theorem witness_LeasesAndTimers_5 :
    (entOf (localKey 98304) (owned1 fab)).map (·.holdEnd) = some 0 := by decide

theorem witness_LeasesAndTimers_6 :
    ({ fab with dir.reserv := [⟨40, 4, 5, 100000⟩] } : State).dir.reservWait = [] := by decide

theorem witness_LeasesAndTimers_7 :
    fenced1.alive = true ∧ fenced1.outst = [oF] ∧ oF.sent + completionLimit oF.port fenced1 ≤ fenced1.now := by decide

theorem witness_LeasesAndTimers_8 :
    recallOver 7 fab = true ∧ recallOver 7 (recall7 fab) = false
      ∧ smGet 77 (owing 1 fab).dir.regions = some ⟨5, some 7, pub1 5, none, [⟨1, 7, pub1 4, pub1 5, 3⟩, ⟨2, 7, pub1 5, pub1 6, 0⟩]⟩ := by decide

def withLeaf (l : Leaf) (s : State) : State := { s with xlt.leaves := [(leafKey 5 1, l)] }

def withHolder (st : Nat) (s : State) : State := { s with xlt.holders := [(7, ⟨st, 1, 0, 31, 40, 0⟩)] }

def ppaR : Nat := 2 * 2 ^ 60 + 7 * 2 ^ 48 + 5 * 2 ^ 21

theorem witness_TranslationOutcomes_1 :
    tableLost 5 1 up5 = false ∧ leafAt 5 1 up5.xlt = some (1, leaf1 (localPpa (3 * 2 ^ 21))) ∧ leafAt 5 2 up5.xlt = none
      ∧ permits (leaf1 0) 7 = true ∧ permits { leaf1 0 with wr := false } 2 = false ∧ (leaf1 (localPpa (3 * 2 ^ 21))).ppa = localPpa (3 * 2 ^ 21)
      ∧ holderContested 7 (withHolder 1 up5) = false ∧ (leaf1 ppaR).ppa = 2 * 2 ^ 60 + 7 * 2 ^ 48 + 5 * 2 ^ 21
      ∧ smGet (leafKey 5 2) up5.xlt.leaves = none ∧ smGet (leafKey 5 (2 / 512 * 512)) up5.xlt.leaves = none
      ∧ (∀ k ∈ List.range 9, dieState k up5 ≠ .lost) := by decide

def pg (n : Nat) : Nat := localPpa (n * 2 ^ 21)

def granted1 (s : State) : State := { s with xlt.grants := [0] }

def noRoot : State := granted1 { up5 with xlt.leaves := [], xlt.tables := [], xlt.epochs := [] }

def reserved1 (s : State) : State := { s with xlt.leaves := [(leafKey 5 1, { leaf1 0 with pres := false, last := false }), (leafKey 5 2, { leaf1 0 with pres := false })] }

theorem witness_MappingCommands_1 :
    Ready 0 0x30 0 (rdy 0x30 up5) (fl 0x30) ∧ (∀ c ∈ grantChks 2 [pg 8, pg 9] (rdy 0x30 up5), c.bad = false) := by decide

theorem witness_MappingCommands_2 :
    Ready 0 0x31 0 (rdy 0x31 noRoot) (fl 0x31) ∧ sagState 5 (rdy 0x31 noRoot) ≠ .free ∧ smGet 5 noRoot.xlt.epochs = none
      ∧ freePlace 1 noRoot.xlt ≠ none ∧ (newTable 1 5 0 (latched 0 5 (rdy 0x31 noRoot))).isSome = true
      ∧ (smGet 5 up5.xlt.epochs).isSome = true := by decide

theorem witness_MappingCommands_3 :
    Ready 0 0x32 0 (rdy 0x32 (granted1 up5)) (fl 0x32) ∧ (∀ p ∈ mapPpas 2 0 (pg 8) false [], warmPage p up5 = false) ∧ sidBad 5 up5 = false
      ∧ (∀ c ∈ listChks 2 (pg 8) ⟨0, .good⟩ up5, c.bad = false) ∧ (∀ p ∈ mapPpas 2 0 (pg 8) false [], ppaBad 2097152 p up5 = false
      ∧ ppaOver 2097152 p up5 = false) ∧ rangeTaken 5 (4 * 2097152 / 2 ^ 21) 2 up5 = false
      ∧ (needTables 5 4 2 false (latched 0 5 (rdy 0x32 (granted1 up5)))).isSome = true := by decide

theorem witness_MappingCommands_4 :
    Ready 0 0x33 0 (rdy 0x33 (reserved1 up5)) (fl 0x33) ∧ rangeMisaligned 5 2097152 (reserved1 up5) = false
      ∧ rangeLeaves 5 (reserved1 up5).xlt 2 1 ≠ none ∧ (∀ p ∈ pagePpas 2 (leafBytes 5 2097152 (reserved1 up5)) (pg 8) [], warmPage p up5 = false
      ∧ ppaBad 2097152 p up5 = false ∧ ppaOver 2097152 p up5 = false) ∧ (∀ x ∈ rangeOf 5 2097152 2 (reserved1 up5), x.2.pres = false)
      ∧ leafBytes 5 2097152 (reserved1 up5) = 2097152 := by decide

theorem witness_MappingCommands_5 :
    smWf up5.xlt.leaves = true := by decide

theorem witness_WithdrawalCommands_1 :
    Ready 0 0x34 0 (rdy 0x34 up5) (fl 0x34) ∧ sidBad 5 up5 = false ∧ rangeMisaligned 5 2097152 up5 = false ∧ rangeLeaves 5 up5.xlt 1 1 ≠ none
      ∧ (∀ x ∈ rangeOf 5 2097152 1 up5, x.2.mig = false) ∧ epochsFull 5 up5 = false := by decide

theorem witness_WithdrawalCommands_2 :
    Ready 0 0x35 0 (rdy 0x35 up5) (fl 0x35) ∧ underTable 5 ((((rangeOf 5 2097152 1 up5).filter fun x => !x.2.wr).flatMap leafPairs).map (·.1)) up5 = false := by decide

theorem witness_WithdrawalCommands_3 :
    Ready 0 0x36 0 (rdy 0x36 up5) (fl 0x36) ∧ Ready 0 0x37 0 (rdy 0x37 up5) (fl 0x37) := by decide

def flt1 : Fault' := ⟨3, 5, 2, false, 1, 5000, 1, 1, [(.queued 9, 1)], 100⟩

def faulted1 (s : State) : State := { s with xlt.faults := [flt1] }

def timed1 (s : State) : State := { faulted1 s with tal := { s.tal with now := 5000000 } }

def batch1 (s : State) : State := { s with xlt.batch := [faultRec 1 flt1 s, faultRec 1 { flt1 with id := 4 } s] }

theorem witness_FaultService_1 :
    Ready 0 0x38 0 (rdy 0x38 (faulted1 up5)) (fl 0x38) ∧ faultBy 3 (faulted1 up5) = some flt1 ∧ faultBy 4 (faulted1 up5) = none := by decide

theorem witness_FaultService_2 :
    Ready 0 0x39 0 (rdy 0x39 up5) (fl 0x39) ∧ up5.xlt.faults = [] ∧ (faulted1 up5).alive = true ∧ flt1.opened + flt1.extra + 1 ≤ up5.now
      ∧ flt1.opened + flt1.extra + 1000000 > up5.now := by decide

theorem witness_FaultService_3 :
    faultBy 3 (faulted1 up5) = some flt1 ∧ (timed1 up5).alive = true ∧ flt1.opened + flt1.extra + 1000000 ≤ (timed1 up5).now
      ∧ Ready 0 0x39 0 (rdy 0x39 (timed1 up5)) (fl 0x39) := by decide

theorem witness_FaultService_4 :
    (batch1 up5).alive = true ∧ (batch1 up5).xlt.batchAt + (batch1 up5).xlt.batchWin ≤ (batch1 up5).now ∧ (batch1 up5).xlt.batch ≠ []
      ∧ up.now < ({ up with xlt.batchAt := 99999 } : State).xlt.batchAt + up.xlt.batchWin := by decide

def heat1 : HeatCfg := ⟨1000000000, 3, 5, 6⟩

def taken1 (s : State) : State := { s with xlt.taken := [⟨5, 1, true, [(1, 0)]⟩] }

def gm : Mig := ⟨5, 1, localPpa (3 * 2 ^ 21), localPpa (8 * 2 ^ 21), 2, []⟩

def lm : Leaf := { leaf1 (localPpa (8 * 2 ^ 21)) with mig := true }

def mig1 (es : SMap DirEnt) (full : Bool) : State := { up5 with xlt.migs := [gm], xlt.leaves := [(leafKey 5 1, lm)], dir.ents := es, kiln.movers := if full then List.replicate 64 true else up5.kiln.movers }

def noLeaf (s : State) : State := { s with xlt.leaves := [] }

theorem witness_HeatMigrationHolders_1 :
    Ready 0 0x3A 0 (rdy 0x3A (noLeaf up5)) (fl 0x3A) ∧ heatOk heat1 = true ∧ heatOk { heat1 with period := 0 } = false
      ∧ sagState 5 (noLeaf up5) ≠ .free := by decide

theorem witness_HeatMigrationHolders_2 :
    smGet (leafKey 5 1) up5.xlt.leaves = some (leaf1 (localPpa (3 * 2 ^ 21))) ∧ up5.alive = true ∧ (leaf1 0).due ≤ up5.now
      ∧ up5.now < ({ leaf1 0 with due := 100001 } : Leaf).due := by decide

theorem witness_HeatMigrationHolders_3 :
    (taken1 up5).alive = true ∧ (taken1 up5).xlt.taken = [⟨5, 1, true, [(1, 0)]⟩] := by decide

theorem witness_HeatMigrationHolders_4 :
    Ready 0 0x3B 0 (rdy 0x3B up5) (fl 0x3B) ∧ sidBad 5 up5 = false ∧ leafAt 5 1 up5.xlt = some (1, leaf1 (localPpa (3 * 2 ^ 21)))
      ∧ rangeMisaligned 5 2097152 up5 = false ∧ warmPage (pg 8) up5 = false ∧ ppaFormat (localPpa (3 * 2 ^ 21)) ≠ 3
      ∧ destBad 2097152 (pg 8) up5 = false ∧ up5.xlt.faults = [] ∧ epochsFull 5 up5 = false := by decide

theorem witness_HeatMigrationHolders_5 :
    up5.xlt.migs = [] ∧ up5.kiln.runs = [] := by decide

theorem witness_HeatMigrationHolders_6 :
    (mig1 [] true).alive = true ∧ (mig1 [] true).xlt.migs = [gm] ∧ smGet (leafKey 5 1) (mig1 [] true).xlt.leaves = some lm
      ∧ (mig1 [] true).kiln.runs = [] ∧ migDrained gm lm (mig1 [] true) = true ∧ (mig1 [] true).kiln.movers.findIdx? (· == false) = none
      ∧ migDrained gm lm (mig1 [(localKey 98304, { freshEnt 5 1 with st := .shared, copies := [(40, 1)] })] false) = false
      ∧ (mig1 [] false).kiln.movers.findIdx? (· == false) = some 0 := by decide

theorem witness_HeatMigrationHolders_7 :
    Ready 0 0x3C 0 (rdy 0x3C up5) (fl 0x3C) ∧ (holderOf 4094 up5).st = 0 := by decide

def mv1 : MoveDesc := ⟨1, 1, false, false, 6, 128, 0, 2097152, 5, false⟩

def mrun (d : MoveDesc) (mover : Option Nat) (s : State) : MRun := { newRun 5 d none 0 s with mover := mover }

def moving (n : Nat) (d : MoveDesc) : State := { fab with kiln.runs := [{ mrun d (some n) fab with started := 1 }], kiln.movers := fab.kiln.movers.set n true }

def migrating1 : State := { up5 with xlt.leaves := [(leafKey 5 1, { leaf1 (localPpa (3 * 2 ^ 21)) with mig := true })], xlt.migs := [⟨5, 1, localPpa (3 * 2 ^ 21), localPpa (4 * 2 ^ 21), 1, []⟩] }

def missing1 : MRun := { mrun mv1 none fab with runD := { (mrun mv1 none fab).runD with pages := [none] } }

theorem witness_MoverCommands_1 :
    Ready 0 0x43 0 (rdy 0x43 fab) (fl 0x43) ∧ sagState 5 (rdy 0x43 fab) = .active ∧ smGet 5 (rdy 0x43 fab).xlt.epochs ≠ none
      ∧ GoodItem ⟨0, .good⟩ 64 (rdy 0x43 fab) ∧ (∀ c ∈ moveChks 5 mv1 true false (rdy 0x43 fab), c.bad = false)
      ∧ bakeWaits 5 mv1 (latched 0 5 (rdy 0x43 fab)) = none := by decide

theorem witness_MoverCommands_2 :
    Ready 0 0x43 0 (rdy 0x43 migrating1) (fl 0x43) ∧ (∀ c ∈ moveChks 5 mv1 true false (rdy 0x43 migrating1), c.bad = false)
      ∧ bakeWaits 5 mv1 (latched 0 5 (rdy 0x43 migrating1)) = some 1 := by decide

theorem witness_MoverCommands_3 :
    Passes mh fab.sags.shape.fOvh 1 fab (letPass 0 40 3 5 fab.sags.shape.fOvh 1 fab.now (openReq 0 40 3 1 false fab)).2 ∧ chainOf 0 40 fab = none
      ∧ chainMig mh fab = none ∧ mh.resv = false ∧ mv1.chain = false ∧ (∀ c ∈ moveChks 5 mv1 false false fab, c.bad = false)
      ∧ bakeWaits 5 mv1 fab = none := by decide

theorem witness_MoverCommands_4 :
    fab.kiln.movers[63]? = some false ∧ (moving 63 mv1).alive = true ∧ (moving 63 mv1).kiln.movers[63]? = some true
      ∧ (mrun mv1 none fab).chain = 0 ∧ (mrun mv1 none fab).started = 0
      ∧ unheld (mrun mv1 none fab) { fab with kiln.runs := [mrun mv1 none fab] } = []
      ∧ unheld missing1 { fab with kiln.runs := [missing1] } ≠ [] := by decide

theorem witness_MoverCommands_5 :
    ((moving 3 mv1).kiln.runs.find? (fun x => x.mover == some 3 && !x.mig)).isSome = true := by decide

theorem witness_MoverCommands_6 :
    (moving 3 mv1).kiln.movers[3]? ≠ none := by decide

theorem witness_MoverCommands_7 :
    (mrun mv1 (some 3) fab).mig = false ∧ moveStatus (mrun mv1 (some 3) fab) ≠ stDENIED ∧ (mrun mv1 (some 3) fab).sub = none := by decide

def glz : Glaze := ⟨9, 1, 2 ^ 5, false, false, 0, [0x1C000000#32], 0, 1, [], [98304]⟩

def lib1 (s : State) : State := { s with kiln.library := [glz] }

def gen1 : GenRec := ⟨1, 1, 1, 3, 0, 0, 0, 0, [], [], 0, false⟩

def keyed (s : State) : State := { s with pen := { s.pen with inForce := 1, otp.slots := [some gen1, none, none, none] }, xlt.libGrants := [3] }

def img1 : GlazeImg := ⟨1, 65535, 2, 2, 0, false, false, 1, [0x20000000#32, 0x04000000#32], false⟩

theorem witness_GlazeLibrary_1 :
    Ready 0 0x55 0 (rdy 0x55 fab) (fl 0x55) ∧ (∀ c ∈ grantChks 1 [localPpa (9 * 2 ^ 21)] (rdy 0x55 fab), c.bad = false) := by decide

theorem witness_GlazeLibrary_2 :
    Ready 0 0x52 0 (rdy 0x52 (keyed fab)) (fl 0x52) ∧ img1.fmt = 1 ∧ img1.code.all (fun w => codeResv w == false) = true
      ∧ GoodItem ⟨64, .good⟩ 400 (rdy 0x52 (keyed fab)) ∧ (keyed fab).pen.otp.lc = 2
      ∧ (genNow (rdy 0x52 (keyed fab))).map (fun g => bitOf g.glazeValid img1.key) = some true ∧ imageDeny img1 = false
      ∧ imageBytes img1.codeWords ≤ 400 ∧ (rdy 0x52 { keyed fab with pen.otp.lc := 3 }).pen.otp.lc ≠ 2
      ∧ Ready 0 0x52 0 (rdy 0x52 { keyed fab with pen.otp.lc := 3 }) (fl 0x52)
      ∧ ({ img1 with codeWords := 0, code := [] } : GlazeImg).codeWords = 0 ∧ imageDeny { img1 with codeWords := 0, code := [] } = false := by decide

theorem witness_GlazeLibrary_3 :
    Ready 0 0x53 0 (rdy 0x53 (lib1 fab)) (fl 0x53) ∧ (glazeOf 9 (lib1 fab)).isSome = true ∧ glazeInUse 9 (lib1 fab) = false
      ∧ glazeOf 8 (lib1 fab) = none := by decide

theorem witness_GlazeLibrary_4 :
    Ready 0 0x54 0 (rdy 0x54 (lib1 fab)) (fl 0x54) ∧ (∀ x ∈ [5, 4094].take 2, x ≤ 4094) ∧ (permitList glz.sids ([5, 4094].take 2) 0).length ≤ 64
      ∧ glazeOf 9 (lib1 fab) = some glz := by decide

theorem witness_GlazeLibrary_5 :
    Ready 0 0x56 48 (rdy 0x56 (lib1 fab)) (fl 0x56) ∧ (lib1 fab).kiln.library[0]? = some glz := by decide

def sl5 : Slot := ⟨2097152, 4096, 5, 0, 0, 0, false, false, false⟩

def fd1 : FireDesc := ⟨1, 1, 0, false, 3, 9, 1, 7, 0, 0, 0, 0, [], [sl5], false⟩

def up6 : State := modSag 5 (fun g => { g with par := { g.par with shelves := [2 ^ 40 - 1, 3, 0, 0, 0, 0, 0, 0] } }) (lib1 fab)

def fire1 (st : FState) : Firing := { newFiring 5 fd1 none none up6 with st := st, started := 90000 }

def open1 (f : Firing) : State := { up6 with kiln.firings := [f], kiln.nextFid := 1 }

theorem witness_FiringCommands_1 :
    Ready 0 0x50 0 (rdy 0x50 up6) (fl 0x50) ∧ sagState 5 (rdy 0x50 up6) = .active ∧ GoodItem ⟨0, .good⟩ 256 (rdy 0x50 up6)
      ∧ (∀ c ∈ fireChks 5 fd1 none none (rdy 0x50 up6), c.bad = false) ∧ fireWaits 5 fd1 (latched 0 5 (rdy 0x50 up6)) = none := by decide

theorem witness_FiringCommands_2 :
    fireWaits 5 fd1 (latched 0 5 (rdy 0x50 { up6 with xlt.leaves := migrating1.xlt.leaves, xlt.migs := migrating1.xlt.migs })) = some 1
      ∧ (∀ c ∈ fireChks 5 fd1 none none (rdy 0x50 { up6 with xlt.leaves := migrating1.xlt.leaves }), c.bad = false)
      ∧ sagState 6 up6 = .free := by decide

theorem witness_FiringCommands_3 :
    Passes mh up6.sags.shape.fOvh 1 up6 (letPass 0 40 3 5 up6.sags.shape.fOvh 1 up6.now (openReq 0 40 3 1 false up6)).2 := by decide

theorem witness_FiringCommands_4 :
    Ready 0 0x51 0 (rdy 0x51 (open1 (fire1 .running))) (fl 0x51) ∧ submitterResv 4095 = false
      ∧ openFiring 5 (submitter 4095) 3 (rdy 0x51 (open1 (fire1 .running))) = some (fire1 .running)
      ∧ openFiring 5 (submitter 4095) 4 (rdy 0x51 (open1 (fire1 .running))) = none ∧ openFiring (sidOf 0 40 up6) (some 40) 3 up6 = none
      ∧ Ready 0 0x57 0 (rdy 0x57 (open1 (fire1 .running))) (fl 0x57) := by decide

def part1 (pl en : Bool) : Part := ⟨0, 1, [1], [], pl, en, []⟩

def filling (pl : Bool) : Firing := { fire1 .running with desc := { fd1 with kind := 2, slots := [{ sl5 with length := 128 }] }, parts := [part1 pl false] }

def shelved : Part := { part1 true false with shelves := [9] }

def stepping9 (s : State) : State := modShelf 9 (fun x => { x with run := some 0, lanes := [startLane (fire1 .running) 1 0 0 [] [] []] }) s

def queued1 : State := modKiln 0 (fun k => { k with queue := [(0, 0)] }) (open1 { fire1 .queued with parts := [part1 false false] })

theorem witness_FiringEvents_1 :
    (open1 (fire1 .claiming)).alive = true ∧ firingBy 0 (open1 (fire1 .claiming)) = some (fire1 .claiming)
      ∧ claimsReady 0 (requestClaims 0 (open1 (fire1 .claiming))) = true := by decide

theorem witness_FiringEvents_2 :
    claimsReady 0 (requestClaims 0 { open1 (fire1 .claiming) with dir.ents := [(localKey 98304, { ent1 .owned [(40, 1)] with queue := [] })] }) = false ∧ claimPages (fire1 .claiming) ≠ [] := by decide

theorem witness_FiringEvents_3 :
    pickPart queued1 [(0, 0)] [] = some (0, 0, [0]) ∧ (queued1.kiln.dies[0]?).map (·.queue) = some [(0, 0)] := by decide

theorem witness_FiringEvents_4 :
    firingBy 0 (open1 { fire1 .running with desc.limit := 1 }) = some { fire1 .running with desc.limit := 1 }
      ∧ ({ fire1 .running with desc.limit := 1 } : Firing).started + 0 + 1000 * 1 < up6.now
      ∧ up6.now ≤ (fire1 .running).started + 0 + 1000 * 10 := by decide

theorem witness_FiringEvents_5 :
    (fire1 .running).stop = none ∧ (fire1 .running).desc.kind = 1 ∧ ({ fire1 .running with stop := some 2 } : Firing).stop ≠ none
      ∧ (part1 true true).ended = true ∧ partStopped (part1 false false) (open1 (fire1 .running)) = true
      ∧ partStopped shelved (stepping9 (open1 (fire1 .running))) = false := by decide

theorem witness_FiringEvents_6 :
    firingBy 0 (open1 (filling true)) = some (filling true) ∧ (filling true).st = .running ∧ (filling true).stop = none
      ∧ (filling true).desc.kind ∈ [2, 3, 4] ∧ (∀ p ∈ (filling true).parts, p.placed = true ∨ p.ended = true)
      ∧ (runBuiltin (filling true) (open1 (filling true))).1 = some () ∧ (filling false).desc.kind ≠ 1
      ∧ (∃ p ∈ (filling false).parts, p.placed = false ∧ p.ended = false) := by decide

theorem witness_FiringEvents_7 :
    (shelfOf 41 (modShelf 41 (fun x => { x with marked := true }) up6)).map (fun x => (x.marked, x.run, x.window)) = some (true, none, none) := by decide

def kv1 : Ctx := ⟨1, 2, 1, 5, 1, 4, 1, false, 1, 64, 16, 1, 2097152, 0, 0, false⟩

def migCtx (s : State) : State := { s with kiln.ctxs := [(3, grantedCtx 5)], xlt.leaves := migrating1.xlt.leaves, xlt.migs := migrating1.xlt.migs }

def tab1 : Ctx := { kv1 with kind := 2, btLog := 0, kvHeads := 0, g := 0, rows := 16, aux := 2097152 }

def ctx1 (s : State) : State := { s with kiln.ctxs := [(3, grantedCtx 5)] }

theorem witness_ContextCommands_1 :
    Ready 0 0x58 0 (rdy 0x58 (ctx1 fab)) (fl 0x58) ∧ (∀ i ∈ List.range 2, ctxOwner (3 + i) (ctx1 fab) = 4095 ∨ ctxOwner (3 + i) (ctx1 fab) = 5)
      ∧ ctxInUse 3 1 (ctx1 fab) = false := by decide

theorem witness_ContextCommands_2 :
    Ready 0 0x59 0 (rdy 0x59 (ctx1 fab)) (fl 0x59) ∧ (∀ c ∈ ctxSetChks (fun _ => true) 3 kv1 (rdy 0x59 (ctx1 fab)), c.bad = false) := by decide

theorem witness_ContextCommands_3 :
    Ready 0 0x59 0 (rdy 0x59 (migCtx fab)) (fl 0x59) ∧ (∀ c ∈ ctxSetChks (fun _ => true) 3 tab1 (rdy 0x59 (migCtx fab)), c.bad = false)
      ∧ rowsWait (ctxOwner 3 (latched 0 0 (rdy 0x59 (migCtx fab)))) tab1 (latched 0 0 (rdy 0x59 (migCtx fab))) = some 1
      ∧ rowsWait (ctxOwner 3 (latched 0 0 (rdy 0x59 (ctx1 fab)))) kv1 (latched 0 0 (rdy 0x59 (ctx1 fab))) = none := by decide

theorem witness_ContextCommands_4 :
    Passes mh (ctx1 fab).sags.shape.fOvh 1 (ctx1 fab) (letPass 0 40 3 5 fab.sags.shape.fOvh 1 fab.now (openReq 0 40 3 1 false (ctx1 fab))).2
      ∧ Ready 0 0x5A 48 (rdy 0x5A (ctx1 fab)) (fl 0x5A) := by decide

def glw : Glaze := { glz with win := true }

def upw : State := { up6 with kiln.library := [glw] }

def blk1 : WinBlock := ⟨1, 0, 0, false, false, 0, 1023, 5, 0, 1, 1024, 1, 40, 9, 1000000, { fd1 with window := 1023 }, [40], false⟩

def win1 (st : WState) (o : Bool) : Window := { newWindow blk1 [0] with st := st, opened := o, received := 1, firstAt := 0, ledger := [(0, 0)] }

def wst (st : WState) (o : Bool) (s : State) : State := { modShelf 0 (fun x => { x with window := some 1023 }) s with kiln.wins := [(1023, win1 st o)] }

def ldl (o : Bool) : Window := { newWindow blk1 [0] with opened := o }

theorem witness_WindowCommands_1 :
    Ready 0 0x5B 0 (rdy 0x5B upw) (fl 0x5B) ∧ warmDie 0 upw = false ∧ GoodItem ⟨0, .good⟩ 400 (rdy 0x5B upw) ∧ smGet 1023 upw.kiln.wins = none
      ∧ dieState 0 upw = .inService ∧ sagState 5 upw = .active ∧ blk1.elements % segElems blk1.cfmt = 0 ∧ blk1.aids.Nodup
      ∧ stepBad blk1 upw = false ∧ firstBad (fireChks 5 blk1.step none (some 1023) upw) = none ∧ blk1.shelves ≤ (winShelves blk1 upw).length
      ∧ winShelves blk1 (latched 0 5 (rdy 0x5B upw)) = winShelves blk1 (rdy 0x5B upw) := by decide

theorem witness_WindowCommands_2 :
    Ready 0 0x5C 0 (rdy 0x5C (wst .parked false upw)) (fl 0x5C) ∧ smGet 1023 (wst .parked false upw).kiln.wins = some (win1 .parked false)
      ∧ (win1 .parked false).st = .parked ∧ (win1 .opened true).st ≠ .parked := by decide

theorem witness_WindowCommands_3 :
    Ready 0 0x5D 0 (rdy 0x5D (wst .opened true upw)) (fl 0x5D) ∧ (win1 .opened true).opened = true
      ∧ (win1 .stepping false).st = .stepping := by decide

theorem witness_WindowCommands_4 :
    Ready 0 0x5E 0 (rdy 0x5E (wst .parked false upw)) (fl 0x5E) ∧ Ready 0 0x5F 0 (rdy 0x5F (wst .parked false upw)) (fl 0x5F)
      ∧ 0 < blk1.contrib := by decide

theorem witness_WindowCommands_5 :
    (win1 .opened true).firstAt + 1000000 + 0 ≤ ({ upw with tal.now := 1000000 } : State).now ∧ 0 < (win1 .opened true).received
      ∧ ({ upw with tal.now := 1000000 } : State).alive = true := by decide

theorem witness_WindowCommands_6 :
    Passes mh (4096 + upw.sags.shape.fOvh) 64 upw (letPass 0 40 3 5 (4096 + upw.sags.shape.fOvh) 64 upw.now (openReq 0 40 3 1 false upw)).2
      ∧ translate (sidOf 0 40 (withLeaf (leaf1 (3 * 2 ^ 60 + 1023 * 2 ^ 30)) upw)) 2097152 2 (withLeaf (leaf1 (3 * 2 ^ 60 + 1023 * 2 ^ 30)) upw) = .window (1023 * 2 ^ 30) := by decide

theorem witness_WindowCommands_7 :
    (ldl true).st ≠ .lost ∧ 0 / 4096 < winSegs (ldl true).blk ∧ (ldl true).blk.aids.idxOf? 40 = some 0 ∧ (ldl true).blk.aids.idxOf? 41 = none
      ∧ (0, 0) ∉ (ldl true).ledger ∧ (0, 0) ∈ (win1 .opened true).ledger ∧ (8 + 1) % 65536 = (ldl true).round
      ∧ (10 + 1) % 65536 ≠ (ldl true).round ∧ 10 = ((ldl true).round + 1) % 65536 := by decide

def lane0 : Lane := ⟨(List.range 24).map fun i => ⟨BitVec.ofNat 32 (0x3F800000 + 3 * i), i % 2⟩, [(true, 0), (false, 0), (true, 1), (false, 1), (true, 0), (true, 0), (false, 0), (true, 0)], ⟨0x40000000, 0⟩, ⟨0x3F000000, 1⟩, 3, 5, [(4, ⟨77, 0⟩)], [[⟨⟨0x40400000, 0⟩, 127⟩, ⟨⟨9, 1⟩, 128⟩], [⟨⟨0xBF800000, 0⟩, 126⟩], [], []], [[], [], [], []], [0, 0, 0, 0], [[], [], [], []], [4096, 4096, 0, 0], 0, false, 0, 0, 0, 0, 0⟩

def lanesX : List Lane := [lane0, { lane0 with fin := true }, { lane0 with m := lane0.m.set 2 (false, 0), w := lane0.w.set 3 ⟨5, 0⟩ }]

def gz (w idx rep : Nat) : State :=
  modShelf 0 (fun x => { x with run := some 0, lanes := lanesX, idx := idx, rep := rep, ct := [0, 1, 2, 3], const := [(1, ⟨6, 0⟩), (65, ⟨7, 1⟩)] })
    { open1 { fire1 .running with parts := [⟨0, 1, [1], [0], true, false, []⟩] } with
      kiln.library := [{ glz with code := List.replicate idx 0 ++ [BitVec.ofNat 32 w, 0x0C000000] }] }

theorem witness_GlazeOperands_1 :
    lane0.w.length = 24 ∧ lane0.m.length = 8 ∧ lane0.ins.length = 4 ∧ lane0.ins[0]? = some [⟨⟨0x40400000, 0⟩, 127⟩, ⟨⟨9, 1⟩, 128⟩]
      ∧ lane0.ins[3]? = some [] := by decide

def gg : GArgs := ⟨true, 1, 2, 3, 4, 65⟩

theorem witness_GlazeMoves_1 :
    (issuing 0 (wordG 0x00 gg) (gz (wordG 0x00 gg) 0 0)).isSome = true
      ∧ (issuing 0 (wordI 0x08 true 1 5 false 65535) (gz (wordI 0x08 true 1 5 false 65535) 1 2)).isSome = true := by decide

theorem witness_GlazeMoves_2 :
    (issuing 0 (wordG 0x12 gg) (gz (wordG 0x12 gg) 0 0)).isSome = true ∧ (issuing 0 (wordG 0x21 gg) (gz (wordG 0x21 gg) 0 0)).isSome = true
      ∧ (issuing 0 (wordI 0x09 true 1 5 false 65535) (gz (wordI 0x09 true 1 5 false 65535) 0 0)).isSome = true := by decide

theorem witness_GlazeInteger_1 :
    (issuing 0 (wordG 0x0B gg) (gz (wordG 0x0B gg) 0 0)).isSome = true ∧ (issuing 0 (wordG 0x11 gg) (gz (wordG 0x11 gg) 0 0)).isSome = true
      ∧ (issuing 0 (wordG 0x13 gg) (gz (wordG 0x13 gg) 0 0)).isSome = true := by decide

theorem witness_GlazeFires_1 :
    (issuing 0 (wordG 0x18 gg) (gz (wordG 0x18 gg) 0 0)).isSome = true ∧ (issuing 0 (wordG 0x1B gg) (gz (wordG 0x1B gg) 0 0)).isSome = true
      ∧ (issuing 0 (wordG 0x1E gg) (gz (wordG 0x1E gg) 0 0)).isSome = true := by decide

def g0 : GArgs := ⟨false, 0, 0, 0, 0, 0⟩

def two1 (w : ShWait) : State :=
  modShelf 1 (fun x => { x with run := some 0, lanes := lanesX, wait := w }) (modShelf 0 (fun x => { x with wait := .barrier })
    { gz 0 0 0 with kiln.firings := [{ fire1 .running with parts := [⟨0, 1, [1], [0, 1], true, false, []⟩] }] })

theorem witness_GlazeControl_1 :
    (issuing 0 (wordG 0x01 g0) (gz (wordG 0x01 g0) 0 0)).isSome = true := by decide

theorem witness_GlazeControl_2 :
    (gz 0 0 0).powered = true ∧ (shelfOf 0 (gz 0 0 0)).map (·.run) = some (some 0)
      ∧ ((shelfOf 0 (mismatch 0 2 (gz 0 0 0))).map (fun y => y.nine.contains 2)) = some false := by decide

theorem witness_GlazeControl_3 :
    (issuing 0 (wordB 0x03 1 2 7) (gz (wordB 0x03 1 2 7) 0 0)).isSome = true
      ∧ (issuing 0 (wordB 0x03 0 0 65535) (gz (wordB 0x03 0 0 65535) 0 0)).isSome = true
      ∧ (issuing 0 (wordB 0x03 2 2 7) (gz (wordB 0x03 2 2 7) 0 0)).isSome = true
      ∧ (issuing 0 (wordB 0x03 3 1 7) (gz (wordB 0x03 3 1 7) 0 0)).isSome = true := by decide

theorem witness_GlazeControl_4 :
    (issuing 0 (wordI 0x04 false 0 2 false 5) (gz (wordI 0x04 false 0 2 false 5) 0 0)).isSome = true
      ∧ (issuing 0 (wordI 0x04 false 0 1 false 5) (gz (wordI 0x04 false 0 1 false 5) 0 0)).isSome = true := by decide

theorem witness_GlazeControl_5 :
    (issuing 0 (wordI 0x05 false 0 0 false 9) (gz (wordI 0x05 false 0 0 false 9) 0 0)).isSome = true
      ∧ (issuing 0 (wordI 0x05 false 0 0 true 3) (gz (wordI 0x05 false 0 0 true 3) 0 0)).isSome = true := by decide

theorem witness_GlazeControl_6 :
    (issuing 0 (wordI 0x06 false 0 3 false 65535) (gz (wordI 0x06 false 0 3 false 65535) 0 0)).isSome = true
      ∧ (issuing 0 (wordI 0x06 false 0 3 true 31) (gz (wordI 0x06 false 0 3 true 31) 0 0)).isSome = true ∧ lanesX[0]? = some lane0
      ∧ lane0.fin = false := by decide

theorem witness_GlazeControl_7 :
    (issuing 0 (wordG 0x07 g0) (gz (wordG 0x07 g0) 0 0)).isSome = true
      ∧ (issuing 0 (wordG 0x07 g0) (commitShelf 0 (gz (wordG 0x07 g0) 0 0))).isSome = true
      ∧ (issuing 0 (wordG 0x22 gg) (commitShelf 0 (gz (wordG 0x22 gg) 0 0))).isSome = true
      ∧ (issuing 0 (wordG 0x23 ⟨false, 0, 24, 3, 0, 1⟩) (commitShelf 0 (gz (wordG 0x23 ⟨false, 0, 24, 3, 0, 1⟩) 0 0))).isSome = true := by decide

theorem witness_GlazeControl_8 :
    (issuing 0 (wordG 0x02 ⟨true, 1, 0, 0, 0, 0⟩) (gz (wordG 0x02 ⟨true, 1, 0, 0, 0, 0⟩) 0 0)).isSome = true
      ∧ (lanesX.any fun l => !l.fin && !executes false 2 l) = true := by decide

theorem witness_GlazeControl_9 :
    shelfOf 0 (gz 0 0 0) ≠ none ∧ ((shelfOf 0 (gz 0 0 0)).map (·.unread)) = some [] ∧ firingBy 0 (gz 0 0 0) ≠ none
      ∧ 1 ∈ partMates ((firingBy 0 (two1 .none)).getD (fire1 .running)) 0 ∧ arrived .barrier 1 (two1 .none) = false := by decide

def rg (r : Nat) (f : Ring → Ring) (s : State) : State := modRing r f s

def sess (s : State) : State := { s with pen.session := true }

def rstop (r : Nat) : State := rg r (fun g => { g with st := .stopped }) (sess up)

theorem witness_RingEvents_1 :
    up.glb.hubReset = false ∧ (ringOf 0 (rstop 0)).map (fun g => (g.st, g.stored, g.size)) = some (.stopped, none, 4)
      ∧ (rstop 0).pen.session = true ∧ 1 ≤ (rstop 0).host.bounceSize ∧ (rstop 0).host.bme = true ∧ up.pen.session = false := by decide

theorem witness_RingEvents_2 :
    (ringOf 0 up).map (·.st) = some .running ∧ takeDoorbell.sub32 3 0 ≤ 2 ^ 4 ∧ ¬ takeDoorbell.sub32 17 0 ≤ 2 ^ 4 := by decide

theorem witness_RingEvents_3 :
    takeDoorbell.sub32 2 0 ≤ takeDoorbell.sub32 3 0 ∧ ¬ takeDoorbell.sub32 4 0 ≤ takeDoorbell.sub32 3 0 := by decide

theorem witness_RingEvents_4 :
    up.dma = true ∧ ({ up with host.stUnsig := 1 } : State).host.stUnsig ≠ 0 ∧ up.host.cfg.countStatus ≤ 1
      ∧ ({ up with host.evUnsig := 1, host.cfg.countEvent := 9, host.cfg.waitEvent := 5, host.evFirst := 99999 } : State).host.evUnsig < 9 := by decide

def pk : Packet := ⟨1, 3, 9, true, [1, 0, 1, 0, 77, 0, 0, 0, 64, 0, 0, 0, 128, 0, 0, 0], false⟩

def pk2 : Packet := { pk with head := 2 :: pk.head.drop 1 }

def fet : State := rg 1 (fun g => { g with prod := 5, cons := 3, seq := 9, since := some 0 }) (sess up)

def fenced2 (c : List (Nat × Nat)) : State := modRing 1 (fun g => { g with inflight := some { fl 0x02 with parked := some (.sysFence c) } }) (rdy 0x43 up)

theorem witness_FetchAndWrite_1 :
    fet.alive = true ∧ fet.dma = true ∧ nextRing fet = some 1 ∧ (ringOf 1 fet).map (fun g => (g.cons, g.size, g.seq)) = some (3, 4, 9)
      ∧ (∀ c ∈ packetChks pk fet, c.bad = false) ∧ pk.slot = 3 % 2 ^ 4
      ∧ (pkFmt pk, pkOp pk, pkLatch pk, pkCtag pk, pkOutOff pk, pkOutLen pk) = (1, 0, true, 77, 64, 128) ∧ pkFmt pk2 ≠ 1 := by decide

theorem witness_FetchAndWrite_2 :
    (ringOf 4 up).map (fun g => (g.st, freeSlots g)) = some (.running, 16) ∧ up.twin.gap = none ∧ up.dma = true ∧ up.tal.running = true
      ∧ (gap1 up).twin.gap.isSome = true := by decide

theorem witness_FetchAndWrite_3 :
    inflightOf 1 (fenced2 [(0, 0)]) = some { fl 0x02 with parked := some (.sysFence [(0, 0)]) }
      ∧ [(0, 0)].any (replyOwed (fenced2 [(0, 0)])) = true ∧ [(0, 8)].any (replyOwed (fenced2 [(0, 8)])) = false := by decide

theorem witness_RegistersAndPcie_1 :
    read64 0x600010 up = none ∧ smGet 0x600010 up.host.highs = none
      ∧ (List.range 64).any (fun i => (read64 (0x10000 + 4 * i) up).isSome) = true := by decide

def boot : State := { up with glb := { up.glb with memStarted := false, arraysTested := false, poolReady := false } }

def boot2 : State := { boot with glb := { boot.glb with arraysTested := true } }

def repairs : List (RowLoc × Bool) := [(⟨0, 5, 0, 0, 0, 0, 5⟩, true), (⟨7, 0, 0, 0, 0, 0, 9⟩, false)]

def dimm1 : Dimm := ⟨1, 2, 1, 65536, 3, 3⟩

def boarded : State := { boot with glb.board := some ⟨(List.range 48).map fun i => if i / 6 = 2 then some dimm1 else none, 0, true⟩ }

theorem witness_PowerCommands_1 :
    Ready 0 0x0A 0 (rdy 0x0A boot) (fl 0x0A) ∧ boot.glb.memStarted = false ∧ boot.glb.arraysTested = false
      ∧ Ready 0 0x0A 0 (rdy 0x0A up) (fl 0x0A) ∧ up.glb.memStarted = true ∧ boarded.glb.kilnIn.getLsbD 2 = true
      ∧ (∀ c ∈ List.range 6, (dimmsOf 2 boarded)[c]? = some (some dimm1)) := by decide

theorem witness_PowerCommands_2 :
    Ready 0 0x0A 0 (rdy 0x0A boot2) (fl 0x0A) ∧ boot2.glb.memStarted = false ∧ boot2.glb.arraysTested = true ∧ GoodItem ⟨128, .good⟩ 16 boot2
      ∧ (∀ e ∈ repairs, e.1.channel < 6) ∧ repairs.length = 16 / 8 := by decide

theorem witness_PowerCommands_3 :
    Ready 0 0x0B 0 (rdy 0x0B up) (fl 0x0B) ∧ tenantsFree (rdy 0x0B up) = true ∧ tenantsFree (rdy 0x0B up5) = false
      ∧ Ready 0 0x0C 0 (rdy 0x0C up) (fl 0x0C) ∧ up.kiln.firings = [] ∧ (∀ x ∈ up.kiln.runs, x.mig = true) := by decide

def pc1 : PortParams := ⟨3, 1, 2046, 1000000, 2000, 1000, 1000, 7⟩

def pget (p : Nat) (s : State) : Port := (portOf p s).getD (resetPort 0)

def svc (p : Nat) (f : Port → Port) (s : State) : State := modPort p (fun q => f { q with inSvc := true, par := { q.par with enable := 1 } }) s

theorem witness_PortCommands_1 :
    Ready 0 0x70 0 (rdy 0x70 fab) (fl 0x70) ∧ aidTaken pc1 (rdy 0x70 fab) = false ∧ (portOf 3 fab).isSome = true
      ∧ ({ pc1 with portAid := 2048 } : PortParams).portAid > 2047 := by decide

theorem witness_PortCommands_2 :
    Ready 0 0x71 0 (rdy 0x71 fab) (fl 0x71) ∧ assocOf 3 41 fab = none ∧ onOther 3 41 (fun a => a.adm == .admitted && a.sid != 5) fab = 0
      ∧ onOther 3 41 (fun a => a.allow.isSome) fab < 2 ∧ (rdy 0x71 { fab with pen := { fab.pen with otp.lc := 1 } }).pen.otp.lc ≠ 2 := by decide

theorem witness_PortCommands_3 :
    Ready 0 0x72 0 (rdy 0x72 fab) (fl 0x72) ∧ (portOf 0 fab).map (fun q => (q.inSvc, q.par.enable)) = some (true, 1) := by decide

theorem witness_PortCommands_4 :
    Ready 0 0x73 0 (rdy 0x73 fab) (fl 0x73) ∧ admitted 0 40 fab = true ∧ admitted 0 41 fab = false
      ∧ (assocOf 0 40 fab).map (·.adm) = some .admitted ∧ Ready 0 0x74 0 (rdy 0x74 fab) (fl 0x74)
      ∧ Ready 0 0x75 0 (rdy 0x75 fab) (fl 0x75) := by decide

def ls (f : Port → Port) : State := svc 0 f fab

def hf (n : Nat) : HeldFlit := ⟨n, 50000, 0, []⟩

theorem witness_LinkTraining_1 :
    (ls id).powered = true ∧ (ls id).now = 100000 ∧ (pget 0 (ls id)).st = .up
      ∧ (pget 0 (ls fun q => { q with st := .down })).par.enable = 1 := by decide

theorem witness_LinkTraining_2 :
    ((pget 0 (ls fun q => { q with st := .training, retryAt := none, trainAt := 90000 })).retryAt = none ∧ 100000 ≤ 90000 + 2000000)
      ∧ 0 + 2000000 < ({ ls (fun q => { q with st := .training, fast := true }) with tal.now := 3000000 } : State).now := by decide

theorem witness_LinkTraining_3 :
    (pget 0 (ls fun q => { q with st := .resuming })).st = .resuming := by decide

theorem witness_LinkTraining_4 :
    (pget 0 (ls fun q => { q with failedLanes := [], swapped := 15 })).lctl.all (fun c => c.op != 2) = true
      ∧ 5 ∉ (pget 0 (ls fun q => { q with swapped := 2 })).failedLanes ∧ (pget 0 (ls id)).txSwap = none := by decide

theorem witness_LinkTraining_5 :
    (pget 0 (ls fun q => { q with held := [hf 1], par := { q.par with replayTimeout := 10000 } })).held = [hf 1]
      ∧ (hf 1).sentAt + 10000 ≤ (ls id).now := by decide

def rf : RxFlit := ⟨1, 1, 8, 4095, false, false, 0, 0, 0, 9, true, []⟩

def fs (f : Port → Port) : State := ls fun q => f { q with trainNo := 9, rxE := 8, lastAck := 4095, held := [hf 1, hf 2], txSeq := 4095 }

def txi : TxItem := ⟨1, ⟨0x20, 40, 3, 1, 0, 0, [], none, none⟩, 0, 0, 0, 0, 0, 64⟩

def sf : State := fs fun q => { q with held := [], txq := [txi], grantedTx := List.replicate 16 9 }

theorem witness_Flits_1 :
    rf.crcOk = true ∧ rf.fmt = 1 ∧ rf.ftype = 1 ∧ rf.trainNo = (pget 0 (fs id)).trainNo ∧ rf.seq % 4096 = (pget 0 (fs id)).rxE % 4096
      ∧ 0 < (9 + 4096 - (pget 0 (fs id)).rxE) % 4096 ∧ (9 + 4096 - (pget 0 (fs id)).rxE) % 4096 < 2048
      ∧ 2048 ≤ (7 + 4096 - (pget 0 (fs id)).rxE) % 4096 ∧ 0 = ((pget 0 (fs id)).lastAck + 1) % 4096 := by decide

theorem witness_Flits_2 :
    ((pget 0 (fs fun q => { q with lctl := [⟨4, 0, 0, none⟩] })).lctl.find? (·.sent.isNone)) = some ⟨4, 0, 0, none⟩
      ∧ (pget 0 (fs fun q => { q with resend := 1 })).held[2 - 1]? = some (hf 2) ∧ (pget 0 (fs id)).txq = [] ∧ (pget 0 (fs id)).resend = 0
      ∧ (pget 0 (fs id)).lctl = [] := by decide

theorem witness_Flits_3 :
    4095 ≤ (pget 0 (fs fun q => { q with sinceIdle := 4095, lctl := [⟨4, 0, 0, none⟩], resend := 1 })).sinceIdle
      ∧ (pget 0 (fs id)).sinceIdle < 4095 := by decide

theorem witness_Flits_4 :
    (pget 0 sf).held.length < 1024 ∧ (pget 0 sf).sinceIdle < 4095 ∧ (pget 0 sf).txq = [txi] ∧ creditFor (pget 0 sf) txi = true
      ∧ gateTx 0 txi sf = true ∧ admitted 0 txi.msg.dst sf = true ∧ wireLen txi.msg ≤ 238 ∧ (pget 0 sf).txLeft = 0 := by decide

def as0 (adm : Adm) (f : Assoc → Assoc) : State := ls fun q => { q with assocs := [(40, f { freshAssoc (some 5) with adm := adm })] }

def kg (s : State) : State := { s with pen := { s.pen with inForce := 1, otp.slots := [some ⟨1, 1, 1, 3, 0, 0, 0, 0, [], [], 0, false⟩, none, none, none] } }

theorem witness_Admission_1 :
    mh.dst = (pget 0 (as0 .stranger id)).par.portAid ∨ mh.dst = 2047 ∧ (pget 0 (as0 .stranger id)).st ≠ .down
      ∧ (assocOf 0 40 (as0 .stranger id)).map (·.adm) = some .stranger ∧ (assocOf 0 40 (as0 .stranger id)).bind (·.allow) = some 5
      ∧ bitOf 2 1 = true ∧ (as0 .stranger id).holds = false := by decide

theorem witness_Admission_2 :
    fabricKey 0 (kg (as0 .replied id)) = true ∧ fabricKey 0 (as0 .replied id) = false ∧ (pget 0 (as0 .replied id)).par.certEpochMin ≤ 0
      ∧ (assocOf 0 40 (as0 .replied id)).map (·.replyAt) = some 0
      ∧ 0 + 100000000 ≤ ({ as0 .replied id with tal.now := 100000000 } : State).now := by decide

theorem witness_Admission_3 :
    (assocOf 0 40 (as0 .admitted fun a => { a with gen := 3 })).map (fun a => (a.rekeying, a.gen)) = some (false, 3)
      ∧ (assocOf 0 40 (as0 .admitted fun a => { a with txIvc := 2 ^ 47 })).map (·.txIvc) = some (2 ^ 47)
      ∧ (assocOf 0 40 (as0 .admitted fun a => { a with old := some ⟨4, []⟩, oldUntil := 100000 })).map (·.old) = some (some ⟨4, []⟩) := by decide

def trc (f : Trace → Trace) (s : State) : State := { s with obs := { s.obs with trace := f { s.obs.trace with banks := 64 } } }

def tr1 : TraceRec := ⟨6, 0, false, false, 5, 1, 0, 0, 9, 0, 0, 0, 0, 0⟩

def safe (scope : Nat) (s : State) : State := { s with pen := { s.pen with safelight := 2, slScope := scope, slDuration := 1000000000 } }

theorem witness_ObservationCommands_1 :
    Ready 0 0x80 256 (rdy 0x80 up5) (fl 0x80) ∧ sagState 5 up5 ≠ .free ∧ sagState 6 up5 = .free := by decide

theorem witness_ObservationCommands_2 :
    Ready 0 0x81 0 (rdy 0x81 up5) (fl 0x81) ∧ localValid (localPpa (2 ^ 21)) up5 = true ∧ localPpa (2 ^ 21) % 2 ^ 21 = 0
      ∧ warmPage (localPpa (2 ^ 21)) up5 = false ∧ dieState (localPpa (2 ^ 21) / 2 ^ 42 % 8) up5 = .inService := by decide

theorem witness_ObservationCommands_3 :
    Ready 0 0x82 0 (rdy 0x82 (trc id up5)) (fl 0x82) ∧ (trc id up5).obs.trace.st = 0 ∧ scopeOpen 0 up5 = false := by decide

theorem witness_ObservationCommands_4 :
    Ready 0 0x83 0 (rdy 0x83 (trc id up5)) (fl 0x83) ∧ (trc (fun t => { t with st := 1 }) up5).obs.trace.st = 1
      ∧ (trc (fun t => { t with spillPos := 9, spillAck := 3 }) up5).obs.trace.spillAck ≤ 9 := by decide

theorem witness_ObservationCommands_5 :
    Ready 0 0x84 (32 * 1) (rdy 0x84 (trc (fun t => { t with recs := [tr1], written := 1 }) up5)) (fl 0x84)
      ∧ 0 + 1 ≤ (trc (fun t => { t with recs := [tr1], written := 1 }) up5).obs.trace.written := by decide

theorem witness_ObservationCommands_6 :
    Ready 0 0x85 0 (rdy 0x85 up5) (fl 0x85) ∧ (∀ c ∈ grantChks 1 [localPpa (9 * 2 ^ 21)] (rdy 0x85 up5), c.bad = false)
      ∧ up5.obs.trace.cfg.mode ≠ 2 := by decide

theorem witness_ObservationCommands_7 :
    Ready 0 0x89 64 (rdy 0x89 (safe 4 up5)) (fl 0x89) ∧ scopeOpen 2 (safe 4 up5) = true ∧ scopeOpen 2 up5 = false
      ∧ (shelfOf 7 up5).isSome = true := by decide

theorem witness_ObservationCommands_8 :
    Ready 0 0x8A 32800 (modRing 0 (fun g => { g with inflight := some { fl 0x8A with outLen := 32800 } }) (safe 8 up5)) { fl 0x8A with outLen := 32800 } ∧ scopeOpen 3 (safe 8 up5) = true := by decide

def joined1 (s : State) : State := { s with tal.dies := s.tal.dies.mapIdx fun i d => if i = 0 ∨ i = 8 then { d with joined := true, synced := true } else d }

def cs0 : State := joined1 (trc id fab)

def cst (st : Nat) : State := { cs0 with obs := { cs0.obs with contact := { cs0.obs.contact with st := st, waitUnits := [0, 8], units := [0, 8], tStart := 90000, number := 3, count := 3, sections := [⟨1, 0, [1, 2], [1, 0]⟩] } } }

theorem witness_ContactSheets_1 :
    Ready 0 0x86 0 (rdy 0x86 cs0) (fl 0x86) ∧ 32 ≤ cs0.obs.trace.banks ∧ cs0.obs.contact.st = 0 ∧ (∀ p ∈ cs0.twin.planes, p.st ≠ .resync)
      ∧ fab.obs.trace.banks < 32 ∧ (cst 2).obs.contact.st = 2 ∧ Ready 0 0x86 0 (rdy 0x86 (cst 2)) (fl 0x86) := by decide

theorem witness_ContactSheets_2 :
    (cst 1).on = true ∧ (cst 1).obs.contact.st = 1 ∧ unitUp 0 (cst 1) = true ∧ unitUp 8 (cst 1) = true
      ∧ unitUp 3 { cst 1 with obs := { (cst 1).obs with contact := { (cst 1).obs.contact with waitUnits := [3] } } } = true ∨ unitUp 23 { cst 1 with obs := { (cst 1).obs with contact := { (cst 1).obs.contact with waitUnits := [23] } } } = false := by decide

theorem witness_ContactSheets_3 :
    Ready 0 0x87 40 (rdy 0x87 (cst 2)) (fl 0x87) ∧ 0 + 40 ≤ sheetLen (cst 2).obs.contact ∧ sheetLen (cst 2).obs.contact < 4000
      ∧ Ready 0 0x88 0 (rdy 0x88 (cst 2)) (fl 0x88) ∧ (cst 2).obs.contact.resumeTrace = false := by decide

def trOn (mode : Nat) (n : Nat) : State := trc (fun t => { t with st := 1, cfg := { t.cfg with mode := mode, sources := 511 }, recs := List.replicate n tr1, banks := 1 }) up5

def mir1 : Mirror := ⟨localPpa (3 * 2 ^ 21), 1000000, 2 ^ 21, 1, 2, 100000, 2, 6, 4, 0⟩

def mird : State := { up5 with obs.mirrors := [(5, mir1)] }

theorem witness_RecordsAndMirrors_1 :
    keptKind 1 = true ∧ keptKind 3 = false := by decide

theorem witness_RecordsAndMirrors_2 :
    traceWants tr1 (trOn 0 5).obs.trace = true ∧ (trOn 0 5).obs.trace.cfg.data = 0 ∧ smGet tr1.source (trOn 0 5).obs.trace.missed = none
      ∧ 0 < (trOn 0 5).obs.trace.recs.length ∧ (trOn 0 5).obs.trace.recs.length < traceCap (trOn 0 5)
      ∧ traceWants { tr1 with source := 20 } (trOn 0 5).obs.trace = false := by decide

theorem witness_RecordsAndMirrors_3 :
    mird.powered = true ∧ smGet 5 mird.obs.mirrors = some mir1 ∧ mir1.due ≤ mird.now ∧ mir1.heatPages ≠ 0 ∧ mir1.heatEvery ≤ mir1.updates
      ∧ up5.now < ({ mir1 with due := 100001 } : Mirror).due := by decide

theorem witness_RecordsAndMirrors_4 :
    (trOn 2 5).powered = true ∧ (trOn 2 5).obs.trace.st = 1 ∧ (trOn 2 5).obs.trace.cfg.mode = 2
      ∧ 65536 * (trOn 2 5).obs.trace.spillPages.length ≤ (trOn 2 5).obs.trace.spillPos - (trOn 2 5).obs.trace.spillAck := by decide

def tok (p : Nat) : Token := ⟨1, p, 0, 0, 9, true, 192, false⟩

def tok3 : Token := { tok 3 with scope := 4, duration := 1000000000 }

def itm : Item := ⟨0, .good⟩

def genA : GenRec := ⟨1, 1, 0, 0, 50000, 0, 0, 0, [], [], 0, false⟩

def pens (f : Pen → Pen) (s : State) : State := { s with pen := f s.pen }

/-- A state with a nonce issued, a generation record in force and the safelight Armed. -/
def armed : State := pens (fun p => { p with nonce := some (9, 90000), otp.slots := [some genA, none, none, none], otp.used := [true, false, false, false], inForce := 1, safelight := 1, slSince := 50000 }) up5

def lcIs (n : Nat) (s : State) : State := pens (fun p => { p with otp.lc := n }) s

def onlyOwn : State := { armed with sags.tab := [(0, resetSagger)] }

theorem witness_TokensAndSafelight_1 :
    Ready 0 0x97 0 (rdy 0x97 up) (fl 0x97) ∧ up.pen.rngFail = false := by decide

theorem witness_TokensAndSafelight_2 :
    armed.powered = true ∧ armed.now < 90000 + 60000000000 ∧ ({ armed with tal.now := 60000090000 } : State).powered = true := by decide

theorem witness_TokensAndSafelight_3 :
    Ready 0 0x95 0 (rdy 0x95 up) (fl 0x95) ∧ up.pen.safelight = 0 ∧ Ready 0 0x98 0 (rdy 0x98 armed) (fl 0x98) ∧ armed.pen.safelight ≠ 0 := by decide

theorem witness_TokensAndSafelight_4 :
    (pens (fun p => { p with safelight := 2, slSince := 0, slDuration := 99999 }) up).powered = true := by decide

theorem witness_TokensAndSafelight_5 :
    (∀ c ∈ tokenChks itm tok3 [] (rdy 0x96 armed), c.bad = false) ∧ Ready 0 0x96 0 (rdy 0x96 armed) (fl 0x96)
      ∧ tokenBad 3 tok3 (rdy 0x96 armed) = false ∧ armed.pen.safelight = 1 ∧ armed.pen.otp.lc = 2 ∧ genNow armed = some genA
      ∧ armed.pen.slSince + genA.armNotice ≤ armed.now := by decide

theorem witness_TokensAndSafelight_6 :
    (∀ c ∈ tokenChks itm (tok 1) [] (rdy 0x93 onlyOwn), c.bad = false) ∧ Ready 0 0x93 0 (rdy 0x93 onlyOwn) (fl 0x93)
      ∧ tokenBad 1 (tok 1) (rdy 0x93 onlyOwn) = false ∧ tenantsFree onlyOwn = true ∧ onlyOwn.pen.busy = none ∧ tenantsFree armed = false := by decide

theorem witness_TokensAndSafelight_7 :
    (∀ c ∈ tokenChks itm (tok 2) [] (rdy 0x94 onlyOwn), c.bad = false) ∧ Ready 0 0x94 0 (rdy 0x94 onlyOwn) (fl 0x94)
      ∧ tokenBad 2 (tok 2) (rdy 0x94 onlyOwn) = false := by decide

theorem witness_TokensAndSafelight_8 :
    (∀ c ∈ tokenChks itm (tok 4) [] (rdy 0xF3 (lcIs 3 onlyOwn)), c.bad = false) ∧ Ready 0 0xF3 0 (rdy 0xF3 (lcIs 3 onlyOwn)) (fl 0xF3)
      ∧ tokenBad 4 (tok 4) (rdy 0xF3 (lcIs 3 onlyOwn)) = false := by decide

def blank (s : State) : State := pens (fun p => { p with otp := State.reset.pen.otp }) s

def genB : GenRec := { genA with gen := 2 }

theorem witness_OneTimeMemory_1 :
    (∀ c ∈ genChks 1024 itm genB false false (rdy 0x91 armed), c.bad = false) ∧ Ready 0 0x91 0 (rdy 0x91 armed) (fl 0x91) ∧ slotsUsed armed ≠ 4
      ∧ genB.gen = slotsUsed armed + 1 ∧ armed.pen.busy = none := by decide

theorem witness_OneTimeMemory_2 :
    (∀ c ∈ genChks 1024 itm genA false false (rdy 0x92 (lcIs 1 (blank up5))), c.bad = false)
      ∧ Ready 0 0x92 0 (rdy 0x92 (lcIs 1 (blank up5))) (fl 0x92) ∧ (blank up5).pen.otp.used.getD 0 false = false := by decide

theorem witness_OneTimeMemory_3 :
    itm.off % 64 = 0 ∧ Ready 0 0x91 0 (rdy 0x91 armed) (fl 0x91) ∧ Ready 0 0x92 0 (rdy 0x92 (lcIs 1 armed)) (fl 0x92)
      ∧ Ready 0 0xF0 0 (rdy 0xF0 (lcIs 0 armed)) (fl 0xF0) := by decide

theorem witness_OneTimeMemory_4 :
    Ready 0 0x99 0 (rdy 0x99 up5) (fl 0x99) ∧ up5.pen.busy = none ∧ imageOf 3 up5 = none
      ∧ imageOf 3 (pens (fun p => { p with images := [⟨3, 0, false, 64, 0, 0⟩] }) up5) = some ⟨3, 0, false, 64, 0, 0⟩ := by decide

theorem witness_OneTimeMemory_5 :
    Ready 0 0xF0 0 (rdy 0xF0 (blank up5)) (fl 0xF0) ∧ GoodItem itm 2048 (rdy 0xF0 (blank up5)) ∧ (blank up5).pen.otp.lc = 0
      ∧ (blank up5).pen.busy = none ∧ (blank up5).pen.otp.cert = none := by decide

theorem witness_OneTimeMemory_6 :
    Ready 0 0xF2 0 (rdy 0xF2 (lcIs 3 up5)) (fl 0xF2) ∧ Ready 0 0xF4 24576 (modRing 0 (fun g => { g with inflight := some { fl 0xF4 with outLen := 24576 } }) (lcIs 3 up5)) { fl 0xF4 with outLen := 24576 } := by decide

theorem witness_OneTimeMemory_7 :
    (let s := burn 0 (.gen genB) (rdy 0x91 armed); s.alive = true ∧ (inflightOf 0 s).map (·.parked) = some (some .peneno)
      ∧ s.pen.busy = some (.gen genB)) := by decide

theorem witness_OneTimeMemory_8 :
    (let s := pens (fun p => { p with busy := some (.lc 3) }) onlyOwn; s.powered = true ∧ lcReplied s = true)
      ∧ lcReplied { onlyOwn with host.statusQ := [⟨0, 0x93, 0, 7, 0, 0, 0, 0, 0, [], []⟩] } = false := by decide

def off0 : State := { up5 with pen := { up5.pen with started := false } }

def img3 : FwImage := ⟨1, 3, 1, false, 5, 2, 64, false, 99⟩

def vfy : State := pens (fun p => { p with verifying := true, fwLen := 242, fwNext := 3, started := true, fwResult := 0 }) up5

def spd : State := { pens (fun p => { p with started := true, aliasReady := true, handshake := true, otp.slots := [some genA, none, none, none], inForce := 1 }) up5 with glb := { up5.glb with step := 3 } }

theorem witness_PenenoAndSession_1 :
    off0.powered = true ∧ off0.pen.started = false ∧ off0.pen.otp.half = none ∧ off0.pen.otp.lc ≠ 4 := by decide

theorem witness_PenenoAndSession_2 :
    vfy.powered = true ∧ vfy.pen.started = true ∧ vfy.pen.rngFail = false ∧ vfy.pen.otp.lc ≠ 4
      ∧ (pens (fun p => { p with verifying := false }) vfy).pen.fwNext ≠ 0 := by decide

theorem witness_PenenoAndSession_3 :
    vfy.pen.verifying = true ∧ vfy.host.bme = true ∧ vfy.host.d3hot = false ∧ vfy.pen.fwLen = 64 + img3.length + 114 ∧ img3.length % 64 = 0
      ∧ img3.type = vfy.pen.fwNext ∧ fwKeyOk img3.factory img3.slot vfy = true ∧ svnMin img3.type vfy ≤ img3.svn
      ∧ fwResultOf true { img3 with type := 2 } true vfy ≠ 1 ∧ fwResultOf true img3 true vfy = 1 := by decide

theorem witness_PenenoAndSession_4 :
    (let s := modRing 0 (fun g => { g with inflight := some { fl 0x90 with outLen := 4000 } }) up5; Ready 0 0x90 (proofLen s) s { fl 0x90 with outLen := 4000 }) := by decide

theorem witness_PenenoAndSession_5 :
    spdmReady spd = true ∧ spd.pen.otp.lc ≠ 4 ∧ spd.pen.rngFail = false ∧ (genNow spd).isSome = true ∧ spdmReady (lcIs 4 spd) = true := by decide

def glbs (f : Glb → Glb) (s : State) : State := { s with glb := f s.glb }

def brd : Board := ⟨(List.range 48).map fun i => if i < 6 then some ⟨1, 1, 0, 65536, 0, 2⟩ else none, 3, true⟩

def rails (n : Nat) : State := glbs (fun g => { g with inputGood := true, board := some brd, group := n }) State.reset

def trip (s : State) : State := glbs (fun g => { g with pwrFail := true, pwrFailAt := 0 }) s

def joinAll (s : State) : State := { s with tal.dies := s.tal.dies.map fun d => { d with joined := true, synced := true } }

def starting : State := joinAll { (glbs (fun g => { g with arraysTested := false, poolReady := false }) up) with pen := { up.pen with fwLoaded := 15 } }

theorem witness_PowerAndStart_1 :
    State.reset.glb.inputGood = false ∧ State.reset.glb.blocked = false ∧ State.reset.glb.pwrFail = false := by decide

theorem witness_PowerAndStart_2 :
    (rails 2).glb.inputGood = true ∧ (rails 2).glb.blocked = false ∧ (rails 2).glb.pwrFail = false ∧ (rails 3).glb.mrst = false
      ∧ (rails 3).pen.romError = false ∧ (rails 3).glb.hubReset = true := by decide

theorem witness_PowerAndStart_3 :
    up.glb.inputGood = true ∧ up.on = true ∧ up.glb.lastLow = none ∧ up.glb.pwrFail = false ∧ up.glb.blocked = false := by decide

theorem witness_PowerAndStart_4 :
    ({ up with side.ibiOn := true } : State).glb.inputGood = true ∧ up.glb.group = 3 := by decide

theorem witness_PowerAndStart_5 :
    (trip up).glb.pwrFail = true ∧ (glbs (fun g => { g with pwrFailAt := 0 }) (trip { up with tal.now := 200000 })).glb.pwrFailAt + 200000 ≤ ({ up with tal.now := 200000 } : State).now := by decide

theorem witness_PowerAndStart_6 :
    up.glb.mrst = false ∧ (glbs (fun g => { g with mrst := true }) up).glb.group = 3
      ∧ (glbs (fun g => { g with resetDue := some 5 }) up).on = true := by decide

theorem witness_PowerAndStart_7 :
    (glbs (fun g => { g with kilnIn := 0 }) up).powered = true ∧ (up.tal.dies[7]?).map (·.joined) = some false
      ∧ (up.tal.dies[23]?).map (·.failed) = some false := by decide

theorem witness_PowerAndStart_8 :
    starting.powered = true ∧ starting.glb.arraysTested = false ∧ allJoined starting = true ∧ starting.twin.mode ≠ .fatal
      ∧ (⟨0, 77, 2, false, 9⟩ : Spare) ∉ starting.mem.spares ∧ 77 < starting.kiln.shelves.length := by decide

theorem witness_PowerAndStart_9 :
    (glbs (fun g => { g with arraysTested := true }) starting).pen.fwLoaded = 15 ∧ starting.glb.fwStarted = false
      ∧ starting.glb.memStarted = true ∧ starting.twin.mode = .duplex
      ∧ (∀ k ∈ List.range 8, dieState k starting = .inService ∨ dieState k starting = .absent ∨ dieState k starting = .lost) := by decide

theorem witness_PowerAndStart_10 :
    up.glb.hubReset = false ∧ up.twin.mode ≠ .fatal := by decide

def trn (c : Nat) (s : State) : State := modDie 0 (fun d => { d with st := .training, trained := (List.range 6).map fun i => c ≤ i && i != 5 }) s

def wdg : State := modDie 0 (fun d => { d with st := .wedging }) up

def tals (f : Tal → Tal) (s : State) : State := { s with tal := f s.tal }

def alive2 : State := joinAll up

def portUp (s : State) : State := modPort 2 (fun q => { q with inSvc := true, st := .up }) s

theorem witness_UnitsAndTally_1 :
    (trn 2 up).powered = true ∧ (dieMem 0 (trn 2 up)).map (·.trained) = some [false, false, true, true, true, false]
      ∧ (dieMem 0 (trn 0 up)).map (·.trained) = some [true, true, true, true, true, false] ∧ up.mem.savedSppr = [] := by decide

theorem witness_UnitsAndTally_2 :
    wdg.powered = true ∧ (dieMem 0 wdg).map (·.st) = some .wedging ∧ memoryUp 0 up = true ∧ up.glb.kilnIn.getLsbD 0 = true := by decide

theorem witness_UnitsAndTally_3 :
    alive2.powered = true ∧ (alive2.tal.dies[7]?).map (·.joined) = some true ∧ alive2.glb.kilnIn.getLsbD 7 = true := by decide

theorem witness_UnitsAndTally_4 :
    up.powered = true ∧ (glbs (fun g => { g with heldPlacement := true }) up).glb.heldPlacement = true ∧ up.glb.powerStep = 0
      ∧ up.glb.powerStep < govLast := by decide

theorem witness_UnitsAndTally_5 :
    (tals (fun t => { t with now := 131072 }) alive2).on = true ∧ (tals (fun t => { t with now := 131072 }) alive2).now % 65536 = 0
      ∧ alive2.now % 65536 ≠ 0 ∧ alive2.on = true := by decide

theorem witness_UnitsAndTally_6 :
    (portUp alive2).on = true ∧ ClockDomain.golhaRx 2 ∉ (portUp alive2).tal.stopped ∧ clockArmed (.golhaRx 2) (portUp alive2) = true
      ∧ clockArmed .hubTally alive2 = true ∧ clockArmed .pcie alive2 = true ∧ clockArmed (.dieTally 4) alive2 = true
      ∧ clockArmed (.ddr 0 5) alive2 = true := by decide

theorem witness_UnitsAndTally_7 :
    alive2.on = true ∧ alive2.glb.hubReset = false ∧ (∃ d, alive2.tal.dies[8]? = some d ∧ d.synced = true ∧ d.freeze = 0)
      ∧ couldSleep 0 alive2 = false := by decide

theorem witness_UnitsAndTally_8 :
    (freezeRegion 8 3 alive2).on = true ∧ ((freezeRegion 8 3 alive2).tal.dies[8]?).map (·.freeze) = some 3
      ∧ (modTally 8 (fun d => { d with wakeAt := some 0 }) { alive2 with tal.now := 1000000 }).powered = true := by decide

def twins (f : Twin → Twin) (s : State) : State := { s with twin := f s.twin }

def solo : State := twins (fun t => { t with planes := [resetPlane .active 2, { resetPlane .out 1 with testing := true, losses := 3, fenced := true }], mode := .solo }) up

def resyn : State := twins (fun t => { t with planes := [resetPlane .active 2, { resetPlane .resync 1 with fenced := true, losses := 1 }], mode := .solo, resyncAt := 9 }) up

def gapped (d : Bool) : State := twins (fun t => { t with gap := some ⟨90000, 3, d, 2, 1⟩, gates := [(3, [(0, 7, 95000), (1, 8, 96000)])] }) up

def heldAt (p v t : Nat) : State := setHeld 3 [(p, v, t)] up

def swp : State := { up with glb := { up.glb with step := 3 } }

theorem witness_TwinPlanes_1 :
    up.powered = true ∧ planeIn 0 up = true ∧ planeIn 1 up = true ∧ (planeOf 1 up).map (·.missed) = some 0
      ∧ (planeOf 1 up).map (·.pulseAt) = some 0 ∧ up.twin.mode = .duplex
      ∧ (planeOf 1 (modPlane 1 (fun x => { x with missed := 2 }) up)).map (·.missed) = some 2 ∧ planeActive 0 up = true
      ∧ planeActive 1 up = false := by decide

theorem witness_TwinPlanes_2 :
    up.glb.hubReset = false ∧ up.holds = false ∧ gateHeld 3 up = [] ∧ gateHeld 3 (heldAt 0 7 5) = [(0, 7, 5)]
      ∧ smWf (heldAt 0 7 5).twin.gates = true ∧ (heldAt 0 7 5).holds = false ∧ solo.twin.mode = .solo ∧ planeIn 0 solo = true
      ∧ planeIn 1 solo = false ∧ solo.holds = false := by decide

theorem witness_TwinPlanes_3 :
    swp.alive = true ∧ (heldAt 0 7 5).alive = true ∨ swp.alive = true := by decide

theorem witness_TwinPlanes_4 :
    (gapped true).powered = true ∧ (gapped true).twin.gap = some ⟨90000, 3, true, 2, 1⟩ ∧ (gapped false).twin.rxWait = []
      ∧ tableDue ({ swp with tal := { swp.tal with now := 60000000000 } } : State) ≤ 60000000000 ∧ swp.now < tableDue swp
      ∧ (shelfOf 9 swp).map (fun h => (h.run, h.out)) = some (none, false)
      ∧ ({ swp with tal := { swp.tal with now := 60000000000 } } : State).alive = true := by decide

theorem witness_TwinPlanes_5 :
    solo.powered = true ∧ (planeOf 1 solo).map (·.testing) = some true ∧ (planeOf 1 solo).map (·.losses) = some 3 := by decide

theorem witness_TwinPlanes_6 :
    resyn.alive = true ∧ resyn.twin.planes.findIdx? (·.st == .resync) = some 1 ∧ planeActive 0 resyn = true ∧ resyn.twin.mode = .solo := by decide

def pageAt (n : Nat) : State := { up with side := { up.side with pageSel := n } }

def addressed : State := { up with side := { up.side with dynAddr := 9 } }

theorem witness_SidebandAndI3c_1 :
    carrier up = true ∧ up.side.pageSel = 0 := by decide

theorem witness_SidebandAndI3c_2 :
    carrier (pageAt 13) = true ∧ 1 ≤ (pageAt 13).side.pageSel ∧ (pageAt 13).side.pageSel ≤ 13 ∧ (pageAt 38).side.pageSel ≤ 38
      ∧ 14 ≤ (pageAt 14).side.pageSel ∧ (pageAt 38).glb.hubReset = false := by decide

theorem witness_SidebandAndI3c_3 :
    carrier addressed = true ∧ addressed.side.dynAddr ≠ 0 ∧ up.side.dynAddr = 0 ∧ (5 : Nat) ≠ staticAddr up := by decide

def pinv (k : Nat) (f : EvtPinSt → EvtPinSt) (s : State) : State := modPin k f s

def timed : State := { pinv 4 (fun p => { p with owner := some 15 }) up with side.timers := up.side.timers.set 15 ⟨2, 4, 9, 100001, 16, 100001⟩ }

def caps (n : Nat) : State := pinv 4 (fun p => { p with mode := 1, captures := (List.range n).map fun i => (i, true) }) up

def fdbg : State := { up with pen := { up.pen with factoryDebug := true } }

theorem witness_EventsAndTap_1 :
    carrier up = true ∧ up.on = true ∧ scanHolds up = false ∧ (up.side.pins[4]?).map (·.mode) = some 0
      ∧ (up.side.pins[4]?).map (·.owner) = some none ∧ up.side.timers.length = 16 ∧ timerOf 15 up = ⟨0, 255, 0, 0, 0, 0⟩
      ∧ up.side.pins.length = 8 ∧ timerResult 3 2 4 0 9 100000 16 up ≠ 0 := by decide

theorem witness_EventsAndTap_2 :
    carrier timed = true ∧ timed.on = true ∧ scanHolds timed = false ∧ (timed.side.pins[4]?).map (·.owner) ≠ some none
      ∧ (timed.side.timers[15]?) = some ⟨2, 4, 9, 100001, 16, 100001⟩ ∧ 100001 ≤ timed.now + 3 := by decide

theorem witness_EventsAndTap_3 :
    (caps 3).on = true ∧ ((caps 3).side.pins[4]?).map (·.mode) = some 1 ∧ ((caps 4).side.pins[4]?).map (·.captures.length) = some 4
      ∧ carrier (caps 3) = true ∧ (∀ q ∈ up.side.pins, q.captures = []) := by decide

theorem witness_EventsAndTap_4 :
    carrier up = true ∧ up.on = true ∧ scanHolds up = false ∧ (up.side.pins[7]?).map (·.mode) = some 0 := by decide

theorem witness_EventsAndTap_5 :
    fdbg.pen.factoryDebug = true ∧ up.pen.factoryDebug = false ∧ fdbg.on = true := by decide

/-! ### Witnesses of the statements about a step, and of hypotheses with a quantifier -/

/-- A step of a state with canonical memory and one command. -/
theorem witness_StepKeepsMemoryCanonical : MemCanonical { mem5 up5 with pending := [.page 1] } ∧ ∃ t, step { mem5 up5 with pending := [.page 1] } = .next t :=
  ⟨by unfold MemCanonical; decide, _, rfl⟩

theorem witness_StepRunsFrontCommand : ({ up with pending := [.voutMode, .getVersion] } : State).pending = .voutMode :: [.getVersion] := rfl

theorem witness_EmptyQueueTicks : up.pending = [] := rfl

theorem witness_OtpOnlyGains_QueueIsFifo : ∃ t, step { up with pending := [.penenoStart true true, .voutMode] } = .next t := ⟨_, rfl⟩

/-- Every line lies in some row, whatever the internal mapping is. -/
theorem witness_MemoryCommands_inRow : ∃ loc : RowLoc, inRow loc 98304 = true :=
  ⟨⟨lineDie 98304, lineChannel 98304, 0, Config.dramLocation 98304 / 2 % 2 ^ 25, 0, 0, 0⟩, by
    simp only [inRow, rowOf, locWord, beq_iff_eq]; omega⟩

/-- No memory is lost. -/
theorem witness_TranslationOutcomes_noneLost : ∀ k, dieState k up5 ≠ .lost := by
  intro k
  by_cases h : k < 8
  · exact (by decide : ∀ k, k < 8 → dieState k up5 ≠ .lost) k h
  · have : dieMem k up5 = none := List.getElem?_eq_none (by show 8 ≤ k; omega)
    simp [dieState, this]

/-- A NaN, a number of each eight-bit format that is none, and a word that is neither infinite nor minus zero. -/
theorem witness_ArithmeticIdentities : val32 0x7F800001#32 = .nan true ∧ (e5m2.decode 1).isNan = false ∧ (e4m3.decode 126).isNan = false
    ∧ (0x7F7FFFFF#32).toNat % 2 ^ 31 < 0x7F800000 := by decide

/-- RCP of 4.0 lies within 1 ulp of 0.25, of which the codes below are half as far apart (05 R184). -/
theorem test_rcp_of_4 : funcPlaces 2 false (2 ^ 23) (-21) = (0x3E7FFFFE, 0x3E800001) := by decide

/-- 500.0 into E4M3 and E5M2, as the table of 05 R174 has it. -/
theorem test_convert_500 :
    (convert e4m3 0 true 0 0x43FA0000#32, convert e4m3 0 false 0 0x43FA0000#32, convert e5m2 0 false 0 0x43FA0000#32, convert e5m2 1 true 0 0x43FA0000#32)
      = (⟨0x7E, fOF ||| fNX ||| fSAT⟩, ⟨0x7F, fOF ||| fNX⟩, ⟨0x60, fNX⟩, ⟨0x5F, fNX⟩) := by decide

end Sys2Proof.Tests
end

section
/-! PROOFS. Host commands that a check refuses (00 R15, 10 R361). -/

namespace Sys2Proof.Machine

/-- The first check that fails ends a command that its ring holds. Unlike `cmdFor_refuses` this asks for no room in the output item: its
checks stand in their place in the chain, as does the one that follows POWER_OFF_READY (log 35). -/
theorem cmdFor_of_firstBad {r op sid : Nat} {checks : Inflight → State → List Chk} {act : State → State} {s : State} {f : Inflight} {c : Chk}
    (ha : s.alive = true) (hf : inflightOf r s = some f) (hop : f.opcode = op) (hp : f.parked = none)
    (hc : firstBad (withLatch f s (checks f s ++ [chkExec (offRefuses op s) stCONFLICT])) = some c) (h5 : c.stage ≠ 5) :
    cmdFor r op sid checks act s = .next (finish r c.status c.stage c.index [] [] s) := by
  simp [cmdFor, ha, hf, hop, hp, hc, h5]

/-- After a completion no command is in flight on the ring. -/
theorem inflightOf_finish (r st sg ix : Nat) (res : List Nat) (items : List OutItem) (s : State) :
    inflightOf r (finish r st sg ix res items s) = none := by
  unfold finish
  split
  · assumption
  · simp [inflightOf, ringOf, modRing]

/-- A completion puts one reply behind those that wait (10 R361); a latched pair may follow the items of the output item (10 R362). -/
theorem finish_statusQ {r : Nat} {s : State} {f : Inflight} (hf : inflightOf r s = some f) (st sg ix : Nat) (res : List Nat)
    (items : List OutItem) :
    ∃ written : List OutItem, (finish r st sg ix res items s).host.statusQ = s.host.statusQ
      ++ [⟨r, f.opcode, st, f.ctag, f.cseq, s.now, min (s.now - f.fetched) 0xFFFFFFFF, sg, ix, res, written⟩] := by
  simp [finish, hf]

/-- Settles O8: a refusal is one `finish`, which touches the host path and the observation records only, frees the ring and puts the
failing check's status, stage and index into the newest reply. -/
theorem firstFailingCheckAnswers : Obligations.FirstFailingCheckAnswers := by
  intro r op sid checks act s f c ha hf hop hp hc h5
  obtain ⟨written, hq⟩ := finish_statusQ hf c.status c.stage c.index [] []
  have hlast := (congrArg List.getLast? hq).trans List.getLast?_concat
  exact ⟨_, cmdFor_of_firstBad ha hf hop hp hc h5, finish_only _ _ _ _ _ _ _, inflightOf_finish _ _ _ _ _ _ _,
    _, hlast, rfl, hop, rfl, rfl, rfl, rfl, rfl, rfl⟩

end Sys2Proof.Machine
end

section
/-! PROOFS. The reset state (O3) and what an access finds (O25; 02 R45 to R55). -/

namespace Sys2Proof.Machine

/-! ### Reset values -/

/-- Settles O3: each clause reads a field of the reset state; those over ring, port and die numbers are finite, and every SID but 0 lies
above the only key of the sagger table. The PORT_AID of 2,047, for which 08 R313 gives no default, is the model's own. -/
theorem resetValues : Obligations.ResetValues := by
  have hsag : ∀ sid, sid ≠ 0 → sagState sid State.reset = .free := fun sid h => by
    have : smGet sid [(0, resetSagger)] = none := by simp [smGet, Ne.symm h]
    simp [sagState, sagOf, State.reset, this]
  exact ⟨rfl, rfl, by decide, rfl, rfl, by decide, by decide, rfl, hsag, rfl, rfl, rfl, rfl, rfl⟩

/-! ### Places -/

section
variable {f hid off : Nat}

theorem ppaFormat_of_parts (hf : f < 16) (hh : hid < 4096) (ho : off < 2 ^ 48) : ppaFormat (f * 2 ^ 60 + hid * 2 ^ 48 + off) = f := by
  unfold ppaFormat; omega

theorem ppaHid_of_parts (hh : hid < 4096) (ho : off < 2 ^ 48) : ppaHid (f * 2 ^ 60 + hid * 2 ^ 48 + off) = hid := by
  unfold ppaHid; omega

theorem ppaOffset_of_parts (ho : off < 2 ^ 48) : ppaOffset (f * 2 ^ 60 + hid * 2 ^ 48 + off) = off := by
  unfold ppaOffset; omega

end

theorem localPpa_eq_parts (off : Nat) : localPpa off = 1 * 2 ^ 60 + 0 * 2 ^ 48 + off := by unfold localPpa; omega

/-- The Void PPA has no offset added (R45). -/
theorem leafPpa_void {l : Leaf} (h : l.ppa = voidPpa) (pva : Nat) : leafPpa l pva = voidPpa := by
  have : ppaFormat voidPpa = 15 := by decide
  simp [leafPpa, h, this]

/-- In a 2 MiB page the byte's place in the page is added to the page's offset. -/
theorem leafPpa_of_parts {l : Leaf} {f hid off : Nat} (hp : l.ppa = f * 2 ^ 60 + hid * 2 ^ 48 + off) (hf : f < 15) (hh : hid < 4096)
    (ho : off < 2 ^ 48) (hb : l.big = false) (pva : Nat) :
    leafPpa l pva = f * 2 ^ 60 + hid * 2 ^ 48 + (off + pva % 2 ^ 21) := by
  have : ppaFormat l.ppa ≠ 15 := by rw [hp, ppaFormat_of_parts (by omega) hh ho]; omega
  simp only [leafPpa, if_neg this, hb, Bool.false_eq_true, if_false]
  omega

/-! ### Walks -/

section
variable {s : State} {sid pva acc page b hid off : Nat} {l : Leaf}

theorem walk_outside (ht : tableLost sid page s = false) (hl : leafAt sid page s.xlt = none) : walk sid page s = .outside := by
  simp [walk, hl, ht]

/-- While no table of the walk is lost, the leaf's state alone decides (R53). -/
theorem walk_leaf (ht : tableLost sid page s = false) (hl : leafAt sid page s.xlt = some (b, l)) :
    walk sid page s = if l.pres then .present b l else .reserved b l := by
  simp [walk, hl, ht]

theorem translate_outside (ht : tableLost sid (pva / 2 ^ 21) s = false) (hl : leafAt sid (pva / 2 ^ 21) s.xlt = none) :
    translate sid pva acc s = .denied := by
  simp [-Nat.reducePow, translate, walk_outside ht hl]

/-- The permission comes before the leaf's state (R55). -/
theorem translate_not_permitted (ht : tableLost sid (pva / 2 ^ 21) s = false) (hl : leafAt sid (pva / 2 ^ 21) s.xlt = some (b, l))
    (hp : permits l acc = false) : translate sid pva acc s = .denied := by
  cases h : l.pres <;> simp [-Nat.reducePow, translate, walk_leaf ht hl, h, hp]

theorem translate_migrating (ht : tableLost sid (pva / 2 ^ 21) s = false) (hl : leafAt sid (pva / 2 ^ 21) s.xlt = some (b, l))
    (hp : permits l acc = true) (hm : l.mig = true) : translate sid pva acc s = .migrating b := by
  cases h : l.pres <;> simp [-Nat.reducePow, translate, walk_leaf ht hl, h, hp, hm]

theorem translate_reserved (ht : tableLost sid (pva / 2 ^ 21) s = false) (hl : leafAt sid (pva / 2 ^ 21) s.xlt = some (b, l))
    (hp : permits l acc = true) (hm : l.mig = false) (hr : l.pres = false) : translate sid pva acc s = .fault b l := by
  simp [-Nat.reducePow, translate, walk_leaf ht hl, hr, hp, hm]

/-- A Present leaf of a local 2 MiB page gives the line. -/
theorem translate_local (ht : tableLost sid (pva / 2 ^ 21) s = false) (hl : leafAt sid (pva / 2 ^ 21) s.xlt = some (b, l))
    (hp : permits l acc = true) (hm : l.mig = false) (hr : l.pres = true) (hppa : l.ppa = localPpa off) (hb : l.big = false)
    (ho : off + 2 ^ 21 ≤ 2 ^ 48) : translate sid pva acc s = .here ((off + pva % 2 ^ 21) / 64) := by
  have hx := leafPpa_of_parts (hppa.trans (localPpa_eq_parts off)) (by omega) (by omega) (by omega) hb pva
  have hlt : off + pva % 2 ^ 21 < 2 ^ 48 := by omega
  have h1 := ppaFormat_of_parts (f := 1) (hid := 0) (by omega) (by omega) hlt
  have h2 := ppaOffset_of_parts (f := 1) (hid := 0) hlt
  simp only [-Nat.reducePow, translate, walk_leaf ht hl, hr, hp, hm, hx, h1, h2, if_true, Bool.not_true, Bool.false_eq_true, if_false]

theorem translate_void (ht : tableLost sid (pva / 2 ^ 21) s = false) (hl : leafAt sid (pva / 2 ^ 21) s.xlt = some (b, l))
    (hp : permits l acc = true) (hm : l.mig = false) (hr : l.pres = true) (hppa : l.ppa = voidPpa) : translate sid pva acc s = .zeros 4 := by
  have hf : ppaFormat voidPpa = 15 := by decide
  simp [-Nat.reducePow, translate, walk_leaf ht hl, hr, hp, hm, leafPpa_void hppa, hf]

/-- A Present leaf of a remote 2 MiB page whose holder is not contested: the holder's state decides (R49). -/
theorem translate_holder (ht : tableLost sid (pva / 2 ^ 21) s = false) (hl : leafAt sid (pva / 2 ^ 21) s.xlt = some (b, l))
    (hp : permits l acc = true) (hm : l.mig = false) (hr : l.pres = true) (hppa : l.ppa = 2 * 2 ^ 60 + hid * 2 ^ 48 + off) (hh : hid < 4096)
    (hb : l.big = false) (ho : off + 2 ^ 21 ≤ 2 ^ 48) (hc : holderContested hid s = false) :
    ((holderOf hid s).st = 1 → translate sid pva acc s = .remote hid (off + pva % 2 ^ 21))
      ∧ ((holderOf hid s).st = 3 → translate sid pva acc s = .zeros 4)
      ∧ ((holderOf hid s).st = 0 ∨ (holderOf hid s).st = 2 → translate sid pva acc s = .fault b l) := by
  have hx := leafPpa_of_parts hppa (by omega) hh (by omega) hb pva
  have hlt : off + pva % 2 ^ 21 < 2 ^ 48 := by omega
  have h1 := ppaFormat_of_parts (f := 2) (by omega) hh hlt
  have h2 := ppaOffset_of_parts (f := 2) (hid := hid) hlt
  have h3 := ppaHid_of_parts (f := 2) hh hlt
  simp only [-Nat.reducePow, translate, walk_leaf ht hl, hr, hp, hm, hx, h1, h2, h3, hc, if_true, Bool.not_true, Bool.false_eq_true, if_false]
  refine ⟨fun h => ?_, fun h => ?_, ?_⟩
  · simp only [h]
  · simp only [h]
  · rintro (h | h) <;> simp only [h]

/-- No table is lost while no die's memory is. -/
theorem tableLost_of_dies (h : ∀ k, dieState k s ≠ .lost) : tableLost sid page s = false := by
  simp [tableLost, h]

/-- A page that neither a leaf of its own nor the 1 GiB leaf of its 512 pages covers has no leaf (R44). -/
theorem leafAt_none {x : Xlt} (h1 : smGet (leafKey sid page) x.leaves = none) (h2 : smGet (leafKey sid (page / 512 * 512)) x.leaves = none) :
    leafAt sid page x = none := by
  simp [leafAt, h1, h2]

end

/-- Settles O25: the walk finds the leaf, the permission is asked before the leaf's state, and a Present leaf's PPA decides by its format. -/
theorem translationOutcomes : Obligations.TranslationOutcomes := by
  refine ⟨fun s sid pva acc b l ht => ⟨translate_outside ht, fun hl => ⟨translate_not_permitted ht hl, translate_migrating ht hl,
    translate_reserved ht hl, fun hp hm hr => ⟨?_, translate_void ht hl hp hm hr, ?_⟩⟩⟩, ?_⟩
  · exact fun off hppa _ hb _ ho => translate_local ht hl hp hm hr hppa hb ho
  · exact fun hid off hppa hh hb _ ho hc => translate_holder ht hl hp hm hr hppa hh hb ho hc
  · exact fun s sid pva acc h1 h2 hd => translate_outside (tableLost_of_dies hd) (leafAt_none h1 h2)

end Sys2Proof.Machine
end

section
/-! PROOFS. Mapping commands (O26) and withdrawal, protection and fences (O27; 02 R50 to R60, R77 to R80, R498). -/

namespace Sys2Proof.Machine

/-! ### Checks -/

/-- A check over a list passes when no entry fails. -/
theorem chkFirst_good {α : Type} {status stage : Nat} {bad : α → Bool} {l : List α} (h : ∀ x ∈ l, bad x = false) :
    (chkFirst status stage bad l).bad = false := by
  have : l.findIdx? bad = none := List.findIdx?_eq_none_iff.2 h
  simp [chkFirst, this]

/-- A PPA base that passes: a page list's offset is a multiple of 64, a place is not bad. -/
theorem baseBad_false {size ppa : Nat} {s : State} (hl : ppaFormat ppa = 0 → ppa % 64 = 0)
    (hp : ppaFormat ppa ≠ 0 → ppaBad size ppa s = false) : baseBad size ppa s = false := by
  unfold baseBad isList
  by_cases h : ppaFormat ppa = 0
  · simp [h, hl h]
  · simp [h, hp h]

/-- A SID whose sagger is not Free has an entry. -/
theorem sagThere_of_ne_free {sid : Nat} {s : State} (h : sagState sid s ≠ .free) : sagThere sid s = true := by
  simpa [sagThere] using h

/-- The checks that the commands over a range begin with pass. -/
theorem rangeChks_good {sid pva : Nat} {s : State} (hp : pva < 2 ^ 52) (hs : sidBad sid s = false) (hm : rangeMisaligned sid pva s = false) :
    ∀ c ∈ rangeChks sid pva s, c.bad = false := by
  simp [-Nat.reducePow, rangeChks, hp, hs, hm]

/-- The length check of a range passes when its leaves stand within one extent. -/
theorem rangeLen_good {sid pva n : Nat} {s : State} (h : rangeLeaves sid s.xlt n (pva / 2 ^ 21) ≠ none) : (rangeLen sid pva n s).bad = false :=
  Option.isNone_eq_false_iff.2 (Option.isSome_iff_ne_none.2 h)

/-! ### Leaves and their tables -/

theorem tableEntry_only (t : Table) (i v : Nat) (s : State) : Only [.mem] s (tableEntry t i v s) := by
  unfold tableEntry ownLine
  dsimp only
  split
  · intro p hp
    cases p <;> simp_all [Comp.same]
  · exact Only.rfl' _ s

theorem syncLeaf_only (sid base : Nat) (big : Bool) (l : Option Leaf) (s : State) : Only [.mem] s (syncLeaf sid base big l s) := by
  unfold syncLeaf
  dsimp only
  split
  · exact tableEntry_only _ _ _ s
  · exact Only.rfl' _ s

@[simp] theorem syncLeaf_xlt (sid base : Nat) (big : Bool) (l : Option Leaf) (s : State) : (syncLeaf sid base big l s).xlt = s.xlt :=
  syncLeaf_only sid base big l s .xlt (by decide)

theorem markChanged_only (sid : Nat) (s : State) : Only [.host] s (markChanged sid s) := by
  intro p hp
  cases p <;> simp_all [markChanged, Comp.same]

/-- Changing the leaves changes the translation state alone. -/
theorem setLeaves_only (m : SMap Leaf) (s : State) : Only [.xlt] s { s with xlt.leaves := m } := by
  intro p hp
  cases p <;> simp_all [Comp.same]

/-- A leaf that is put replaces what stood at its key; one whose walk needs a lost table is noted as out of the caches (R57). -/
theorem putLeaf_xlt (sid base : Nat) (l : Leaf) (s : State) : (putLeaf sid base l s).xlt =
    { s.xlt with leaves := smSet (leafKey sid base) { l with out := l.out || tableLost sid base s } s.xlt.leaves } := by
  unfold putLeaf
  dsimp only
  rw [syncLeaf_xlt]
  split <;> rfl

theorem putLeaf_only (sid base : Nat) (l : Leaf) (s : State) : Only [.xlt, .mem, .host] s (putLeaf sid base l s) := by
  unfold putLeaf
  extract_lets u l'
  have hu : Only [.host] s u := by
    unfold u
    split
    · exact Only.rfl' _ s
    · exact markChanged_only sid s
  exact (hu.mono (by decide)).trans (((setLeaves_only _ u).mono (by decide)).trans ((syncLeaf_only _ _ _ _ _).mono (by decide)))

theorem dropLeaf_xlt (sid base : Nat) (big : Bool) (s : State) :
    (dropLeaf sid base big s).xlt = { s.xlt with leaves := smDel (leafKey sid base) s.xlt.leaves } := by
  unfold dropLeaf
  dsimp only
  rw [syncLeaf_xlt]
  rfl

theorem dropLeaf_only (sid base : Nat) (big : Bool) (s : State) : Only [.xlt, .mem, .host] s (dropLeaf sid base big s) :=
  ((markChanged_only sid s).mono (by decide)).trans
    (((setLeaves_only _ _).mono (by decide)).trans ((syncLeaf_only _ _ _ _ _).mono (by decide)))

/-! ### The commands that build a mapping -/

section
variable (s : State) (r sid pva count size ppa n mode epoch : Nat) (rd wr att pin reserve keep : Bool) (item : Item) (list : List Nat)

theorem exec_xltTableGrant : exec (.xltTableGrant r n list) s = execXltTableGrant r n list s := rfl
theorem exec_xltRootSet : exec (.xltRootSet r sid) s = execXltRootSet r sid s := rfl
theorem exec_xltMap : exec (.xltMap r sid pva count size ppa rd wr att pin reserve item list) s
    = execXltMap r sid pva count size ppa rd wr att pin reserve item list s := rfl
theorem exec_xltPresent : exec (.xltPresent r sid pva count ppa item list) s = execXltPresent r sid pva count ppa item list s := rfl
theorem exec_xltWithdraw : exec (.xltWithdraw r sid pva count mode keep) s = execXltWithdraw r sid pva count mode keep s := rfl
theorem exec_xltProtect : exec (.xltProtect r sid pva count rd wr att pin) s = execXltProtect r sid pva count rd wr att pin s := rfl
theorem exec_xltFence : exec (.xltFence r sid epoch) s = execXltFence r sid epoch s := rfl
theorem exec_xltRead : exec (.xltRead r sid pva) s = execXltRead r sid pva s := rfl

end

section
variable {s u : State} {r sid pva count size ppa : Nat} {f : Inflight} {rd wr att pin reserve : Bool} {item : Item} {list : List Nat}

/-- XLT_MAP of no page (00 R16). -/
theorem xltMap_none (h : Ready r 0x32 0 s f) (hp : pva < 2 ^ 52) (hz : size ≤ 1) (hs : sidBad sid s = false)
    (ha : pva % (if size = 0 then 2097152 else 2 ^ 30) = 0) :
    exec (.xltMap r sid pva 0 size 0 rd wr att pin true item list) s = .next (ok r [] (latched r sid s)) := by
  have hz' : size < 2 := by omega
  rw [exec_xltMap, execXltMap]
  refine (cmdFor_acts h ?_).trans ?_
  · simp [-Nat.reducePow, mapPpas, hp, hz', hs, ha]
  · rfl

/-- XLT_MAP of a range that is free, whose places are good and whose tables find space (R50, R58, R59). -/
theorem xltMap_done (h : Ready r 0x32 0 s f) (hp : pva < 2 ^ 52) (hz : size ≤ 1) (hr : reserve = true → ppa = 0)
    (hl : reserve = false → ppaFormat ppa = 0 → ppa < 2 ^ 32 ∧ ppa % 64 = 0)
    (hw : ∀ p ∈ mapPpas count size ppa reserve list, warmPage p s = false) (hs : sidBad sid s = false)
    (ha : pva % (if size = 0 then 2097152 else 2 ^ 30) = 0) (hn : 1 ≤ count)
    (hend : pva + count * (if size = 0 then 2097152 else 2 ^ 30) ≤ 2 ^ 52)
    (hi : reserve = false → ∀ c ∈ listChks count ppa item s, c.bad = false)
    (hb : ∀ p ∈ mapPpas count size ppa reserve list, ppaBad (if size = 0 then 2097152 else 2 ^ 30) p s = false
      ∧ ppaOver (if size = 0 then 2097152 else 2 ^ 30) p s = false)
    (ht : rangeTaken sid (pva / 2 ^ 21) (count * if size = 0 then 1 else 512) s = false)
    (hf : needTables sid (pva / 2 ^ 21) (count * if size = 0 then 1 else 512) (size == 1) s ≠ none)
    (hu : needTables sid (pva / 2 ^ 21) (count * if size = 0 then 1 else 512) (size == 1) (latched r sid s) = some u) :
    exec (.xltMap r sid pva count size ppa rd wr att pin reserve item list) s =
      .next (ok r [] (mapLeaves sid pva count size (mapPpas count size ppa reserve list) rd wr att pin reserve u)) := by
  have hn0 : count ≠ 0 := by omega
  have hz' : size < 2 := by omega
  rw [exec_xltMap, execXltMap]
  refine (cmdFor_acts h ?_).trans ?_
  on_goal 2 => simp only [if_neg hn0, hu]
  generalize (if size = 0 then 2097152 else 2 ^ 30) = bytes at *
  generalize (count * if size = 0 then 1 else 512) = pages at *
  generalize mapPpas count size ppa reserve list = ppas at *
  have hbad := chkFirst_good (status := stDENIED) (stage := 3) fun p m => (hb p m).1
  have hover := chkFirst_good (status := stLENGTH) (stage := 4) fun p m => (hb p m).2
  simp only [List.forall_mem_append, List.forall_mem_cons, List.not_mem_nil, IsEmpty.forall_iff, implies_true, and_true, chkResv_bad,
    chkDeny_bad, chkLen_bad, chkWarm_bad, chkExec_bad]
  refine ⟨⟨⟨?_, ?_⟩, ?_⟩, ?_, ?_, ?_, ?_⟩
  · cases reserve
    · simpa [-Nat.reducePow, isList, hp, hz'] using fun e => (hl rfl e).1
    · simpa [-Nat.reducePow, hp, hz'] using hr
  · cases reserve
    · simpa [hs, ha, hn0, isList] using fun e => baseBad_false (fun e => (hl rfl e).2) fun ne => absurd e ne
    · simp [hs, ha]
  · cases reserve
    · simpa only [Bool.false_eq_true, if_false, List.forall_mem_append, List.forall_mem_cons, List.not_mem_nil, IsEmpty.forall_iff,
        implies_true, and_true] using And.intro (hi rfl) ⟨hbad, hover⟩
    · simp
  · simp [-Nat.reducePow, hend]
  · simpa using hw
  · simp [-Nat.reducePow, ht]
  · simpa using fun _ => Option.isSome_iff_ne_none.2 hf

/-- XLT_PRESENT of Reserved leaves within one extent, at places that are good (R50, R58, R59). -/
theorem xltPresent_done (h : Ready r 0x33 0 s f) (hp : pva < 2 ^ 52) (hl : ppaFormat ppa = 0 → ppa < 2 ^ 32 ∧ ppa % 64 = 0)
    (hz : count = 0 → ppaFormat ppa ≠ 0 → ppaBad (leafBytes sid pva s) ppa s = false) (hs : sidBad sid s = false)
    (hm : rangeMisaligned sid pva s = false) (hr : rangeLeaves sid s.xlt count (pva / 2 ^ 21) ≠ none)
    (hb : ∀ p ∈ pagePpas count (leafBytes sid pva s) ppa list, warmPage p s = false ∧ ppaBad (leafBytes sid pva s) p s = false
      ∧ ppaOver (leafBytes sid pva s) p s = false)
    (hi : ∀ c ∈ listChks count ppa item s, c.bad = false) (hn : ∀ x ∈ rangeOf sid pva count s, x.2.pres = false) :
    exec (.xltPresent r sid pva count ppa item list) s = .next (ok r [] (presentLeaves sid (rangeOf sid pva count s)
      (pagePpas count (leafBytes sid pva s) ppa list) (latched r sid s))) := by
  rw [exec_xltPresent]
  refine (cmdFor_acts h ?_).trans rfl
  have hbad := chkFirst_good (status := stDENIED) (stage := 3) fun p m => (hb p m).2.1
  have hover := chkFirst_good (status := stLENGTH) (stage := 4) fun p m => (hb p m).2.2
  simp only [List.forall_mem_append, List.forall_mem_cons, List.not_mem_nil, IsEmpty.forall_iff, implies_true, and_true, chkResv_bad,
    chkDeny_bad, chkWarm_bad, chkExec_bad]
  refine ⟨⟨⟨⟨?_, rangeChks_good hp hs hm⟩, ?_⟩, hi⟩, hbad, rangeLen_good hr, hover, ?_, ?_⟩
  · simpa [-Nat.reducePow, isList] using fun e => (hl e).1
  · simpa [isList] using fun e => baseBad_false (fun e => (hl e).2) fun ne => hz (e.resolve_left ne) ne
  · simpa using fun p m => (hb p m).1
  · simpa using hn

end

/-- Settles O26: a command that is ready and passes its checks acts (`cmdFor_acts`), and `putLeaf` and `dropLeaf` change the leaves at one key. -/
theorem mappingCommands : Obligations.MappingCommands := by
  refine ⟨fun s r sid f => ⟨?_, ?_, ?_, ?_, ?_, ?_⟩, ?_⟩
  · exact fun n ppas h hc => (exec_xltTableGrant ..).trans (cmd_acts h hc)
  · intro u h hs hg he hp hu
    rw [exec_xltRootSet]
    refine (cmdFor_acts h ?_).trans (by simp only [hu])
    simp [sagThere_of_ne_free hg, he, hs, Option.isSome_iff_ne_none.2 hp]
  · intro h hs hg he
    exact cmdFor_refused (c := chkExec true stCONFLICT) (exec_xltRootSet ..) h
      (by simp [firstBad, sagThere_of_ne_free hg, he, hs]) (by decide)
  · intro pva count size ppa rd wr att pin reserve item list u
    exact xltMap_done
  · exact fun pva size rd wr att pin item list => xltMap_none
  · exact fun pva count ppa item list => xltPresent_done
  · intro s sid base l hw
    rw [putLeaf_xlt, dropLeaf_xlt]
    exact ⟨smGet_smSet_same .., fun k => smGet_smSet_ne _ _ hw, smGet_smDel_same _ _ hw, fun k => smGet_smDel_ne _ hw,
      putLeaf_only _ _ _ _, dropLeaf_only _ _ _ _⟩

/-! ### Withdrawal and protection -/

/-- Behind checks that pass a last one decides. -/
theorem firstBad_concat {l : List Chk} {c : Chk} (h : ∀ c ∈ l, c.bad = false) : firstBad (l ++ [c]) = if c.bad then some c else none := by
  rw [firstBad_append, firstBad_none.2 h]
  rfl

section
variable {s : State} {r sid pva count mode : Nat} {f : Inflight} {rd wr att pin keep : Bool}

/-- The checks of XLT_WITHDRAW before the last, which counts the open epochs, pass. -/
theorem withdrawChks_good (hm : mode ≤ 1) (hp : pva < 2 ^ 52) (hs : sidBad sid s = false) (ha : rangeMisaligned sid pva s = false)
    (hr : rangeLeaves sid s.xlt count (pva / 2 ^ 21) ≠ none) (hg : ∀ x ∈ rangeOf sid pva count s, x.2.mig = false) :
    ∀ c ∈ [chkResv (decide (2 ≤ mode))] ++ rangeChks sid pva s
      ++ [rangeLen sid pva count s, chkExec ((rangeOf sid pva count s).any (·.2.mig)) stCONFLICT], c.bad = false := by
  have hm' : mode < 2 := by omega
  simp only [List.forall_mem_append, List.forall_mem_cons, List.not_mem_nil, IsEmpty.forall_iff, implies_true, and_true, chkResv_bad,
    chkExec_bad]
  exact ⟨⟨by simp [hm'], rangeChks_good hp hs ha⟩, rangeLen_good hr, by simpa using hg⟩

/-- XLT_WITHDRAW acts when the checks before the last pass and a further epoch may open, or COUNT is 0 (log 43). -/
theorem xltWithdraw_acts (h : Ready r 0x34 0 s f) (hm : mode ≤ 1) (hp : pva < 2 ^ 52) (hs : sidBad sid s = false)
    (ha : rangeMisaligned sid pva s = false) (hr : rangeLeaves sid s.xlt count (pva / 2 ^ 21) ≠ none)
    (hg : ∀ x ∈ rangeOf sid pva count s, x.2.mig = false) (he : count ≠ 0 → epochsFull sid s = false) :
    exec (.xltWithdraw r sid pva count mode keep) s = .next (if count = 0 then ok r [epochOf sid s] (latched r sid s) else
      retryUnheld (ok r [add32 (epochOf sid s) 1] (withdrawRange sid (rangeOf sid pva count s) mode keep (latched r sid s)))) := by
  rw [exec_xltWithdraw]
  refine (cmdFor_acts h ?_).trans rfl
  have hlast : (chkExec (count != 0 && epochsFull sid s) stBUSY).bad = false := by simpa using he
  simpa only [List.append_assoc, List.cons_append, List.nil_append] using
    List.forall_mem_append.2 ⟨withdrawChks_good hm hp hs ha hr hg, List.forall_mem_singleton.2 hlast⟩

end

/-- Settles O27: every command acts once its checks pass; the last check of XLT_WITHDRAW, of the open epochs, is the one that can answer BUSY,
and a COUNT of 0 answers the epoch as it stands (log 43). -/
theorem withdrawalCommands : Obligations.WithdrawalCommands := by
  refine fun s r sid f hs => ⟨?_, ?_, ?_, ?_, ?_, ?_⟩
  · intro pva count mode keep h hm hp ha hn hr hg he
    rw [xltWithdraw_acts h hm hp hs ha hr hg fun _ => he, if_neg (by omega)]
  · intro pva count mode keep h hm hp ha hn hr hg he
    have hlast : (count != 0 && epochsFull sid s) = true := by simpa [he] using Nat.ne_of_gt hn
    refine cmdFor_refused (c := chkExec true stBUSY) (exec_xltWithdraw ..) h ?_ (by decide)
    simpa [-Nat.reducePow, hlast] using firstBad_concat (c := chkExec (count != 0 && epochsFull sid s) stBUSY)
      (withdrawChks_good hm hp hs ha hr hg)
  · intro pva keep h hp ha
    rw [xltWithdraw_acts h (by omega) hp hs ha (by simp [rangeLeaves]) (by simp [rangeOf, rangeLeaves]) (absurd rfl), if_pos rfl]
  · intro pva count rd wr att pin h hp ha hr he hu
    rw [exec_xltProtect]
    refine (cmdFor_acts h ?_).trans rfl
    refine List.forall_mem_append.2 ⟨rangeChks_good hp hs ha, List.forall_mem_cons.2 ⟨rangeLen_good hr, ?_⟩⟩
    simp only [List.forall_mem_cons, List.not_mem_nil, IsEmpty.forall_iff, implies_true, and_true, chkExec_bad, Bool.and_eq_false_imp]
    exact ⟨hu, he⟩
  · intro epoch h
    rw [exec_xltFence]
    exact cmdFor_acts h (by simp [hs])
  · intro pva h hp
    rw [exec_xltRead]
    exact cmdFor_acts h (by simp [-Nat.reducePow, hs, hp])

end Sys2Proof.Machine
end

section
/-! PROOFS. Fault service (O28; 02 R70 to R76): resolution, timeouts, and the batch that closes. -/

namespace Sys2Proof.Machine

/-! ### Entries of FAULT_RESOLVE -/

section
variable {s : State} {id res ign action : Nat} {x : Fault'}

theorem resolveOne_unknown (h : faultBy id s = none) : resolveOne (res, ign, s) (id, action) = (res, ign + 1, s) := by
  simp [resolveOne, h]

/-- RETRY of an open fault serves its waiters again (R75). -/
theorem resolveOne_retry (h : faultBy id s = some x) : resolveOne (res, ign, s) (id, 1) =
    (res + 1, ign, x.waiters.foldl (fun s w => retryWaiter x.page (if x.big then 512 else 1) w.1 s) (dropFault x.id s)) := by
  simp [resolveOne, h]

theorem resolveOne_fail (h : faultBy id s = some x) : resolveOne (res, ign, s) (id, 2) = (res + 1, ign, failFault false x s) := by
  simp [resolveOne, h]

theorem resolveOne_otherAction (h : faultBy id s = some x) (h1 : action ≠ 1) (h2 : action ≠ 2) :
    resolveOne (res, ign, s) (id, action) = (res, ign + 1, s) := by
  simp [resolveOne, h, h1, h2]

end

/-! ### The batch that closes -/

/-- A record of the open batch as the batch closes: that of a fault that is still open as the fault stands (R73). -/
def standingRec (s : State) (r : FaultRec) : FaultRec :=
  match s.xlt.faults.find? fun f => f.id == r.id && (r.kind == 1 || r.kind == 2) with
  | some f => faultRec r.kind f s
  | none => r

/-- The heat of a record's page as the batch closes (R84). -/
def standingHeat (s : State) (r : FaultRec) : Nat := ((leafAt r.sid (r.pva / 2 ^ 21) s.xlt).map (·.2.heat)).getD r.heat

/-- The records that a closing batch hands to the fault ring (R74). -/
def closedRecs (s : State) : List FaultRec :=
  (s.xlt.batch.map (standingRec s)).mapIdx fun i r => { r with
    batch := add32 s.xlt.batchNo 1, index := i, last := i + 1 == s.xlt.batch.length, heat := standingHeat s r }

theorem closeBatch_eq {s : State} (h : s.xlt.batch ≠ []) : closeBatch s =
    { s with xlt.batch := [], xlt.batchNo := add32 s.xlt.batchNo 1, host.faultQ := s.host.faultQ ++ closedRecs s } := by
  have hk : s.xlt.batch.length ≠ 0 := by simpa using h
  unfold closeBatch
  dsimp only
  rw [if_neg hk]
  rfl

theorem closedRecs_length (s : State) : (closedRecs s).length = s.xlt.batch.length := by simp [closedRecs]

/-- Record `i` of a closed batch is record `i` of the open one as it stands, numbered. -/
theorem closedRecs_getElem {s : State} {i : Nat} {x : FaultRec} (h : (closedRecs s)[i]? = some x) : ∃ y, s.xlt.batch[i]? = some y
    ∧ x = { standingRec s y with
        batch := add32 s.xlt.batchNo 1, index := i, last := i + 1 == s.xlt.batch.length, heat := standingHeat s (standingRec s y) } := by
  simp only [closedRecs, List.getElem?_mapIdx, List.getElem?_map, Option.map_map, Option.map_eq_some_iff, Function.comp] at h
  obtain ⟨y, hy, rfl⟩ := h
  exact ⟨y, hy, rfl⟩

/-- A standing record keeps its fault's number. -/
theorem standingRec_id (s : State) (y : FaultRec) : (standingRec s y).id = y.id := by
  unfold standingRec
  split
  · next f hf =>
    have := List.find?_some hf
    simp at this
    exact this.1
  · rfl

/-- The record of a fault that is over stays as it was. -/
theorem standingRec_over {s : State} {y : FaultRec} (h : ∀ e ∈ s.xlt.faults, e.id ≠ y.id) : standingRec s y = y := by
  have : (s.xlt.faults.find? fun f => f.id == y.id && (y.kind == 1 || y.kind == 2)) = none :=
    List.find?_eq_none.2 fun e he => by simp [h e he]
  simp [standingRec, this]

/-- The record of a fault that is open shows the fault as it stands (R73). -/
theorem standingRec_open {s : State} {y : FaultRec} {e : Fault'} (hk : y.kind = 1 ∨ y.kind = 2) (h : faultBy y.id s = some e) :
    standingRec s y = faultRec y.kind e s := by
  have hb : (y.kind == 1 || y.kind == 2) = true := by simpa using hk
  have : (s.xlt.faults.find? fun f => f.id == y.id && (y.kind == 1 || y.kind == 2)) = some e := by simpa [hb, faultBy] using h
  simp [standingRec, this]

/-! ### The commands and events -/

/-- A command that names no sagger is refused like any other. -/
theorem cmd_refused {i : Instr} {r op need : Nat} {s : State} {f : Inflight} {checks : Inflight → State → List Chk} {act : State → State}
    {c : Chk} (hx : exec i s = cmd r op checks act s) (h : Ready r op need s f) (hc : firstBad (checks f s) = some c) (h5 : c.stage ≠ 5) :
    Refuses i r op c.status c.stage s :=
  cmdFor_refused hx h hc h5

section
variable (s : State) (r n id timeout window : Nat) (pairs : List (Nat × Nat))

theorem exec_faultResolve : exec (.faultResolve r n pairs) s = execFaultResolve r n pairs s := rfl
theorem exec_faultConfig : exec (.faultConfig r timeout window) s = execFaultConfig r timeout window s := rfl
theorem exec_faultTimeout : exec (.faultTimeout id) s = execFaultTimeout id s := rfl
theorem exec_faultBatchClose : exec .faultBatchClose s = execFaultBatchClose s := rfl

end

/-- FAULT_CONFIG sets both limits; the faults whose time has passed under the new one time out after the answer (R76). -/
theorem faultConfig_done {s : State} {r timeout window : Nat} {f : Inflight} (h : Ready r 0x39 0 s f) (h1 : 1000000 ≤ timeout)
    (h2 : timeout ≤ 60000000000) (h3 : window ≤ 1000000) :
    exec (.faultConfig r timeout window) s = .next ((s.xlt.faults.filter fun x => decide (x.opened + x.extra + timeout ≤ s.now)).foldl
      (fun s x => timeOut x s) (ok r [] { latched r 0 s with xlt.timeout := timeout, xlt.batchWindow := window })) := by
  rw [exec_faultConfig]
  refine (cmd_acts h (by simp [h1, h2, h3])).trans ?_
  simp only [ok, finish_xlt, State.now, finish_tal]
  rfl

/-- Settles O28: the events act when their time has passed, and a batch that closes hands over `closedRecs`: its records as their faults stand,
numbered. -/
theorem faultService : Obligations.FaultService := by
  refine ⟨fun s r f => ⟨?_, ?_, fun id res ign act => resolveOne_unknown, fun id res ign x hx => ⟨resolveOne_retry hx, resolveOne_fail hx,
    fun act => resolveOne_otherAction hx⟩, fun timeout window => faultConfig_done, ?_, ?_, ?_, ?_⟩, ?_⟩
  · intro n pairs h hn
    rw [exec_faultResolve]
    exact (cmd_acts h (by simpa using hn)).trans rfl
  · intro n pairs h hn
    exact cmd_refused (c := chkLen true) (exec_faultResolve ..) h (by simp [firstBad, hn]) (by decide)
  · intro timeout window h ht
    have hb : decide (1000000 ≤ timeout) = false := by simpa using ht
    exact cmd_refused (c := chkDeny true) (exec_faultConfig ..) h (by simp [firstBad, hb]) (by decide)
  · intro id x hx ha
    rw [exec_faultTimeout]
    refine ⟨fun ht => ?_, fun ht => ?_⟩
    · simp only [execFaultTimeout, act, hx, if_pos (And.intro ha ht)]
      rfl
    · simp only [execFaultTimeout, act, hx, if_neg fun h : _ ∧ _ => Nat.not_le.2 ht h.2]
  · intro ha ht
    simp [exec_faultBatchClose, execFaultBatchClose, act, ha, ht]
  · intro ht
    simp [exec_faultBatchClose, execFaultBatchClose, act, Nat.not_le.2 ht]
  · intro s hs
    rw [closeBatch_eq hs]
    refine ⟨rfl, rfl, closedRecs s, rfl, closedRecs_length s, fun i x hx => ?_⟩
    obtain ⟨y, hy, rfl⟩ := closedRecs_getElem hx
    refine ⟨rfl, rfl, by simp [beq_eq_decide], y, hy, standingRec_id s y, fun ho => ?_, fun e hk he => ?_⟩
    · simp only [standingRec_over ho, and_self]
    · simp only [standingRec_open hk he]
      exact ⟨rfl, rfl, rfl⟩

end Sys2Proof.Machine
end

section
/-! PROOFS. Heat counters, page migration and holders (O29; 02 R48, R81 to R84). -/

namespace Sys2Proof.Machine

section
variable (s : State) (r sid page epoch pva dst hid : Nat) (c : HeatCfg) (hd : Holder)

theorem exec_heatConfig : exec (.heatConfig r c sid) s = execHeatConfig r c sid s := rfl
theorem exec_heatDecay : exec (.heatDecay sid page) s = execHeatDecay sid page s := rfl
theorem exec_withdrawAck : exec (.withdrawAck sid epoch) s = execWithdrawAck sid epoch s := rfl
theorem exec_pageMigrate : exec (.pageMigrate r sid pva dst) s = execPageMigrate r sid pva dst s := rfl
theorem exec_migrateDone : exec (.migrateDone sid page) s = execMigrateDone sid page s := rfl
theorem exec_holderSet : exec (.holderSet r hid hd) s = execHolderSet r hid hd s := rfl

end

/-! ### Heat -/

/-- The next decay lies after `now`, within one PERIOD, at the page number modulo the PERIOD (R84, log 28). -/
theorem nextDecay_spec {page period now : Nat} (h : 1 ≤ period) :
    now < nextDecay page period now ∧ nextDecay page period now ≤ now + period ∧ nextDecay page period now % period = page % period := by
  unfold nextDecay
  have hlt := Nat.mod_lt (page % period + period - (now + 1) % period) h
  have hb := Nat.mod_lt (now + 1) h
  refine ⟨by omega, by omega, ?_⟩
  calc (now + 1 + (page % period + period - (now + 1) % period) % period) % period
      = ((now + 1) % period + (page % period + period - (now + 1) % period)) % period := by simp [Nat.add_mod]
    _ = (page % period + period) % period := by rw [Nat.add_sub_cancel' (by omega)]
    _ = page % period := by simp

/-- HEAT_CONFIG stores the parameters and times the decays of the sagger's leaves, or of all, anew; what stands at its new threshold is
reported at once (log 30). -/
theorem heatConfig_done {s : State} {r sid : Nat} {f : Inflight} {c : HeatCfg} (h : Ready r 0x3A 0 s f) (hc : heatOk c = true)
    (hs : sid = 4095 ∨ sagState sid s ≠ .free) : exec (.heatConfig r c sid) s = .next (ok r []
      (((s.xlt.leaves.map (·.1)).filter fun k => sid == 4095 || k / 2 ^ 31 == sid).foldl
        (fun s k => addHeat (k / 2 ^ 31) (k % 2 ^ 31) 0 (timeDecay k c.period s))
        (if sid = 4095 then { latched r 0 s with xlt.heatDef := c, xlt.heatCfg := [] }
          else { latched r 0 s with xlt.heatCfg := smSet sid c s.xlt.heatCfg }))) := by
  rw [exec_heatConfig]
  refine (cmd_acts h ?_).trans ?_
  · have : sid ≠ 4095 → sagThere sid s = true := fun ne => sagThere_of_ne_free (hs.resolve_left ne)
    simpa [hc] using this
  · by_cases e : sid = 4095
    · simp only [if_pos e]; rfl
    · simp only [if_neg e]; rfl

/-- A leaf's heat is shifted once its period has passed (R84). -/
theorem heatDecay_due {s : State} {sid page : Nat} {l x : Leaf} (ha : s.alive = true) (hl : smGet (leafKey sid page) s.xlt.leaves = some l)
    (hd : l.due ≤ s.now)
    (hx : x = { l with heat := l.heat / 2 ^ (heatOf sid s).shift, alerted := false, due := l.due + (heatOf sid s).period }) :
    exec (.heatDecay sid page) s = .next (addHeat sid page 0 (syncLeaf sid page x.big (some x) (modLeaf sid page (fun _ => x) s))) := by
  subst hx
  have : ¬(s.alive = false ∨ s.now < l.due) := by simp [ha, hd]
  simp only [exec_heatDecay, execHeatDecay, act, hl, if_neg this]

theorem heatDecay_early {s : State} {sid page : Nat} {l : Leaf} (hl : smGet (leafKey sid page) s.xlt.leaves = some l) (hd : s.now < l.due) :
    exec (.heatDecay sid page) s = .next s := by
  simp [exec_heatDecay, execHeatDecay, act, hl, hd]

/-! ### Withdrawals that are acknowledged -/

theorem withdrawAck_done {s : State} {sid : Nat} {t : Taken} (ha : s.alive = true) (ht : s.xlt.taken = [t]) (hs : t.sid = sid)
    (hk : t.ack = true) : exec (.withdrawAck sid t.epoch) s = .next (if takenBusy s t then s
      else emit 0x04 sid 0 0 [t.epoch] { s with xlt.taken := [{ t with ack := false }] }) := by
  subst hs
  simp only [exec_withdrawAck, execWithdrawAck, act, ht, List.find?_singleton, beq_self_eq_true, hk, Bool.and_self, if_true, ha, true_and,
    List.map_cons, List.map_nil]
  cases takenBusy s t <;> simp

/-! ### Migration -/

theorem bumpEpoch_epochs (sid : Nat) (ack : Bool) (pages : List (Nat × Nat)) (s : State) :
    smGet sid (bumpEpoch sid ack pages s).xlt.epochs = some (add32 (epochOf sid s) 1) := smGet_smSet_same ..

@[simp] theorem epochOf_bumpEpoch (sid : Nat) (ack : Bool) (pages : List (Nat × Nat)) (s : State) :
    epochOf sid (bumpEpoch sid ack pages s) = add32 (epochOf sid s) 1 := by
  simp [epochOf, bumpEpoch_epochs]

@[simp] theorem epochOf_putLeaf (i sid base : Nat) (l : Leaf) (s : State) : epochOf i (putLeaf sid base l s) = epochOf i s := by
  simp [epochOf, putLeaf_xlt]

/-- The migration of a leaf begins (R81 steps 1 to 3): MIG is set, the epoch rises, and the migration is entered. -/
def startMig (sid b dst : Nat) (l : Leaf) (s : State) : State :=
  let v := bumpEpoch sid false (leafPairs (b, l)) (putLeaf sid b { l with mig := true } s)
  { v with xlt.migs := v.xlt.migs ++ [⟨sid, b, l.ppa, dst, epochOf sid v, []⟩] }

theorem startMig_epoch (sid b dst : Nat) (l : Leaf) (s : State) :
    smGet sid (startMig sid b dst l s).xlt.epochs = some (add32 (epochOf sid s) 1) :=
  (bumpEpoch_epochs sid false (leafPairs (b, l)) _).trans (by rw [epochOf_putLeaf])

theorem startMig_migs (sid b dst : Nat) (l : Leaf) (s : State) :
    (startMig sid b dst l s).xlt.migs = s.xlt.migs ++ [⟨sid, b, l.ppa, dst, add32 (epochOf sid s) 1, []⟩] := by
  simp only [startMig, epochOf_bumpEpoch, epochOf_putLeaf]
  simp only [bumpEpoch, putLeaf_xlt]

/-- PAGE_MIGRATE of a page that may migrate begins the migration and recalls the copies (R81 step 4; what it refuses is log 26). -/
theorem pageMigrate_done {s : State} {r sid pva dst b : Nat} {l : Leaf} {f : Inflight} (h : Ready r 0x3B 0 s f) (hp : pva < 2 ^ 52)
    (hs : sidBad sid s = false) (hl : leafAt sid (pva / 2 ^ 21) s.xlt = some (b, l)) (hw : warmPage dst s = false) (hr : l.pres = true)
    (hn : l.pin = false) (hf : ppaFormat l.ppa ≠ 3) (hd : destBad (if l.big then 2 ^ 30 else 2097152) dst s = false) (hm : l.mig = false)
    (hx : ∀ x ∈ s.xlt.faults, x.sid = sid → x.page = b → x.big = l.big → x.kind = 2) (he : epochsFull sid s = false) :
    exec (.pageMigrate r sid pva dst) s = .next (ok r [] (recallLeaves .recallInv [(b, l)] (startMig sid b dst l (latched r sid s)))) := by
  have hl' : leafAt sid (pva / 2 ^ 21) (latched r sid s).xlt = some (b, l) := hl
  rw [exec_pageMigrate, execPageMigrate]
  refine (cmdFor_acts h ?_).trans (by simp only [hl']; rfl)
  have hfault : (s.xlt.faults.any fun f => f.sid == sid && f.page == b && f.big == l.big && f.kind != 2) = false := by
    simpa using hx
  simp [-Nat.reducePow, hp, hs, hl, hr, hn, hf, hd, hw, hm, hfault, he]

/-- MIGRATE_DONE of a page that does not migrate does nothing. -/
theorem migrateDone_none {s : State} {sid page : Nat} (h : s.xlt.migs = []) : exec (.migrateDone sid page) s = .next s := by
  simp [exec_migrateDone, execMigrateDone, act, h]

/-- The copies of the page are not back yet: no mover is taken. -/
theorem migrateDone_waits {s : State} {g : Mig} {l : Leaf} (ha : s.alive = true) (hg : s.xlt.migs = [g])
    (hl : smGet (leafKey g.sid g.page) s.xlt.leaves = some l) (hr : s.kiln.runs = []) (hd : migDrained g l s = false) :
    exec (.migrateDone g.sid g.page) s = .next s := by
  simp [exec_migrateDone, execMigrateDone, act, ha, hg, hl, hr, hd]

@[simp] theorem migRun_mig (g : Mig) (n : Nat) (s : State) : (migRun g n s).mig = true := rfl
@[simp] theorem migRun_sid (g : Mig) (n : Nat) (s : State) : (migRun g n s).sid = g.sid := rfl
@[simp] theorem migRun_src (g : Mig) (n : Nat) (s : State) : (migRun g n s).desc.src = g.page * 2097152 := rfl
@[simp] theorem migRun_mover (g : Mig) (n : Nat) (s : State) : (migRun g n s).mover = none := rfl

/-- The state in which the copy's run is the only one (R81 step 5). -/
def withRun (x : MRun) (s : State) : State := { s with kiln.runs := [x], kiln.nextMid := s.kiln.nextMid + 1 }

theorem runBy_withRun (x : MRun) (s : State) : runBy x.mid (withRun x s) = some x := by simp [runBy, withRun]

/-- A run without a mover takes none while every mover is busy. -/
theorem migMover_none {x : MRun} {s : State} (hx : x.mover = none) (hm : s.kiln.movers.findIdx? (· == false) = none) :
    migMover x.mid (withRun x s) = none := by
  have hm' : (withRun x s).kiln.movers.findIdx? (· == false) = none := hm
  simp only [migMover, runBy_withRun, Option.bind_some, hx, hm']

/-- It takes the first that is idle. -/
theorem migMover_idle {x : MRun} {s : State} {n : Nat} (hx : x.mover = none) (hm : s.kiln.movers.findIdx? (· == false) = some n) :
    migMover x.mid (withRun x s) = some { s with
      kiln.movers := s.kiln.movers.set n true, kiln.runs := [{ x with mover := some n }], kiln.nextMid := s.kiln.nextMid + 1 } := by
  have hm' : (withRun x s).kiln.movers.findIdx? (· == false) = some n := hm
  simp only [migMover, runBy_withRun, Option.bind_some, hx, hm']
  simp [modRun, withRun]

/-- Where a mover has moved what it could for run `x`: at the end of the copy the migration is done (R81 steps 6 and 7). -/
def copied (g : Mig) (l : Leaf) (x : MRun) (t : State) : State :=
  match runBy x.mid t with
  | none => t
  | some y => if y.desc.length ≤ y.pos ∧ moveOwes y.mid t = false then
      finishMig ((t.xlt.migs.find? fun z => z.sid == g.sid && z.page == g.page).getD g)
        ((smGet (leafKey g.sid g.page) t.xlt.leaves).getD l) (endRun y t)
    else t

section
variable {s : State} {g : Mig} {l : Leaf} {x : MRun} (ha : s.alive = true) (hg : s.xlt.migs = [g])
  (hl : smGet (leafKey g.sid g.page) s.xlt.leaves = some l) (hr : s.kiln.runs = []) (hd : migDrained g l s = true)
  (hx : x = migRun g (leafPages l) s)
include ha hg hl hr hd hx

/-- Once the copies are back the copy's run is made and looks for a mover. -/
theorem migrateDone_drained : exec (.migrateDone g.sid g.page) s
    = .next ((migMover x.mid (withRun x s)).elim (withRun x s) fun u => copied g l x (moveLines (moveFuel x.desc.length) x.mid u)) := by
  have hmine : (x.mig && x.sid == g.sid && x.desc.src == g.page * 2 ^ 21) = true := by simp [hx]
  have hrun : { s with kiln.runs := s.kiln.runs ++ [x], kiln.nextMid := s.kiln.nextMid + 1 } = withRun x s := by simp [withRun, hr]
  have hany : (s.kiln.runs.any fun x => x.mig && x.sid == g.sid && x.desc.src == g.page * 2 ^ 21) = false := by simp [hr]
  have hfind : ((withRun x s).kiln.runs.find? fun x => x.mig && x.sid == g.sid && x.desc.src == g.page * 2 ^ 21) = some x := by
    simp only [withRun, List.find?_singleton, hmine, if_true]
  rw [exec_migrateDone, execMigrateDone, act]
  simp only [hg, List.find?_singleton, beq_self_eq_true, Bool.and_self, if_true, hl, ha, Bool.true_eq_false, if_false, hany, hd,
    Bool.false_eq_true, ← hx, hrun, hfind]
  cases migMover x.mid (withRun x s) <;> rfl

theorem migrateDone_noMover (hm : s.kiln.movers.findIdx? (· == false) = none) : exec (.migrateDone g.sid g.page) s = .next (withRun x s) := by
  rw [migrateDone_drained ha hg hl hr hd hx, migMover_none (hx ▸ rfl) hm]
  rfl

theorem migrateDone_copies {n : Nat} {t : State} (hm : s.kiln.movers.findIdx? (· == false) = some n)
    (ht : t = moveLines (moveFuel x.desc.length) x.mid { s with
      kiln.movers := s.kiln.movers.set n true, kiln.runs := [{ x with mover := some n }], kiln.nextMid := s.kiln.nextMid + 1 }) :
    exec (.migrateDone g.sid g.page) s = .next (copied g l x t) := by
  rw [migrateDone_drained ha hg hl hr hd hx, migMover_idle (hx ▸ rfl) hm, ht, Option.elim_some]

end

/-! ### Holders -/

theorem holderSet_done {s : State} {r hid : Nat} {f : Inflight} {h : Holder} (hr : Ready r 0x3C 0 s f) (h1 : 1 ≤ hid) (h2 : hid ≤ 4094)
    (h3 : h.kind < 3) (h4 : h.kind = 0 → h.st = 0) (h5 : h.st < 4) (h6 : h.port < 16) (h7 : h.altPort < 32) (h8 : h.aid < 2048)
    (h9 : h.limit < 2 ^ 48) : exec (.holderSet r hid h) s = .next (ok r [] (if h.st = 3 ∧ (holderOf hid s).st ≠ 3 then
      loseLines (fun k => !isLocal k && keyHid k == hid) { latched r 0 s with xlt.holders := smSet hid h s.xlt.holders }
    else { latched r 0 s with xlt.holders := smSet hid h s.xlt.holders })) := by
  have h1' : hid ≠ 0 := by omega
  have h2' : hid < 4095 := by omega
  rw [exec_holderSet]
  refine (cmd_acts hr ?_).trans rfl
  simpa [-Nat.reducePow, h1', h2', h3, h5, h6, h7, h8, h9] using h4

/-- Settles O29: each command or event passes its checks and acts; a migration is followed from its start (`startMig`) over the run that copies
(`withRun`) to the copy that a mover makes (`copied`), in one step of the model (log 11). -/
theorem heatMigrationHolders : Obligations.HeatMigrationHolders := by
  refine fun s r sid f => ⟨fun c => heatConfig_done, fun page period now => nextDecay_spec, ?_,
    fun page l ha hl hd x hx => heatDecay_due ha hl hd hx, fun page l => heatDecay_early, ?_, ?_, fun page => migrateDone_none,
    fun g l => migrateDone_waits, ?_, fun hid h => holderSet_done, ?_⟩
  · intro c h hc
    exact cmd_refused (c := chkDeny true) (exec_heatConfig ..) h (by simp [firstBad, hc]) (by decide)
  · rintro e t ha ht hs rfl hk
    exact withdrawAck_done ha ht hs hk
  · exact fun pva dst b l h hp hs hl hw hr hn hf hd hm hx he =>
      ⟨_, pageMigrate_done h hp hs hl hw hr hn hf hd hm hx he, startMig_epoch .., startMig_migs ..⟩
  · exact fun g l x ha hg hl hr hd hx => ⟨migrateDone_noMover ha hg hl hr hd hx, fun n t => migrateDone_copies ha hg hl hr hd hx⟩
  · intro h hr
    exact cmd_refused (c := chkDeny true) (exec_holderSet ..) hr (by simp [firstBad]) (by decide)

end Sys2Proof.Machine
end

section
/-! PROOFS. Mover descriptors (O30; 01 R36, 02 R62 to R69). -/

namespace Sys2Proof.Machine

section
variable (s : State) (r sid n : Nat) (item : Item) (d : MoveDesc) (m : Mhd)

theorem exec_moveSubmit : exec (.moveSubmit r sid item d) s = execMoveSubmit r sid item d s := rfl
theorem exec_move : exec (.move m d) s = execMove m d s := rfl
theorem exec_moverStart : exec (.moverStart n) s = execMoverStart n s := rfl
theorem exec_moveDone : exec (.moveDone n) s = execMoveDone n s := rfl
theorem exec_moverLost : exec (.moverLost n) s = execMoverLost n s := rfl

end

/-! ### Requests that pass -/

/-- A message that is delivered is served (08 R298, R305). -/
theorem arrive_delivered {m : Mhd} {s : State} (h : Delivered m s) (i : Instr) (serve : Nat → State → State) :
    arrive m i serve s = serve (sidOf m.port m.src s) s := by
  obtain ⟨hp, hl, ha, hd, hh⟩ := h
  simp [arrive, hp, hl, ha, hd, hh]

/-- A request of one line that passes its gate and meter F is served in the state with the charge (09 R320 to R322). -/
theorem metered_passes {m : Mhd} {cost : Nat} {s u : State} (h : Passes m cost 1 s u) {i : Instr} (hi : ∀ m a rd c d, i ≠ .contrib m a rd c d)
    (refuse : Nat → State → State) (serve : State → State) :
    metered m i cost false refuse serve (sidOf m.port m.src s) s = serve (addGlobal 5 1 u) := by
  obtain ⟨-, hr, hp, hd, hb, hl⟩ := h
  have hd' : sagState (sidOf m.port m.src s) (openReq m.port m.src m.tag m.tgen false s) ≠ .draining := hd
  have hp' : (openReq m.port m.src m.tag m.tgen false s).powerOff = false := hp
  have hl' : letPass m.port m.src m.tag (sidOf m.port m.src s) cost 1 (openReq m.port m.src m.tag m.tgen false s).now
    (openReq m.port m.src m.tag m.tgen false s) = (true, u) := hl
  simp only [metered, hr, hd', hp', hb, Bool.false_eq_true, if_false, false_and, hl', if_true]

/-! ### Submission -/

/-- The checks of MOVE_SUBMIT pass when those of its descriptor do. -/
theorem moveSubmitChks_good {s : State} {sid : Nat} {item : Item} {d : MoveDesc} (ha : sagState sid s = .active)
    (he : smGet sid s.xlt.epochs ≠ none) (hi : GoodItem item 64 s) (hc : ∀ c ∈ moveChks sid d true false s, c.bad = false) :
    ∀ c ∈ [chkDeny (sagState sid s != .active || (smGet sid s.xlt.epochs).isNone)] ++ itemChk item 64 s ++ moveChks sid d true false s,
      c.bad = false := by
  simp only [List.forall_mem_append, List.forall_mem_singleton]
  exact ⟨⟨by simpa [ha] using Option.isSome_iff_ne_none.2 he, itemChk_good hi⟩, hc⟩

/-! ### The end of a run -/

/-- The machine without a run that has ended: its chain is let go, its mover idle, its answers and its places in faults are gone. -/
def withoutRun (x : MRun) (s : State) : State :=
  { s with
    kiln.runs := s.kiln.runs.filter (·.mid != x.mid)
    kiln.chains := s.kiln.chains.filter fun c => c.port != 16 || (s.kiln.runs.filter (·.mid != x.mid)).any (·.chain == c.id)
    kiln.movers := match x.mover with
      | some m => s.kiln.movers.set m false
      | none => s.kiln.movers
    dir.answers := s.dir.answers.filter fun a => a.1 != .mover x.mid && a.1 != .mig x.mid
    xlt.faults := s.xlt.faults.map fun f => { f with waiters := f.waiters.filter (·.1 != Waiter.queued x.mid) } }

/-- The state in which a descriptor that ended gives its record: the end is counted for its SID (15 R462). -/
def endCounted (x : MRun) (s : State) : State :=
  addGlobal 7 1 (modCtr x.sid (fun c => { c with moves := add64 c.moves 1 }) (withoutRun x s))

section
variable {x : MRun} (s : State) (hm : x.mig = false) (hs : moveStatus x ≠ stDENIED)
include hm hs

theorem endRun_host (h : x.sub = none) :
    endRun x s = emit 0x2A x.sid 0 0 (moveRecord x (moveStatus x) (endCounted x s)) (endCounted x s) := by
  simp only [endRun, hm, Bool.false_eq_true, if_false, if_neg hs, h]
  rfl

theorem endRun_agent {a : Nat × Nat × Nat × Nat} (h : x.sub = some a) :
    endRun x s = sendCompletion 0 a (moveStatus x) (moveRecord x (moveStatus x) (endCounted x s)) (endCounted x s) := by
  simp only [endRun, hm, Bool.false_eq_true, if_false, if_neg hs, h]
  rfl

end

/-- The run is gone, and no other has its number. -/
theorem endCounted_runs (x : MRun) (s : State) : ∀ y ∈ (endCounted x s).kiln.runs, y.mid ≠ x.mid := by
  intro y hy
  simpa using List.of_mem_filter hy

theorem endCounted_mover {x : MRun} (s : State) {m : Nat} (hm : x.mover = some m) (hl : m < s.kiln.movers.length) :
    (endCounted x s).kiln.movers[m]? = some false := by
  simp [endCounted, withoutRun, hm, hl]

/-! ### What leaves the kilns alone -/

/-- Steps that leave the kilns alone do so one after another. -/
theorem foldl_kiln {α : Type} {g : State → α → State} (hg : ∀ s a, (g s a).kiln = s.kiln) (l : List α) (s : State) :
    (l.foldl g s).kiln = s.kiln := by
  induction l generalizing s with
  | nil => rfl
  | cons a l ih => exact (ih (g s a)).trans (hg s a)

@[simp] theorem countLate_kiln (sid : Nat) (s : State) : (countLate sid s).kiln = s.kiln := rfl

@[simp] theorem noteBreach_kiln (sid gu re p me n : Nat) (s : State) : (noteBreach sid gu re p me n s).kiln = s.kiln := by
  unfold noteBreach; dsimp only; split <;> rfl

@[simp] theorem sendAt_kiln (due p : Nat) (plain : Bool) (m : OutMsg) (s : State) : (sendAt due p plain m s).kiln = s.kiln := by
  unfold sendAt
  split
  · extract_lets
    split
    · exact (noteBreach_kiln ..).trans rfl
    · rfl
  · rfl

@[simp] theorem flushFences_kiln (p aid : Nat) (s : State) : (flushFences p aid s).kiln = s.kiln := by
  unfold flushFences
  split
  · rfl
  · exact foldl_kiln (fun s x => sendAt_kiln 0 p false _ s) _ s

@[simp] theorem closeReq_kiln (p aid tag : Nat) (s : State) : (closeReq p aid tag s).kiln = s.kiln := flushFences_kiln ..

@[simp] theorem sendCompletion_kiln (due : Nat) (a : Nat × Nat × Nat × Nat) (st : Nat) (rec : List Nat) (s : State) :
    (sendCompletion due a st rec s).kiln = s.kiln := by simp [sendCompletion]

@[simp] theorem closeBatch_kiln (s : State) : (closeBatch s).kiln = s.kiln := by
  unfold closeBatch; dsimp only; split <;> rfl

@[simp] theorem readyRec_kiln (x : FaultRec) (s : State) : (readyRec x s).kiln = s.kiln := by
  unfold readyRec
  dsimp only
  split <;> split <;> simp

theorem hitFault_kiln {w : Waiter} {acc sid page kind : Nat} {big : Bool} {s t : State} (h : hitFault w acc sid page big kind s = some t) :
    t.kiln = s.kiln := by
  unfold hitFault at h
  split at h
  · cases h
  · split at h
    · obtain rfl := Option.some.inj h
      rfl
    · split at h
      · cases h
      · obtain rfl := Option.some.inj h
        simp

@[simp] theorem hitPages_kiln (w : Waiter) (sid acc kind : Nat) (ps : List (Nat × PageRes)) (s : State) :
    (hitPages w sid acc kind ps s).kiln = s.kiln := by
  refine foldl_kiln (fun s p => ?_) ps s
  split
  · split
    · rfl
    · next b l _ _ _ =>
      cases h : hitFault w acc sid b l.big kind s with
      | none => rfl
      | some t => exact hitFault_kiln h
  · rfl
  · rfl

/-! ### Chains -/

theorem chainOf_none {p aid : Nat} {s : State} : chainOf p aid s = none ↔ ∀ c ∈ s.kiln.chains, ¬(c.port = p ∧ c.aid = aid) := by
  simp [chainOf]

/-- A chain that is not open needs no ending. -/
theorem setChain_none {p aid : Nat} {s : State} (h : chainOf p aid s = none) : setChain p aid none s = s := by
  have : s.kiln.chains.filter (fun x => !(x.port == p && x.aid == aid)) = s.kiln.chains :=
    List.filter_eq_self.2 fun c hc => by simpa using not_and_or.1 (chainOf_none.1 h c hc)
  rw [setChain, this, Option.toList_none, List.append_nil]

/-- A sequence of one descriptor leaves no chain to keep its mover. -/
theorem endChain_single {p aid : Nat} {c : Chain} {s : State} (h : c.count ≤ 1) : endChain p aid c s = setChain p aid none s := by
  simp [endChain, Nat.not_lt.2 h]

/-- Accepting an agent's descriptor opens no chain. -/
theorem acceptMove_chains {x : MRun} {a : Nat × Nat × Nat × Nat} {s : State} (hm : x.mig = false) (hs : moveStatus x ≠ stDENIED)
    (ha : x.sub = some a) : ∀ c ∈ (acceptMove x s).kiln.chains, c ∈ s.kiln.chains := by
  intro c hc
  unfold acceptMove at hc
  dsimp only at hc
  split at hc
  · rw [endRun_agent _ hm hs ha, sendCompletion_kiln] at hc
    exact List.mem_of_mem_filter hc
  · rw [hitPages_kiln] at hc
    split at hc
    · rwa [hitPages_kiln] at hc
    · exact hc

/-- A descriptor without CHAIN that begins a sequence and that no check stops is accepted and ends the sequence (R67). -/
theorem serve1_accepts {s : State} {m : Mhd} {d : MoveDesc} {sid : Nat} {c : Chain} (hr : m.resv = false) (hd : d.chain = false)
    (h0 : c.count = 0) (hk : ∀ c ∈ moveChks sid d false false s, c.bad = false) (hb : bakeWaits sid d s = none) {t : State}
    (ht : t = { s with kiln.nextChain := max s.kiln.nextChain c.id }) :
    serveMove.serve1 m d sid c s
      = endChain m.port m.src { c with count := 1 } (acceptMove (newRun sid d (some (m.port, m.src, m.tag, m.tgen)) 0 t) t) := by
  have hd' : { d with resv := d.resv || m.resv } = d := by simp [hr]
  unfold serveMove.serve1
  dsimp only
  rw [hd', hd, Bool.false_and, firstBad_none.2 hk]
  simp only [hb, h0, ht]
  rfl

/-- The only descriptor of an agent's sequence: it is accepted, and no chain stays open. -/
theorem serveMove_single {s : State} {m : Mhd} {d : MoveDesc} (hc : chainOf m.port m.src s = none) (hg : chainMig m s = none)
    (hr : m.resv = false) (hd : d.chain = false) (hk : ∀ c ∈ moveChks (sidOf m.port m.src s) d false false s, c.bad = false)
    (hb : bakeWaits (sidOf m.port m.src s) d s = none) {t : State}
    (ht : t = setChain m.port m.src none { s with kiln.nextChain := max s.kiln.nextChain (s.kiln.nextChain + 1) }) :
    serveMove m d s = acceptMove (newRun (sidOf m.port m.src s) d (some (m.port, m.src, m.tag, m.tgen)) 0 t) t := by
  have ht' := ht.trans (setChain_none hc)
  have hx := acceptMove_chains (x := newRun (sidOf m.port m.src s) d (some (m.port, m.src, m.tag, m.tgen)) 0 t) (s := t) rfl
    (show stOK ≠ stDENIED by decide) rfl
  simp only [serveMove, hg, hc]
  rw [serve1_accepts hr hd rfl hk hb ht', endChain_single (Nat.le_refl 1)]
  refine setChain_none (chainOf_none.2 fun c hm => ?_)
  exact chainOf_none.1 hc c (by simpa [ht'] using hx c hm)

/-! ### Movers -/

section
variable {s : State} {n : Nat} {x : MRun}

/-- An idle mover takes the only descriptor of the queue, when no chain stands and its faults all have their slots (R67, R72). -/
theorem moverStart_takes (ha : s.alive = true) (hn : s.kiln.movers[n]? = some false) (hr : s.kiln.runs = [x]) (hx : x.mover = none)
    (hm : x.mig = false) (h0 : x.chain = 0) (hc : s.kiln.chains = []) (hu : unheld x s = []) :
    exec (.moverStart n) s = .next { s with
      kiln.movers := s.kiln.movers.set n true
      kiln.runs := [if x.started = 0 then { x with mover := some n, started := s.now, latch := latchOf x.sid s }
        else { x with mover := some n }] } := by
  simp [exec_moverStart, execMoverStart, act, ha, hn, hr, hx, hm, h0, hc, hu, modRun, State.now, latchOf, ctrOf]

/-- A descriptor that lacks slots for its faults is not taken (R72). -/
theorem moverStart_unheld (ha : s.alive = true) (hn : s.kiln.movers[n]? = some false) (hr : s.kiln.runs = [x]) (hu : unheld x s ≠ []) :
    exec (.moverStart n) s = .next s := by
  simp [exec_moverStart, execMoverStart, act, ha, hn, hr, hu]

theorem moverStart_busy (hn : s.kiln.movers[n]? = some true) : exec (.moverStart n) s = .next s := by
  simp [exec_moverStart, execMoverStart, act, hn]

/-- A mover's descriptor moves on as far as it can now, and completes at its end (R69). -/
theorem moveDone_moves {y : MRun} (ha : s.alive = true) (hf : s.kiln.runs.find? (fun x => x.mover == some n && !x.mig) = some x) {t : State}
    (ht : moveLines (moveFuel x.desc.length) x.mid s = t) (hy : runBy x.mid t = some y) :
    exec (.moveDone n) s
      = .next (if (y.stop.isSome = true ∨ y.pos ≥ y.desc.length) ∧ moveOwes y.mid t = false then completeRun y t else t) := by
  simp [exec_moveDone, execMoveDone, act, ha, hf, ht, hy]

end

/-- The kilns without mover `n`: its descriptor goes back to the queue with its position (11 R396). -/
def withoutMover (n : Nat) (s : State) : State :=
  { s with
    kiln.movers := s.kiln.movers.set n true
    kiln.runs := s.kiln.runs.map fun (x : MRun) => if x.mover = some n then { x with mover := none } else x
    kiln.chains := s.kiln.chains.map fun (c : Chain) => if c.mover = some n then { c with mover := none } else c }

theorem withoutMover_only (n : Nat) (s : State) : Only [.kiln] s (withoutMover n s) := by
  intro p hp
  cases p <;> simp_all [withoutMover, Comp.same]

theorem withoutMover_self {n : Nat} {s : State} (h : n < s.kiln.movers.length) : (withoutMover n s).kiln.movers[n]? = some true :=
  List.getElem?_set_self h

theorem withoutMover_other {n k : Nat} (s : State) (h : k ≠ n) : (withoutMover n s).kiln.movers[k]? = s.kiln.movers[k]? :=
  List.getElem?_set_ne h.symm

theorem withoutMover_free (n : Nat) (s : State) : ∀ x ∈ (withoutMover n s).kiln.runs, x.mover ≠ some n := by
  simp only [withoutMover, List.forall_mem_map]
  intro x _
  split
  · simp
  · assumption

/-- No descriptor loses its position. -/
theorem withoutMover_positions (n : Nat) (s : State) :
    (withoutMover n s).kiln.runs.map (fun x => (x.mid, x.pos, x.desc)) = s.kiln.runs.map fun x => (x.mid, x.pos, x.desc) := by
  simp only [withoutMover, List.map_map]
  refine List.map_congr_left fun x _ => ?_
  simp only [Function.comp]
  split <;> rfl

theorem moverLost_next {s : State} {n : Nat} (ha : s.alive = true) (hn : s.kiln.movers[n]? ≠ none) :
    exec (.moverLost n) s = .next (withoutMover n s) := by
  have : ¬(s.alive = false ∨ s.kiln.movers[n]?.isNone = true) := by simpa [ha] using hn
  rw [exec_moverLost, execMoverLost, act, if_neg this]
  rfl

/-- Settles O30: submissions pass their checks and are accepted; a mover's run, its loss and the end of a descriptor change the kilns as
`moveLines`, `withoutMover` and `endCounted` say, each in one step (log 11). -/
theorem moverCommands : Obligations.MoverCommands := by
  refine ⟨fun s r sid n d => ⟨?_, ?_, ?_, fun x => moverStart_takes, fun x => moverStart_unheld, fun _ => moverStart_busy, ?_, ?_⟩, ?_⟩
  · intro f item h ha he hi hc
    rw [exec_moveSubmit]
    exact ⟨fun hb => (cmdFor_acts h (moveSubmitChks_good ha he hi hc)).trans (by simp only [hb]; rfl),
      fun b hb => (cmdFor_acts h (moveSubmitChks_good ha he hi hc)).trans (by simp only [hb])⟩
  · intro m u h
    rw [exec_move, execMove, act, arrive_delivered h.1, metered_passes h (by simp)]
  · exact fun m hc hg hr hd hk hb => serveMove_single hc hg hr hd hk hb rfl
  · exact fun x y ha hf hy => moveDone_moves ha hf rfl hy
  · intro ha hn
    have hlt : n < s.kiln.movers.length := by simpa using hn
    exact ⟨_, moverLost_next ha hn, withoutMover_only n s, withoutMover_self hlt, fun k => withoutMover_other s, withoutMover_free n s,
      withoutMover_positions n s⟩
  · exact fun s x hm hs => ⟨fun h => ⟨_, endRun_host s hm hs h, endCounted_runs x s, fun m => endCounted_mover s, rfl, rfl⟩,
      fun a h => ⟨_, endRun_agent s hm hs h, endCounted_runs x s, rfl, rfl⟩⟩

end Sys2Proof.Machine
end

section
/-! PROOFS. The line code (O11, O12; 03 R93 to R97): its parities are sums of bits, its CRC tells apart lines that differ in one byte. -/

namespace Sys2Proof.Machine

/-! ### Sums of bits -/

/-- The sum of the sums of two rows of bits is the sum of their bitwise sums. -/
theorem foldl_xor_xor (f g : Nat → Bool) (l : List Nat) (a b : Bool) :
    l.foldl (fun p i => Bool.xor p (Bool.xor (f i) (g i))) (Bool.xor a b)
      = Bool.xor (l.foldl (fun p i => Bool.xor p (f i)) a) (l.foldl (fun p i => Bool.xor p (g i)) b) := by
  induction l generalizing a b with
  | nil => rfl
  | cons i l ih =>
    have : Bool.xor (Bool.xor a b) (Bool.xor (f i) (g i)) = Bool.xor (Bool.xor a (f i)) (Bool.xor b (g i)) := by
      cases a <;> cases b <;> cases f i <;> cases g i <;> rfl
    simp only [List.foldl_cons, this, ih]

theorem parity32_xor (v w : Word) : parity32 (v ^^^ w) = Bool.xor (parity32 v) (parity32 w) := by
  simpa [parity32] using foldl_xor_xor v.getLsbD w.getLsbD (List.range 32) false false

/-- The bits of a word with one bit set. -/
theorem getLsbD_one_shiftLeft {w : Nat} (i : Nat) {j : Nat} (hj : j < w) : (1#w <<< i).getLsbD j = decide (j = i) := by
  rw [← BitVec.twoPow_eq, BitVec.getLsbD_twoPow, ← Bool.decide_and, decide_eq_decide]; omega

/-- Bits set one after another where a test holds. -/
theorem getLsbD_foldl_setBit (b : Nat → Bool) (n r : Nat) (hr : r < 16) :
    ((List.range n).foldl (fun (p : BitVec 16) i => if b i then p ||| (1#16 <<< i) else p) 0).getLsbD r = (decide (r < n) && b r) := by
  induction n with
  | zero => simp
  | succ n ih =>
    simp only [List.range_succ, List.foldl_append, List.foldl_cons, List.foldl_nil]
    have h1 := getLsbD_one_shiftLeft (w := 16) n hr
    by_cases hb : b n
    · rw [if_pos hb, BitVec.getLsbD_or, ih, h1]
      rcases Nat.lt_trichotomy r n with h | h | h
      · simp [h, Nat.lt_succ_of_lt h, h.ne]
      · simp [h, hb]
      · simp [Nat.not_lt.2 h.le, h.ne', Nat.not_lt.2 (Nat.succ_le_of_lt h)]
    · rw [if_neg hb, ih]
      rcases Nat.lt_trichotomy r n with h | h | h
      · simp [h, Nat.lt_succ_of_lt h]
      · subst h; simpa using hb
      · simp [Nat.not_lt.2 h.le, Nat.not_lt.2 (Nat.succ_le_of_lt h)]

/-- ROWP[r] is the parity of row r. -/
theorem getLsbD_rowParity (d : LineData) {r : Nat} (hr : r < 16) : (rowParity d).getLsbD r = parity32 (dataRow d r) := by
  rw [rowParity, getLsbD_foldl_setBit _ _ _ hr, decide_eq_true hr, Bool.true_and]

/-- A bit of a sum of words. -/
theorem getLsbD_foldl_xor {w : Nat} (f : Nat → BitVec w) (l : List Nat) (a : BitVec w) (c : Nat) :
    (l.foldl (fun p r => p ^^^ f r) a).getLsbD c = l.foldl (fun p r => Bool.xor p ((f r).getLsbD c)) (a.getLsbD c) := by
  induction l generalizing a with
  | nil => rfl
  | cons r l ih => rw [List.foldl_cons, List.foldl_cons, ih, BitVec.getLsbD_xor]

/-- COLP[c] is the sum of column c. -/
theorem getLsbD_colParity (d : LineData) (c : Nat) :
    (colParity d).getLsbD c = (List.range 16).foldl (fun p r => Bool.xor p ((dataRow d r).getLsbD c)) false := by
  rw [colParity, getLsbD_foldl_xor]; simp

theorem getLsbD_dataRow (d : LineData) (r : Nat) {c : Nat} (hc : c < 32) : (dataRow d r).getLsbD c = d.getLsbD (32 * r + c) := by
  simp [dataRow, hc]

theorem dataRow_xor (d e : LineData) (r : Nat) : dataRow (d ^^^ e) r = dataRow d r ^^^ dataRow e r := BitVec.extractLsb'_xor

theorem rowParity_xor (d e : LineData) : rowParity (d ^^^ e) = rowParity d ^^^ rowParity e := by
  apply BitVec.eq_of_getLsbD_eq
  intro r hr
  rw [BitVec.getLsbD_xor, getLsbD_rowParity _ hr, getLsbD_rowParity _ hr, getLsbD_rowParity _ hr, dataRow_xor, parity32_xor]

theorem colParity_xor (d e : LineData) : colParity (d ^^^ e) = colParity d ^^^ colParity e := by
  apply BitVec.eq_of_getLsbD_eq
  intro c _
  simp only [BitVec.getLsbD_xor, getLsbD_colParity, dataRow_xor]
  simpa using foldl_xor_xor (fun r => (dataRow d r).getLsbD c) (fun r => (dataRow e r).getLsbD c) (List.range 16) false false

/-- A sum of bits none of which is set. -/
theorem foldl_xor_false {f : Nat → Bool} {l : List Nat} (h : ∀ i ∈ l, f i = false) (a : Bool) :
    l.foldl (fun p i => Bool.xor p (f i)) a = a := by
  induction l with
  | nil => rfl
  | cons i l ih =>
    rw [List.foldl_cons, h i (by simp), Bool.xor_false]
    exact ih fun j hj => h j (List.mem_cons_of_mem _ hj)

/-- A sum of bits of which one is set. -/
theorem foldl_xor_single {k n : Nat} (hk : k < n) : (List.range n).foldl (fun p i => Bool.xor p (decide (i = k))) false = true := by
  induction n with
  | zero => omega
  | succ n ih =>
    rw [List.range_succ, List.foldl_append, List.foldl_cons, List.foldl_nil]
    rcases Nat.lt_succ_iff_lt_or_eq.1 hk with h | h
    · rw [ih h, decide_eq_false h.ne', Bool.xor_false]
    · rw [foldl_xor_false (fun i hi => decide_eq_false (by have := List.mem_range.1 hi; omega)), h, decide_eq_true rfl, Bool.false_xor]

/-- Data bit i lies in row i div 32, column i mod 32 (R95). -/
theorem getLsbD_dataRow_bit {i : Nat} (hi : i < 512) (r : Nat) {c : Nat} (hc : c < 32) :
    (dataRow (1#512 <<< i) r).getLsbD c = (decide (r = i / 32) && decide (c = i % 32)) := by
  by_cases hr : 32 * r + c < 512
  · rw [getLsbD_dataRow _ _ hc, getLsbD_one_shiftLeft i hr, ← Bool.decide_and, decide_eq_decide]; omega
  · rw [getLsbD_dataRow _ _ hc, BitVec.getLsbD_of_ge _ _ (by omega), ← Bool.decide_and]
    exact (decide_eq_false (by omega)).symm

theorem rowParity_bit {i : Nat} (hi : i < 512) : rowParity (1#512 <<< i) = 1#16 <<< (i / 32) := by
  apply BitVec.eq_of_getLsbD_eq
  intro r hr
  rw [getLsbD_rowParity _ hr, getLsbD_one_shiftLeft _ hr, parity32]
  have hbit : ∀ c ∈ List.range 32, (dataRow (1#512 <<< i) r).getLsbD c = (decide (r = i / 32) && decide (c = i % 32)) :=
    fun c hc => getLsbD_dataRow_bit hi r (List.mem_range.1 hc)
  by_cases h : r = i / 32
  · rw [List.foldl_ext _ (fun p c => Bool.xor p (decide (c = i % 32))) _ fun p c hc => by rw [hbit c hc, decide_eq_true h, Bool.true_and],
      foldl_xor_single (by omega), decide_eq_true h]
  · rw [foldl_xor_false fun c hc => by rw [hbit c hc, decide_eq_false h, Bool.false_and], decide_eq_false h]

theorem colParity_bit {i : Nat} (hi : i < 512) : colParity (1#512 <<< i) = 1#32 <<< (i % 32) := by
  apply BitVec.eq_of_getLsbD_eq
  intro c hc
  rw [getLsbD_colParity, getLsbD_one_shiftLeft _ hc]
  by_cases h : c = i % 32
  · rw [List.foldl_ext _ (fun p r => Bool.xor p (decide (r = i / 32))) _
      fun p r _ => by rw [getLsbD_dataRow_bit hi r hc, decide_eq_true h, Bool.and_true], foldl_xor_single (by omega), decide_eq_true h]
  · rw [foldl_xor_false fun r _ => by rw [getLsbD_dataRow_bit hi r hc, decide_eq_false h, Bool.and_false], decide_eq_false h]

/-! ### CRC-32C tells one byte (R93, R94) -/

theorem crcBit_lt {c : Nat} (h : c < 2 ^ 32) : crcBit c < 2 ^ 32 := by
  unfold crcBit
  split
  · exact Nat.xor_lt_two_pow (by omega) (by decide)
  · omega

/-- The bit that is shifted out decides the highest bit of the next register, so the step can be turned back. -/
theorem crcBit_inj {a b : Nat} (ha : a < 2 ^ 32) (hb : b < 2 ^ 32) (h : crcBit a = crcBit b) : a = b := by
  have top : ∀ x, x < 2 ^ 32 → (crcBit x).testBit 31 = decide (x % 2 = 1) := by
    intro x hx
    have hs : (x / 2).testBit 31 = false := Nat.testBit_lt_two_pow (by omega)
    unfold crcBit
    split
    · next ho => exact (Nat.testBit_xor ..).trans (by rw [hs, decide_eq_true ho]; decide)
    · next ho => rw [hs, decide_eq_false ho]
  have hp : a % 2 = b % 2 := by
    have := (top a ha).symm.trans ((congrArg (Nat.testBit · 31) h).trans (top b hb))
    simp only [decide_eq_decide] at this
    omega
  have hh : a / 2 = b / 2 := by
    unfold crcBit at h
    rw [hp] at h
    split at h
    · exact Nat.xor_left_inj.1 h
    · exact h
  omega

theorem crcBit_mapsTo : Set.MapsTo crcBit (Set.Iio (2 ^ 32)) (Set.Iio (2 ^ 32)) := fun _ h => crcBit_lt h

theorem crcBit_injOn : Set.InjOn crcBit (Set.Iio (2 ^ 32)) := fun _ ha _ hb h => crcBit_inj ha hb h

theorem xor_byte_lt {c x : Nat} (hc : c < 2 ^ 32) (hx : x < 256) : Nat.xor c x < 2 ^ 32 := Nat.xor_lt_two_pow hc (by omega)

/-- The register after one byte tells the register before it, combined with the byte. -/
theorem crcByte_inj {c d x y : Nat} (hc : c < 2 ^ 32) (hd : d < 2 ^ 32) (hx : x < 256) (hy : y < 256)
    (h : crcByte c x = crcByte d y) : Nat.xor c x = Nat.xor d y :=
  crcBit_injOn.iterate crcBit_mapsTo 8 (xor_byte_lt hc hx) (xor_byte_lt hd hy) h

theorem crcByte_lt {c x : Nat} (hc : c < 2 ^ 32) (hx : x < 256) : crcByte c x < 2 ^ 32 :=
  crcBit_mapsTo.iterate 8 (xor_byte_lt hc hx)

theorem foldl_crcByte_lt {l : List Nat} (hl : ∀ x ∈ l, x < 256) {c : Nat} (hc : c < 2 ^ 32) : l.foldl crcByte c < 2 ^ 32 := by
  induction l generalizing c with
  | nil => exact hc
  | cons x l ih => exact ih (fun y hy => hl y (List.mem_cons_of_mem _ hy)) (crcByte_lt hc (hl x (by simp)))

/-- Registers that differ still differ after the same bytes. -/
theorem foldl_crcByte_inj {l : List Nat} (hl : ∀ x ∈ l, x < 256) {c d : Nat} (hc : c < 2 ^ 32) (hd : d < 2 ^ 32)
    (h : l.foldl crcByte c = l.foldl crcByte d) : c = d := by
  induction l generalizing c d with
  | nil => exact h
  | cons x l ih =>
    have hx := hl x (by simp)
    have := ih (fun y hy => hl y (List.mem_cons_of_mem _ hy)) (crcByte_lt hc hx) (crcByte_lt hd hx) h
    exact Nat.xor_left_inj.1 (crcByte_inj hc hd hx hx this)

/-- Two sequences of bytes that differ in one place. -/
def OneByteOff (a b : List Nat) : Prop := ∃ pre x y post, a = pre ++ x :: post ∧ b = pre ++ y :: post ∧ x ≠ y

theorem OneByteOff.append {a b : List Nat} (h : OneByteOff a b) (pre : List Nat) : OneByteOff (pre ++ a) (pre ++ b) := by
  obtain ⟨p, x, y, q, rfl, rfl, hne⟩ := h
  exact ⟨pre ++ p, x, y, q, by simp, by simp, hne⟩

theorem crc32c_ne {a b : List Nat} (ha : ∀ x ∈ a, x < 256) (hb : ∀ x ∈ b, x < 256) (h : OneByteOff a b) : crc32c a ≠ crc32c b := by
  obtain ⟨pre, x, y, post, rfl, rfl, hne⟩ := h
  simp only [List.forall_mem_append, List.forall_mem_cons] at ha hb
  obtain ⟨hpre, hx, hpost⟩ := ha
  obtain ⟨-, hy, -⟩ := hb
  intro h
  have hs := foldl_crcByte_lt hpre (c := 0xFFFFFFFF) (by decide)
  have := Nat.xor_left_inj.1 h
  simp only [List.foldl_append, List.foldl_cons] at this
  exact hne (Nat.xor_right_inj.1 (crcByte_inj hs hs hx hy (foldl_crcByte_inj hpost (crcByte_lt hs hx) (crcByte_lt hs hy) this)))

theorem bytesLE_lt (n v : Nat) : ∀ x ∈ bytesLE n v, x < 256 := by
  induction n generalizing v with
  | zero => simp [bytesLE]
  | succ n ih => simpa [bytesLE] using ⟨by omega, fun x hx => ih _ x hx⟩

/-- A number with one bit turned has one byte turned. -/
theorem bytesLE_flip {n j : Nat} (v : Nat) (h : j < 8 * n) : OneByteOff (bytesLE n v) (bytesLE n (v ^^^ 2 ^ j)) := by
  induction n generalizing v j with
  | zero => omega
  | succ n ih =>
    have hm : (v ^^^ 2 ^ j) % 256 = v % 256 ^^^ 2 ^ j % 256 := Nat.xor_mod_two_pow (n := 8)
    have hd : (v ^^^ 2 ^ j) / 256 = v / 256 ^^^ 2 ^ j / 256 := Nat.xor_div_two_pow (n := 8)
    simp only [bytesLE]
    rw [hm, hd]
    by_cases hj : j < 8
    · have h0 : 2 ^ j / 256 = 0 := Nat.div_eq_of_lt (Nat.pow_lt_pow_right (a := 2) (by decide) hj)
      have h1 : 2 ^ j % 256 = 2 ^ j := Nat.mod_eq_of_lt (Nat.pow_lt_pow_right (a := 2) (by decide) hj)
      refine ⟨[], _, _, _, rfl, by rw [h0, Nat.xor_zero]; rfl, fun he => ?_⟩
      rw [h1] at he
      have : v % 256 ^^^ 0 = v % 256 ^^^ 2 ^ j := by rwa [Nat.xor_zero]
      exact absurd (Nat.xor_right_inj.1 this).symm (Nat.two_pow_pos j).ne'
    · obtain ⟨k, rfl⟩ := Nat.exists_eq_add_of_le (Nat.not_lt.1 hj)
      have h0 : 2 ^ (8 + k) / 256 = 2 ^ k := by rw [pow_add]; exact Nat.mul_div_cancel_left _ (by decide)
      have h1 : 2 ^ (8 + k) % 256 = 0 := by rw [pow_add]; exact Nat.mul_mod_right _ _
      rw [h0, h1, Nat.xor_zero]
      exact (ih (v / 256) (by omega)).append [v % 256]

/-- Side words of which one bit differs give lines of the same data different CRCs. -/
theorem crcLine_ne_of_flip {l m : Line} (hd : m.data = l.data) (hl : sideLow m = sideLow l) {j : Nat} (hj : j < 48)
    (hh : sideHigh m = sideHigh l ^^^ 2 ^ j) : crcLine m ≠ crcLine l := by
  have hb : ∀ x : Line, ∀ y ∈ bytesLE 64 x.data.toNat ++ bytesLE 6 (sideLow x) ++ bytesLE 6 (sideHigh x), y < 256 := by
    intro x y hy
    simp only [List.mem_append] at hy
    rcases hy with (hy | hy) | hy <;> exact bytesLE_lt _ _ y hy
  have hlt : ∀ x : Line, crc32c (bytesLE 64 x.data.toNat ++ bytesLE 6 (sideLow x) ++ bytesLE 6 (sideHigh x)) < 2 ^ 32 :=
    fun x => Nat.xor_lt_two_pow (foldl_crcByte_lt (hb x) (by decide)) (by decide)
  intro h
  have he := congrArg BitVec.toNat h
  simp only [crcLine, BitVec.toNat_ofNat, Nat.mod_eq_of_lt (hlt _)] at he
  refine crc32c_ne (hb l) (hb m) ?_ he.symm
  rw [hd, hl, hh]
  exact (bytesLE_flip (sideHigh l) (by omega)).append _

/-! ### Fields of the side word -/

/-- A bit turned in the upper part of a number. -/
theorem add_mul_flip {lo o : Nat} (h : lo < 2 ^ o) (x i : Nat) : lo + 2 ^ o * (x ^^^ 2 ^ i) = (lo + 2 ^ o * x) ^^^ 2 ^ (o + i) := by
  apply Nat.eq_of_testBit_eq
  intro j
  rw [Nat.add_comm lo, Nat.add_comm lo, Nat.testBit_xor, Nat.testBit_two_pow_mul_add _ h, Nat.testBit_two_pow_mul_add _ h, Nat.testBit_two_pow]
  by_cases hj : j < o
  · rw [if_pos hj, if_pos hj, decide_eq_false (by omega), Bool.xor_false]
  · rw [if_neg hj, if_neg hj, Nat.testBit_xor, Nat.testBit_two_pow, decide_eq_decide.2 (show i = j - o ↔ o + i = j by omega)]

/-- A bit turned in the lower part of a number. -/
theorem flip_add_mul {lo o i : Nat} (h : lo < 2 ^ o) (hi : i < o) (x : Nat) : (lo ^^^ 2 ^ i) + 2 ^ o * x = (lo + 2 ^ o * x) ^^^ 2 ^ i := by
  apply Nat.eq_of_testBit_eq
  intro j
  have h' : lo ^^^ 2 ^ i < 2 ^ o := Nat.xor_lt_two_pow h (Nat.pow_lt_pow_right (a := 2) (by decide) hi)
  rw [Nat.add_comm lo, Nat.add_comm (lo ^^^ 2 ^ i), Nat.testBit_xor, Nat.testBit_two_pow_mul_add _ h, Nat.testBit_two_pow_mul_add _ h',
    Nat.testBit_two_pow]
  by_cases hj : j < o
  · rw [if_pos hj, if_pos hj, Nat.testBit_xor, Nat.testBit_two_pow]
  · rw [if_neg hj, if_neg hj, decide_eq_false (by omega), Bool.xor_false]

theorem toNat_flip {w : Nat} (x : BitVec w) {i : Nat} (hi : i < w) : (x ^^^ (1#w <<< i)).toNat = x.toNat ^^^ 2 ^ i := by
  rw [BitVec.toNat_xor, ← BitVec.twoPow_eq, BitVec.toNat_twoPow_of_lt hi]

/-- A field of the side word: `lo` below it, `hi` above it. -/
theorem field_flip {w o lo i : Nat} (hlo : lo < 2 ^ o) (x : BitVec w) (hi : i < w) (up : Nat) :
    lo + 2 ^ o * ((x ^^^ (1#w <<< i)).toNat + 2 ^ w * up) = (lo + 2 ^ o * (x.toNat + 2 ^ w * up)) ^^^ 2 ^ (o + i) := by
  rw [toNat_flip x hi, flip_add_mul x.isLt hi, add_mul_flip hlo]

/-- The side word of a line in which one of the fields that no parity covers has a bit turned differs in one bit. -/
theorem sideHigh_flip (l : Line) (i : Nat) :
    (i < 4 → sideHigh { l with craze := l.craze ^^^ (1#4 <<< i) } = sideHigh l ^^^ 2 ^ i)
    ∧ (i < 12 → sideHigh { l with tag := l.tag ^^^ (1#12 <<< i) } = sideHigh l ^^^ 2 ^ (4 + i))
    ∧ (i < 16 → sideHigh { l with summary := l.summary ^^^ (1#16 <<< i) } = sideHigh l ^^^ 2 ^ (16 + i))
    ∧ (i < 8 → sideHigh { l with wgen := l.wgen ^^^ (1#8 <<< i) } = sideHigh l ^^^ 2 ^ (32 + i))
    ∧ (i < 8 → sideHigh { l with top := l.top ^^^ (1#8 <<< i) } = sideHigh l ^^^ 2 ^ (40 + i)) := by
  have hc := l.craze.isLt
  have ht := l.tag.isLt
  have hs := l.summary.isLt
  have hw := l.wgen.isLt
  simp only [sideHigh]
  refine ⟨fun hi => ?_, fun hi => ?_, fun hi => ?_, fun hi => ?_, fun hi => ?_⟩
  · have h := field_flip (o := 0) (lo := 0) (by decide) l.craze hi
      (l.tag.toNat + 2 ^ 12 * l.summary.toNat + 2 ^ 28 * l.wgen.toNat + 2 ^ 36 * l.top.toNat)
    ring_nf at h ⊢
    exact h
  · have h := field_flip (o := 4) hc l.tag hi (l.summary.toNat + 2 ^ 16 * l.wgen.toNat + 2 ^ 24 * l.top.toNat)
    ring_nf at h ⊢
    exact h
  · have h := field_flip (o := 16) (lo := l.craze.toNat + 2 ^ 4 * l.tag.toNat) (by omega) l.summary hi
      (l.wgen.toNat + 2 ^ 8 * l.top.toNat)
    ring_nf at h ⊢
    exact h
  · have h := field_flip (o := 32) (lo := l.craze.toNat + 2 ^ 4 * l.tag.toNat + 2 ^ 16 * l.summary.toNat) (by omega) l.wgen hi l.top.toNat
    ring_nf at h ⊢
    exact h
  · have h := field_flip (o := 40) (lo := l.craze.toNat + 2 ^ 4 * l.tag.toNat + 2 ^ 16 * l.summary.toNat + 2 ^ 32 * l.wgen.toNat)
      (by omega) l.top hi 0
    ring_nf at h ⊢
    exact h

/-! ### Decoding (R96) -/

theorem bitOf_eq_testBit (v i : Nat) : bitOf v i = v.testBit i := by
  rw [bitOf, Nat.testBit_eq_decide_div_mod_eq, beq_eq_decide]

/-- No bit counted, no bit set. -/
theorem popCount_eq_zero {n v : Nat} (hv : v < 2 ^ n) : popCount n v = 0 ↔ v = 0 := by
  have hc : ∀ m, popCount m v = 0 ↔ ∀ i, i < m → v.testBit i = false := by
    intro m
    induction m with
    | zero => simp [popCount]
    | succ m ih =>
      unfold popCount at ih ⊢
      rw [List.range_succ, List.foldl_append, List.foldl_cons, List.foldl_nil, bitOf_eq_testBit]
      simp only [Nat.lt_succ_iff_lt_or_eq, or_imp, forall_and, forall_eq]
      rw [← ih]
      cases v.testBit m <;> simp
  rw [hc]
  constructor
  · intro h
    apply Nat.eq_of_testBit_eq
    intro i
    rw [Nat.zero_testBit]
    by_cases hi : i < n
    · exact h i hi
    · exact Nat.testBit_lt_two_pow (hv.trans_le (Nat.pow_le_pow_right (by decide) (Nat.not_lt.1 hi)))
  · rintro rfl i _
    exact Nat.zero_testBit i

theorem popCount_bit : (∀ i < 16, popCount 16 (2 ^ i) = 1 ∧ lowBit 16 (2 ^ i) = i) ∧ ∀ i < 32, popCount 32 (2 ^ i) = 1 := by decide

theorem popCount_zero : popCount 16 0 = 0 ∧ popCount 32 0 = 0 := by decide

/-- A word with one bit set, as a number. -/
theorem ofNat_two_pow (w i : Nat) : BitVec.ofNat w (2 ^ i) = 1#w <<< i := by
  rw [← BitVec.twoPow_eq]; exact BitVec.eq_of_toNat_eq (by rw [BitVec.toNat_ofNat, BitVec.toNat_twoPow])

/-- The row syndrome and the column syndrome of a line (R96). -/
def rowSyndrome (l : Line) : Nat := (rowParity l.data ^^^ l.rowp).toNat

@[inherit_doc rowSyndrome] def colSyndrome (l : Line) : Nat := (colParity l.data ^^^ l.colp).toNat

section
variable {l : Line} {r c : Nat}

/-- Without a syndrome nothing is corrected. -/
theorem correct_of_zero (hr : rowSyndrome l = 0) (hc : colSyndrome l = 0) : correct l = some (l, false) := by
  unfold rowSyndrome at hr
  unfold colSyndrome at hc
  simp [correct, hr, hc, popCount_zero]

/-- A line in which no correction is made has no syndrome. -/
theorem syndromes_of_unchanged {m : Line} (h : correct l = some (m, false)) : rowSyndrome l = 0 ∧ colSyndrome l = 0 ∧ m = l := by
  unfold correct at h
  dsimp only at h
  split at h
  · cases h
  · split at h
    · cases h
    · split at h
      · next h0 =>
        obtain ⟨h1, h2⟩ := Nat.add_eq_zero_iff.1 h0
        exact ⟨(popCount_eq_zero (BitVec.isLt _)).1 h1, (popCount_eq_zero (BitVec.isLt _)).1 h2, by cases h; rfl⟩
      · cases h

/-- A line decodes without error exactly when it has no syndrome and its CRC is right. -/
theorem lineDecode_clean_iff : lineDecode l = .clean ↔ rowSyndrome l = 0 ∧ colSyndrome l = 0 ∧ crcLine l = l.crc := by
  constructor
  · intro h
    unfold lineDecode at h
    split at h
    · cases h
    · next m changed hm =>
      split at h
      · cases h
      · next hc =>
        cases changed
        · obtain ⟨h1, h2, rfl⟩ := syndromes_of_unchanged hm
          exact ⟨h1, h2, not_not.1 hc⟩
        · cases h
  · rintro ⟨h1, h2, h3⟩
    simp [lineDecode, correct_of_zero h1 h2, h3]

/-- A line whose parities are right and whose CRC is wrong cannot be mended. -/
theorem lineDecode_of_crc_ne (hr : rowSyndrome l = 0) (hc : colSyndrome l = 0) (h : crcLine l ≠ l.crc) : lineDecode l = .uncorrectable := by
  simp [lineDecode, correct_of_zero hr hc, h]

/-- A line that the correction makes right is mended to it. -/
theorem lineDecode_of_correct {m : Line} (h : correct l = some (m, true)) (hc : crcLine m = m.crc) : lineDecode l = .mended m := by
  simp [lineDecode, h, hc]

/-- One row and one column differ: the data bit where they cross is turned (R96). -/
theorem correct_data (hr : r < 16) (hc : c < 32) (h : rowSyndrome l = 2 ^ r) (k : colSyndrome l = 2 ^ c) :
    correct l = some ({ l with data := l.data ^^^ (1#512 <<< (32 * r + c)) }, true) := by
  obtain ⟨h1, h2⟩ := popCount_bit.1 r hr
  unfold rowSyndrome at h
  unfold colSyndrome at k
  simp only [correct, h, k, h1, h2, popCount_bit.2 c hc, ← pow_add, Nat.add_comm c, ofNat_two_pow, and_self, if_true]

/-- One bit of ROWP differs: it is turned. -/
theorem correct_rowp (hr : r < 16) (h : rowSyndrome l = 2 ^ r) (k : colSyndrome l = 0) :
    correct l = some ({ l with rowp := l.rowp ^^^ (1#16 <<< r) }, true) := by
  unfold rowSyndrome at h
  unfold colSyndrome at k
  simp [correct, h, k, (popCount_bit.1 r hr).1, popCount_zero, -BitVec.ofNat_pow, ofNat_two_pow]

/-- One bit of COLP differs: it is turned. -/
theorem correct_colp (hc : c < 32) (h : rowSyndrome l = 0) (k : colSyndrome l = 2 ^ c) :
    correct l = some ({ l with colp := l.colp ^^^ (1#32 <<< c) }, true) := by
  unfold rowSyndrome at h
  unfold colSyndrome at k
  simp [correct, h, k, popCount_bit.2 c hc, popCount_zero, -BitVec.ofNat_pow, ofNat_two_pow]

end

/-- Turning the same bits twice. -/
theorem xor_xor_self {w : Nat} (x b : BitVec w) : x ^^^ b ^^^ b = x := by rw [BitVec.xor_assoc, BitVec.xor_self, BitVec.xor_zero]

/-- A word that was 0 has, with one bit turned, that bit. -/
theorem toNat_flip_of_zero {w i : Nat} {x : BitVec w} (hi : i < w) (hx : x.toNat = 0) : (x ^^^ (1#w <<< i)).toNat = 2 ^ i := by
  rw [toNat_flip x hi, hx, Nat.zero_xor]

section
variable {l : Line} {i : Nat} (hr : rowSyndrome l = 0) (hc : colSyndrome l = 0)
include hr hc

theorem correct_flip_data (hi : i < 512) : correct { l with data := l.data ^^^ (1#512 <<< i) } = some (l, true) := by
  have h : rowSyndrome { l with data := l.data ^^^ (1#512 <<< i) } = 2 ^ (i / 32) := by
    have : rowParity (l.data ^^^ (1#512 <<< i)) ^^^ l.rowp = (rowParity l.data ^^^ l.rowp) ^^^ (1#16 <<< (i / 32)) := by
      rw [rowParity_xor, rowParity_bit hi, BitVec.xor_assoc, BitVec.xor_comm (1#_ <<< _), ← BitVec.xor_assoc]
    exact (congrArg BitVec.toNat this).trans (toNat_flip_of_zero (by omega) hr)
  have k : colSyndrome { l with data := l.data ^^^ (1#512 <<< i) } = 2 ^ (i % 32) := by
    have : colParity (l.data ^^^ (1#512 <<< i)) ^^^ l.colp = (colParity l.data ^^^ l.colp) ^^^ (1#32 <<< (i % 32)) := by
      rw [colParity_xor, colParity_bit hi, BitVec.xor_assoc, BitVec.xor_comm (1#_ <<< _), ← BitVec.xor_assoc]
    exact (congrArg BitVec.toNat this).trans (toNat_flip_of_zero (by omega) hc)
  rw [correct_data (by omega) (by omega) h k]
  simp only [show 32 * (i / 32) + i % 32 = i by omega, xor_xor_self]

theorem correct_flip_rowp (hi : i < 16) : correct { l with rowp := l.rowp ^^^ (1#16 <<< i) } = some (l, true) := by
  have h : rowSyndrome { l with rowp := l.rowp ^^^ (1#16 <<< i) } = 2 ^ i := by
    have := toNat_flip_of_zero hi hr
    rwa [BitVec.xor_assoc] at this
  rw [correct_rowp hi h hc]
  simp only [xor_xor_self]

theorem correct_flip_colp (hi : i < 32) : correct { l with colp := l.colp ^^^ (1#32 <<< i) } = some (l, true) := by
  have h : colSyndrome { l with colp := l.colp ^^^ (1#32 <<< i) } = 2 ^ i := by
    have := toNat_flip_of_zero hi hc
    rwa [BitVec.xor_assoc] at this
  rw [correct_colp (l := { l with colp := l.colp ^^^ (1#32 <<< i) }) hi hr h]
  simp only [xor_xor_self]

end

/-- A bit turned in a side field that no parity covers is detected by the CRC. -/
theorem lineDecode_flip_side {l m : Line} {j : Nat} (h : lineDecode l = .clean) (hd : m.data = l.data) (hr : m.rowp = l.rowp) (hc : m.colp = l.colp)
    (hx : m.crc = l.crc) (hj : j < 48) (hh : sideHigh m = sideHigh l ^^^ 2 ^ j) : lineDecode m = .uncorrectable := by
  obtain ⟨h1, h2, h3⟩ := lineDecode_clean_iff.1 h
  refine lineDecode_of_crc_ne (by rwa [rowSyndrome, hd, hr]) (by rwa [colSyndrome, hd, hc]) ?_
  rw [hx, ← h3]
  exact crcLine_ne_of_flip hd (by rw [sideLow, sideLow, hr, hc]) hj hh

/-- Settles O12: a parity or data bit makes the syndromes that name it; any other bit leaves the parities right and the CRC wrong. -/
theorem singleBadBits : Obligations.SingleBadBits := by
  intro l i h
  obtain ⟨hr, hc, hx⟩ := lineDecode_clean_iff.1 h
  obtain ⟨f1, f2, f3, f4, f5⟩ := sideHigh_flip l i
  refine ⟨fun hi => lineDecode_of_correct (correct_flip_data hr hc hi) hx, fun hi => lineDecode_of_correct (correct_flip_rowp hr hc hi) hx,
    fun hi => lineDecode_of_correct (correct_flip_colp hr hc hi) hx, fun hi => lineDecode_of_crc_ne hr hc fun he => ?_,
    fun hi => lineDecode_flip_side h rfl rfl rfl rfl (by omega) (f1 hi), fun hi => lineDecode_flip_side h rfl rfl rfl rfl (by omega) (f2 hi),
    fun hi => lineDecode_flip_side h rfl rfl rfl rfl (by omega) (f3 hi), fun hi => lineDecode_flip_side h rfl rfl rfl rfl (by omega) (f4 hi),
    fun hi => lineDecode_flip_side h rfl rfl rfl rfl (by omega) (f5 hi)⟩
  have hb : (1#32 <<< i : Word) = 0 := (BitVec.xor_right_inj _).1 ((hx.symm.trans he).symm.trans BitVec.xor_zero.symm)
  have := toNat_flip_of_zero (x := 0#32) hi rfl
  rw [hb] at this
  exact absurd this.symm (Nat.two_pow_pos i).ne'

/-! ### The parities of a written line (R95) -/

/-- A little-endian word is made of its bytes. -/
theorem toNat_eq_bytes (w : Word) : w.toNat = (List.range 4).foldl (fun n k => n + 256 ^ k * (w.toNat / 2 ^ (8 * k) % 256)) 0 := by
  have := w.isLt
  simp [List.range_succ]
  omega

theorem mkLine_parities (d : LineData) (craze : BitVec 4) (tag : BitVec 12) (sm : BitVec 16) (g : BitVec 8) :
    (mkLine d craze tag sm g).rowp = rowParity d ∧ (mkLine d craze tag sm g).colp = colParity d := ⟨rfl, rfl⟩

/-- Settles O11: bit r of ROWP and bit c of COLP are the sums that `rowParity` and `colParity` fold, bit by bit. -/
theorem lineParities : Obligations.LineParities := by
  intro d craze tag sm g
  obtain ⟨hr, hc⟩ := mkLine_parities d craze tag sm g
  refine ⟨fun r h => ?_, fun c h => ?_, fun r h => ?_⟩
  · rw [hr, getLsbD_rowParity d h, parity32]
    exact List.foldl_ext _ _ _ fun p c hc => by rw [getLsbD_dataRow d r (List.mem_range.1 hc)]
  · rw [hc, getLsbD_colParity]
    exact List.foldl_ext _ _ _ fun p r _ => by rw [getLsbD_dataRow d r h]
  · rw [toNat_eq_bytes]
    refine List.foldl_ext _ _ _ fun n k hk => ?_
    have hk := List.mem_range.1 hk
    simp only [dataRow, BitVec.extractLsb'_toNat, Nat.shiftRight_eq_div_pow]
    congr 2
    rw [show (2:Nat) ^ 32 = 2 ^ (8 * k) * 2 ^ (32 - 8 * k) by rw [← pow_add]; congr 1; omega, Nat.mod_mul_right_div_self, Nat.div_div_eq_div_mul, ← pow_add,
      show (256 : Nat) = 2 ^ 8 by rfl, Nat.mod_mod_of_dvd _ (pow_dvd_pow 2 (by omega)), show 32 * r + 8 * k = 8 * (4 * r + k) by ring]

end Sys2Proof.Machine
end

section
/-! PROOFS. Reset memory (O4), reads and writes of a line (O13) and the commands over a die's memory (O14, O15; 03 R98 to R120). -/

namespace Sys2Proof.Machine

/-- Settles O4. -/
theorem resetMemoryCanonical : Obligations.ResetMemoryCanonical := memWf_resetMem

/-! ### A write in a frozen region -/

/-- The CRC does not cover itself. -/
theorem crcLine_crc (l : Line) (c : BitVec 32) : crcLine { l with crc := c } = crcLine l := rfl

/-- A line with new parities and CRC decodes without error. -/
theorem lineDecode_mkLine (d : LineData) (craze : BitVec 4) (tag : BitVec 12) (sm : BitVec 16) (g : BitVec 8) :
    lineDecode (mkLine d craze tag sm g) = .clean := by
  refine lineDecode_clean_iff.2 ⟨?_, ?_, crcLine_crc _ _⟩
  · rw [rowSyndrome, (mkLine_parities ..).1]
    exact congrArg BitVec.toNat BitVec.xor_self
  · rw [colSyndrome, (mkLine_parities ..).2]
    exact congrArg BitVec.toNat BitVec.xor_self

/-- A wedged line with a bad bit that no parity covers. -/
def uncorrectableLine : Line := { wedgedLine with top := wedgedLine.top ^^^ (1#8 <<< 0) }

theorem lineDecode_uncorrectableLine : lineDecode uncorrectableLine = .uncorrectable := by
  obtain ⟨-, -, -, -, -, -, -, -, h⟩ := singleBadBits wedgedLine 0 (lineDecode_mkLine ..)
  exact h (by decide)

theorem uncorrectableLine_ne : uncorrectableLine ≠ wedgedLine := fun h => by
  have := lineDecode_uncorrectableLine
  rw [h, wedgedLine, lineDecode_mkLine] at this
  cases this

/-- Die 0 is in service, its region frozen (13 R441), and its first line is uncorrectable. -/
def frozenRegion : State :=
  { State.reset with
    mem := { resetMem with dies := resetMem.dies.modify 0 fun d => { d with st := .inService }, lines := [(0, uncorrectableLine)] }
    tal.dies := State.reset.tal.dies.modify 0 fun (d : DieTally) => { d with freeze := 1 } }

theorem lineDecode_frozenRegion : lineDecode (lineOf 0 frozenRegion.mem) = .uncorrectable := lineDecode_uncorrectableLine

theorem readLine_frozenRegion : readLine 0 frozenRegion.mem = none := by rw [readLine, lineDecode_frozenRegion]

theorem memWf_frozenRegion : MemCanonical frozenRegion :=
  (memWf_iff _).2 ⟨rfl, rfl, by simp [frozenRegion, resetMem], fun e he => by
    obtain rfl := List.mem_singleton.1 he
    exact uncorrectableLine_ne⟩

/-- What a find changes of the tally is what its record does (13 R442). -/
theorem emit_tal (kind sid region unit : Nat) (body : List Nat) (s : State) :
    (emit kind sid region unit body s).tal = (countStamped region unit s).tal := by
  simp [emit, emitRaw]

/-- A write changes of the tally what its read counts. -/
theorem writeLocal_tal {l sid tag cause : Nat} {d : LineData} {m : BitVec 64} {sm : Option (BitVec 16)} {s t : State}
    (h : writeLocal l sid tag d m cause sm s = some t) : t.tal = (noteDecode l sid 0 s).tal := by
  obtain ⟨-, -, rfl⟩ := writeLocal_some h
  rfl

theorem Only.tal {ps : List Comp} {s t : State} (h : Only ps s t) (hp : Comp.tal ∉ ps) : t.tal = s.tal := h .tal hp

/-- The count of a stamped record depends on the tally alone. -/
theorem countStamped_tal_congr {s u : State} (h : u.tal = s.tal) (region unit : Nat) :
    (countStamped region unit u).tal = (countStamped region unit s).tal := by
  have hf : regionFrozen region unit u = regionFrozen region unit s := by simp only [regionFrozen, h]
  cases hs : regionFrozen region unit s <;> simp [countStamped, hf, hs, h]

/-- A find that is not within a second of the line's last one is recorded (R104), and a frozen region counts the record. -/
theorem noteUE_tal {l : Nat} {s : State} (h : smGet l s.mem.ueLast = none) (sid finder : Nat) :
    (noteUE l sid finder s).tal = (countStamped 1 (lineDie l) s).tal := by
  unfold noteUE
  dsimp only
  rw [h]
  simp only [Bool.false_eq_true, if_false, emit_tal]
  refine countStamped_tal_congr ?_ _ _
  dsimp only
  split <;> rfl

/-- The record of the find is stamped at the hub, and the region counts it (13 R442). -/
theorem frozenRegion_stamps : (noteDecode 0 0 0 frozenRegion).tal ≠ frozenRegion.tal := by
  rw [noteDecode, lineDecode_frozenRegion]
  dsimp only
  rw [noteUE_tal rfl]
  intro h
  exact absurd (congrArg (fun t : Tal => (t.dies[0]?).map (·.hubStamped)) h) (by decide)

/-- Refutes O13: a write over an uncorrectable line of a die whose region is frozen also changes the tally of that region, in which its record
of the find is counted (13 R442); the statement leaves the tally out of what a write changes. -/
theorem not_lineReadsAndWrites : ¬ Obligations.LineReadsAndWrites := by
  intro h
  have hs : dieState (lineDie 0) frozenRegion = .inService := rfl
  have hg : dieGen (lineDie 0) frozenRegion < 256 := Nat.zero_lt_succ _
  obtain ⟨hnone, hsome⟩ := h.2 frozenRegion 0 0 0 0 0 fullMask none hs
  cases ht : writeLocal 0 0 0 0 fullMask 0 none frozenRegion with
  | none =>
    obtain ⟨x, hx, -⟩ := hnone.1 ht
    rw [readLine_frozenRegion] at hx
    cases hx
  | some t =>
    obtain ⟨_, _, _, _, _, _, _, _, _, hframe, _⟩ := hsome t memWf_frozenRegion (by decide) hg ht
    exact frozenRegion_stamps ((writeLocal_tal ht).symm.trans (Only.tal hframe (by decide)))

end Sys2Proof.Machine
end

section
/-! PROOFS. Commands over a die's memory: wedging (O14; 03 R105, R107) and the sweep's settings (O15; 03 R110). -/

namespace Sys2Proof.Machine

/-! ### Commands that name a die -/

theorem touchDie_only (die : Nat) (s : State) : Only [.tal] s (touchDie die s) := by
  intro p hp
  cases p <;> simp_all [Comp.same]

/-- A command that names a die is still ready in the state without the die's idleness. -/
theorem ready_touchDie {r op need die : Nat} {s : State} {f : Inflight} (h : Ready r op need s f) : Ready r op need (touchDie die s) f := h

/-- A memory command runs in the state in which its die is not idle (13 R440). -/
theorem memCmd_ready {r op need die : Nat} {s : State} {f : Inflight} {checks : Inflight → State → List Chk} {act : State → State}
    (h : Ready r op need s f) : memCmd r op die checks act s = cmd r op checks act (touchDie die s) := by
  obtain ⟨ha, -, hf, hop, -, -⟩ := h
  simp [memCmd, hf, hop, ha]

/-- A memory command that is ready and passes its checks acts. -/
theorem memCmd_acts {r op need die : Nat} {s : State} {f : Inflight} {checks : Inflight → State → List Chk} {act : State → State}
    (h : Ready r op need s f) (hc : ∀ c ∈ checks f (touchDie die s), c.bad = false) :
    memCmd r op die checks act s = .next (act (latched r 0 (touchDie die s))) :=
  (memCmd_ready h).trans (cmd_acts (ready_touchDie h) hc)

/-! ### The dies' memories -/

theorem dieMem_modDie (k j : Nat) (g : DieMem → DieMem) (s : State) :
    dieMem k (modDie j g s) = if k = j then (dieMem k s).map g else dieMem k s := by
  simp only [dieMem, modDie, List.getElem?_modify]
  by_cases h : j = k
  · simp [h]
  · simp [h, Ne.symm h]

theorem modDie_only (k : Nat) (g : DieMem → DieMem) (s : State) : Only [.mem] s (modDie k g s) := by
  intro p hp
  cases p <;> simp_all [modDie, Comp.same]

@[simp] theorem fillPages_dies (page n : Nat) (f : Option Fill) (m : MemSt) : (fillPages page n f m).dies = m.dies := rfl

/-- A die that is in service or Offline is there. -/
theorem dieGone_of_state {die : Nat} {s : State} {m : DieMem} (hm : dieMem die s = some m) (hs : m.st = .inService ∨ m.st = .offline) :
    dieGone die s = false := by
  rcases hs with h | h <;> simp [dieGone, dieState, hm, h]

/-! ### MEM_WEDGE (R105, R107) -/

/-- The memory of a die after its pages were wedged: on an Offline die they are covered (R107). -/
def wedgedDie (page pages total : Nat) (d : DieMem) : DieMem :=
  if d.st = .offline then
    { d with covered := mergeRange page (page + pages) d.covered
             wgen := if mergeRange page (page + pages) d.covered = [(0, total)] ∧ d.covered ≠ [(0, total)] then 1 else d.wgen }
  else d

/-- The state in which a MEM_WEDGE completes. -/
def wedgedPages (die page pages : Nat) (s : State) : State :=
  modDie die (wedgedDie page pages (diePages die s)) { s with mem := fillPages (die * 2 ^ 21 + page) pages none s.mem }

theorem exec_memWedge (r die page pages : Nat) (s : State) : exec (.memWedge r die page pages) s = execMemWedge r die page pages s := rfl

theorem exec_bisqueConfig (r die : Nat) (c : BisqueCfg) (s : State) : exec (.bisqueConfig r c die) s = execBisqueConfig r c die s := rfl

section
variable {s : State} {r die page pages : Nat} {f : Inflight} {m : DieMem}

theorem memWedge_acts (h : Ready r 0x3E 0 s f) (hw : warmDie die s = false) (hm : dieMem die s = some m) (hd : die < 8)
    (hs : m.st = .inService ∨ m.st = .offline) (hp : 1 ≤ pages) (hl : page + pages ≤ diePages die s) :
    exec (.memWedge r die page pages) s = .next (ok r [] (wedgedPages die page pages (latched r 0 (touchDie die s)))) := by
  have hg : dieGone die (touchDie die s) = false := dieGone_of_state hm hs
  have hw' : warmDie die (touchDie die s) = false := hw
  have hlim : pageLimit die (touchDie die s) = diePages die s := by rw [pageLimit, hw']; rfl
  rw [exec_memWedge, execMemWedge, memCmd_acts h (by simp [hg, hw', hlim, hd, hl])]
  dsimp only
  rw [if_neg (by omega)]
  rfl

/-- The lines of the pages are wedged, no other line changes (R105). -/
theorem lineOf_wedgedPages (hw : MemCanonical s) (l : Nat) :
    lineOf l (wedgedPages die page pages s).mem
      = if die * 2 ^ 21 + page ≤ linePage l ∧ linePage l < die * 2 ^ 21 + page + pages then wedgedLine else lineOf l s.mem := by
  have hd : lineOf l (wedgedPages die page pages s).mem = lineOf l (fillPages (die * 2 ^ 21 + page) pages none s.mem) := rfl
  rw [hd]
  split
  · next h => exact lineOf_fillPages_inside none hw h.1 h.2
  · next h => exact lineOf_fillPages_other none hw h

theorem dieMem_wedgedPages (k : Nat) :
    dieMem k (wedgedPages die page pages s) = if k = die then (dieMem k s).map (wedgedDie page pages (diePages die s)) else dieMem k s :=
  dieMem_modDie k die _ _

theorem wedgedPages_only : Only [.mem] s (wedgedPages die page pages s) := by
  intro p hp
  cases p <;> simp_all [wedgedPages, modDie, Comp.same]

end

/-- What a command that a die's memory alone takes leaves: only the reply, the memory and the die's idleness. -/
theorem ok_memory {r op die : Nat} {s u : State} {f : Inflight} (h : Ready r op 0 s f) (hu : Only [.mem] (latched r 0 (touchDie die s)) u) :
    Only [.host, .obs, .mem, .tal] s (ok r [] u) ∧ Replied r op stOK [] [] s (ok r [] u) ∧ (ok r [] u).mem = u.mem := by
  obtain ⟨-, -, hf, hop, -, -⟩ := h
  have hh : u.host = (latched r 0 (touchDie die s)).host := hu .host (by decide)
  have hi : inflightOf r u = some { f with lsid := 0, start := latchOf 0 (touchDie die s) } := by
    have := inflightOf_latched (r := r) (sid := 0) (s := touchDie die s) (f := f) hf
    simpa only [inflightOf, ringOf, hh] using this
  have hq : ∀ q, q ≠ r → ringOf q u = ringOf q s := fun q hq => by
    have := ringOf_latched_ne (sid := 0) (s := touchDie die s) hq
    simpa only [ringOf, hh, touchDie_host] using this
  refine ⟨?_, ?_, finish_mem ..⟩
  · have h1 := (touchDie_only die s).mono (qs := [.host, .obs, .mem, .tal]) (by decide)
    have h2 := (latched_only r 0 (touchDie die s)).mono (qs := [.host, .obs, .mem, .tal]) (by decide)
    exact ((h1.trans h2).trans (hu.mono (by decide))).trans (Only.mono (finish_only _ _ _ _ _ _ _) (by decide))
  · have := finish_replied (st := stOK) (ix := 0xFFFFF) (res := []) (items := []) hi hq
    simpa only [ok, hop] using this

/-- Settles O14: the pages are filled without a fill, which reads as the wedged state, and the die's memory becomes `wedgedDie` of itself. -/
theorem memWedge : Obligations.MemWedge := by
  intro s r die page pages f m h hw hwarm hm hd hs hp hl
  obtain ⟨honly, hrep, hmem⟩ := ok_memory (die := die) h (wedgedPages_only (die := die) (page := page) (pages := pages))
  have hline (l : Nat) := (congrArg (lineOf l) hmem).trans
    (lineOf_wedgedPages (s := latched r 0 (touchDie die s)) (die := die) (page := page) (pages := pages) hw l)
  have hdie (k : Nat) : dieMem k _ = _ := (congrArg (·.dies[k]?) hmem).trans
    (dieMem_wedgedPages (s := latched r 0 (touchDie die s)) (die := die) (page := page) (pages := pages) k)
  refine ⟨_, memWedge_acts h hwarm hm hd hs hp hl, honly, hrep, fun l h1 h2 => ?_, fun l hl => ?_, ?_, fun k hk => ?_⟩
  · rw [hline, if_pos ⟨h1, h2⟩]
  · rw [hline, if_neg (by omega)]; rfl
  · rw [hdie, if_pos rfl]; exact congrArg (Option.map _) hm
  · rw [hdie, if_neg hk]; rfl

/-! ### BISQUE_CONFIG (R110) -/

/-- A memory command with opcode 0x42 stands in flight on ring 0, and the machine holds a ninth die's memory, which is still training. -/
def ninthDie : State :=
  { State.reset with
    glb := { State.reset.glb with hubReset := false }
    tal := { State.reset.tal with running := true }
    mem := { resetMem with dies := resetMem.dies ++ [{ resetDie with st := .training }] }
    host := { resetHost with rings := resetHost.rings.modify 0 fun g =>
      { g with inflight := some ⟨0x42, 7, 0, false, 0, 4096, 0, ⟨0, 0, 0, 0⟩, 0, 0, none⟩ }, bounceSize := 1 } }

/-- Settings in range that no die has at reset. -/
def slowSweep : BisqueCfg := ⟨604800000000000, 60000000000, 4, 1⟩

theorem ninthDie_facts : Ready 0 0x42 0 ninthDie ⟨0x42, 7, 0, false, 0, 4096, 0, ⟨0, 0, 0, 0⟩, 0, 0, none⟩ ∧ bisqueOk slowSweep = true
    ∧ warmDie 8 ninthDie = true := by decide

/-- The command for all dies is answered BUSY and changes no die. -/
theorem ninthDie_refuses : exec (.bisqueConfig 0 slowSweep 8) ninthDie
    = .next (finish 0 stBUSY 7 0xFFFFF [] [] (touchDie 8 ninthDie)) := by
  obtain ⟨h, hb, hw⟩ := ninthDie_facts
  rw [exec_bisqueConfig, execBisqueConfig, memCmd_ready h]
  refine cmdFor_refuses (ready_touchDie h) (c := chkWarm true) ?_ (by decide)
  have hw' : warmDie 8 (touchDie 8 ninthDie) = true := hw
  simp [firstBad, hb, hw']

/-- Refutes O15: with DIE 8, which names every die, BISQUE_CONFIG still asks whether a die of number 8 is being made ready; in a state whose
list of dies' memories has a ninth entry in training it answers BUSY and sets no die, where the statement says that every die is set. -/
theorem not_memoryCommands : ¬ Obligations.MemoryCommands := by
  intro h
  obtain ⟨hr, hb, -⟩ := ninthDie_facts
  obtain ⟨_, _, _, _, _, _, _, hcfg⟩ := h.1 ninthDie 0 0 _ (by decide)
  have he := Host.Outcome.next.inj (ninthDie_refuses.symm.trans (hcfg slowSweep hr hb).1)
  have hm := congrArg (fun t : State => (t.mem.dies[0]?).map (·.cfg)) he
  rw [ok] at hm
  simp only [finish_mem] at hm
  exact absurd hm (by decide)

end Sys2Proof.Machine
end

section
/-! PROOFS. Canonical pool memory (O5; 03 R99, R105, log 7): the shapes that commands share. -/

namespace Sys2Proof.Machine

/-- An outcome whose next state, if there is one, has canonical pool memory. -/
def NextCanonical (o : Host.Outcome State Fault Refusal) : Prop := ∀ t, o = .next t → MemCanonical t

@[simp] theorem nextCanonical_next (s : State) : NextCanonical (.next s) ↔ memWf s.mem = true := by
  simp [NextCanonical, MemCanonical]

/-- The canonical form looks at lines and fills only. -/
@[simp] theorem memWf_mk (m : MemSt) (dies : List DieMem) (rowMends : SMap (List Nat)) (ueLast : SMap Nat) (softRows hardRows : List RowLoc)
    (pendingSppr : List Nat) (savedSppr : List (RowLoc × Bool)) (presence : List Nat) (spares : List Spare) (rowErrs : List (Spare × Nat))
    (tableAt : Nat) :
    memWf ⟨dies, m.fills, m.lines, rowMends, ueLast, softRows, hardRows, pendingSppr, savedSppr, presence, spares, rowErrs, tableAt⟩ = memWf m :=
  memWf_same rfl rfl

/-! ### Commands -/

section
variable {f : State → State} {s : State} (h : memWf s.mem = true) (hf : ∀ u, memWf u.mem = true → memWf (f u).mem = true)
include h hf

theorem nextCanonical_cmdFor (r op sid : Nat) (checks : Inflight → State → List Chk) : NextCanonical (cmdFor r op sid checks f s) := by
  unfold cmdFor
  split
  · simp [h]
  · split
    · split
      · simp only [nextCanonical_next, finish_mem]
        split <;> exact h
      · exact (nextCanonical_next _).2 (hf _ h)
    · simp [h]

theorem nextCanonical_cmd (r op : Nat) (checks : Inflight → State → List Chk) : NextCanonical (cmd r op checks f s) :=
  nextCanonical_cmdFor h hf r op 0 checks

theorem nextCanonical_memCmd (r op die : Nat) (checks : Inflight → State → List Chk) : NextCanonical (memCmd r op die checks f s) :=
  nextCanonical_cmd (by split <;> exact h) hf r op checks

theorem nextCanonical_act : NextCanonical (act f s) := (nextCanonical_next _).2 (hf s h)

end

/-! ### Lists of steps -/

/-- Steps that leave pool memory alone do so one after another. -/
@[simp] theorem foldl_mem {α : Type} {g : State → α → State} (hg : ∀ s a, (g s a).mem = s.mem) (l : List α) (s : State) :
    (l.foldl g s).mem = s.mem := by
  induction l generalizing s with
  | nil => rfl
  | cons a l ih => exact (ih (g s a)).trans (hg s a)

@[simp] theorem foldl_modShelf_mem (f : State → Nat → Shelf → Shelf) (l : List Nat) (s : State) :
    (l.foldl (fun s sh => modShelf sh (f s sh) s) s).mem = s.mem :=
  foldl_mem (fun _ _ => modShelf_mem _ _ _) l s

end Sys2Proof.Machine
end

section
/-! PROOFS. What leaves pool memory alone (O5): one lemma for each operation that the steps with memory are made of. -/

namespace Sys2Proof.Machine

/-! ### Shared operations -/

@[simp] theorem draw_mem (s : State) : (draw s).2.mem = s.mem := rfl

@[simp] theorem countDenied_mem (sid : Nat) (s : State) : (countDenied sid s).mem = s.mem := rfl

@[simp] theorem flushVecs_mem (s : State) : (flushVecs s).mem = s.mem :=
  foldl_mem (fun _ _ => by split <;> simp) _ s

@[simp] theorem ok_mem (r : Nat) (res : List Nat) (s : State) : (ok r res s).mem = s.mem := by simp [ok]

@[simp] theorem okItem_mem (r : Nat) (items : List OutItem) (s : State) : (okItem r items s).mem = s.mem := by simp [okItem]

@[simp] theorem okStatus_mem (r status : Nat) (res : List Nat) (s : State) : (okStatus r status res s).mem = s.mem := by simp [okStatus]

@[simp] theorem refuse_mem (r status stage : Nat) (s : State) : (refuse r status stage s).mem = s.mem := by simp [refuse]

/-! ### What the hub sends (08, 09) -/

@[simp] theorem modPortCtr_mem (p : Nat) (f : PortCtr → PortCtr) (s : State) : (modPortCtr p f s).mem = s.mem := rfl

@[simp] theorem modAssoc_mem (p aid : Nat) (f : Assoc → Assoc) (s : State) : (modAssoc p aid f s).mem = s.mem := rfl

@[simp] theorem noteBreach_mem (sid guarantee reason port meter amount : Nat) (s : State) :
    (noteBreach sid guarantee reason port meter amount s).mem = s.mem := by
  unfold noteBreach
  dsimp only
  split <;> rfl

@[simp] theorem countLate_mem (sid : Nat) (s : State) : (countLate sid s).mem = s.mem := rfl

@[simp] theorem sendAt_mem (due p : Nat) (plain : Bool) (m : OutMsg) (s : State) : (sendAt due p plain m s).mem = s.mem := by
  unfold sendAt
  dsimp only
  (repeat' split) <;> simp

@[simp] theorem sendOn_mem (p : Nat) (fence : Bool) (x : OutMsg) (s : State) : (sendOn p fence x s).mem = s.mem := by simp [sendOn]

@[simp] theorem sendWords_mem (p op dst tag tgen status : Nat) (body : List Nat) (s : State) :
    (sendWords p op dst tag tgen status body s).mem = s.mem := by
  simp [sendWords]

@[simp] theorem flushFences_mem (p aid : Nat) (s : State) : (flushFences p aid s).mem = s.mem := by unfold flushFences; split <;> simp

@[simp] theorem closeReq_mem (p aid tag : Nat) (s : State) : (closeReq p aid tag s).mem = s.mem := by simp [closeReq]

@[simp] theorem openReq_mem (p aid tag tgen : Nat) (fence : Bool) (s : State) : (openReq p aid tag tgen fence s).mem = s.mem := rfl

@[simp] theorem clearAgentNacks_mem (aid : Nat) (s : State) : (clearAgentNacks aid s).mem = s.mem := rfl

@[simp] theorem done_mem (p aid tag tgen sid status : Nat) (line : Option (LineData × Nat)) (old : List Nat) (s : State) :
    (done p aid tag tgen sid status line old s).mem = s.mem := by
  unfold done
  split <;> simp

@[simp] theorem doneSt_mem (p aid tag tgen sid status : Nat) (s : State) : (doneSt p aid tag tgen sid status s).mem = s.mem := by simp [doneSt]

@[simp] theorem sendTracked_mem (p op aid : Nat) (body : List Nat) (line : Option (LineData × Nat)) (pur : Purpose) (s : State) :
    (sendTracked p op aid body line pur s).mem = s.mem := by
  simp [sendTracked]

@[simp] theorem sendHread_mem (hid off : Nat) (pur : Purpose) (s : State) : (sendHread hid off pur s).mem = s.mem := by simp [sendHread]

@[simp] theorem sendHwrite_mem (hid off : Nat) (d : LineData) (cause : Nat) (markOnly : Bool) (pur : Purpose) (s : State) :
    (sendHwrite hid off d cause markOnly pur s).mem = s.mem := by
  simp [sendHwrite]

@[simp] theorem chargeF_mem (sid bytes : Nat) (s : State) : (chargeF sid bytes s).2.mem = s.mem := by unfold chargeF; split <;> rfl

@[simp] theorem chargeL_mem (sid lines : Nat) (s : State) : (chargeL sid lines s).2.mem = s.mem := by unfold chargeL; split <;> rfl

@[simp] theorem letPass_mem (p aid tag sid cost lines came : Nat) (s : State) : (letPass p aid tag sid cost lines came s).2.mem = s.mem := by
  unfold letPass
  dsimp only
  (repeat' split) <;> simp

/-! ### Walks and faults (02) -/

@[simp] theorem modLeaf_mem (sid base : Nat) (f : Leaf → Leaf) (s : State) : (modLeaf sid base f s).mem = s.mem := rfl

@[simp] theorem refreshRec_mem (f : Fault') (s : State) : (refreshRec f s).mem = s.mem := rfl

@[simp] theorem closeBatch_mem (s : State) : (closeBatch s).mem = s.mem := by unfold closeBatch; dsimp only; split <;> rfl

@[simp] theorem readyRec_mem (r : FaultRec) (s : State) : (readyRec r s).mem = s.mem := by unfold readyRec; dsimp only; (repeat' split) <;> simp

theorem hitFault_mem {w : Waiter} {acc sid page kind : Nat} {big : Bool} {s t : State} (h : hitFault w acc sid page big kind s = some t) :
    t.mem = s.mem := by
  unfold hitFault at h
  split at h
  · cases h
  · split at h
    · obtain rfl := Option.some.inj h
      rfl
    · split at h
      · cases h
      · obtain rfl := Option.some.inj h
        simp

@[simp] theorem hitFault_getD_mem (w : Waiter) (acc sid page : Nat) (big : Bool) (kind : Nat) (s : State) :
    ((hitFault w acc sid page big kind s).getD s).mem = s.mem := by
  cases h : hitFault w acc sid page big kind s with
  | none => rfl
  | some t => exact hitFault_mem h

@[simp] theorem addHeat_mem (sid base n : Nat) (s : State) : (addHeat sid base n s).mem = s.mem := by
  unfold addHeat
  dsimp only
  (repeat' split) <;> simp

/-! ### The directory (04) -/

@[simp] theorem modEnt_mem (k : Nat) (f : DirEnt → DirEnt) (s : State) : (modEnt k f s).mem = s.mem := rfl

@[simp] theorem setAgent_mem (aid : Nat) (a : Agent) (s : State) : (setAgent aid a s).mem = s.mem := rfl

@[simp] theorem entFromSummary_mem (k sid page : Nat) (s : State) : (entFromSummary k sid page s).2.mem = s.mem := by
  unfold entFromSummary
  dsimp only
  (repeat' split) <;> simp

@[simp] theorem sendSnoop_mem (k : Nat) (inv : Bool) (aid : Nat) (s : State) : (sendSnoop k inv aid s).mem = s.mem := by simp [sendSnoop]

@[simp] theorem clearNacks_mem (aid k : Nat) (s : State) : (clearNacks aid k s).mem = s.mem := rfl

@[simp] theorem countAccess_mem (q : Req) (s : State) : (countAccess q s).mem = s.mem := by unfold countAccess; split <;> simp

@[simp] theorem doneReq_mem (k : Nat) (q : Req) (status : Nat) (line : Option (LineData × Nat)) (old : List Nat) (s : State) :
    (doneReq k q status line old s).mem = s.mem := by
  unfold doneReq
  (repeat' split) <;> simp

@[simp] theorem modHead_mem (k : Nat) (q : Req) (s : State) : (modHead k q s).mem = s.mem := rfl

@[simp] theorem writeRemote_mem (k : Nat) (q : Req) (d : LineData) (c : Nat) (s : State) :
    (writeRemote k q d c s).mem = s.mem := by
  simp [writeRemote]

@[simp] theorem noteRecalled_mem (k : Nat) (s : State) : (noteRecalled k s).mem = s.mem := by unfold noteRecalled; split <;> rfl

@[simp] theorem pushReq_mem (k : Nat) (q : Req) (s : State) : (pushReq k q s).mem = s.mem := rfl

@[simp] theorem newEnt_mem (k : Nat) (q : Req) (s : State) : (newEnt k q s).mem = s.mem := by simp [newEnt]

@[simp] theorem nextReserv_mem (s : State) : (nextReserv s).mem = s.mem := by unfold nextReserv; split <;> rfl

@[simp] theorem nack_mem (k : Nat) (q : Req) (reason : Nat) (s : State) : (nack k q reason s).mem = s.mem := by
  unfold nack
  dsimp only
  (repeat' split) <;> simp

@[simp] theorem useResv_mem (k : Nat) (q : Req) (s : State) : (useResv k q s).mem = s.mem := by unfold useResv; split <;> simp

@[simp] theorem holdCut_mem (reason k : Nat) (s : State) : (holdCut reason k s).mem = s.mem := by unfold holdCut; (repeat' split) <;> simp

/-! ### Agents' requests (04) -/

@[simp] theorem refuseLine_mem (m : Mhd) (sid status : Nat) (s : State) : (refuseLine m sid status s).mem = s.mem := by simp [refuseLine]

@[simp] theorem zeroAnswer_mem (m : Mhd) (sid cause : Nat) (op : LineOp) (s : State) : (zeroAnswer m sid cause op s).mem = s.mem := by
  unfold zeroAnswer
  split <;> simp

@[simp] theorem waitMig_mem (sid base : Nat) (w : MigWait) (s : State) : (waitMig sid base w s).mem = s.mem := rfl

@[simp] theorem joinAck_mem (m : Mhd) (status lepoch : Nat) (c : CohCfg) (s : State) : (joinAck m status lepoch c s).mem = s.mem := by simp [joinAck]

@[simp] theorem serveJoin_mem (m : Mhd) (kind sid : Nat) (s : State) : (serveJoin m kind sid s).mem = s.mem := by
  unfold serveJoin
  dsimp only
  (repeat' split) <;> simp

@[simp] theorem servePulse_mem (m : Mhd) (lepoch : Nat) (s : State) : (servePulse m lepoch s).mem = s.mem := by
  unfold servePulse
  dsimp only
  (repeat' split) <;> simp

@[simp] theorem superseded_mem (name : Nat) (p win : Pub) (s : State) : (superseded name p win s).mem = s.mem := by simp [superseded]

@[simp] theorem regionAck_mem (m : Mhd) (status active : Nat) (s : State) : (regionAck m status active s).mem = s.mem := by simp [regionAck]

@[simp] theorem owedRecord_mem (name sid : Nat) (o : Owed) (s : State) : (owedRecord name sid o s).mem = s.mem := by simp [owedRecord]

@[simp] theorem regionRecord_mem (name kind : Nat) (s : State) : (regionRecord name kind s).mem = s.mem := by
  unfold regionRecord
  (repeat' split) <;> simp

/-! ### Movers (02) -/

@[simp] theorem takeAnswer_mem (w : Who) (s : State) : (takeAnswer w s).2.mem = s.mem := by unfold takeAnswer; split <;> rfl

@[simp] theorem devCharge_mem (q : Req) (s : State) : (devCharge q s).2.mem = s.mem := by unfold devCharge; split <;> simp

@[simp] theorem sendCompletion_mem (due : Nat) (sub : Nat × Nat × Nat × Nat) (status : Nat) (rec : List Nat) (s : State) :
    (sendCompletion due sub status rec s).mem = s.mem := by
  simp [sendCompletion]

@[simp] theorem modRun_mem (mid : Nat) (f : MRun → MRun) (s : State) : (modRun mid f s).mem = s.mem := rfl

@[simp] theorem endRun_mem (x : MRun) (s : State) : (endRun x s).mem = s.mem := by unfold endRun; dsimp only; (repeat' split) <;> simp

@[simp] theorem breakChain_mem (id : Nat) (s : State) : (breakChain id s).mem = s.mem := by unfold breakChain; split <;> simp

@[simp] theorem completeRun_mem (x : MRun) (s : State) : (completeRun x s).mem = s.mem := by unfold completeRun; split <;> simp

@[simp] theorem hitMore_mem (w : Waiter) (acc : Nat) (f : Fault') (s : State) : (hitMore w acc f s).mem = s.mem := rfl

@[simp] theorem hitPages_mem (w : Waiter) (sid acc kind : Nat) (ps : List (Nat × PageRes)) (s : State) :
    (hitPages w sid acc kind ps s).mem = s.mem :=
  foldl_mem (fun _ _ => by (repeat' split) <;> simp) ps s

@[simp] theorem acceptMove_mem (x : MRun) (s : State) : (acceptMove x s).mem = s.mem := by unfold acceptMove; dsimp only; (repeat' split) <;> simp

@[simp] theorem refuseWork_mem (m : Mhd) (sid kind tag glaze status : Nat) (s : State) : (refuseWork m sid kind tag glaze status s).mem = s.mem := by
  unfold refuseWork
  split <;> simp

@[simp] theorem endChain_mem (p aid : Nat) (c : Chain) (s : State) : (endChain p aid c s).mem = s.mem := by unfold endChain; dsimp only; split <;> rfl

@[simp] theorem setChain_mem (p aid : Nat) (c : Option Chain) (s : State) : (setChain p aid c s).mem = s.mem := rfl

@[simp] theorem serve1_mem (m : Mhd) (d : MoveDesc) (sid : Nat) (c : Chain) (s : State) : (serveMove.serve1 m d sid c s).mem = s.mem := by
  unfold serveMove.serve1
  dsimp only
  (repeat' split) <;> simp

@[simp] theorem serveMove_mem (m : Mhd) (d : MoveDesc) (s : State) : (serveMove m d s).mem = s.mem := by
  unfold serveMove
  dsimp only
  (repeat' split) <;> simp

@[simp] theorem countMoved_mem (mid page : Nat) (s : State) : (countMoved mid page s).mem = s.mem := by
  unfold countMoved
  dsimp only
  (repeat' split) <;> simp

@[simp] theorem gotSource_mem (x : MRun) (l : Nat) (v : LineData × Nat) (s : State) : (gotSource x l v s).mem = s.mem := by
  unfold gotSource
  split <;> simp

@[simp] theorem failRun_mem (mid status : Nat) (s : State) : (failRun mid status s).mem = s.mem := rfl

@[simp] theorem moveOn_mem (x : MRun) (c : Nat) (s : State) : (moveOn x c s).mem = s.mem := by unfold moveOn; split <;> simp

/-! ### Firings (06) -/

@[simp] theorem streamLine_mem (fid sid pva : Nat) (s : State) : (streamLine fid sid pva s).mem = s.mem := by
  unfold streamLine
  dsimp only
  (repeat' split) <;> simp

@[simp] theorem firingFaults_mem (f : Firing) (s : State) : (firingFaults f s).mem = s.mem :=
  foldl_mem (fun _ _ => by (repeat' split) <;> simp) _ s

@[simp] theorem freeShelf_mem (sh : Nat) (s : State) : (freeShelf sh s).mem = s.mem := rfl

@[simp] theorem winRest_mem (w : Nat) (rearm : Bool) (s : State) : (winRest w rearm s).mem = s.mem := by unfold winRest; (repeat' split) <;> rfl

@[simp] theorem setFiring_mem (f : Firing) (s : State) : (setFiring f s).mem = s.mem := rfl

/-! ### Shelves and lanes (06) -/

@[simp] theorem countLine_mem (fid cause : Nat) (s : State) : (countLine fid cause s).mem = s.mem := rfl

@[simp] theorem sendPush_mem (f : Firing) (o : OutLine) (cause : Nat) (s : State) : (sendPush f o cause s).mem = s.mem := by
  unfold sendPush
  (repeat' split) <;> simp

@[simp] theorem countNine_mem (k cause : Nat) (s : State) : (countNine k cause s).mem = s.mem := by unfold countNine; split <;> rfl

@[simp] theorem endPart_mem (fid i : Nat) (s : State) : (endPart fid i s).mem = s.mem := by
  unfold endPart
  split
  · rfl
  · split
    · rfl
    · exact foldl_mem (fun _ _ => freeShelf_mem _ _) _ _

@[simp] theorem checkPart_mem (fid sh : Nat) (s : State) : (checkPart fid sh s).mem = s.mem := by unfold checkPart; (repeat' split) <;> simp

@[simp] theorem countRepeat_mem (sid : Nat) (x : Shelf) (s : State) : (countRepeat sid x s).mem = s.mem := by unfold countRepeat; split <;> rfl

@[simp] theorem restoreShelf_mem (sh sid : Nat) (s : State) : (restoreShelf sh sid s).mem = s.mem := by
  simp only [restoreShelf, modShelf_mem]
  cases shelfOf sh s <;> simp

@[simp] theorem markShelf_mem (sh : Nat) (s : State) : (markShelf sh s).mem = s.mem := by unfold markShelf; dsimp only; split <;> rfl

@[simp] theorem mismatch_mem (sh l : Nat) (s : State) : (mismatch sh l s).mem = s.mem := by
  unfold mismatch
  split
  · rfl
  · next x _ =>
    extract_lets pos st k u last u1 u2 u3
    split
    · rfl
    · have h2 : u2.mem = s.mem := by
        unfold u2
        split <;> rfl
      generalize hp : (if st = 0 then _ else _ : Bool × State) = p
      have hm : p.2.mem = s.mem := by
        rw [← hp]
        (repeat' split) <;> simp [u, u3, h2]
      obtain ⟨dead, v⟩ := p
      dsimp only at hm ⊢
      (repeat' split) <;> simp [hm]

/-! ### Glazes (06) -/

@[simp] theorem countFires_mem (sid n : Nat) (s : State) : (countFires sid n s).mem = s.mem := rfl

/-! ### Kiln commands (06) -/

@[simp] theorem endParts_mem (f : Firing) (s : State) : (endParts f s).mem = s.mem :=
  foldl_mem (fun _ _ => by split <;> simp) _ s

/-! ### Windows (07) -/

@[simp] theorem setCtx_mem (n : Nat) (e : Ctx) (s : State) : (setCtx n e s).mem = s.mem := rfl

@[simp] theorem serveCtxSet_mem (m : Mhd) (n : Nat) (e : Ctx) (s : State) : (serveCtxSet m n e s).mem = s.mem := by
  unfold serveCtxSet
  dsimp only
  (repeat' split) <;> simp

@[simp] theorem roundRecord_mem (w outcome firing : Nat) (s : State) : (roundRecord w outcome firing s).mem = s.mem := by
  unfold roundRecord
  (repeat' split) <;> simp

@[simp] theorem failStep_mem (w status : Nat) (f : Firing) (s : State) : (failStep w status f s).mem = s.mem := by unfold failStep; split <;> simp

/-! ### Translation commands (02) -/

@[simp] theorem markChanged_mem (sid : Nat) (s : State) : (markChanged sid s).mem = s.mem := rfl

@[simp] theorem bumpEpoch_mem (sid : Nat) (ack : Bool) (pages : List (Nat × Nat)) (s : State) : (bumpEpoch sid ack pages s).mem = s.mem := rfl

@[simp] theorem stopRun_mem (mid status : Nat) (s : State) : (stopRun mid status s).mem = s.mem := by unfold stopRun; (repeat' split) <;> simp

@[simp] theorem refuseAgent_mem (i : Instr) (status : Nat) (s : State) : (refuseAgent i status s).mem = s.mem := by
  unfold refuseAgent
  (repeat' split) <;> simp

@[simp] theorem dropFault_mem (id : Nat) (s : State) : (dropFault id s).mem = s.mem := rfl

@[simp] theorem refillRun_mem (mid : Nat) (sel : Nat → Bool) (s : State) : (refillRun mid sel s).mem = s.mem := by
  unfold refillRun
  dsimp only
  (repeat' split) <;> simp

@[simp] theorem timeDecay_mem (k period : Nat) (s : State) : (timeDecay k period s).mem = s.mem := rfl

@[simp] theorem strayLine_mem (k : Nat) (e : DirEnt) (s : State) : (strayLine k e s).mem = s.mem := by
  unfold strayLine
  dsimp only
  split
  · exact foldl_mem (fun _ _ => by split <;> simp) _ _
  · rfl

theorem migMover_mem {mid : Nat} {s t : State} (h : migMover mid s = some t) : t.mem = s.mem := by
  unfold migMover at h
  split at h
  · exact congrArg State.mem (Option.some.inj h).symm
  · split at h
    · cases h
    · obtain rfl := Option.some.inj h
      rfl

/-! ### Holders (02, 03) -/

@[simp] theorem closeOutst_mem (o : Outst) (s : State) : (closeOutst o s).mem = s.mem := rfl

@[simp] theorem lateAnswer_mem (p : Nat) (s : State) : (lateAnswer p s).mem = s.mem := rfl

@[simp] theorem discardBack_mem (k : Nat) (s : State) : (discardBack k s).mem = s.mem := rfl

@[simp] theorem sendFence_mem (p aid : Nat) (s : State) : (sendFence p aid s).mem = s.mem := by simp [sendFence]

/-! ### Saggers (09) -/

@[simp] theorem releaseParts_mem (s : State) : (releaseParts s).mem = s.mem := rfl

@[simp] theorem drainedRecord_mem (sid : Nat) (s : State) : (drainedRecord sid s).mem = s.mem := by unfold drainedRecord; (repeat' split) <;> simp

@[simp] theorem gateTrace_mem (p : Nat) (s : State) : (gateTrace p s).mem = s.mem := by unfold gateTrace; (repeat' split) <;> simp

@[simp] theorem setGate_mem (p : Nat) (g : GateSched) (s : State) : (setGate p g s).mem = s.mem := by simp [setGate]

/-! ### Links (08) -/

@[simp] theorem regrant_mem (p : Nat) (s : State) : (regrant p s).mem = s.mem := rfl

@[simp] theorem freePools_mem (s : State) : (freePools s).mem = s.mem := foldl_mem (fun _ _ => by simp) _ s

@[simp] theorem toTraining_mem (fast : Bool) (p : Nat) (s : State) : (toTraining fast p s).mem = s.mem := rfl

@[simp] theorem sendRetrain_mem (p : Nat) (s : State) : (sendRetrain p s).mem = s.mem := by unfold sendRetrain; split <;> rfl

@[simp] theorem startReplay_mem (p : Nat) (s : State) : (startReplay p s).mem = s.mem := by unfold startReplay; dsimp only; (repeat' split) <;> simp

@[simp] theorem takeNak_mem (p a : Nat) (s : State) : (takeNak p a s).mem = s.mem := by unfold takeNak; dsimp only; (repeat' split) <;> simp

@[simp] theorem protoErr_mem (p : Nat) (s : State) : (protoErr p s).mem = s.mem := rfl

@[simp] theorem dropStranger_mem (p : Nat) (s : State) : (dropStranger p s).mem = s.mem := rfl

@[simp] theorem traceRx_mem (p op vc sid ivc keygen src dst : Nat) (s : State) : (traceRx p op vc sid ivc keygen src dst s).mem = s.mem := by
  unfold traceRx
  split <;> simp

@[simp] theorem helloLen_mem (p : Nat) (m : RxMsg) (s : State) : (helloLen p m s).mem = s.mem := by unfold helloLen; split <;> rfl

@[simp] theorem judgeMsg_mem (p : Nat) (m : RxMsg) (s : State) : (judgeMsg p m s).mem = s.mem := by
  unfold judgeMsg
  dsimp only
  (repeat' split) <;> simp

@[simp] theorem rxTake_mem (p : Nat) (m : RxMsg) (s : State) : (rxTake p m s).mem = s.mem := by unfold rxTake; dsimp only; (repeat' split) <;> simp

@[simp] theorem noteLate_mem (p : Nat) (x : TxItem) (s : State) : (noteLate p x s).mem = s.mem := by
  unfold noteLate
  dsimp only
  (repeat' split) <;> simp

@[simp] theorem noteSlow_mem (p : Nat) (x : TxItem) (s : State) : (noteSlow p x s).mem = s.mem := by
  unfold noteSlow
  dsimp only
  (repeat' split) <;> simp

@[simp] theorem packFlit_mem (p n room : Nat) (l : List OutMsg) (s : State) : (packFlit p n room l s).2.mem = s.mem := by
  induction n generalizing room l s with
  | zero => rfl
  | succ n ih =>
    unfold packFlit
    dsimp only
    (repeat' split) <;> simp [ih]

@[simp] theorem putFlit_mem (p ftype seq cont : Nat) (msgs : List OutMsg) (ctl : Option (Lctl × Bool × Nat × List Nat)) (s : State) :
    (putFlit p ftype seq cont msgs ctl s).mem = s.mem := by
  unfold putFlit
  split <;> rfl

@[simp] theorem sendLctl_mem (p : Nat) (c : Lctl) (s : State) : (sendLctl p c s).mem = s.mem := by unfold sendLctl; split <;> simp

@[simp] theorem endAdmission_mem (p aid : Nat) (s : State) : (endAdmission p aid s).mem = s.mem := rfl

@[simp] theorem setAssoc_mem (p aid : Nat) (a : Assoc) (s : State) : (setAssoc p aid a s).mem = s.mem := rfl

@[simp] theorem notAdmitted_mem (m : Mhd) (s : State) : (notAdmitted m s).mem = s.mem := by simp [notAdmitted]

@[simp] theorem answerHello_mem (m : Mhd) (nonceA xa versions : Nat) (a : Assoc) (s : State) :
    (answerHello m nonceA xa versions a s).mem = s.mem := by
  simp [answerHello]

@[simp] theorem serveHello_mem (m : Mhd) (nonceA xa versions : Nat) (q : Port) (a : Assoc) (s : State) :
    (serveHello m nonceA xa versions q a s).mem = s.mem := by
  unfold serveHello
  dsimp only
  (repeat' split) <;> simp

@[simp] theorem serveProve_mem (m : Mhd) (ida certSig keyslot certEpoch : Nat) (certSigOk sigAOk : Bool) (q : Port) (a : Assoc) (s : State) :
    (serveProve m ida certSig keyslot certEpoch certSigOk sigAOk q a s).mem = s.mem := by
  unfold serveProve
  dsimp only
  (repeat' split) <;> simp

@[simp] theorem startRekey_mem (p aid : Nat) (s : State) : (startRekey p aid s).mem = s.mem := by unfold startRekey; (repeat' split) <;> simp

@[simp] theorem switchTx_mem (p aid : Nat) (s : State) : (switchTx p aid s).mem = s.mem := rfl

/-! ### The twins (11) -/

@[simp] theorem goFatal_mem (cause : Nat) (s : State) : (goFatal cause s).mem = s.mem := by unfold goFatal; split <;> simp

@[simp] theorem loseWindows_mem (die : Nat) (s : State) : (loseWindows die s).mem = s.mem :=
  foldl_mem (fun _ _ => by dsimp only; split <;> simp) _ s

@[simp] theorem resumeTrace_mem (s : State) : (resumeTrace s).mem = s.mem := by unfold resumeTrace; split <;> simp

@[simp] theorem abandonSheet_mem (s : State) : (abandonSheet s).mem = s.mem := by unfold abandonSheet; dsimp only; split <;> simp

@[simp] theorem leavePlane_mem (p cause start : Nat) (s : State) : (leavePlane p cause start s).mem = s.mem := by
  unfold leavePlane
  dsimp only
  (repeat' split) <;> simp

@[simp] theorem pathSilent_mem (watcher path : Nat) (s : State) : (pathSilent watcher path s).mem = s.mem := by
  unfold pathSilent
  dsimp only
  (repeat' split) <;> simp

@[simp] theorem execPulseWindow_heard_mem (o watcher : Nat) (wire mailbox : Bool) (s : State) :
    (execPulseWindow.heard o watcher wire mailbox s).mem = s.mem := by
  unfold execPulseWindow.heard
  (repeat' split) <;> simp

@[simp] theorem setHeld_mem (g : Nat) (l : List (Nat × Nat × Nat)) (s : State) : (setHeld g l s).mem = s.mem := rfl

@[simp] theorem diverge_mem (s : State) : (diverge s).mem = s.mem := by simp [diverge]

@[simp] theorem badResident_mem (sh id : Nat) (s : State) : (badResident sh id s).mem = s.mem := by unfold badResident; split <;> simp

@[simp] theorem addPause_mem (len why : Nat) (s : State) : (addPause len why s).mem = s.mem := rfl

@[simp] theorem noteDelay_mem (len why : Nat) (i : Instr) (s : State) : (noteDelay len why i s).mem = s.mem := by
  unfold noteDelay
  dsimp only
  (repeat' split) <;> simp

/-! ### The host path (10) -/

@[simp] theorem refaultRecords_mem (s : State) : (refaultRecords s).mem = s.mem := by unfold refaultRecords; dsimp only; (repeat' split) <;> simp

@[simp] theorem stopRing_mem (r : Nat) (s : State) : (stopRing r s).mem = s.mem := by unfold stopRing; split <;> rfl

@[simp] theorem stopRings_mem (fresh : Bool) (s : State) : (stopRings fresh s).mem = s.mem := rfl

@[simp] theorem takeDoorbell_mem (r p : Nat) (s : State) : (takeDoorbell r p s).mem = s.mem := by unfold takeDoorbell; (repeat' split) <;> simp

@[simp] theorem startRing_mem (r : Nat) (s : State) : (startRing r s).mem = s.mem := by unfold startRing; (repeat' split) <;> simp

@[simp] theorem endSession_mem (s : State) : (endSession s).mem = s.mem := rfl

@[simp] theorem popEvent_mem (s : State) : (popEvent s).mem = s.mem := rfl

/-! ### Security (12) -/

@[simp] theorem endHostWait_mem (bell : Nat) (s : State) : (endHostWait bell s).mem = s.mem := rfl

@[simp] theorem startHostWait_mem (s : State) : (startHostWait s).mem = s.mem := rfl

@[simp] theorem failRng_mem (test : Nat) (s : State) : (failRng test s).mem = s.mem := by simp [failRng]

@[simp] theorem zeroSheet_mem (s : State) : (zeroSheet s).mem = s.mem := rfl

@[simp] theorem slOff_mem (reason : Nat) (s : State) : (slOff reason s).mem = s.mem := by unfold slOff; split <;> simp

@[simp] theorem burn_mem (r : Nat) (b : Burn) (s : State) : (burn r b s).mem = s.mem := rfl

@[simp] theorem joinCert_mem (old : Option (Nat × Bool)) (c : Nat) (subjectOk : Bool) (s : State) : (joinCert old c subjectOk s).2.mem = s.mem := by
  unfold joinCert
  dsimp only
  (repeat' split) <;> simp

@[simp] theorem endBurn_mem (b : Burn) (s : State) : (endBurn b s).mem = s.mem := by unfold endBurn; split <;> simp

@[simp] theorem stopBurn_mem (s : State) : (stopBurn s).mem = s.mem := by unfold stopBurn; dsimp only; (repeat' split) <;> simp

@[simp] theorem proofEnd_mem (r nonce : Nat) (changed : List Nat) (s : State) : (proofEnd r nonce changed s).mem = s.mem := by
  unfold proofEnd
  (repeat' split) <;> simp

@[simp] theorem spdmSay_mem (code : Nat) (body : List Nat) (s : State) : (spdmSay code body s).mem = s.mem := rfl

@[simp] theorem spdmError_mem (e : Nat) (s : State) : (spdmError e s).mem = s.mem := rfl

/-! ### Power and start-up (14) -/

@[simp] theorem failPower_mem (s : State) : (failPower s).mem = s.mem := by simp [failPower]

@[simp] theorem drawPhase_mem (s : State) : (drawPhase s).2.mem = s.mem := rfl

@[simp] theorem badShelf_mem (sh : Nat) (s : State) : (badShelf sh s).mem = s.mem := by unfold badShelf; split <;> simp

@[simp] theorem powerOffEnd_mem (r : Nat) (s : State) : (powerOffEnd r s).mem = s.mem := by simp [powerOffEnd]

@[simp] theorem setCross_mem (d : ClockDomain) (x : Option Cross) (s : State) : (setCross d x s).mem = s.mem := rfl

@[simp] theorem pcieDown_mem (s : State) : (pcieDown s).mem = s.mem := by
  unfold pcieDown after execHostPathReset act
  dsimp only
  split <;> rfl

@[simp] theorem freezeRegion_mem (unit cause : Nat) (s : State) : (freezeRegion unit cause s).mem = s.mem := rfl

/-! ### The board controller (16) -/

@[simp] theorem sideData_mem (code : Nat) (bytes : List Nat) (s : State) : (sideData code bytes s).mem = s.mem := rfl

@[simp] theorem setCml_mem (s : State) : (setCml s).mem = s.mem := rfl

@[simp] theorem modPin_mem (p : Nat) (f : EvtPinSt → EvtPinSt) (s : State) : (modPin p f s).mem = s.mem := rfl

@[simp] theorem drivePin_mem (p : Nat) (level : Bool) (s : State) : (drivePin p level s).mem = s.mem := by unfold drivePin; split <;> rfl

@[simp] theorem setIr_mem (v : Nat) (s : State) : (setIr v s).mem = s.mem := rfl

@[simp] theorem testBank_mem (bank : Nat) (s : State) : (testBank bank s).mem = s.mem := by unfold testBank; dsimp only; split <;> rfl

/-! ### Observation (15) -/

@[simp] theorem clearPeaks_mem (sid : Nat) (s : State) : (clearPeaks sid s).mem = s.mem := rfl

/-! ### Registers (10) -/

@[simp] theorem writeRing_mem (r o v : Nat) (s : State) : (writeRing r o v s).mem = s.mem := by unfold writeRing; (repeat' split) <;> rfl

@[simp] theorem writeBounce_mem (off v : Nat) (s : State) : (writeBounce off v s).mem = s.mem := by unfold writeBounce; (repeat' split) <;> rfl

/-! ### Contact sheets (15) -/

@[simp] theorem trimTrace_mem (s : State) : (trimTrace s).mem = s.mem := rfl

@[simp] theorem pauseTrace_mem (s : State) : (pauseTrace s).mem = s.mem := by unfold pauseTrace; split <;> simp

@[simp] theorem takeSheet_mem (r : Nat) (data : Bool) (s : State) : (takeSheet r data s).mem = s.mem := by simp [takeSheet]

end Sys2Proof.Machine
end

section
/-! PROOFS. Canonical pool memory (O5; 03 R99, R105, log 7): the helpers that read or write pool memory. Each lemma says that its function takes
a state with canonical memory to one with canonical memory. -/

namespace Sys2Proof.Machine

/-! ### Results paired with a state -/

section
variable {α β : Type} {x : α × State}

theorem memWf_snd {a : α} {s : State} (hx : memWf x.2.mem = true) (e : x = (a, s)) : memWf s.mem = true := by
  subst e
  exact hx

/-- A fold whose accumulator carries a state. -/
theorem memWf_foldl_carry (get : β → State) {f : β → α → β}
    (hf : ∀ b a, memWf (get b).mem = true → memWf (get (f b a)).mem = true) (l : List α) {b : β} (hb : memWf (get b).mem = true) :
    memWf (get (l.foldl f b)).mem = true := by
  induction l generalizing b with
  | nil => exact hb
  | cons a l ih => exact ih (hf b a hb)

theorem memWf_thenRead {x : Option α × State} {g : α → State → Option β × State} (hx : memWf x.2.mem = true)
    (hg : ∀ a u, memWf u.mem = true → memWf (g a u).2.mem = true) : memWf (thenRead x g).2.mem = true := by
  obtain ⟨_ | a, s⟩ := x
  · exact hx
  · exact hg a s hx

theorem memWf_readEach {g : α → State → Option β × State} (hg : ∀ a u, memWf u.mem = true → memWf (g a u).2.mem = true) (l : List α)
    {s : State} (h : memWf s.mem = true) : memWf (readEach g l s).2.mem = true := by
  induction l generalizing s with
  | nil => exact h
  | cons a l ih => exact memWf_thenRead (hg a s h) fun _ _ hu => memWf_thenRead (ih hu) fun _ _ hv => hv

end

section
variable {s : State} (h : memWf s.mem = true)
include h

/-! ### Mem -/

@[simp] theorem memWf_readLocal (l sid : Nat) : memWf (readLocal l sid s).2.mem = true := by
  unfold readLocal
  dsimp only
  (repeat' split) <;> simp [h, memWf_noteDecode l sid 0 h]

/-! ### The directory (04) -/

@[simp] theorem memWf_freeEnt (k : Nat) : memWf (freeEnt k s).mem = true := by
  unfold freeEnt
  dsimp only
  (repeat' split) <;> simp [h, memWf_setSummary]

@[simp] theorem memWf_popHead (k : Nat) : memWf (popHead k s).mem = true := by
  unfold popHead
  dsimp only
  (repeat' split) <;> simp [h]

@[simp] theorem memWf_setPresence (k : Nat) : memWf (setPresence k s).mem = true := by
  unfold setPresence
  split <;> simp [h]

@[simp] theorem memWf_grant (k : Nat) (q : Req) (op : Nat) (line : Option (LineData × Nat)) : memWf (grant k q op line s).mem = true :=
  by simp [grant, h]

@[simp] theorem memWf_deliver (k : Nat) (q : Req) (d : LineData × Nat) : memWf (deliver k q d s).mem = true := by
  unfold deliver
  split <;> simp [h]

@[simp] theorem memWf_refuseHead (k : Nat) (q : Req) (status : Nat) : memWf (refuseHead k q status s).mem = true := by simp [refuseHead, h]

@[simp] theorem memWf_wrote (k : Nat) (q : Req) (old : List Nat) : memWf (wrote k q old s).mem = true := by simp [wrote, h]

@[simp] theorem memWf_serveLocal (k : Nat) (q : Req) : memWf (serveLocal k q s).mem = true := by
  have hr (sid : Nat) : memWf (readLocal (keyLine k) sid s).2.mem = true := memWf_readLocal h _ _
  unfold serveLocal
  dsimp only
  split
  · split
    next u e => simp [memWf_writeLocal h e]
    next => simp [h]
  · split
    next u e => simp [memWf_snd (hr _) e]
    next d c u e =>
      have hu := memWf_snd (hr _) e
      split
      · split <;> simp [hu]
      · split
        next v e' => simp [memWf_writeLocal hu e']
        next => simp [hu]
  · split
    next d u e => simp [memWf_snd (hr _) e]
    next u e => simp [memWf_snd (hr _) e]

@[simp] theorem memWf_remoteData (k : Nat) (q : Req) (d : LineData) (c : Nat) : memWf (remoteData k q d c s).mem = true := by
  unfold remoteData
  (repeat' split) <;> simp [h]

@[simp] theorem memWf_serveRemote (k : Nat) (e : DirEnt) (q : Req) : memWf (serveRemote k e q s).mem = true := by
  unfold serveRemote
  (repeat' split) <;> simp [h]

@[simp] theorem memWf_serveHead (k : Nat) (e : DirEnt) (q : Req) : memWf (serveHead k e q s).mem = true := by
  unfold serveHead
  (repeat' split) <;> simp [h]

@[simp] theorem memWf_markOwned (k aid : Nat) : memWf (markOwned k aid s).mem = true := by
  unfold markOwned
  dsimp only
  (repeat' split) <;> simp [h, memWf_setCraze]

@[simp] theorem memWf_pump (fuel k : Nat) : memWf (pump fuel k s).mem = true := by
  induction fuel generalizing s with
  | zero => exact h
  | succ n ih =>
    unfold pump
    dsimp only
    (repeat' split) <;> simp [h, ih]

@[simp] theorem memWf_evictLine (v : Nat) : memWf (evictLine v s).mem = true := by simp [evictLine, h]

@[simp] theorem memWf_tryWay (w : Nat × Req × Option Nat) : memWf (tryWay w s).mem = true := by
  unfold tryWay
  (repeat' split) <;> simp [h]

@[simp] theorem memWf_serveWays (n : Nat) : memWf (serveWays n s).mem = true := by
  induction n generalizing s with
  | zero => exact h
  | succ n ih =>
    have hw : memWf (s.dir.wayWait.foldl (fun s w => tryWay w s) s).mem = true := memWf_foldl _ (fun _ w hu => memWf_tryWay hu w) _ h
    unfold serveWays
    dsimp only
    (repeat' split) <;> simp [h, hw, ih]

@[simp] theorem memWf_pumpLine (k : Nat) : memWf (pumpLine k s).mem = true := by simp [pumpLine, h]

@[simp] theorem memWf_dirEnter (k : Nat) (q : Req) : memWf (dirEnter k q s).mem = true := by
  unfold dirEnter
  split <;> simp [h]

@[simp] theorem memWf_dirRequest (k : Nat) (q : Req) : memWf (dirRequest k q s).mem = true := by
  unfold dirRequest
  split <;> simp [h]

@[simp] theorem memWf_recallLine (k : Nat) (op : LineOp) (now : Bool) : memWf (recallLine k op now s).mem = true := by
  unfold recallLine
  (repeat' split) <;> simp [h]

@[simp] theorem memWf_recallPage (ppa : Nat) (op : LineOp) (now : Bool) : memWf (recallPage ppa op now s).mem = true :=
  memWf_foldl _ (fun s _ hs => by simp [hs]) _ h

@[simp] theorem memWf_writeBackData (k sid : Nat) (d : LineData) (cause : Nat) : memWf (writeBackData k sid d cause s).mem = true := by
  unfold writeBackData
  split
  · split
    next u e => exact memWf_writeLocal h e
    next => exact h
  · simp [h]

@[simp] theorem memWf_snoopAnswer (k aid : Nat) (back : Option (LineData × Nat)) (gone : Bool) :
    memWf (snoopAnswer k aid back gone s).mem = true := by
  unfold snoopAnswer
  dsimp only
  (repeat' split) <;> simp [h]

@[simp] theorem memWf_leaseEnd (aid cause : Nat) : memWf (leaseEnd aid cause s).mem = true := by
  unfold leaseEnd
  dsimp only
  split
  · exact h
  · rw [foldl_mem fun _ _ => flushFences_mem _ _ _]
    refine memWf_foldl _ (fun u k hu => ?_) _ (by (repeat' split) <;> simp [h])
    (repeat' split) <;> simp [hu]

/-! ### Agents' requests (04) -/

@[simp] theorem memWf_serveLine (m : Mhd) (i : Instr) (q : Req) (addr sid : Nat) : memWf (serveLine m i q addr sid s).mem = true := by
  unfold serveLine
  dsimp only
  generalize hv : (if translate sid addr (accOf q.op) s = .zeros 4 ∧ isRead q.op = true then
    countAccess { q with sid := sid, page := addr / 2 ^ 21 } s else s) = v
  have hm : memWf v.mem = true := by
    rw [← hv]
    split <;> simp [h]
  split
  case h_6 =>
    split
    next u e => rw [hitFault_mem e]; exact hm
    next => simp [hm]
  all_goals (repeat' split) <;> simp [hm]

@[simp] theorem memWf_serveCoh (i : Instr) : memWf (serveCoh i s).mem = true := by
  unfold serveCoh
  dsimp only
  (repeat' split) <;> simp [h]

theorem memWf_arrive (m : Mhd) (i : Instr) {serve : Nat → State → State} (hs : ∀ sid, memWf (serve sid s).mem = true) :
    memWf (arrive m i serve s).mem = true := by
  unfold arrive
  (repeat' split) <;> simp [h, hs]

theorem memWf_metered (m : Mhd) (i : Instr) (cost : Nat) (fence : Bool) {refuse : Nat → State → State} {serve : State → State} (sid : Nat)
    (hr : ∀ st u, memWf u.mem = true → memWf (refuse st u).mem = true) (hs : ∀ u, memWf u.mem = true → memWf (serve u).mem = true) :
    memWf (metered m i cost fence refuse serve sid s).mem = true := by
  have ho : memWf (openReq m.port m.src m.tag m.tgen fence s).mem = true := by simp [h]
  unfold metered
  dsimp only
  split
  · exact hr _ _ ho
  · split
    · exact hr _ _ ho
    · split
      · exact hr _ _ ho
      · (repeat' split) <;> simp [h, hs]

@[simp] theorem memWf_arriveCoh (m : Mhd) (i : Instr) : memWf (arriveCoh m i s).mem = true := by
  unfold arriveCoh
  exact memWf_arrive h _ _ fun sid => memWf_metered h _ _ _ _ sid (fun st u hu => by simp [hu]) fun u hu => by simp [hu]

@[simp] theorem memWf_serveWriteback (m : Mhd) (x : Handle) (lepoch cause : Nat) (line : LineData) (sid : Nat) :
    memWf (serveWriteback m x lepoch cause line sid s).mem = true := by
  unfold serveWriteback
  dsimp only
  split
  · simp [h]
  · split
    · simp [h]
    · split
      · simp [h]
      · split
        · simp [h]
        next e _ =>
          split
          · simp [h]
          · split
            · simp [h]
            next u hw =>
              have hu : memWf u.mem = true := by
                split at hw
                · exact memWf_writeLocal h hw
                · obtain rfl := Option.some.inj hw
                  simp [h]
              (repeat' split) <;> simp [hu]

@[simp] theorem memWf_arriveRsp (m : Mhd) (i : Instr) (x : Handle) (back : Option (LineData × Nat)) (gone : Bool) :
    memWf (arriveRsp m i x back gone s).mem = true := by
  unfold arriveRsp
  exact memWf_arrive h _ _ fun _ => by split <;> simp [h]

@[simp] theorem memWf_drainHolder (hid : Nat) : memWf (drainHolder hid s).mem = true := memWf_foldl _ (fun s _ hs => by simp [hs]) _ h

@[simp] theorem memWf_owe (name kind : Nat) (old new : Pub) : memWf (owe name kind old new s).mem = true := by
  unfold owe
  (repeat' split) <;> simp [h]

@[simp] theorem memWf_servePublish (m : Mhd) (p : Publication) (sid : Nat) : memWf (servePublish m p sid s).mem = true := by
  unfold servePublish
  dsimp only
  (repeat' split) <;> simp [h]

/-! ### Joins and regions (04) -/

@[simp] theorem memWf_bindRegion (name hid : Nat) : memWf (bindRegion name hid s).mem = true := by
  unfold bindRegion
  dsimp only
  (repeat' split) <;> simp [h]

@[simp] theorem memWf_resolveRegion (name choice : Nat) : memWf (resolveRegion name choice s).mem = true := by
  unfold resolveRegion
  (repeat' split) <;> simp [h]

@[simp] theorem memWf_scanEntry (aid k : Nat) : memWf (scanEntry aid k s).mem = true := by
  unfold scanEntry
  dsimp only
  (repeat' split) <;> simp [h]

/-! ### Movers (02) -/

@[simp] theorem memWf_devAsk (k : Nat) (q : Req) : memWf (devAsk k q s).2.mem = true := by
  unfold devAsk
  have ht := h
  rw [← takeAnswer_mem q.who s] at ht
  split
  next r u e => exact memWf_snd ht e
  next u e =>
    have hu := memWf_snd ht e
    dsimp only
    split
    · exact hu
    · have hc : memWf (devCharge q u).2.mem = true := by simp [hu]
      split
      next v e => exact memWf_snd hc e
      next v e =>
        have hv := memWf_snd hc e
        split <;> simp [hv]

@[simp] theorem memWf_devAt (ppa : Nat) (q : Req) : memWf (devAt ppa q s).2.mem = true := by
  unfold devAt
  split <;> simp [h]

@[simp] theorem memWf_readSource (x : MRun) (l off : Nat) : memWf (readSource x l off s).2.mem = true := by
  unfold readSource
  split
  · exact h
  · split
    next d c u e => simp [memWf_snd (memWf_devAt h _ _) e]
    next st u e =>
      have hu := memWf_snd (memWf_devAt h _ _) e
      (repeat' split) <;> simp [hu]
    next u e => simp [memWf_snd (memWf_devAt h _ _) e]

@[simp] theorem memWf_writeDest (x : MRun) : memWf (writeDest x s).2.mem = true := by
  unfold writeDest
  split
  · exact h
  · split
    dsimp only
    split
    next u e => simp [memWf_snd (memWf_devAt h _ _) e]
    next st u e =>
      have hu := memWf_snd (memWf_devAt h _ _) e
      (repeat' split) <;> simp [hu]
    next u e => simp [memWf_snd (memWf_devAt h _ _) e]

@[simp] theorem memWf_moveLine (mid : Nat) : memWf (moveLine mid s).2.mem = true := by
  unfold moveLine
  (repeat' split) <;> simp [h]

@[simp] theorem memWf_moveLines (fuel mid : Nat) : memWf (moveLines fuel mid s).mem = true := by
  induction fuel generalizing s with
  | zero => exact h
  | succ n ih =>
    unfold moveLines
    split
    next u e => exact memWf_snd (memWf_moveLine h _) e
    next u e => exact ih (memWf_snd (memWf_moveLine h _) e)

/-! ### Firings (06) -/

@[simp] theorem memWf_readBytes (fid sid : Nat) (r : Run) (off n : Nat) : memWf (readBytes fid sid r off n s).2.mem = true := by
  unfold readBytes
  dsimp only
  split
  · exact h
  · refine memWf_foldl_carry Prod.snd (fun p i hp => ?_) _ h
    split
    · exact hp
    · split
      · exact hp
      · split
        · have hl : memWf (streamLine fid sid ((((r.pva + off) / 64) + i) * 64) p.2).mem = true := by simp [hp]
          split
          next u e => exact memWf_snd (memWf_readLocal hl _ _) e
          next u e => exact memWf_snd (memWf_readLocal hl _ _) e
        · exact hp

@[simp] theorem memWf_readTable (fid sid n : Nat) (e : Ctx) (runs : List (Nat × Run)) : memWf (readTable fid sid n e runs s).2.mem = true := by
  unfold readTable
  split
  · exact h
  · split
    next u e => exact memWf_snd (memWf_readBytes h ..) e
    next u e => exact memWf_snd (memWf_readBytes h ..) e

@[simp] theorem memWf_flushClaims : memWf (flushClaims s).mem = true := memWf_foldl _ (fun s _ hs => by (repeat' split) <;> simp [hs]) _ h

@[simp] theorem memWf_endFiring (f : Firing) : memWf (endFiring f s).mem = true := by
  have hf (l : List Nat) (u : State) :
      (l.foldl (fun s sh => if ((shelfOf sh s).bind (·.run)) = some f.fid then freeShelf sh s else s) u).mem = u.mem :=
    foldl_mem (fun _ _ => by split <;> simp) l u
  unfold endFiring
  dsimp only
  (repeat' split) <;> simp [h, hf]

/-- Stated for every page size: the kernel must not compute with the real one. -/
theorem memWf_recallPages (size : Nat) (ps : List (Nat × Bool)) :
    memWf (ps.foldl (fun s p => recallPage (localPpa (p.1 * size)) (if p.2 then .recallInv else .recallShare) false s) s).mem = true :=
  memWf_foldl _ (fun u p hu => by simp [hu]) _ h

@[simp] theorem memWf_requestClaims (fid : Nat) : memWf (requestClaims fid s).mem = true := by
  unfold requestClaims
  split
  · exact h
  · dsimp only
    split
    · exact h
    · refine memWf_recallPages ?_ (2 ^ 21) _
      exact h

@[simp] theorem memWf_bakeTables (f : Firing) : memWf (bakeTables f s).2.2.mem = true := by
  refine memWf_foldl_carry (fun p : Firing × Option Nat × State => p.2.2) (fun p c hp => ?_) _ h
  obtain ⟨f, bad, u⟩ := p
  dsimp only
  split
  · exact hp
  · split
    next v e => exact memWf_snd (memWf_readTable hp ..) e
    next v e => exact memWf_snd (memWf_readTable hp ..) e

@[simp] theorem memWf_advanceFiring (fid : Nat) : memWf (advanceFiring fid s).mem = true := by
  unfold advanceFiring
  split
  · exact h
  next f _ =>
    split
    · exact h
    · have hb := memWf_bakeTables h f
      split
      next f' bad u e =>
        rw [e] at hb
        dsimp only at hb ⊢
        (repeat' split) <;> simp [hb]

@[simp] theorem memWf_acceptFiring (f : Firing) : memWf (acceptFiring f s).mem = true := by
  unfold acceptFiring
  dsimp only
  (repeat' split) <;> simp [h]

@[simp] theorem memWf_stopFiring (fid status : Nat) : memWf (stopFiring fid status s).mem = true := by
  unfold stopFiring
  (repeat' split) <;> simp [h]

@[simp] theorem memWf_starveParts : memWf (starveParts s).mem = true := memWf_foldl _ (fun s _ hs => by simp [hs]) _ h

end

end Sys2Proof.Machine
end

section
/-! PROOFS. Canonical pool memory (O5), continued: the kiln. -/

namespace Sys2Proof.Machine

section
variable {s : State} (h : memWf s.mem = true)
include h

/-! ### Shelves and lanes (06) -/

@[simp] theorem memWf_splitWords (f : Firing) (sl : Slot) (c : Nat × Nat × Nat) : memWf (splitWords f sl c s).2.mem = true :=
  memWf_thenRead (memWf_readBytes h ..) fun bs u hu => memWf_thenRead (by split <;> simp [hu]) fun sc v hv => hv

@[simp] theorem memWf_readAhead (f : Firing) (sl : Slot) (n : Nat) (cs : List (Nat × Nat × Nat)) : memWf (readAhead f sl n cs s).2.mem = true := by
  induction cs generalizing n s with
  | nil => exact h
  | cons c cs ih =>
    unfold readAhead
    split
    · exact memWf_thenRead (memWf_splitWords h ..) fun ws u hu => memWf_thenRead (ih hu _) fun r v hv => hv
    · exact h

@[simp] theorem memWf_feedStream (f : Firing) (x : Shelf) (p : Nat × Nat) : memWf (feedStream f x p s).2.mem = true := by
  unfold feedStream
  split
  · split
    · exact h
    · exact memWf_thenRead (memWf_readAhead h ..) fun r u hu => hu
  · exact h

@[simp] theorem memWf_feedAll (f : Firing) (ps : List (Nat × Nat)) (x : Shelf) : memWf (feedAll f ps x s).2.mem = true := by
  induction ps generalizing x s with
  | nil => exact h
  | cons p r ih => exact memWf_thenRead (memWf_feedStream h ..) fun y u hu => ih hu y

@[simp] theorem memWf_bcastWords (f : Firing) (sl : Slot) : memWf (bcastWords f sl s).2.mem = true :=
  memWf_thenRead (memWf_readBytes h ..) fun bs u hu => memWf_thenRead (by split <;> simp [hu]) fun sc v hv => hv

@[simp] theorem memWf_kvRows (f : Firing) (e : Ctx) (p : Piece) (sec : Nat) : memWf (kvRows f e p sec s).2.mem = true :=
  memWf_thenRead (memWf_readEach (fun _ _ hu => memWf_readBytes hu ..) _ h) fun _ _ hu => hu

@[simp] theorem memWf_bagSpan (f : Firing) (e : Ctx) (p : Piece) : memWf (bagSpan f e p s).2.mem = true :=
  memWf_thenRead (memWf_readBytes h ..) fun _ _ hu => hu

@[simp] theorem memWf_bagRows (f : Firing) (c : CtxSt) (p : Piece) (first n : Nat) : memWf (bagRows f c p first n s).2.mem = true := by
  refine memWf_thenRead (memWf_readBytes h ..) fun bs u hu => memWf_thenRead (memWf_readEach (fun i v hv => ?_) _ hu) fun rows v hv => hv
  split
  · exact memWf_thenRead (memWf_readBytes hv ..) fun row w hw => hw
  · exact hv

@[simp] theorem memWf_pieceWords (f : Firing) (sl : Slot) (i : Nat) : memWf (pieceWords f sl i s).2.mem = true := by
  unfold pieceWords
  split
  · dsimp only
    split
    · refine memWf_thenRead ?_ fun ws u hu => hu
      split
      · exact memWf_thenRead (memWf_readBytes h ..) fun bs u hu => hu
      · exact memWf_kvRows h ..
    · refine memWf_thenRead (memWf_bagSpan h ..) fun b u hu => memWf_thenRead ?_ fun ws v hv => hv
      split
      · exact memWf_bagRows hu ..
      · exact memWf_thenRead (memWf_readBytes hu ..) fun bs v hv => hv
  · exact h

@[simp] theorem memWf_laneStream (f : Firing) (bc : List (List SWord)) (gr : List Nat) (n : Nat) : memWf (laneStream f bc gr n s).2.mem = true := by
  unfold laneStream
  split
  · exact h
  · split
    · exact h
    · exact memWf_thenRead (memWf_readEach (fun i u hu => memWf_pieceWords hu ..) _ h) fun ws u hu => hu
    · exact h

@[simp] theorem memWf_glazeIntact (g : Glaze) : memWf (glazeIntact g s).2.mem = true := by
  unfold glazeIntact
  exact memWf_foldl_carry (fun a : Bool × State => a.2) (fun a p ha => memWf_readLocal ha ..) _ h

@[simp] theorem memWf_loadGlaze (g : Glaze) (sh : Nat) : memWf (loadGlaze g sh s).2.mem = true := by
  unfold loadGlaze
  dsimp only
  (repeat' split) <;> simp [h]

@[simp] theorem memWf_tagStop (fid : Nat) : memWf (tagStop fid s).mem = true := by simp [tagStop, h]

@[simp] theorem memWf_writeOut (f : Firing) (k role : Nat) (o : OutLine) (cause : Nat) : memWf (writeOut f k role o cause s).mem = true := by
  unfold writeOut
  dsimp only
  split
  · simp [h]
  · split
    · exact h
    · split
      next u e => simp [memWf_writeLocal h e]
      next => split <;> simp [h]

@[simp] theorem memWf_commitOut (f : Firing) (k : Nat) (gr : List Nat) (role sent : Nat) (bs : List (Nat × Nat)) (nine : Bool) :
    memWf (commitOut f k gr role sent bs nine s).mem = true := by
  unfold commitOut
  split
  · exact h
  · exact memWf_foldl _ (fun u o hu => memWf_writeOut hu ..) _ (by simp [h])

@[simp] theorem memWf_commitLane (f : Firing) (k : Nat) (gr old : List Nat) (nine : Bool) (l : Lane) :
    memWf (commitLane f k gr old nine l s).2.mem = true := memWf_foldl _ (fun s _ hs => by simp [hs]) _ h

@[simp] theorem memWf_commitShelf (sh : Nat) : memWf (commitShelf sh s).mem = true := by
  unfold commitShelf
  split
  · exact h
  next x _ =>
    split
    · exact h
    next f _ =>
      split
      · exact h
      · simp only [checkPart_mem, traceHub_mem, modShelf_mem, countRepeat_mem]
        exact memWf_foldl_carry (fun a : List Lane × State => a.2) (fun a l ha => memWf_commitLane ha ..) _ h

@[simp] theorem memWf_refusePart (f : Firing) (sh : Nat) : memWf (refusePart f sh s).mem = true := by
  unfold refusePart
  split <;> simp [h]

@[simp] theorem memWf_feed (sh : Nat) : memWf (feed sh s).mem = true := by
  unfold feed
  dsimp only
  (repeat' split) <;> simp [h]

@[simp] theorem memWf_buildLanes (f : Firing) (p : Part) (bc : List (List SWord)) (sh base : Nat) :
    memWf (buildLanes f p bc sh base s).2.mem = true :=
  memWf_readEach (fun _ _ hu => memWf_thenRead (memWf_readEach (fun _ _ hv => memWf_laneStream hv ..) _ hu) fun _ _ hv => hv) _ h

@[simp] theorem memWf_startPart (f : Firing) (i : Nat) (p : Part) : memWf (startPart f i p s).mem = true := by
  unfold startPart
  lift_lets
  extract_lets before bcast all u v w
  have hb : memWf bcast.2.mem = true := by
    refine memWf_readEach (fun n u hu => ?_) _ h
    split
    · split <;> simp [hu]
    · exact hu
  have ha : memWf all.2.mem = true := by
    refine memWf_thenRead hb fun bc u hu => memWf_thenRead (by split <;> simp [hu]) fun cb v hv => ?_
    exact memWf_readEach (fun q x hx => memWf_thenRead (memWf_buildLanes hx ..) fun lanes y hy => by simp [hy]) _ hv
  have hw : memWf w.mem = true := by
    unfold w v u
    split <;> simp [ha]
  clear_value w
  split
  · exact memWf_foldl _ (fun u sh hu => memWf_feed hu _) _ hw
  · simp [hw]

@[simp] theorem memWf_placePart (fid i : Nat) (shelves : List Nat) : memWf (placePart fid i shelves s).mem = true := by
  unfold placePart
  split
  · exact h
  · split
    · exact h
    · lift_lets
      extract_lets p f u v
      have hv : memWf v.mem = true := by
        unfold v u
        simp [h]
      clear_value v
      split
      · exact hv
      · split
        · simp [hv]
        next g _ =>
          have hg : memWf (shelves.foldl (fun (a : Bool × State) sh => if a.1 then loadGlaze g sh a.2 else a) (true, v)).2.mem = true :=
            memWf_foldl_carry (fun a : Bool × State => a.2) (fun a sh ha => by split <;> simp [ha]) _ hv
          dsimp only
          split
          · exact memWf_startPart hg ..
          · simp [memWf_tagStop hg]

/-! ### Glazes (06) -/

@[simp] theorem memWf_lanewise (sh w : Nat) (pn : Bool) (ps cost : Nat) (isFire : Bool) (op : LaneCtx → Lane → Lane) :
    memWf (lanewise sh w pn ps cost isFire op s).mem = true := by
  unfold lanewise
  dsimp only
  (repeat' split) <;> simp [h]

@[simp] theorem memWf_laneG (sh op : Nat) (g : GArgs) (isFire : Bool) (body : LaneCtx → Lane → Lane) :
    memWf (laneG sh op g isFire body s).mem = true := by simp [laneG, h]

@[simp] theorem memWf_uniform (sh w : Nat) (body : Firing → Shelf → Shelf) : memWf (uniform sh w body s).mem = true := by
  unfold uniform
  dsimp only
  (repeat' split) <;> simp [h]

@[simp] theorem memWf_doCommit (sh : Nat) : memWf (doCommit sh s).mem = true := by
  unfold doCommit
  split <;> simp [h]

@[simp] theorem memWf_release (fid sh : Nat) (w : ShWait) : memWf (release fid sh w s).mem = true := by
  unfold release
  split
  · exact h
  · dsimp only
    split
    · exact h
    · exact memWf_foldl _ (fun u m hu => memWf_commitShelf (by simp [hu]) _) _ (by split <;> simp [h])

@[simp] theorem memWf_releaseMates (fid sh : Nat) : memWf (releaseMates fid sh s).mem = true := by
  unfold releaseMates
  split <;> simp [h]

@[simp] theorem memWf_meet (sh w : Nat) (pn : Bool) (ps : Nat) (wait : ShWait) (x? : Option Nat) : memWf (meet sh w pn ps wait x? s).mem = true := by
  have hc : memWf (commitShelf sh s).mem = true := memWf_commitShelf h sh
  unfold meet
  split
  · exact h
  · dsimp only
    split
    · exact hc
    · exact memWf_feed (memWf_release (by simpa using hc) ..) _

/-! ### Kiln commands (06) -/

@[simp] theorem memWf_installGlaze_put (r : Nat) (img : GlazeImg) (units : List Nat) (rest : List Glaze) :
    memWf (installGlaze.put r img units rest s).mem = true := by
  unfold installGlaze.put
  simp only [ok_mem]
  exact memWf_foldl _ (fun u p hu => memWf_ownLine _ _ _ hu) _ h

@[simp] theorem memWf_installGlaze (r : Nat) (img : GlazeImg) : memWf (installGlaze r img s).mem = true := by
  unfold installGlaze
  dsimp only
  (repeat' split) <;> simp [h]

@[simp] theorem memWf_serveFire (m : Mhd) (d : FireDesc) : memWf (serveFire m d s).mem = true := by
  unfold serveFire
  dsimp only
  (repeat' split) <;> simp [h]

@[simp] theorem memWf_holdClaims (f : Firing) : memWf (holdClaims f s).mem = true := by
  unfold holdClaims
  dsimp only
  split
  · simp [h]
  · rw [foldl_mem fun _ _ => by simp]
    simp [h]

@[simp] theorem memWf_regionLine (f : Firing) (role i : Nat) : memWf (regionLine f role i s).2.mem = true := by
  unfold regionLine
  split <;> simp [h]

@[simp] theorem memWf_builtinOut (f : Firing) (role : Nat) (o : OutLine) (cause : Nat) : memWf (builtinOut f role o cause s).mem = true := by
  unfold builtinOut
  split <;> simp [h]

@[simp] theorem memWf_runFill (f : Firing) : memWf (runFill f s).2.mem = true := memWf_foldl _ (fun s _ hs => by simp [hs]) _ h

@[simp] theorem memWf_runCopy (f : Firing) : memWf (runCopy f s).2.mem = true := by
  refine memWf_thenRead (memWf_readEach (fun l u hu => memWf_thenRead (memWf_regionLine hu ..) fun d v hv => ?_) _ h) fun _ u hu => hu
  exact memWf_builtinOut hv ..

@[simp] theorem memWf_compareScan (f : Firing) (ls : List (Nat × Nat)) : memWf (compareScan f ls s).2.mem = true := by
  induction ls generalizing s with
  | nil => exact h
  | cons l r ih =>
    refine memWf_thenRead (memWf_regionLine h ..) fun a u hu => memWf_thenRead (memWf_regionLine hu ..) fun b v hv => ?_
    dsimp only
    (repeat' split) <;> simp [hv, ih]

@[simp] theorem memWf_runCompare (f : Firing) : memWf (runCompare f s).2.mem = true :=
  memWf_thenRead (memWf_compareScan h ..) fun _ _ hu => memWf_foldl _ (fun _ _ hv => memWf_builtinOut hv ..) _ hu

@[simp] theorem memWf_reduceElems (f : Firing) (role e k : Nat) : memWf (reduceElems f role e k s).2.mem = true := by
  unfold reduceElems
  split
  · exact h
  · exact memWf_thenRead (memWf_readBytes h ..) fun bs u hu => hu

@[simp] theorem memWf_reduceLane (f : Firing) (k : Nat) (gr : List Nat) (g : Nat) : memWf (reduceLane f k gr g s).2.mem = true := by
  unfold reduceLane
  split
  · exact h
  · refine memWf_thenRead (memWf_readEach (fun i u hu => memWf_thenRead (memWf_readEach (fun r v hv => memWf_reduceElems hv ..) _ hu)
      fun cols v hv => hv) _ h) fun rows u hu => ?_
    exact memWf_commitLane hu ..

@[simp] theorem memWf_runReduce (f : Firing) : memWf (runReduce f s).2.mem = true := by
  refine memWf_thenRead (memWf_readEach (fun p u hu => memWf_thenRead (memWf_readEach (fun j v hv => memWf_reduceLane hv ..) _ hu)
    fun fs v hv => ?_) _ h) fun _ u hu => hu
  simp [hv]

@[simp] theorem memWf_runBuiltin (f : Firing) : memWf (runBuiltin f s).2.mem = true := by
  unfold runBuiltin
  split <;> simp [h]

@[simp] theorem memWf_writeSeq (f : Firing) (role : Nat) (bs : List (Nat × Nat)) : memWf (writeSeq f role bs s).mem = true :=
  memWf_foldl _ (fun s _ hs => by simp [hs]) _ h

@[simp] theorem memWf_fredOut (f : Firing) (n : Nat) : memWf (fredOut f n s).mem = true := by
  unfold fredOut
  dsimp only
  (repeat' split) <;> simp [h]

@[simp] theorem memWf_closeFiring (fid : Nat) : memWf (closeFiring fid s).mem = true := by
  unfold closeFiring
  split <;> simp [h]

/-! ### Windows (07) -/

@[simp] theorem memWf_startStep (w id : Nat) : memWf (startStep w id s).mem = true := by
  unfold startStep
  dsimp only
  (repeat' split) <;> simp [h]

@[simp] theorem memWf_closeRound (w : Nat) : memWf (closeRound w s).mem = true := by
  unfold closeRound
  dsimp only
  (repeat' split) <;> simp [h]

@[simp] theorem memWf_serveSegment (m : Mhd) (off round cause : Nat) (data : List Word) :
    memWf (serveSegment m off round cause data s).mem = true := by
  unfold serveSegment
  lift_lets
  extract_lets sid w img x verdict cnt u v
  clear_value x verdict
  have hv : memWf v.mem = true := by
    unfold v u
    split
    · simp [h]
    · dsimp only
      split <;> simp [h]
  clear_value v
  (repeat' split) <;> simp [hv]

@[simp] theorem memWf_serveContrib (m : Mhd) (addr round cause : Nat) (data : List Word) :
    memWf (serveContrib m addr round cause data s).mem = true := by
  unfold serveContrib
  dsimp only
  split
  · simp [h]
  · split
    · simp [h]
    · simp [h]
    · split
      next u e => rw [hitFault_mem e]; exact h
      next => simp [h]
    · simp [h]
    · simp [h]

end

end Sys2Proof.Machine
end

section
/-! PROOFS. Canonical pool memory (O5), continued: translation, memory commands, the module. -/

namespace Sys2Proof.Machine

section
variable {s : State} (h : memWf s.mem = true)
include h

/-! ### Translation commands (02) -/

@[simp] theorem memWf_tableEntry (x : Table) (i v : Nat) : memWf (tableEntry x i v s).mem = true := by
  unfold tableEntry
  dsimp only
  split
  · exact memWf_ownLine _ _ _ h
  · exact h

@[simp] theorem memWf_syncLeaf (sid base : Nat) (big : Bool) (l : Option Leaf) : memWf (syncLeaf sid base big l s).mem = true := by
  unfold syncLeaf
  split <;> simp [h]

@[simp] theorem memWf_putLeaf (sid base : Nat) (l : Leaf) : memWf (putLeaf sid base l s).mem = true := by
  unfold putLeaf
  split <;> simp [h]

@[simp] theorem memWf_dropLeaf (sid base : Nat) (big : Bool) : memWf (dropLeaf sid base big s).mem = true := by simp [dropLeaf, h]

@[simp] theorem memWf_wipeTable (x : Table) : memWf (wipeTable x s).mem = true := by
  unfold wipeTable
  lift_lets
  extract_lets l n clean ls
  split
  · exact memWf_foldl _ (fun u k hu => memWf_ownLine _ _ _ hu) _ h
  · exact h

@[simp] theorem memWf_enterTable (x : Table) : memWf (enterTable x s).mem = true := by
  unfold enterTable
  (repeat' split) <;> simp [h]

theorem memWf_newTable (level sid idx : Nat) {t : State} (ht : newTable level sid idx s = some t) : memWf t.mem = true := by
  unfold newTable at ht
  split at ht
  · obtain rfl := Option.some.inj ht
    simp [h]
  · split at ht
    · cases ht
    · obtain rfl := Option.some.inj ht
      exact memWf_enterTable (memWf_wipeTable (by exact h) _) _

omit h in
theorem memWf_newTables (level sid : Nat) (is : List Nat) {o : Option State} (ho : ∀ u, o = some u → memWf u.mem = true) {t : State}
    (ht : is.foldl (fun o i => o.bind (newTable level sid i)) o = some t) : memWf t.mem = true := by
  induction is generalizing o with
  | nil => exact ho t ht
  | cons i is ih =>
    refine ih (fun v hv => ?_) ht
    obtain ⟨u, hu, hv⟩ := Option.bind_eq_some_iff.1 hv
    exact memWf_newTable (ho u hu) _ _ _ hv

theorem memWf_needTables (sid page n : Nat) (big : Bool) {t : State} (ht : needTables sid page n big s = some t) : memWf t.mem = true := by
  unfold needTables at ht
  dsimp only at ht
  have h2 : ∀ is u, List.foldl (fun o i => o.bind (newTable 2 sid i)) (some s) is = some u → memWf u.mem = true :=
    fun is u hu => memWf_newTables 2 sid is (fun v hv => by rwa [← Option.some.inj hv]) hu
  split at ht
  · exact h2 _ t ht
  · exact memWf_newTables 3 sid _ (h2 _) ht

@[simp] theorem memWf_mapLeaves (sid pva count size : Nat) (ppas : List Nat) (rd wr att pin reserve : Bool) :
    memWf (mapLeaves sid pva count size ppas rd wr att pin reserve s).mem = true := memWf_foldl _ (fun s _ hs => by simp [hs]) _ h

@[simp] theorem memWf_presentLeaves (sid : Nat) (ls : List (Nat × Leaf)) (ppas : List Nat) : memWf (presentLeaves sid ls ppas s).mem = true :=
  memWf_foldl _ (fun s _ hs => by simp [hs]) _ h

@[simp] theorem memWf_recallLeaves (op : LineOp) (ls : List (Nat × Leaf)) : memWf (recallLeaves op ls s).mem = true :=
  memWf_foldl _ (fun s _ hs => by (repeat' split) <;> simp [hs]) _ h

@[simp] theorem memWf_failWaiter (timeout : Bool) (w : Waiter) : memWf (failWaiter timeout w s).mem = true := by
  unfold failWaiter
  (repeat' split) <;> simp [h]

@[simp] theorem memWf_failFault (timeout : Bool) (f : Fault') : memWf (failFault timeout f s).mem = true :=
  memWf_foldl _ (fun s _ hs => by simp [hs]) _ h

@[simp] theorem memWf_refillFiring (fid base pages : Nat) : memWf (refillFiring fid base pages s).mem = true := by
  unfold refillFiring
  (repeat' split) <;> simp [h]

@[simp] theorem memWf_serveCancel (m : Mhd) (ftag : Nat) : memWf (execFireCancel.serveCancel m ftag s).mem = true := by
  unfold execFireCancel.serveCancel
  dsimp only
  split <;> simp [h]

@[simp] theorem memWf_serveAgain (i : Instr) : memWf (serveAgain i s).mem = true := by
  unfold serveAgain
  split <;> simp [h]

@[simp] theorem memWf_retryWaiter (base pages : Nat) (w : Waiter) : memWf (retryWaiter base pages w s).mem = true := by
  unfold retryWaiter
  split <;> simp [h]

@[simp] theorem memWf_retryUnheld : memWf (retryUnheld s).mem = true := by
  unfold retryUnheld
  refine memWf_foldl _ (fun u f hu => memWf_advanceFiring hu _) _ ?_
  rw [foldl_mem fun _ _ => refillRun_mem _ _ _]
  exact h

@[simp] theorem memWf_timeOut (f : Fault') : memWf (timeOut f s).mem = true := by simp [timeOut, h]

omit h in
@[simp] theorem memWf_resolveOne {acc : Nat × Nat × State} (ha : memWf acc.2.2.mem = true) (p : Nat × Nat) :
    memWf (resolveOne acc p).2.2.mem = true := by
  obtain ⟨res, ign, u⟩ := acc
  unfold resolveOne
  dsimp only
  split
  · exact ha
  · split
    · exact memWf_foldl _ (fun v w hv => memWf_retryWaiter hv ..) _ (by simpa using ha)
    · split
      · exact memWf_failFault ha ..
      · exact ha

@[simp] theorem memWf_cutWork (sid : Nat) (pages : List Nat) : memWf (cutWork sid pages s).mem = true := by
  unfold cutWork
  refine memWf_foldl _ (fun u f hu => memWf_stopFiring hu ..) _ ?_
  rw [foldl_mem fun _ _ => stopRun_mem _ _ _]
  exact h

@[simp] theorem memWf_withdrawRange (sid : Nat) (ls : List (Nat × Leaf)) (mode : Nat) (keep : Bool) :
    memWf (withdrawRange sid ls mode keep s).mem = true := by
  have hp : memWf (ls.foldl (fun s x => if keep then putLeaf sid x.1 { x.2 with pres := false, ppa := 0 } s
      else dropLeaf sid x.1 x.2.big s) s).mem = true :=
    memWf_foldl _ (fun u x hu => by split <;> simp [hu]) _ h
  have hf (fs : List Fault') {u : State} (hu : memWf u.mem = true) : memWf (fs.foldl (fun s f => failFault false f s) u).mem = true :=
    memWf_foldl _ (fun v f hv => memWf_failFault hv ..) _ hu
  unfold withdrawRange
  dsimp only
  split
  · exact memWf_cutWork (memWf_recallLeaves (hf _ (by simpa using hp)) ..) ..
  · exact memWf_recallLeaves (hf _ (by simpa using hp)) ..

@[simp] theorem memWf_protectRange (sid : Nat) (ls : List (Nat × Leaf)) (rd wr att pin : Bool) :
    memWf (protectRange sid ls rd wr att pin s).mem = true := by
  have hp : memWf (ls.foldl (fun s x => putLeaf sid x.1 { x.2 with rd := rd, wr := wr, atm := att, pin := pin } s) s).mem = true :=
    memWf_foldl _ (fun u x hu => memWf_putLeaf hu ..) _ h
  unfold protectRange
  refine memWf_recallLeaves (memWf_recallLeaves ?_ ..) ..
  split
  · exact hp
  · simpa using hp

@[simp] theorem memWf_loseLines (lost : Nat → Bool) : memWf (loseLines lost s).mem = true :=
  memWf_foldl _ (fun s _ hs => by (repeat' split) <;> simp [hs]) _ h

@[simp] theorem memWf_unparkRetry (r : Nat) : memWf (unparkRetry r s).mem = true := by
  unfold unparkRetry
  (repeat' split) <;> simp [h]

@[simp] theorem memWf_unwaitMig (page n : Nat) (w : MigWait) : memWf (unwaitMig page n w s).mem = true := by
  unfold unwaitMig
  split <;> simp [h]

@[simp] theorem memWf_finishMig (g : Mig) (l : Leaf) : memWf (finishMig g l s).mem = true := by
  unfold finishMig
  simp only [emit_mem]
  exact memWf_foldl _ (fun u w hu => memWf_unwaitMig hu ..) _ (memWf_putLeaf (by exact h) ..)

/-! ### Holders (02, 03) -/

@[simp] theorem memWf_serveHdata (status : Nat) (lines : List (LineData × Nat)) (o : Outst) : memWf (serveHdata status lines o s).mem = true := by
  unfold serveHdata
  (repeat' split) <;> simp [h]

@[simp] theorem memWf_serveHdone (status : Nat) (o : Outst) : memWf (serveHdone status o s).mem = true := by
  unfold serveHdone
  (repeat' split) <;> simp [h]

@[simp] theorem memWf_expire (o : Outst) : memWf (expire o s).mem = true := by
  unfold expire
  dsimp only
  (repeat' split) <;> simp [h]

/-! ### Memory commands (03) -/

omit h in
theorem memWf_crazeLines (n l : Nat) {a : Nat × State} (ha : memWf a.2.mem = true) : memWf (crazeLines n l a).2.mem = true := by
  induction n generalizing l a with
  | zero => exact ha
  | succ n ih =>
    obtain ⟨k, u⟩ := a
    have hr : memWf (recallLine (localKey l) .recallInv true u).mem = true := memWf_recallLine ha ..
    unfold crazeLines
    dsimp only
    split
    · exact ih _ (memWf_setCraze _ _ hr)
    · exact hr

@[simp] theorem memWf_crazeGo (r line left : Nat) : memWf (crazeGo r line left s).mem = true := by
  have hc := memWf_crazeLines left line (a := (0, s)) h
  unfold crazeGo
  dsimp only
  split <;> simp [hc]

@[simp] theorem memWf_goOffline (die : Nat) : memWf (goOffline die s).mem = true := h

@[simp] theorem memWf_assignSpare (x : Spare) : memWf (assignSpare x s).2.mem = true := by
  unfold assignSpare
  (repeat' split) <;> simp [h]

@[simp] theorem memWf_noteRowErr (x : Spare) : memWf (noteRowErr x s).mem = true := h

/-! ### Saggers (09) -/

@[simp] theorem memWf_mirrorLine (sid ppa i : Nat) (ws : List Nat) : memWf (mirrorLine sid ppa i ws s).mem = true := by
  unfold mirrorLine
  dsimp only
  split
  · exact memWf_ownLine _ _ _ (memWf_recallLine h ..)
  · exact h

@[simp] theorem memWf_mirrorSeq (sid ppa seq : Nat) : memWf (mirrorSeq sid ppa seq s).mem = true := by simp [mirrorSeq, h]

@[simp] theorem memWf_logBreach (b : Breach) : memWf (logBreach b s).mem = true := by
  unfold logBreach
  split
  · split
    · exact h
    · simp only [modSag_mem]
      exact memWf_mirrorSeq (memWf_mirrorLine (memWf_mirrorSeq h ..) ..) ..
  · exact h

/-! ### Links (08) -/

@[simp] theorem memWf_losePort (p cause : Nat) : memWf (losePort p cause s).mem = true := by
  unfold losePort
  exact memWf_foldl _ (fun u a hu => memWf_leaseEnd hu ..) _ (by simp [h])

/-! ### The twins (11) -/

@[simp] theorem memWf_loseMemory (die scope cause : Nat) : memWf (loseMemory die scope cause s).mem = true := by
  unfold loseMemory
  simp only [loseWindows_mem, memWf_mk]
  exact memWf_loseLines (by simpa using memWf_modDie die _ h) _

@[simp] theorem memWf_loseParts (die : Nat) (f : Firing) : memWf (loseParts die f s).mem = true := by
  unfold loseParts
  split
  · lift_lets
    extract_lets u v
    have hv : memWf v.mem = true := by
      unfold v u
      rw [modFiring_mem, foldl_mem fun _ _ => by split <;> simp]
      exact h
    clear_value v
    (repeat' split) <;> simp [hv]
  · exact h

@[simp] theorem memWf_loseDie (die cause : Nat) : memWf (loseDie die cause s).mem = true := by
  unfold loseDie
  refine memWf_starveParts (memWf_foldl _ (fun u f hu => memWf_loseParts hu ..) _ ?_)
  simp [h]

@[simp] theorem memWf_applySaved (die : Nat) : memWf (applySaved die s).mem = true := by
  unfold applySaved
  exact memWf_foldl _ (fun u e hu => by split <;> simp [hu, memWf_softRepair, memWf_pprExhausted]) _ h

/-! ### Messages of the fabric -/

theorem memWf_after {o : Host.Outcome State Fault Refusal} (ho : NextCanonical o) : memWf (after s o).mem = true := by
  cases o with
  | next t => exact ho t rfl
  | _ => exact h

theorem nextCanonical_arrive (m : Mhd) (i : Instr) {serve : Nat → State → State} (hs : ∀ sid, memWf (serve sid s).mem = true) :
    NextCanonical (act (arrive m i serve) s) :=
  (nextCanonical_next _).2 (memWf_arrive h m i hs)

theorem memWf_arriveAdmit (m : Mhd) (i : Instr) (bytes : Nat) {serve : Port → Assoc → State → State}
    (hs : ∀ q a u, memWf u.mem = true → memWf (serve q a u).mem = true) : memWf (arriveAdmit m i bytes serve s).mem = true := by
  unfold arriveAdmit
  dsimp only
  (repeat' split) <;> simp [h, hs]

theorem memWf_answer (m : Mhd) (op : Nat) {serve : Outst → State → State}
    (hs : ∀ o u, memWf u.mem = true → memWf (serve o u).mem = true) : memWf (answer m op serve s).mem = true := by
  unfold answer
  (repeat' split) <;> simp [h, hs]

@[simp] theorem nextCanonical_execFenceAck (m : Mhd) : NextCanonical (execFenceAck m s) := by
  refine nextCanonical_arrive h _ _ fun _ => ?_
  dsimp only
  (repeat' split) <;> simp [h]

@[simp] theorem nextCanonical_execRekey (m : Mhd) (gen : Nat) : NextCanonical (execRekey m gen s) := by
  refine nextCanonical_arrive h _ _ fun _ => ?_
  dsimp only
  (repeat' split) <;> simp [h]

@[simp] theorem nextCanonical_execRekeyAck (m : Mhd) (gen : Nat) : NextCanonical (execRekeyAck m gen s) := by
  refine nextCanonical_arrive h _ _ fun _ => ?_
  dsimp only
  (repeat' split) <;> simp [h]

theorem nextCanonical_arriveCoh (m : Mhd) (i : Instr) : NextCanonical (act (arriveCoh m i) s) := (nextCanonical_next _).2 (memWf_arriveCoh h m i)

theorem nextCanonical_arriveRsp (m : Mhd) (i : Instr) (x : Handle) (back : Option (LineData × Nat)) (gone : Bool) :
    NextCanonical (act (arriveRsp m i x back gone) s) :=
  (nextCanonical_next _).2 (memWf_arriveRsp h m i x back gone)

/-- A message that passes its sagger's meter. -/
theorem nextCanonical_metered (m : Mhd) (i : Instr) (cost : State → Nat) (fence : Bool) {refuse : Nat → Nat → State → State}
    {serve : State → State} (hr : ∀ sid st u, memWf u.mem = true → memWf (refuse sid st u).mem = true)
    (hs : ∀ u, memWf u.mem = true → memWf (serve u).mem = true) :
    NextCanonical (act (arrive m i fun sid s => metered m i (cost s) fence (refuse sid) serve sid s) s) :=
  nextCanonical_arrive h _ _ fun sid => memWf_metered h _ _ _ _ sid (hr sid) hs

@[simp] theorem nextCanonical_execWriteback (m : Mhd) (x : Handle) (lepoch cause : Nat) (line : LineData) :
    NextCanonical (execWriteback m x lepoch cause line s) :=
  nextCanonical_arrive h _ _ fun sid => memWf_serveWriteback h m x lepoch cause line sid

@[simp] theorem nextCanonical_execMove (m : Mhd) (d : MoveDesc) : NextCanonical (execMove m d s) :=
  nextCanonical_metered h _ _ _ _ (fun _ _ _ hu => by simpa using hu) fun _ hu => by simpa using hu

@[simp] theorem nextCanonical_execFire (m : Mhd) (d : FireDesc) : NextCanonical (execFire m d s) :=
  nextCanonical_metered h _ _ _ _ (fun _ _ _ hu => by simpa using hu) fun _ hu => memWf_serveFire hu m d

@[simp] theorem nextCanonical_execFireCancel (m : Mhd) (ftag : Nat) : NextCanonical (execFireCancel m ftag s) :=
  nextCanonical_metered h _ _ _ _ (fun _ _ _ hu => by simpa using hu) fun _ hu => memWf_serveCancel hu m ftag

@[simp] theorem nextCanonical_execAgentCtxSet (m : Mhd) (n : Nat) (e : Ctx) : NextCanonical (execAgentCtxSet m n e s) :=
  nextCanonical_metered h _ _ _ _ (fun _ _ _ hu => by simpa using hu) fun _ hu => by simpa using hu

@[simp] theorem nextCanonical_execFence (m : Mhd) : NextCanonical (execFence m s) :=
  nextCanonical_metered h _ _ _ _ (fun _ _ _ hu => by simpa using hu) fun _ hu => by simpa using hu

@[simp] theorem nextCanonical_execContrib (m : Mhd) (addr round cause : Nat) (data : List Word) :
    NextCanonical (execContrib m addr round cause data s) :=
  nextCanonical_metered h _ _ _ _ (fun _ _ _ hu => by simpa using hu) fun _ hu => memWf_serveContrib hu m addr round cause data

@[simp] theorem nextCanonical_execHdata (m : Mhd) (status : Nat) (lines : List (LineData × Nat)) : NextCanonical (execHdata m status lines s) :=
  nextCanonical_arrive h _ _ fun _ => memWf_answer h _ _ fun _ _ hu => memWf_serveHdata hu ..

@[simp] theorem nextCanonical_execHdone (m : Mhd) (status : Nat) : NextCanonical (execHdone m status s) :=
  nextCanonical_arrive h _ _ fun _ => memWf_answer h _ _ fun _ _ hu => memWf_serveHdone hu ..

@[simp] theorem nextCanonical_execJoin (m : Mhd) (kind : Nat) : NextCanonical (execJoin m kind s) :=
  nextCanonical_arrive h _ _ fun _ => by simpa using h

@[simp] theorem nextCanonical_execPulse (m : Mhd) (lepoch : Nat) : NextCanonical (execPulse m lepoch s) :=
  nextCanonical_arrive h _ _ fun _ => by simpa using h

@[simp] theorem nextCanonical_execRegionPublish (m : Mhd) (p : Publication) : NextCanonical (execRegionPublish m p s) :=
  nextCanonical_arrive h _ _ fun sid => memWf_servePublish h m p sid

@[simp] theorem nextCanonical_execAdmitHello (m : Mhd) (b : HelloBody) : NextCanonical (execAdmitHello m b s) :=
  (nextCanonical_next _).2 (memWf_arriveAdmit h _ _ _ fun _ _ _ hu => by simpa using hu)

@[simp] theorem nextCanonical_execAdmitProve (m : Mhd) (w : ProveId) (certEpoch : Nat) (certSigOk sigAOk : Bool) :
    NextCanonical (execAdmitProve m w certEpoch certSigOk sigAOk s) :=
  (nextCanonical_next _).2 (memWf_arriveAdmit h _ _ _ fun _ _ _ hu => by simpa using hu)

@[simp] theorem memWf_takeWaiting (i : Instr) : memWf (takeWaiting i s).mem = true := by
  unfold takeWaiting
  split
  case h_1 | h_2 | h_3 | h_4 | h_5 | h_6 => exact memWf_after h (nextCanonical_arriveCoh h _ _)
  case h_7 => exact memWf_after h (nextCanonical_execWriteback h _ _ _ _ _)
  case h_8 | h_9 | h_10 => exact memWf_after h (nextCanonical_arriveRsp h _ _ _ _ _)
  case h_11 => exact memWf_after h (nextCanonical_execMove h _ _)
  case h_12 => exact memWf_after h (nextCanonical_execFire h _ _)
  case h_13 => exact memWf_after h (nextCanonical_execFireCancel h _ _)
  case h_14 => exact memWf_after h (nextCanonical_execAgentCtxSet h _ _ _)
  case h_15 => exact memWf_after h (nextCanonical_execFence h _)
  case h_16 => exact memWf_after h (nextCanonical_execFenceAck h _)
  case h_17 => exact memWf_after h (nextCanonical_execHdata h _ _ _)
  case h_18 => exact memWf_after h (nextCanonical_execHdone h _ _)
  case h_19 => exact memWf_after h (nextCanonical_execContrib h _ _ _ _ _)
  case h_20 => exact memWf_after h (nextCanonical_execJoin h _ _)
  case h_21 => exact memWf_after h (nextCanonical_execPulse h _ _)
  case h_22 => exact memWf_after h (nextCanonical_execRegionPublish h _ _)
  case h_23 => exact memWf_after h (nextCanonical_execAdmitHello h _ _)
  case h_24 => exact memWf_after h (nextCanonical_execAdmitProve h _ _ _ _ _)
  case h_25 => exact memWf_after h (nextCanonical_execRekey h _ _)
  case h_26 => exact memWf_after h (nextCanonical_execRekeyAck h _ _)
  case h_27 => exact h

@[simp] theorem memWf_endPause (len why : Nat) : memWf (endPause len why s).mem = true := by
  unfold endPause
  simp only [freePools_mem]
  exact memWf_foldl _ (fun u i hu => memWf_takeWaiting (by simpa using hu) _) _ h

/-! ### The host path (10) -/

@[simp] theorem memWf_poolGo (fuel r : Nat) : memWf (poolGo fuel r s).mem = true := by
  induction fuel generalizing s with
  | zero => exact h
  | succ n ih =>
    unfold poolGo
    split
    · split
      · simp [poolReadEnd, h]
      · split
        · exact h
        · split
          next d c u e => exact ih (by simpa using memWf_snd (memWf_devAt h ..) e)
          next st u e => simpa [poolFail] using memWf_snd (memWf_devAt h ..) e
          next u e => exact memWf_snd (memWf_devAt h ..) e
    · split
      · simp [h]
      · split
        · exact h
        · split
          next c u e => exact ih (by simpa using memWf_snd (memWf_devAt h ..) e)
          next st u e => simpa [poolFail] using memWf_snd (memWf_devAt h ..) e
          next u e => exact memWf_snd (memWf_devAt h ..) e
    · exact h

@[simp] theorem memWf_poolReadStart (r sid addr len : Nat) : memWf (poolReadStart r sid addr len s).mem = true := by simp [poolReadStart, h]

@[simp] theorem memWf_poolWriteStart (r sid addr len : Nat) (lines : List (LineData × Nat)) :
    memWf (poolWriteStart r sid addr len lines s).mem = true := by simp [poolWriteStart, h]

@[simp] theorem memWf_poolRetry (r : Nat) (i : Instr) : memWf (poolRetry r i s).mem = true := by
  unfold poolRetry
  (repeat' split) <;> simp [h]

/-! ### Security (12) -/

@[simp] theorem memWf_eraseHub : memWf (eraseHub s).mem = true := h

/-! ### Power and start-up (14) -/

omit h in
@[simp] theorem memWf_freshState : memWf (freshState s).mem = true :=
  (memWf_mk resetMem ..).trans memWf_resetMem

omit h in
@[simp] theorem memWf_dark : memWf (dark s).mem = true := by simp [dark]

omit h in
@[simp] theorem memWf_moduleReset (cause : Nat) : memWf (moduleReset cause s).mem = true := by simp [moduleReset]

@[simp] theorem memWf_repairArrays (fails : List Spare) : memWf (repairArrays fails s).2.mem = true := by
  unfold repairArrays
  refine memWf_foldl_carry (fun a : List Spare × State => a.2) (fun a x ha => ?_) _ h
  have hx := memWf_assignSpare ha x
  split
  next u e => exact memWf_snd hx e
  next u e => exact memWf_snd hx e

@[simp] theorem memWf_startDie (rate die : Nat) : memWf (startDie rate die s).mem = true := by
  unfold startDie
  dsimp only
  (repeat' split) <;> simp [h, memWf_modDie]

@[simp] theorem memWf_memBegin (r : Nat) : memWf (memBegin r s).mem = true := by
  unfold memBegin
  simp only [ok_mem]
  exact memWf_foldl _ (fun u k hu => memWf_startDie hu ..) _ h

@[simp] theorem memWf_stopWork : memWf (stopWork s).mem = true := memWf_foldl _ (fun s _ hs => by (repeat' split) <;> simp [hs]) _ h

@[simp] theorem memWf_loseUnit (unit cause : Nat) : memWf (loseUnit unit cause s).mem = true := by
  unfold loseUnit
  (repeat' split) <;> simp [h]

/-! ### Observation (15) -/

@[simp] theorem memWf_mirrorHeatSeq (sid ppa seq tally : Nat) : memWf (mirrorHeatSeq sid ppa seq tally s).mem = true := by simp [mirrorHeatSeq, h]

@[simp] theorem memWf_spillWrite (n : Nat) (ws : List Nat) : memWf (spillWrite n ws s).mem = true := by
  unfold spillWrite
  dsimp only
  split
  · exact memWf_ownLine _ _ _ h
  · exact h

/-! ### Contact sheets (15) -/

@[simp] theorem memWf_goOn (r : Nat) (p : Park) : memWf (goOn r p s).mem = true := by
  unfold goOn
  (repeat' split) <;> simp [h]

end

end Sys2Proof.Machine
end

section
/-! PROOFS. Canonical pool memory (O5), continued: the commands and events that take more than their shape. -/

namespace Sys2Proof.Machine

section
variable {s : State} (h : memWf s.mem = true)
include h

/-! ### Shapes of a chapter -/

section
variable {f : State → State} (hf : ∀ u, memWf u.mem = true → memWf (f u).mem = true)
include hf

theorem nextCanonical_spdmAny : NextCanonical (spdmAny f s) := nextCanonical_act h fun u hu => by
  split
  · exact hf u hu
  · exact hu

theorem nextCanonical_spdmKeyed : NextCanonical (spdmKeyed f s) := nextCanonical_spdmAny h fun u hu => by
  split
  · exact hu
  · exact hf u hu

theorem nextCanonical_tokenCmd (r op purpose : Nat) (it : Item) (x : Token) (pre post : State → List Chk) :
    NextCanonical (tokenCmd r op purpose it x pre post f s) := nextCanonical_cmd h (fun u hu => by
  dsimp only
  split
  · simp [hu]
  · split
    · simp [hu]
    · exact hf _ hu) _ _ _

end

theorem nextCanonical_onPort {f : Port → State → State} (hf : ∀ q u, memWf u.mem = true → memWf (f q u).mem = true) (p : Nat)
    (ok : Port → Bool) : NextCanonical (onPort p ok f s) := nextCanonical_act h fun u hu => by
  split
  · split
    · exact hf _ u hu
    · exact hu
  · exact hu

theorem nextCanonical_sideRead (code : Nat) (bytes : State → List Nat) : NextCanonical (sideRead code bytes s) :=
  nextCanonical_act h fun u hu => by split <;> simp [hu]

theorem nextCanonical_telemetry (code lo hi measured : Nat) : NextCanonical (telemetry code lo hi measured s) :=
  nextCanonical_act h fun u hu => by (repeat' split) <;> simp [hu]

theorem nextCanonical_i3cGet (code n : Nat) : NextCanonical (i3cGet code n s) := nextCanonical_act h fun u hu => by split <;> simp [hu]

/-! ### Agents and regions (04) -/

@[simp] theorem nextCanonical_execLeaseExpired (aid : Nat) : NextCanonical (execLeaseExpired aid s) := nextCanonical_act h fun u hu => by
  have hk : memWf ((u.dir.ents.map (·.1)).foldl (fun s k => scanEntry aid k s) u).mem = true :=
    memWf_foldl _ (fun v k hv => memWf_scanEntry hv ..) _ hu
  dsimp only
  (repeat' split) <;> simp [hu, hk]

/-! ### Firings (06) -/

@[simp] theorem nextCanonical_execEndLane (sh : Nat) (g : GArgs) : NextCanonical (execEndLane sh g s) := nextCanonical_act h fun u hu => by
  split
  · exact hu
  · have hl := memWf_laneG hu sh 0x02 g false (fun _ l => { l with fin := true })
    dsimp only
    split
    · exact memWf_releaseMates (memWf_commitShelf hl _) ..
    · exact hl

@[simp] theorem nextCanonical_execFiringDone (fid : Nat) : NextCanonical (execFiringDone fid s) := nextCanonical_act h fun u hu => by
  split
  · exact hu
  next f _ =>
    split
    · exact hu
    · split
      · split <;> simp [hu]
      · split
        · split
          · have hb := memWf_runBuiltin hu f
            dsimp only
            split
            next v e => exact memWf_closeFiring (by simpa using memWf_snd hb e) _
            next v e => exact memWf_closeFiring (by simpa using memWf_tagStop (memWf_snd hb e) fid) _
          · exact hu
        · split
          · exact memWf_closeFiring (memWf_fredOut (memWf_fredOut hu ..) ..) _
          · exact hu

@[simp] theorem nextCanonical_execKlnLibGrant (r n : Nat) (ppas : List Nat) : NextCanonical (execKlnLibGrant r n ppas s) :=
  nextCanonical_cmd h (fun u hu => by simp [hu, memWf_wipePages]) _ _ _

@[simp] theorem nextCanonical_execWindowOpen (r len : Nat) (item : Item) (b : WinBlock) : NextCanonical (execWindowOpen r len item b s) :=
  nextCanonical_cmdFor h (fun u hu => by split <;> simp [hu]) _ _ _ _

@[simp] theorem nextCanonical_execWindowClose (r w : Nat) : NextCanonical (execWindowClose r w s) := nextCanonical_cmd h (fun u hu => by
  split
  · exact hu
  · dsimp only
    split <;> simp [hu]) _ _ _

/-! ### Translation (02) -/

@[simp] theorem nextCanonical_execXltTableGrant (r n : Nat) (ppas : List Nat) : NextCanonical (execXltTableGrant r n ppas s) :=
  nextCanonical_cmd h (fun u hu => by simp [hu, memWf_wipePages]) _ _ _

@[simp] theorem nextCanonical_execXltRootSet (r sid : Nat) : NextCanonical (execXltRootSet r sid s) := nextCanonical_cmdFor h (fun u hu => by
  split
  next v e => simp [memWf_newTable hu _ _ _ e]
  next => exact hu) _ _ _ _

@[simp] theorem nextCanonical_execXltMap (r sid pva count size ppa : Nat) (rd wr att pin reserve : Bool) (item : Item) (list : List Nat) :
    NextCanonical (execXltMap r sid pva count size ppa rd wr att pin reserve item list s) := by
  unfold execXltMap
  refine nextCanonical_cmdFor h (fun u hu => ?_) _ _ _ _
  split
  · simp [hu]
  · split
    next => exact hu
    next v e => simp [memWf_needTables hu _ _ _ _ e]

@[simp] theorem nextCanonical_execFaultResolve (r n : Nat) (pairs : List (Nat × Nat)) : NextCanonical (execFaultResolve r n pairs s) :=
  nextCanonical_cmd h (fun u hu => memWf_retryUnheld (by
    simpa using memWf_foldl_carry (fun a : Nat × Nat × State => a.2.2) (fun a p ha => memWf_resolveOne ha p) _ hu)) _ _ _

@[simp] theorem nextCanonical_execFaultConfig (r timeout batchWindow : Nat) : NextCanonical (execFaultConfig r timeout batchWindow s) :=
  nextCanonical_cmd h (fun u hu => memWf_foldl _ (fun v f hv => memWf_timeOut hv f) _ (by simpa using hu)) _ _ _

@[simp] theorem nextCanonical_execPageMigrate (r sid pva dst : Nat) : NextCanonical (execPageMigrate r sid pva dst s) := by
  unfold execPageMigrate
  refine nextCanonical_cmdFor h (fun u hu => ?_) _ _ _ _
  split
  · exact hu
  · simp [hu]

@[simp] theorem nextCanonical_execMigrateDone (sid page : Nat) : NextCanonical (execMigrateDone sid page s) := nextCanonical_act h fun u hu => by
  split
  · split
    · exact hu
    · lift_lets
      extract_lets mine runs v
      have hv : memWf v.mem = true := by
        unfold v
        (repeat' split) <;> simp [hu]
      clear_value v
      split
      · exact hv
      · split
        · exact hv
        next w hw =>
          have hm : ∀ n mid, memWf (moveLines n mid w).mem = true := fun n mid => memWf_moveLines (by rwa [migMover_mem hw]) n mid
          dsimp only
          split
          · exact hm ..
          · split
            · exact memWf_finishMig (by simpa using hm ..) ..
            · exact hm ..
  · exact hu

/-! ### Pool memory (03) -/

@[simp] theorem nextCanonical_execMemCraze (r ppa lines : Nat) : NextCanonical (execMemCraze r ppa lines s) :=
  nextCanonical_memCmd h (fun u hu => memWf_crazeGo (memWf_foldl _ (fun v i hv => memWf_recallLine (by simpa using hv) ..) _ hu) ..) _ _ _ _

@[simp] theorem nextCanonical_execMemWedge (r die page pages : Nat) : NextCanonical (execMemWedge r die page pages s) :=
  nextCanonical_memCmd h (fun u hu => by
    split
    · simp [hu]
    · simp only [ok_mem]
      exact memWf_modDie _ _ (memWf_fillPages _ _ _ hu)) _ _ _ _

@[simp] theorem nextCanonical_execMemRegen (r die : Nat) : NextCanonical (execMemRegen r die s) :=
  nextCanonical_memCmd h (fun u hu => by simp [memWf_modDie, hu]) _ _ _ _

@[simp] theorem nextCanonical_execMemPpr (r : Nat) (loc : RowLoc) (mode : Nat) (spprLeft hpprLeft : Bool) :
    NextCanonical (execMemPpr r loc mode spprLeft hpprLeft s) :=
  nextCanonical_memCmd h (fun u hu => by (repeat' split) <;> simp [hu, memWf_wedgeRow, memWf_softRepair, memWf_pprExhausted]) _ _ _ _

@[simp] theorem nextCanonical_execSpprRepair (loc : RowLoc) (left : Bool) : NextCanonical (execSpprRepair loc left s) :=
  nextCanonical_act h fun u hu => by (repeat' split) <;> simp [hu, memWf_softRepair, memWf_pprExhausted]

@[simp] theorem nextCanonical_execMemDieSet (r die st : Nat) : NextCanonical (execMemDieSet r die st s) :=
  nextCanonical_memCmd h (fun u hu => by (repeat' split) <;> simp [hu, memWf_modDie]) _ _ _ _

@[simp] theorem nextCanonical_execBisqueConfig (r : Nat) (c : BisqueCfg) (die : Nat) : NextCanonical (execBisqueConfig r c die s) :=
  nextCanonical_memCmd h (fun u hu => by split <;> simp [hu, memWf_modDie]) _ _ _ _

@[simp] theorem nextCanonical_execBisqueSweep (die : Nat) : NextCanonical (execBisqueSweep die s) := nextCanonical_act h fun u hu => by
  dsimp only
  (repeat' split) <;> simp [hu, memWf_modDie, memWf_sweepLine]

@[simp] theorem nextCanonical_execChannelTrained (die channel : Nat) (ok : Bool) : NextCanonical (execChannelTrained die channel ok s) :=
  nextCanonical_act h fun u hu => by
  have hm (f : DieMem → DieMem) : memWf (modDie die f u).mem = true := memWf_modDie die f hu
  dsimp only
  (repeat' split) <;> simp [hu, hm, memWf_modDie]

@[simp] theorem nextCanonical_execWedgePassDone (die : Nat) : NextCanonical (execWedgePassDone die s) := nextCanonical_act h fun u hu => by
  split
  · exact hu
  · exact memWf_fillPages _ _ _ (memWf_modDie _ _ hu)

@[simp] theorem nextCanonical_execTableSweep (plane : Nat) (found : SweepFound) : NextCanonical (execTableSweep plane found s) :=
  nextCanonical_act h fun u hu => by
  split
  · exact hu
  · lift_lets
    extract_lets idle m v w
    have hv : memWf v.mem = true := memWf_foldl _ (fun x r hx => memWf_noteRowErr hx r) _ hu
    have hw : memWf w.mem = true := by
      unfold w
      rw [foldl_mem fun _ _ => badResident_mem _ _ _]
      exact hv
    clear_value w
    split <;> simp [hw]

/-! ### Saggers and ports (08, 09) -/

@[simp] theorem nextCanonical_execSaggerDestroy (r sid : Nat) : NextCanonical (execSaggerDestroy r sid s) :=
  nextCanonical_cmdFor h (fun u hu => by
    simp only [ok_mem]
    exact memWf_foldl _ (fun v x hv => memWf_wipeTable hv x) _ hu) _ _ _ _

@[simp] theorem nextCanonical_execResume (p : Nat) (fresh : Bool) (trainNo rxAck : Nat) (credits : List Nat) :
    NextCanonical (execResume p fresh trainNo rxAck credits s) := nextCanonical_onPort h (fun q u hu => by simp [hu]) _ _

@[simp] theorem nextCanonical_execLctlResend (p : Nat) : NextCanonical (execLctlResend p s) := by
  unfold execLctlResend
  refine nextCanonical_act h fun u hu => ?_
  (repeat' split) <;> simp [hu]

@[simp] theorem nextCanonical_execFlitReceive (p : Nat) (f : RxFlit) : NextCanonical (execFlitReceive p f s) :=
  nextCanonical_onPort h (fun q u hu => by
    dsimp only
    (repeat' split) <;> simp [hu, foldl_mem]) _ _

@[simp] theorem nextCanonical_execFlitSend (p : Nat) : NextCanonical (execFlitSend p s) :=
  nextCanonical_onPort h (fun q u hu => by
    dsimp only
    (repeat' split) <;> simp [hu]) _ _

/-! ### The host path (10) -/

omit h in
theorem putEntry_mem {r slot seq : Nat} {u v : State} (e : putEntry r u = some (slot, seq, v)) : v.mem = u.mem := by
  unfold putEntry at e
  split at e
  · split at e
    · cases e
      rfl
    · cases e
  · cases e

@[simp] theorem nextCanonical_execOutputEntryWrite (r : Nat) : NextCanonical (execOutputEntryWrite r s) := nextCanonical_act h fun u hu => by
  split
  · exact hu
  · split
    · split
      next e => 
        have hv := putEntry_mem e
        dsimp only
        (repeat' split) <;> simp [hv, hu]
      next => exact hu
    · split
      next e => 
        have hv := putEntry_mem e
        dsimp only
        (repeat' split) <;> simp [hv, hu]
      next => exact hu
    · split
      next e => 
        have hv := putEntry_mem e
        simp [hv, hu]
      next => exact hu
    · exact hu

theorem memWf_eachRing (v : Nat) {f : Nat → State → State} (hf : ∀ r u, memWf u.mem = true → memWf (f r u).mem = true) :
    memWf (eachRing v f s).mem = true :=
  memWf_foldl _ (fun u r hu => by split <;> simp [hu, hf]) _ h

@[simp] theorem nextCanonical_execCommandDoorbell (r p : Nat) : NextCanonical (execCommandDoorbell r p s) := nextCanonical_act h fun u hu => by
  (repeat' split) <;> simp [hu]

@[simp] theorem nextCanonical_execConsumerDoorbell (r c : Nat) : NextCanonical (execConsumerDoorbell r c s) := nextCanonical_act h fun u hu => by
  dsimp only
  (repeat' split) <;> simp [hu]

@[simp] theorem nextCanonical_execIrqCauseClear (mask : Nat) : NextCanonical (execIrqCauseClear mask s) := nextCanonical_act h fun _ hu => hu

@[simp] theorem nextCanonical_execPenFwGo (v : Word) : NextCanonical (execPenFwGo v s) := nextCanonical_act h fun u hu => by
  split <;> simp [hu]

@[simp] theorem nextCanonical_execRegisterWrite (off : Nat) (v : Word) : NextCanonical (execRegisterWrite off v s) :=
    nextCanonical_act h fun u hu => by
  dsimp only
  (repeat' split) <;> simp [hu, memWf_after, memWf_eachRing]

/-! ### The module (11, 13, 14) -/

@[simp] theorem nextCanonical_execDieJoin (unit : Nat) (ok : Bool) (delay : Nat) : NextCanonical (execDieJoin unit ok delay s) :=
  nextCanonical_act h fun u hu => by
  split
  · exact hu
  · split
    · exact hu
    · lift_lets
      extract_lets port region k failed v
      have hv : memWf v.mem = true := by
        unfold v
        split
        · split <;> simp [hu]
        · split
          · split
            next x w e =>
              have hw := memWf_snd (by simpa using hu) e
              dsimp only
              split <;> simp [hw]
          · split <;> simp [failed, hu, memWf_modDie]
      clear_value v
      split <;> simp [hv]

@[simp] theorem nextCanonical_execArrayTest (fails : ArrayFails) (badPorts badBanks : List Nat) (planeABad planeBBad : Bool) :
    NextCanonical (execArrayTest fails badPorts badBanks planeABad planeBBad s) := nextCanonical_act h fun u hu => by
  split
  · exact hu
  · split
    next left v e =>
      have hv := memWf_snd (memWf_repairArrays hu fails.spares) e
      lift_lets
      extract_lets unitsOf badShelves ports banks a b shelves glb kiln obs trace w x y gone
      have hy : memWf y.mem = true := by
        refine memWf_foldl _ (fun z p hz => memWf_losePort hz ..) _ ?_
        unfold x
        rw [foldl_mem fun _ _ => badShelf_mem _ _]
        exact hv
      clear_value y
      (repeat' split) <;> simp [hy]

@[simp] theorem nextCanonical_execTallySync : NextCanonical (execTallySync s) := nextCanonical_act h fun u hu => by
  split
  · exact hu
  · refine memWf_foldl _ (fun v k hv => ?_) _ hu
    split
    · split
      · exact hv
      · split
        next x w e =>
          have hw := memWf_snd (by simpa using hv) e
          simpa using hw
    · exact hv

@[simp] theorem nextCanonical_execLockLost (p : Nat) : NextCanonical (execLockLost p s) := nextCanonical_onPort h (fun q u hu => by simp [hu]) _ _

@[simp] theorem nextCanonical_execClockStop (d : ClockDomain) : NextCanonical (execClockStop d s) := nextCanonical_act h fun u hu => by
  split
  · exact hu
  · lift_lets
    extract_lets tal v
    have hv : memWf v.mem = true := by
      unfold v
      simpa using hu
    clear_value v
    split
    · exact memWf_after hv (nextCanonical_execLockLost hv _)
    · exact memWf_after hv (nextCanonical_execLockLost hv _)
    · exact memWf_modDie _ _ hv
    · simp [hv]
    · simp [hv]
    · simp [hv]

/-! ### Observation (15) -/

@[simp] theorem nextCanonical_execMirrorUpdate (sid : Nat) : NextCanonical (execMirrorUpdate sid s) := nextCanonical_act h fun u hu => by
  split
  · exact hu
  next m _ =>
    split
    · exact hu
    · have hl (ws : List Nat) : memWf ((List.range 4).foldl (fun s i => mirrorLine sid m.ppa i ((ws.drop (16 * i)).take 16) s)
          (mirrorSeq sid m.ppa (m.seq + 1) u)).mem = true :=
        memWf_foldl _ (fun v i hv => memWf_mirrorLine hv ..) _ (memWf_mirrorSeq hu ..)
      simp [hl]

@[simp] theorem nextCanonical_execHeatMirrorUpdate (sid : Nat) : NextCanonical (execHeatMirrorUpdate sid s) := nextCanonical_act h fun u hu => by
  split
  · exact hu
  · split
    · exact hu
    · exact memWf_mirrorHeatSeq (memWf_foldl _ (fun v i hv => memWf_mirrorLine hv ..) _ (memWf_mirrorHeatSeq hu ..)) ..

@[simp] theorem nextCanonical_execTraceSpillGrant (r n : Nat) (ppas : List Nat) : NextCanonical (execTraceSpillGrant r n ppas s) :=
  nextCanonical_cmd h (fun u hu => by simp [hu, memWf_wipePages]) _ _ _

end

end Sys2Proof.Machine
end

section
/-! PROOFS. Canonical pool memory (O5), continued: the commands and events that take more than their shape. -/

namespace Sys2Proof.Machine

section
variable {s : State} (h : memWf s.mem = true)
include h

/-! ### Commands and events of costly cases -/

@[simp] theorem nextCanonical_execFirmwareVerified (dmaOk : Bool) (img : FwImage) (sigOk : Bool) :
    NextCanonical (execFirmwareVerified dmaOk img sigOk s) := nextCanonical_act h fun u hu => by
  dsimp only
  (repeat' split) <;> simp [hu]

@[simp] theorem nextCanonical_execFinish (hostSigOk : Bool) (v : FinishBody) : NextCanonical (execFinish hostSigOk v s) :=
    nextCanonical_spdmKeyed h fun u hu => by
  dsimp only
  (repeat' split) <;> simp [hu]

@[simp] theorem nextCanonical_execSel (sh : Nat) (g : GArgs) : NextCanonical (execSel sh g s) := nextCanonical_act h fun u hu => by simp [hu]

@[simp] theorem nextCanonical_execStp (sh : Nat) (g : GArgs) : NextCanonical (execStp sh g s) := nextCanonical_act h fun u hu => by simp [hu]

@[simp] theorem nextCanonical_execAdd32f (sh : Nat) (g : GArgs) : NextCanonical (execAdd32f sh g s) := nextCanonical_act h fun u hu => by simp [hu]

@[simp] theorem nextCanonical_execPowerGovernor (watts : Nat) : NextCanonical (execPowerGovernor watts s) := nextCanonical_act h fun u hu => by
  dsimp only
  (repeat' split) <;> simp [hu]

@[simp] theorem nextCanonical_execPenenoStart (romOk rngOk : Bool) : NextCanonical (execPenenoStart romOk rngOk s) :=
    nextCanonical_act h fun u hu => by
  dsimp only
  (repeat' split) <;> simp [hu]

@[simp] theorem nextCanonical_execPulseWindow (watcher : Nat) (wire mailbox : Bool) : NextCanonical (execPulseWindow watcher wire mailbox s) :=
    nextCanonical_act h fun u hu => by
  dsimp only
  (repeat' split) <;> simp [hu]

@[simp] theorem nextCanonical_execGateOutput (gate plane value : Nat) : NextCanonical (execGateOutput gate plane value s) :=
    nextCanonical_act h fun u hu => by
  dsimp only
  (repeat' split) <;> simp [hu]

@[simp] theorem nextCanonical_execTallyGap (unit : Nat) : NextCanonical (execTallyGap unit s) := nextCanonical_act h fun u hu => by
  (repeat' split) <;> simp [hu]

@[simp] theorem nextCanonical_execEvtPin (pin mode : Nat) : NextCanonical (execEvtPin pin mode s) := nextCanonical_act h fun u hu => by
  dsimp only
  (repeat' split) <;> simp [hu]

/-! ### Every command and event -/

/-- Commands of one shape need only that their own part keeps memory canonical; the others have lemmas above. -/
theorem exec_canonical (i : Instr) : NextCanonical (exec i s) := by
  cases i <;> dsimp only [exec]
  case nop | hostConfig | sysFence | fenceCancel | moduleReset | gateLoad | shapeConfig | agentRevoke | regionResolve | cohRead | heatConfig |
      glazeInstall | glazeRemove | glazePermit | glazeRead | ctxSet | ctxRead | windowArm | windowForce | windowRead | portConfig | aidAllow |
      portReset | saRekey | portRead | aidDetach | obsCounters | traceConfig | traceRead | contactTake | contactRead | contactRelease |
      shelfSramRead | shelfStep | proofGet | otpGenWrite | lcSeal | safelightArm | safelightClose | fwSvnCommit | facCertWrite | facProvision |
      facFwRevoke | facOtpDump =>
    exact nextCanonical_cmd h (fun u hu => by (repeat' split) <;> simp [hu]) _ _ _
  case poolRead | poolWrite | saggerCreate | saggerSet | saggerShelves | saggerSeal | saggerUnseal | saggerDrain | saggerResume | saggerRead |
      cohConfig | regionBind | xltPresent | xltWithdraw | xltProtect | xltFence | xltRead | moveSubmit | kilnFire | firingCancel | firingRead |
      ctxGrant | obsMirrorSet =>
    exact nextCanonical_cmdFor h (fun u hu => by (repeat' split) <;> simp [hu]) _ _ _ _
  case memStart | powerOffPrepare | holderSet | traceCtrl =>
    exact nextCanonical_cmd h (fun u hu => by dsimp only; (repeat' split) <;> simp [hu]) _ _ _
  case lcReturn | lcScrap | safelightOpen | facDebugOpen =>
    exact nextCanonical_tokenCmd h (fun u hu => by simp [hu]) _ _ _ _ _ _ _
  case tokenNonce =>
    exact nextCanonical_cmd h (fun u hu => by simp [hu]) _ _ _
  case commandFetch | statusInterrupt | completionTimeout | reservationExpiry | claimGranted | moverStart | moveDone | commit | shelfOut |
      spareRowAssign | tallyStart | inputLow | pwrFail | poolReady | regionFreeze | meterAdmit | breachRecord | traceSpill | contactMarker |
      contactDone | evtTimerExpiry | evtEdge | evtTimer | arraytest | mrstNRelease =>
    exact nextCanonical_act h fun u hu => by dsimp only; (repeat' split) <;> simp [hu]
  case parkedCommandComplete | ringStart | ringReset | lowWordRead | busMasterChange | hostPathReset | ringDmaError | trained | trainingTimeout |
      trainingRetry | replayTimeout | admitTimeout | ivcLimit | rekeyWindowEnd | leaseExpiry | snoopTimeout | holdEnd | regionChange |
      regionContested | faultBatchClose | faultTimeout | heatDecay | withdrawAck | saggerDrained | moverLost | partPlaced | firingLimit | glazeNop |
      bra | loop | rep | setct | barrier | ldi | ldh | mov | iadd | isub | imul | logic | shift | icmp | fcmp | plog | ldp | ldc | avail | fma32 |
      dot2 | dot4 | dot4x | dot8x | func | cread | cvt | unpk | sred | fred | flags | windowDeadline | driftTracking | dieLost | d2dTransfer |
      dieOvertemp | inputGood | railGroupGood | railFault | hubResetRelease | pwrFailRailsOff | hubOvertemp | mrstN | moduleResetBegin |
      firmwareStart | rngFail | nonceLapse | safelightExpiry | pulseSend | gateUnpaired | divergenceParity | parityError | gapEnd | planeTestDone |
      twinRejoin | resyncTimeout | fatal | crossingReset | regionSyncTimeout | queueSample | gateEntry | evtPulseEnd | page | evtCapture |
      sidebandInvalid | setdasa | entdaa | rstdaa | enec | disec | extest | samplePreload | idcode | clamp | highz | intscan | bypass | tapReset |
      clockReturn | inputLowClear | lcChanged | pcieLinkTrained =>
    exact nextCanonical_act h fun u hu => by (repeat' split) <;> simp [hu]
  case getVersion | getCapabilities | negotiateAlgorithms | spdmUnsupported =>
    exact nextCanonical_spdmAny h fun u hu => by simp [hu]
  case getCertificate | challenge | getMeasurements =>
    exact nextCanonical_spdmKeyed h fun u hu => by (repeat' split) <;> simp [hu]
  case keyExchange =>
    exact nextCanonical_spdmKeyed h fun u hu => by dsimp only; (repeat' split) <;> simp [hu]
  case rdShared | rdOwn | upgrade | rdOnce | scorch | atomic =>
    exact nextCanonical_arriveCoh h _ _
  case rspData | rspClean | rspGone =>
    exact nextCanonical_arriveRsp h _ _ _ _ _
  case laneSwap | laneSwapAck | retrain | laneFail | signalDetect | portLost =>
    exact nextCanonical_onPort h (fun q u hu => by (repeat' split) <;> simp [hu]) _ _
  case voutMode | statusWord | moduleStatus | evtResult =>
    exact nextCanonical_sideRead h _ _
  case readVin | readIin | readVout | readIout | readTemperature1 | readPout | readPin =>
    exact nextCanonical_telemetry h _ _ _ _
  case getpid | getbcr | getdcr | getstatus | getmrl | getmwl =>
    exact nextCanonical_i3cGet h _ _
  case saggerDestroy | xltTableGrant | xltRootSet | xltMap | faultResolve | faultConfig | pageMigrate | memCraze | memWedge | memRegen | memPpr |
      memDieSet | bisqueConfig | klnLibGrant | windowOpen | windowClose | traceSpillGrant | commandDoorbell | consumerDoorbell | irqCauseClear |
      registerWrite | outputEntryWrite | penFwGo | firmwareVerified | finish | writeback | move | fire | fireCancel | agentCtxSet | fence |
      fenceAck | hdata | hdone | contrib | join | pulse | regionPublish | admitHello | admitProve | rekey | rekeyAck | flitReceive | resume |
      lctlResend | lockLost | leaseExpired | migrateDone | firingDone | endLane | sel | stp | add32f | bisqueSweep | tableSweep | spprRepair |
      channelTrained | wedgePassDone | powerGovernor | dieJoin | arrayTest | penenoStart | pulseWindow | gateOutput | tallySync | clockStop |
      tallyGap | mirrorUpdate | heatMirrorUpdate | evtPin | flitSend =>
    simp [h]

end

/-! ### Every step -/

@[simp] theorem tick_mem (s : State) : (tick s).mem = s.mem := by
  unfold tick
  split <;> rfl

/-- Settles O5: a command on the rest of the queue keeps canonical memory (`exec_canonical`), and a tick does not touch it. -/
theorem stepKeepsMemoryCanonical : Obligations.StepKeepsMemoryCanonical := by
  unfold Obligations.StepKeepsMemoryCanonical
  intro s t hs ht
  unfold step at ht
  split at ht
  · cases ht
    exact (congrArg memWf (tick_mem s)).trans hs
  next c rest _ => exact exec_canonical (s := { s with pending := rest }) hs c t ht

end Sys2Proof.Machine
end

section
/-! PROOFS. Changes at a table's key, and what leaves the directory alone: messages (08 R298, R301), records, heat and presence (02 R83,
04 R143). -/

namespace Sys2Proof.Machine

/-! ### Tables -/

/-- A value changed at its key is read as it was changed. -/
theorem smGet_smMod_same {α : Type} (k : Nat) (g : α → α) (m : SMap α) : smGet k (smMod k g m) = (smGet k m).map g := by
  induction m with
  | nil => rfl
  | cons x m ih =>
    obtain ⟨j, u⟩ := x
    by_cases hj : j = k
    · simp [smMod, smGet, hj]
    · by_cases hk : k < j <;> simp [smMod, smGet, hj, hk, ih]

/-! ### Messages -/

/-- Steps that leave the directory alone do so one after another. -/
theorem foldl_dir {α : Type} {g : State → α → State} (hg : ∀ s a, (g s a).dir = s.dir) (l : List α) (s : State) :
    (l.foldl g s).dir = s.dir := by
  induction l generalizing s with
  | nil => rfl
  | cons a l ih => exact (ih (g s a)).trans (hg s a)

@[simp] theorem noteBreach_dir (sid guarantee reason port meter amount : Nat) (s : State) :
    (noteBreach sid guarantee reason port meter amount s).dir = s.dir := by
  unfold noteBreach
  dsimp only
  split <;> rfl

/-- A message waits on its port: nothing of the directory is touched, whether it is sent or discarded (08 R298). -/
@[simp] theorem sendAt_dir (due p : Nat) (plain : Bool) (m : OutMsg) (s : State) : (sendAt due p plain m s).dir = s.dir := by
  unfold sendAt
  dsimp only
  (repeat' split) <;> simp [countLate, modPortCtr]

@[simp] theorem sendOn_dir (p : Nat) (plain : Bool) (m : OutMsg) (s : State) : (sendOn p plain m s).dir = s.dir := sendAt_dir 0 p plain m s

@[simp] theorem sendWords_dir (p op dst tag tgen status : Nat) (body : List Nat) (s : State) :
    (sendWords p op dst tag tgen status body s).dir = s.dir := sendOn_dir _ _ _ _

@[simp] theorem flushFences_dir (p aid : Nat) (s : State) : (flushFences p aid s).dir = s.dir := by
  unfold flushFences
  split
  · rfl
  · exact foldl_dir (fun _ _ => sendWords_dir _ _ _ _ _ _ _ _) _ s

@[simp] theorem closeReq_dir (p aid tag : Nat) (s : State) : (closeReq p aid tag s).dir = s.dir := flushFences_dir _ _ _

/-! ### Records of regions -/

@[simp] theorem superseded_dir (name : Nat) (p win : Pub) (s : State) : (superseded name p win s).dir = s.dir := sendWords_dir _ _ _ _ _ _ _ _

@[simp] theorem owedRecord_dir (name sid : Nat) (o : Owed) (s : State) : (owedRecord name sid o s).dir = s.dir := emit_dir _ _ _ _ _ _

/-! ### Heat and presence -/

@[simp] theorem closeBatch_dir (s : State) : (closeBatch s).dir = s.dir := by
  unfold closeBatch
  dsimp only
  split <;> rfl

@[simp] theorem readyRec_dir (r : FaultRec) (s : State) : (readyRec r s).dir = s.dir := by
  unfold readyRec
  dsimp only
  (repeat' split) <;> simp

@[simp] theorem addHeat_dir (sid base n : Nat) (s : State) : (addHeat sid base n s).dir = s.dir := by
  unfold addHeat
  dsimp only
  (repeat' split) <;> simp [modLeaf]

@[simp] theorem countAccess_dir (q : Req) (s : State) : (countAccess q s).dir = s.dir := by
  unfold countAccess
  split <;> simp

@[simp] theorem setPresence_dir (k : Nat) (s : State) : (setPresence k s).dir = s.dir := by
  unfold setPresence
  split <;> rfl

end Sys2Proof.Machine
end

section
/-! PROOFS. Coherence commands of the host (O19; 04 R153 to R159, 10 R369). -/

namespace Sys2Proof.Machine

section
variable (s : State) (r sid aid name hid choice select val : Nat) (c : CohCfg)

theorem exec_cohConfig : exec (.cohConfig r sid c) s = execCohConfig r sid c s := rfl
theorem exec_agentRevoke : exec (.agentRevoke r aid) s = execAgentRevoke r aid s := rfl
theorem exec_regionBind : exec (.regionBind r name sid hid) s = execRegionBind r name sid hid s := rfl
theorem exec_regionResolve : exec (.regionResolve r name choice) s = execRegionResolve r name choice s := rfl
theorem exec_cohRead : exec (.cohRead r select val) s = execCohRead r select val s := rfl

end

/-! ### COH_CONFIG (R158, R159) -/

/-- Parameters in their ranges pass (R159). -/
theorem cohOk_of_ranges {c : CohCfg} (h1 : c.hold ≤ 16000) (h2 : 1000000 ≤ c.lease) (h3 : c.lease ≤ 10000000000) (h4 : 100000 ≤ c.pulse)
    (h5 : 4 * c.pulse ≤ c.lease) (h6 : 1000000 ≤ c.snoopLimit) (h7 : c.snoopLimit ≤ c.lease) (h8 : 64 ≤ c.backoffBase)
    (h9 : c.backoffBase ≤ c.backoffCap) (h10 : c.backoffCap ≤ 1048576) : cohOk c = true := by
  have h5' : c.pulse * 4 ≤ c.lease := by omega
  simp [cohOk, h1, h2, h3, h4, h5', h6, h7, h8, h9, h10]

section
variable {s : State} {r sid : Nat} {f : Inflight} {c : CohCfg} (h : Ready r 0x28 0 s f)
include h

theorem cohConfig_one (hc : cohOk c = true) (hs : sid ≠ 4095) (hg : sagState sid s ≠ .free) :
    exec (.cohConfig r sid c) s = .next (ok r [] { latched r sid s with dir.cohCfg := smSet sid c s.dir.cohCfg }) := by
  rw [exec_cohConfig]
  refine (cmdFor_acts h (by simp [hc, sagThere_of_ne_free hg])).trans ?_
  simp only [if_neg hs]
  rfl

theorem cohConfig_all (hc : cohOk c = true) :
    exec (.cohConfig r 4095 c) s = .next (ok r [] { latched r 4095 s with dir.cohDef := c, dir.cohCfg := [] }) := by
  rw [exec_cohConfig]
  exact (cmdFor_acts h (by simp [hc])).trans rfl

/-- A SID without a sagger and parameters out of range are both DENIED. -/
theorem cohConfig_denied (hc : cohOk c = false) : Refuses (.cohConfig r sid c) r 0x28 stDENIED 3 s :=
  cmdFor_refused (c := chkDeny true) (exec_cohConfig ..) h (by cases hs : sid != 4095 && !sagThere sid s <;> simp [firstBad, hc, chkDeny])
    (by decide)

end

/-! ### AGENT_REVOKE (R158) -/

section
variable {s : State} {r aid : Nat} {f : Inflight} (h : Ready r 0x29 0 s f)
include h

theorem agentRevoke_ends (hk : (agentOf aid s).kind ≠ 0) (hl : (agentOf aid s).lapsed = false) :
    exec (.agentRevoke r aid) s = .next (ok r [] (leaseEnd aid 2 (latched r 0 s))) := by
  rw [exec_agentRevoke]
  exact (cmd_acts h (by simp [hk, hl])).trans rfl

theorem agentRevoke_denied (hk : (agentOf aid s).kind = 0 ∨ (agentOf aid s).lapsed = true) : Refuses (.agentRevoke r aid) r 0x29 stDENIED 3 s :=
  cmd_refused (c := chkDeny true) (exec_agentRevoke ..) h (by rcases hk with hk | hk <;> simp [firstBad, hk]) (by decide)

end

/-! ### REGION_BIND (R153, R158) -/

section
variable {s : State} {name hid : Nat} {g : Region} (hg : smGet name s.dir.regions = some g)
include hg

/-- An uncontested region is tied, and nothing is owed (R153). -/
theorem bindRegion_uncontested (hh : hid ≠ 4095) (hc : g.cont = none) : bindRegion name hid s =
    { s with dir.regions := smMod name (fun g => { g with hid := some hid }) s.dir.regions } := by
  simp [bindRegion, smGet_smMod_same, hg, hh, hc]

/-- A Contested region is tied, its holder drains and its record is owed (R156, log 42). -/
theorem bindRegion_contested {c : Pub} (hh : hid ≠ 4095) (hc : g.cont = some c) : bindRegion name hid s =
    owe name 2 g.act c { s with dir.regions := smMod name (fun g => { g with hid := some hid }) s.dir.regions } := by
  simp [bindRegion, smGet_smMod_same, hg, hh, hc]

theorem bindRegion_untie : bindRegion name 4095 s = { s with dir.regions := smMod name (fun g => { g with hid := none }) s.dir.regions } := by
  simp [bindRegion, smGet_smMod_same, hg]

end

section
variable {s : State} {r name sid hid : Nat} {f : Inflight} {g : Region} (h : Ready r 0x2A 0 s f)
include h

/-- REGION_BIND of the SID's region binds when it unties, or when neither the region nor the HID is tied (R153). -/
theorem regionBind_acts (hg : smGet name s.dir.regions = some g) (hs : g.sid = sid) (h1 : 1 ≤ hid) (h2 : hid ≤ 4095)
    (hf : hid ≠ 4095 → g.hid = none ∧ hidTied hid s = false) :
    exec (.regionBind r name sid hid) s = .next (ok r [] (bindRegion name hid (latched r sid s))) := by
  have h1' : hid ≠ 0 := by omega
  rw [exec_regionBind]
  refine (cmdFor_acts h ?_).trans rfl
  simpa [hg, hs, h1', h2] using hf

theorem regionBind_conflict (hg : smGet name s.dir.regions = some g) (hs : g.sid = sid) (h1 : 1 ≤ hid) (h2 : hid ≤ 4094)
    (ht : g.hid ≠ none ∨ hidTied hid s = true) : Refuses (.regionBind r name sid hid) r 0x2A stCONFLICT 7 s := by
  have hrange : (hid == 0 || decide (hid > 4095)) = false := by simp; omega
  have hbad : (hid != 4095 && (g.hid.isSome || hidTied hid s)) = true := by
    simpa [Option.isSome_iff_ne_none, Nat.ne_of_lt (Nat.lt_succ_of_le h2)] using ht
  exact cmdFor_refused (c := chkExec true stCONFLICT) (exec_regionBind ..) h (by simp [firstBad, hg, hs, hrange, hbad]) (by decide)

/-- A HID out of range and a region that is not the SID's are both DENIED (log 42). -/
theorem regionBind_denied (hg : (smGet name s.dir.regions).map (·.sid) ≠ some sid) :
    Refuses (.regionBind r name sid hid) r 0x2A stDENIED 3 s := by
  refine cmdFor_refused (c := chkDeny true) (exec_regionBind ..) h ?_ (by decide)
  have hother : ((smGet name s.dir.regions).map (·.sid) != some sid) = true := bne_iff_ne.2 hg
  cases hh : hid == 0 || decide (hid > 4095) <;> simp [firstBad, hother, chkDeny]

end

/-! ### REGION_RESOLVE (R157, R158) -/

section
variable {s : State} {r name choice : Nat} {f : Inflight} (h : Ready r 0x2B 0 s f)
include h

theorem regionResolve_acts {g : Region} (hg : smGet name s.dir.regions = some g) (hc : choice ≤ 2) (ht : g.cont ≠ none) :
    exec (.regionResolve r name choice) s = .next (ok r [] (resolveRegion name choice (latched r 0 s))) := by
  have hc' : choice < 3 := by omega
  rw [exec_regionResolve]
  exact (cmd_acts h (by simpa [hg, hc'] using Option.isSome_iff_ne_none.2 ht)).trans rfl

/-- Without a contest, or without the region, there is nothing to resolve (log 42). -/
theorem regionResolve_conflict (hc : choice ≤ 2) (ht : (smGet name s.dir.regions).bind (·.cont) = none) :
    Refuses (.regionResolve r name choice) r 0x2B stCONFLICT 7 s := by
  have hc' : ¬ 3 ≤ choice := by omega
  exact cmd_refused (c := chkExec true stCONFLICT) (exec_regionResolve ..) h (by simp [firstBad, ht, hc']) (by decide)

theorem regionResolve_reserved (hc : 3 ≤ choice) : Refuses (.regionResolve r name choice) r 0x2B stRESERVED 2 s :=
  cmd_refused (c := chkResv true) (exec_regionResolve ..) h (by simp [firstBad, hc]) (by decide)

end

section
variable {s : State} {name : Nat} {g : Region} {c : Pub} (hg : smGet name s.dir.regions = some g) (hc : g.cont = some c)
include hg hc

/-- The contest of a region that no HID is tied to leaves the winner alone (R157). -/
theorem resolveRegion_unbound (hh : g.hid = none) {choice : Nat} (hn : choice ≠ 2) : smGet name (resolveRegion name choice s).dir.regions =
    some { g with act := if choice = 0 then g.act else c, cont := none } := by
  simp [resolveRegion, hg, hc, hn, hh, smGet_smSet_same]

theorem resolveRegion_withdraw (hw : smWf s.dir.regions = true) : smGet name (resolveRegion name 2 s).dir.regions = none := by
  have hd : (g.owed.foldl (fun s o => owedRecord name g.sid o s) s).dir = s.dir := foldl_dir (fun s o => owedRecord_dir name g.sid o s) _ _
  simp [resolveRegion, hg, hc, hd, smGet_smDel_same _ _ hw]

end

/-! ### COH_READ (R158, 10 R369) -/

section
variable {s : State} {r : Nat} {f : Inflight} (h : Ready r 0x2C 0 s f)
include h

theorem cohRead_line {ppa : Nat} (hw : warmPage ppa s = false)
    (hp : localValid ppa s = true ∨ (ppaFormat ppa = 2 ∧ 1 ≤ ppaHid ppa ∧ ppaHid ppa ≤ 4094)) :
    exec (.cohRead r 0 ppa) s = .next (ok r (cohReadPpa ppa (latched r 0 s)) (latched r 0 s)) := by
  rw [exec_cohRead]
  refine (cmd_acts h ?_).trans rfl
  rcases hp with hp | ⟨h2, h3, h4⟩
  · simp [hp, hw]
  · simp [h2, h3, h4, hw]

theorem cohRead_agent {aid : Nat} (ha : aid ≤ 2047) :
    exec (.cohRead r 1 aid) s = .next (ok r (cohReadAid aid (latched r 0 s)) (latched r 0 s)) := by
  rw [exec_cohRead]
  exact (cmd_acts h (by simp [ha])).trans rfl

theorem cohRead_denied {aid : Nat} (ha : 2047 < aid) : Refuses (.cohRead r 1 aid) r 0x2C stDENIED 3 s :=
  cmd_refused (c := chkDeny true) (exec_cohRead ..) h (by simp [firstBad, ha]) (by decide)

theorem cohRead_reserved {select : Nat} (val : Nat) (hs : 2 ≤ select) : Refuses (.cohRead r select val) r 0x2C stRESERVED 2 s :=
  cmd_refused (c := chkResv true) (exec_cohRead ..) h (by simp [firstBad, hs]) (by decide)

end

/-- Settles O19: each command passes its checks and acts, or fails the check of its rule; what binding and resolving do to a region is
`bindRegion_contested` and `resolveRegion_unbound`. -/
theorem coherenceCommands : Obligations.CoherenceCommands := by
  refine fun s r f => ⟨?_, ?_, fun aid => agentRevoke_ends, fun aid => agentRevoke_denied, ?_, fun name sid hid => regionBind_denied, ?_, ?_,
    ?_, fun name choice => regionResolve_reserved, fun ppa h => cohRead_line h, fun aid h => cohRead_agent h, fun aid h => cohRead_denied h,
    fun sel val h => cohRead_reserved h val⟩
  · intro sid c h h1 h2 h3 h4 h5 h6 h7 h8 h9 h10
    have hc := cohOk_of_ranges h1 h2 h3 h4 h5 h6 h7 h8 h9 h10
    exact ⟨cohConfig_one h hc, cohConfig_all h hc⟩
  · intro sid c h hc
    exact cohConfig_denied h (by simp [cohOk, hc])
  · intro name sid hid g h hg hs
    have hl : smGet name (latched r sid s).dir.regions = some g := hg
    refine ⟨?_, ?_, regionBind_conflict h hg hs, ?_⟩
    · intro h1 h2 hn ht hc
      rw [regionBind_acts h hg hs h1 (by omega) fun _ => ⟨hn, ht⟩, bindRegion_uncontested hl (by omega) hc]
      rfl
    · intro c h1 h2 hn ht hc
      rw [regionBind_acts h hg hs h1 (by omega) fun _ => ⟨hn, ht⟩, bindRegion_contested hl (by omega) hc]
      rfl
    · rw [regionBind_acts h hg hs (by omega) (by omega) (absurd rfl), bindRegion_untie hl]
      rfl
  · intro name choice g h hg hc
    exact ⟨regionResolve_acts h hg hc, fun ht => regionResolve_conflict h hc (by simp [hg, ht])⟩
  · intro name g c hw hg hh hc
    exact ⟨resolveRegion_unbound hg hc hh (by decide), resolveRegion_unbound hg hc hh (by decide), resolveRegion_withdraw hg hc hw⟩
  · intro name choice h hg hc
    exact regionResolve_conflict h hc (by simp [hg])

end Sys2Proof.Machine
end

section
/-! PROOFS. Published regions (O20; 04 R152 to R157). -/

namespace Sys2Proof.Machine

/-- The publication `p` that the message `m` carries names its sender's SID and a good extent, and its codes are defined (R152). -/
def PubWell (m : Mhd) (p : Publication) (sid : Nat) : Prop :=
  m.resv = false ∧ (p.mode = 1 ∨ p.mode = 2) ∧ p.sid = sid ∧ sid < 4096 ∧ p.base % 2 ^ 21 = 0 ∧ 1 ≤ p.pages

/-- The publication as the region table holds it (R152). -/
def pubHeld (m : Mhd) (p : Publication) : Pub := ⟨p.epoch, p.version, p.base, p.pages, p.digest, p.mode, m.src, m.port⟩

/-- A well-formed publication passes the checks of its codes and of its extent. -/
theorem PubWell.passes {m : Mhd} {p : Publication} {sid : Nat} (h : PubWell m p sid) :
    ¬(m.resv = true ∨ p.mode = 0 ∨ p.mode ≥ 3 ∨ p.sid ≥ 4096) ∧ ¬(p.sid ≠ sid ∨ p.base % 2 ^ 21 ≠ 0 ∨ p.pages = 0) := by
  obtain ⟨hr, hm, hs, hlt, hb, hg⟩ := h
  simp only [hr, Bool.false_eq_true, false_or]
  omega

/-- EPOCH decides, and VERSION where EPOCH is the same (R154). -/
theorem pubKey_lt {e v e' v' : Nat} (hv : v < 2 ^ 32) (hv' : v' < 2 ^ 32) : pubKey e v < pubKey e' v' ↔ e < e' ∨ e = e' ∧ v < v' := by
  unfold pubKey
  omega

section
variable {s : State} {m : Mhd} {p : Publication} {sid : Nat} (hp : PubWell m p sid)
include hp

/-- A well-formed publication for an unknown name is entered, not bound, while there is room (R152, R153). -/
theorem servePublish_new (hn : smGet p.name s.dir.regions = none) (hl : s.dir.regions.length < 4096)
    (hu : (s.dir.regions.filter fun e => e.2.sid == sid && e.2.hid.isNone && e.2.cont.isNone).length < 256) :
    servePublish m p sid s = regionAck m stOK 1
      { s with dir.regions := smSet p.name ⟨sid, none, pubHeld m p, none, []⟩ s.dir.regions } := by
  obtain ⟨hform, hext⟩ := hp.passes
  have hroom : ¬(s.dir.regions.length ≥ 4096
      ∨ (s.dir.regions.filter fun e => e.2.sid == sid && e.2.hid.isNone && e.2.cont.isNone).length ≥ 256) := by omega
  simp only [servePublish, if_neg hform, if_neg hext, hn, if_neg hroom]
  rfl

/-- A well-formed publication for a known name is judged by the region, its sagger and the order of EPOCH and VERSION (R154). -/
theorem servePublish_known {r : Region} (hn : smGet p.name s.dir.regions = some r) :
    servePublish m p sid s = if r.cont.isSome then regionAck m stCONTESTED 0 s
      else if sid ≠ r.sid then regionAck m stDENIED 0 (countDenied sid s)
      else if pubKey p.epoch p.version < pubKey r.act.epoch r.act.version then regionAck m stCONFLICT 0 s
      else if pubKey p.epoch p.version = pubKey r.act.epoch r.act.version then
        if p.digest = r.act.digest then regionAck m stOK (b2n (m.src == r.act.aid)) s
        else regionAck m stCONTESTED 0 (owe p.name 2 r.act (pubHeld m p)
          { s with dir.regions := smSet p.name { r with cont := some (pubHeld m p) } s.dir.regions })
      else regionAck m stOK 1 (owe p.name 1 r.act (pubHeld m p) (superseded p.name r.act (pubHeld m p)
        { s with dir.regions := smSet p.name { r with act := pubHeld m p } s.dir.regions })) := by
  obtain ⟨hform, hext⟩ := hp.passes
  obtain ⟨-, -, rfl, -⟩ := hp
  simp only [servePublish, if_neg hform, if_neg hext, hn]
  rfl

end

/-- Settles O20: a well-formed publication is judged as `servePublish_known` says, its EPOCH and VERSION compared by `pubKey_lt`. -/
theorem publicationOutcomes : Obligations.PublicationOutcomes := by
  intro s m p sid q hq hr hm hs hlt hb hg
  have hp : PubWell m p sid := ⟨hr, hm, hs, hlt, hb, hg⟩
  obtain rfl : q = pubHeld m p := hq
  refine ⟨servePublish_new hp, fun r hn hc => ?_, fun r hn hc hne => ?_, fun r hn hc heq hv hv' => ⟨?_, ?_, ?_, ?_⟩⟩
  · rw [servePublish_known hp hn, if_pos (Option.isSome_iff_ne_none.2 hc)]
  · rw [servePublish_known hp hn, hc, if_neg (by simp), if_pos hne.symm]
  all_goals
    have hlt := pubKey_lt (e := p.epoch) (e' := r.act.epoch) hv hv'
    have hgt := pubKey_lt (e := r.act.epoch) (e' := p.epoch) hv' hv
    rw [servePublish_known hp hn, hc, if_neg (by simp), if_neg (not_not.2 heq.symm)]
  · intro h
    rw [if_pos (hlt.2 h)]
  · intro he hver hd
    rw [he, hver, if_neg (lt_irrefl _), if_pos rfl, if_pos hd]
    simp [b2n]
  · intro he hver hd
    rw [he, hver, if_neg (lt_irrefl _), if_pos rfl, if_neg hd]
  · intro h
    have h := hgt.2 h
    rw [if_neg (Nat.lt_asymm h), if_neg h.ne']

end Sys2Proof.Machine
end

section
/-! PROOFS. Coherent requests (O22; 04 R123 to R133, R149). -/

namespace Sys2Proof.Machine

/-- Of the commands that carry a coherent request none is a contribution, and each arrives as a request (R123, R131). -/
theorem lineReq_arrives {i : Instr} {m : Mhd} {q : Req} {addr al : Nat} {le : Option Nat} (h : lineReq i = some (m, q, addr, al, le)) (s : State) :
    exec i s = .next (arriveCoh m i s) ∧ ∀ m a rd c d, i ≠ .contrib m a rd c d := by
  cases i
  case rdShared | rdOwn | upgrade | rdOnce | scorch | atomic =>
    obtain rfl : _ = m := congrArg Prod.fst (Option.some.inj h)
    exact ⟨rfl, nofun⟩
  all_goals cases h

/-- A delivered request that passes gate and meter is counted and served (09 R320, 15 R481). -/
theorem exec_lineReq_passes {i : Instr} {m : Mhd} {q : Req} {addr al : Nat} {le : Option Nat} {s u : State}
    (h : lineReq i = some (m, q, addr, al, le)) (hp : Passes m (64 + s.sags.shape.fOvh) 1 s u) : exec i s = .next (serveCoh i (addGlobal 5 1 u)) := by
  obtain ⟨hx, hi⟩ := lineReq_arrives h s
  rw [hx, arriveCoh, arrive_delivered hp.1]
  exact congrArg _ (metered_passes hp hi _ _)

section
variable {s : State} {m : Mhd} {a e : Nat} (ha : a < 2 ^ 52)
include ha

/-- A line's address is a multiple of 64 (R123). -/
theorem serveCoh_misaligned (h : a % 64 ≠ 0) : serveCoh (.rdShared m a) s = refuseLine m (sidOf m.port m.src s) stDENIED s
    ∧ ∀ nw, serveCoh (.rdOnce m a nw) s = refuseLine m (sidOf m.port m.src s) stDENIED s := by
  have ha' : ¬ a ≥ 2 ^ 52 := Nat.not_le.2 ha
  simp [-Nat.reducePow, serveCoh, lineReq, ha', h]

/-- RD_SHARED, RD_OWN and UPGRADE are refused as the agent's lease says (R122, R148, R150). -/
theorem serveCoh_lease (h : a % 64 = 0) {st : Nat} :
    (leaseRefusal m.src none s = some st → serveCoh (.rdShared m a) s = refuseLine m (sidOf m.port m.src s) st s)
    ∧ (leaseRefusal m.src (some e) s = some st → serveCoh (.rdOwn m a e) s = refuseLine m (sidOf m.port m.src s) st s
      ∧ serveCoh (.upgrade m a e) s = refuseLine m (sidOf m.port m.src s) st s) := by
  have ha' : ¬ a ≥ 2 ^ 52 := Nat.not_le.2 ha
  refine ⟨fun hl => ?_, fun hl => ⟨?_, ?_⟩⟩ <;> simp [-Nat.reducePow, serveCoh, lineReq, ha', h, hl]

/-- An address without a mapping that permits the read is refused (02 R55). -/
theorem serveCoh_unmapped (h : a % 64 = 0) (nw : Bool) (ht : translate (sidOf m.port m.src s) a 1 s = .denied) :
    serveCoh (.rdOnce m a nw) s = refuseLine m (sidOf m.port m.src s) stDENIED s := by
  have ha' : ¬ a ≥ 2 ^ 52 := Nat.not_le.2 ha
  simp [-Nat.reducePow, serveCoh, lineReq, ha', h, serveLine, accOf, ht]

end

section
variable {s : State} {aid : Nat} {le : Option Nat}

theorem leaseRefusal_none (h : (agentOf aid s).kind = 0) : leaseRefusal aid le s = some stDENIED := by
  simp [leaseRefusal, h]

/-- A cache-less agent has no lease that a request for a copy could rest on (R122). -/
theorem leaseRefusal_cacheless (h : (agentOf aid s).kind = 2) (hl : (agentOf aid s).lapsed = false) : leaseRefusal aid le s = some stDENIED := by
  simp [leaseRefusal, h, hl]

theorem leaseRefusal_lapsed (h : (agentOf aid s).kind ≠ 0) (hl : (agentOf aid s).lapsed = true) : leaseRefusal aid le s = some stLEASELOST := by
  simp [leaseRefusal, h, hl]

theorem leaseRefusal_epoch {e : Nat} (h : (agentOf aid s).kind = 1) (hl : (agentOf aid s).lapsed = false) (he : e ≠ (agentOf aid s).lepoch) :
    leaseRefusal aid (some e) s = some stLEASELOST := by
  simp [leaseRefusal, h, hl, he]

end

/-- Settles O22: a request that passes is served (`exec_lineReq_passes`), what each asks is read off `lineReq`, and the refusals come in the order
address, lease, mapping. -/
theorem coherentRequests : Obligations.CoherentRequests := by
  refine ⟨fun s u m i q addr al le => exec_lineReq_passes, fun m a e c aop size mask o1 o2 nw d => ?_, fun s m a e ha => ?_⟩
  · exact ⟨rfl, rfl, rfl, rfl, rfl, rfl, rfl, fun hs => by simp [lineReq, hs]⟩
  · exact ⟨serveCoh_misaligned ha, fun h hk => (serveCoh_lease (e := e) ha h).1 (leaseRefusal_none hk),
      fun h hk hl => ((serveCoh_lease ha h).2 (leaseRefusal_cacheless hk hl)).1,
      fun h hk hl => ((serveCoh_lease ha h).2 (leaseRefusal_lapsed hk hl)).1,
      fun h hk hl he => ((serveCoh_lease ha h).2 (leaseRefusal_epoch hk hl he)).2, fun nw h => serveCoh_unmapped ha h nw⟩

end Sys2Proof.Machine
end

section
/-! PROOFS. Grants, writebacks and answers to snoops (O23; 04 R124 to R138). -/

namespace Sys2Proof.Machine

/-! ### The entry that a delivered line leaves (R127 to R131) -/

section
variable {k : Nat} {q : Req} {e : DirEnt} {s : State}

/-- A request for ownership leaves the requester the only holder. -/
theorem afterRead_owned (h : q.op = .rdOwn ∨ q.op = .upgrade) :
    (afterRead k q e s).st = .owned ∧ (afterRead k q e s).copies = [(q.src, q.epoch)] ∧ (afterRead k q e s).wide = false := by
  rcases h with h | h <;> simp [afterRead, h, noCopies]

theorem afterRead_shared_first (h : q.op = .rdShared) (hs : e.st = .uncached) (hw : e.wide = false) (hc : e.copies = []) :
    (afterRead k q e s).st = .shared ∧ (afterRead k q e s).copies = [(q.src, q.epoch)] ∧ (afterRead k q e s).sid = lineSid k q.sid s := by
  cases hg : e.gone <;> simp [afterRead, h, hs, addSharer, hw, hc, hg]

/-- A port has a bit of its own in a port-pair vector (R128). -/
theorem pairBit_ne_zero (port : Nat) : pairBit port ≠ 0 := by
  have : port / 2 % 8 < 8 := Nat.mod_lt _ (by decide)
  unfold pairBit
  interval_cases port / 2 % 8 <;> decide

/-- The third sharer makes the entry wide, with the pair of its own port among those marked (R130, R131). -/
theorem afterRead_shared_wide (h : q.op = .rdShared) (hw : e.wide = false) (hg : e.gone = false)
    (hl : 2 ≤ e.copies.length) (hc : e.copies.any (·.1 == q.src) = false) :
    (afterRead k q e s).wide = true ∧ (afterRead k q e s).copies = [] ∧ (afterRead k q e s).pp &&& pairBit (agentOf q.src s).port ≠ 0 := by
  have hl' : ¬ e.copies.length < 2 := Nat.not_lt.2 hl
  have hb : (pairsOf e.copies s ||| pairBit (agentOf q.src s).port) &&& pairBit (agentOf q.src s).port = pairBit (agentOf q.src s).port := by
    ext i hi
    simp +contextual
  simp only [afterRead, h, addSharer, hw, hg, hc, hl', Bool.false_eq_true, if_false, hb]
  exact ⟨trivial, trivial, pairBit_ne_zero _⟩

theorem afterRead_once (h : q.op = .rdOnce) (hs : e.st = .uncached) : afterRead k q e s = e := by
  simp [afterRead, h, afterShare, hs]

end

/-! ### Grants (R131, R138) -/

@[simp] theorem clearNacks_ents (aid k : Nat) (s : State) : (clearNacks aid k s).dir.ents = s.dir.ents := rfl

/-- A grant changes of the directory's entries only the line's own: its hold window, the time of the grant and the page. -/
theorem grant_ents {k : Nat} {q : Req} {e : DirEnt} {s : State} (h : entOf k s = some e) (op : Nat) (line : Option (LineData × Nat)) :
    (grant k q op line s).dir.ents = smMod k (fun e' => { e' with
      holdEnd := s.now + (cohOf e.sid s).hold, granted := s.now, page := q.page }) s.dir.ents := by
  simp [grant, h, modEnt]

theorem entOf_grant {k : Nat} {q : Req} {e : DirEnt} {s : State} (h : entOf k s = some e) (op : Nat) (line : Option (LineData × Nat)) :
    entOf k (grant k q op line s) = some { e with holdEnd := s.now + (cohOf e.sid s).hold, granted := s.now, page := q.page } := by
  have h' : smGet k s.dir.ents = some e := h
  simp [entOf, grant_ents h, smGet_smMod_same, h']

/-! ### Writebacks (R131) -/

theorem exec_writeback {m : Mhd} {s : State} (hd : Delivered m s) (h : Handle) (le c : Nat) (d : LineData) :
    exec (.writeback m h le c d) s = .next (serveWriteback m h le c d (sidOf m.port m.src s) s) :=
  congrArg _ (arrive_delivered hd _ _)

section
variable {s t : State} {m : Mhd} {h : Handle} {le c sid : Nat} {d : LineData} {e : DirEnt} (hr : m.resv = false)
  (hk : (agentOf m.src s).kind ≠ 0) (hl : (agentOf m.src s).lapsed = false)
include hr hk hl

/-- The owner's writeback of a local line writes it, and the entry, without copies, leaves the directory. -/
theorem serveWriteback_owner (hle : le = (agentOf m.src s).lepoch) (he : entOf h.line s = some e) (hs : h.sid = sid) (ho : e.st = .owned)
    (hc : e.copies.any (·.1 == m.src) = true) (hn : e.snoops.contains m.src = false) (hq : e.queue = []) (hloc : isLocal h.line = true)
    (ht : writeLocal (keyLine h.line) e.sid e.sid d fullMask c none s = some t) : serveWriteback m h le c d sid s =
      freeEnt h.line (modEnt h.line noCopies (clearNacks m.src h.line (refuseLine m sid stOK t))) := by
  simp only [serveWriteback, hr, hk, hl, hle, he, hs, ho, hc, hn, hq, hloc, ht, ne_eq, not_true_eq_false, Bool.false_eq_true, Bool.true_eq_false,
    or_self, if_false, if_true]

theorem serveWriteback_otherEpoch (hle : le ≠ (agentOf m.src s).lepoch) : serveWriteback m h le c d sid s = refuseLine m sid stLEASELOST s := by
  simp [serveWriteback, hr, hk, hl, hle]

theorem serveWriteback_otherHandle (hle : le = (agentOf m.src s).lepoch) (he : entOf h.line s = some e) (hs : h.sid ≠ sid) :
    serveWriteback m h le c d sid s = refuseLine m sid stDENIED s := by
  simp [serveWriteback, hr, hk, hl, hle, he, hs]

end

/-! ### Answers to snoops (R130, R131, R146) -/

theorem arriveRsp_delivered {m : Mhd} {s : State} (hd : Delivered m s) (hr : m.resv = false) (i : Instr) (h : Handle)
    (back : Option (LineData × Nat)) (gone : Bool) : arriveRsp m i h back gone s = snoopAnswer h.line m.src back gone s := by
  rw [arriveRsp, arrive_delivered hd, hr]
  rfl

section
variable {s : State} {k aid : Nat} (back : Option (LineData × Nat)) (gone : Bool)

/-- An answer whose line has left the directory closes its snoop; data that comes with it is discarded and counted (R146). -/
theorem snoopAnswer_stray {t : Nat} {rest : List (Nat × Nat × Nat)} (h : s.dir.strays = (k, aid, t) :: rest) : snoopAnswer k aid back gone s =
    { s with dir.strays := rest, dir.discarded := if back.isSome then add32 s.dir.discarded 1 else s.dir.discarded } := by
  simp [snoopAnswer, h]

/-- An answer that nobody asked for. -/
theorem snoopAnswer_unasked (hs : ∀ x ∈ s.dir.strays, x.1 ≠ k ∨ x.2.1 ≠ aid)
    (he : ∀ e, entOf k s = some e → e.snoops.contains aid = false) : snoopAnswer k aid back gone s = s := by
  have hf : (s.dir.strays.find? fun x => x.1 == k && x.2.1 == aid) = none :=
    List.find?_eq_none.2 fun x hx => by simpa [imp_iff_not_or] using hs x hx
  simp only [snoopAnswer, hf]
  cases hk : entOf k s with
  | none => rfl
  | some e => simp only [he e hk, Bool.false_eq_true, and_false, if_false]

end

/-- Settles O23: the entry is what `afterRead` makes of it, a grant adds the hold window (`entOf_grant`), and a writeback or an answer that is
delivered is judged by the entry of the line it names. -/
theorem writebacksAndSnoops : Obligations.WritebacksAndSnoops := by
  refine ⟨fun s k q e s' => ⟨fun h => afterRead_owned (.inl h), fun h => ?_, afterRead_shared_first,
    fun h _ => afterRead_shared_wide h, afterRead_once, fun _ he op line => ?_⟩, fun s t m h le c d e hd hr => ?_, fun s m h c d hd hr => ?_⟩
  · obtain ⟨hst, hc, -⟩ := afterRead_owned (k := k) (e := e) (s := s') (.inr h)
    exact ⟨hst, hc⟩
  · simp [entOf_grant he]
  · rw [exec_writeback hd]
    exact ⟨fun hk hl hle he hs ho hc hn hq hloc ht => congrArg _ (serveWriteback_owner hr hk hl hle he hs ho hc hn hq hloc ht),
      fun hk hl hle => congrArg _ (serveWriteback_otherEpoch hr hk hl hle),
      fun hk hl hle he hs => congrArg _ (serveWriteback_otherHandle hr hk hl hle he hs)⟩
  · have data : exec (.rspData m h c d) s = .next (snoopAnswer h.line m.src (some (d, c)) false s) := congrArg _ (arriveRsp_delivered hd hr ..)
    have clean : exec (.rspClean m h) s = .next (snoopAnswer h.line m.src none false s) := congrArg _ (arriveRsp_delivered hd hr ..)
    have gone : exec (.rspGone m h) s = .next (snoopAnswer h.line m.src none true s) := congrArg _ (arriveRsp_delivered hd hr ..)
    refine ⟨data, clean, gone, fun t rest hs => ?_, fun hs he => ?_⟩
    · rw [data, clean, gone]
      simp only [snoopAnswer_stray _ _ hs]
      exact ⟨rfl, rfl, rfl⟩
    · rw [data, clean, gone]
      simp only [snoopAnswer_unasked _ _ hs he, and_self]

end Sys2Proof.Machine
end

section
/-! PROOFS. Joins and pulses, the events of leases and holds, and completion timers (O24; 04 R135 to R156, 08 R310). -/

namespace Sys2Proof.Machine

section
variable (s : State) (aid tag line name : Nat)

theorem exec_leaseExpiry : exec (.leaseExpiry aid) s = execLeaseExpiry aid s := rfl
theorem exec_snoopTimeout : exec (.snoopTimeout aid) s = execSnoopTimeout aid s := rfl
theorem exec_leaseExpired : exec (.leaseExpired aid) s = execLeaseExpired aid s := rfl
theorem exec_holdEnd : exec (.holdEnd line) s = execHoldEnd line s := rfl
theorem exec_reservationExpiry : exec (.reservationExpiry aid line) s = execReservationExpiry aid line s := rfl
theorem exec_completionTimeout : exec (.completionTimeout aid tag) s = execCompletionTimeout aid tag s := rfl
theorem exec_regionChange : exec (.regionChange name) s = .next (regionRecord name 1 s) := rfl
theorem exec_regionContested : exec (.regionContested name) s = .next (regionRecord name 2 s) := rfl

end

/-! ### JOIN (R122, R147, R151) -/

theorem exec_join {m : Mhd} {s : State} (hd : Delivered m s) (kind : Nat) :
    exec (.join m kind) s = .next (serveJoin m kind (sidOf m.port m.src s) s) := congrArg _ (arrive_delivered hd _ _)

theorem serveJoin_reserved {m : Mhd} {kind sid : Nat} {s : State} (h1 : kind ≠ 1) (h2 : kind ≠ 2) :
    serveJoin m kind sid s = joinAck m stRESERVED (agentOf m.src s).lepoch (cohOf sid s) s := by
  simp [serveJoin, h1, h2]

section
variable {m : Mhd} {kind sid : Nat} {s : State} (hr : m.resv = false) (hk : kind = 1 ∨ kind = 2)
include hr hk

/-- A JOIN without a reserved bit or code is judged by the agent's lease and its scan. -/
theorem serveJoin_judged : serveJoin m kind sid s =
    if (agentOf m.src s).kind ≠ 0 ∧ (agentOf m.src s).lapsed = false then
      joinAck m stDENIED (agentOf m.src s).lepoch (cohOf sid s) (countDenied sid s)
    else if (agentOf m.src s).ending.isSome then joinAck m stBUSY (agentOf m.src s).lepoch (cohOf sid s) s
    else joinAck m stOK (add32 (agentOf m.src s).lepoch 1) (cohOf sid s) (setAgent m.src { agentOf m.src s with
      kind := kind, lapsed := false, lepoch := add32 (agentOf m.src s).lepoch 1, expiry := s.now + (cohOf sid s).lease, sid := sid,
      port := m.port } s) := by
  have hform : ¬(m.resv = true ∨ kind ≠ 1 ∧ kind ≠ 2) := by simp only [hr, Bool.false_eq_true, false_or]; omega
  simp only [serveJoin, if_neg hform]

theorem serveJoin_joined (hj : (agentOf m.src s).kind ≠ 0) (hl : (agentOf m.src s).lapsed = false) :
    serveJoin m kind sid s = joinAck m stDENIED (agentOf m.src s).lepoch (cohOf sid s) (countDenied sid s) := by
  rw [serveJoin_judged hr hk, if_pos ⟨hj, hl⟩]

/-- An agent without a lease waits for the scan of the one it had (R150). -/
theorem serveJoin_scanning (hj : (agentOf m.src s).kind = 0 ∨ (agentOf m.src s).lapsed = true) (he : (agentOf m.src s).ending ≠ none) :
    serveJoin m kind sid s = joinAck m stBUSY (agentOf m.src s).lepoch (cohOf sid s) s := by
  rw [serveJoin_judged hr hk, if_neg (by simpa [imp_iff_not_or] using hj), if_pos (Option.isSome_iff_ne_none.2 he)]

/-- An agent without a lease gets one, with the next lease epoch (R147). -/
theorem serveJoin_free (hj : (agentOf m.src s).kind = 0 ∨ (agentOf m.src s).lapsed = true) (he : (agentOf m.src s).ending = none) :
    serveJoin m kind sid s = joinAck m stOK (add32 (agentOf m.src s).lepoch 1) (cohOf sid s) (setAgent m.src ⟨kind, false,
      add32 (agentOf m.src s).lepoch 1, s.now + (cohOf sid s).lease, sid, m.port, (agentOf m.src s).nacks, none⟩ s) := by
  rw [serveJoin_judged hr hk, if_neg (by simpa [imp_iff_not_or] using hj), if_neg (by simp [he])]
  simp only [he]

end

/-! ### PULSE (R148) -/

theorem exec_pulse {m : Mhd} {s : State} (hd : Delivered m s) (le : Nat) : exec (.pulse m le) s = .next (servePulse m le s) :=
  congrArg _ (arrive_delivered hd _ _)

section
variable {m : Mhd} {le : Nat} {s : State} (hr : m.resv = false)
include hr

/-- A pulse within the lease moves its expiry. -/
theorem servePulse_renews (hk : (agentOf m.src s).kind = 1) (hl : (agentOf m.src s).lapsed = false) (he : le = (agentOf m.src s).lepoch)
    (hx : s.now ≤ (agentOf m.src s).expiry) : servePulse m le s =
      sendWords m.port 0xC3 m.src m.tag m.tgen stOK [(agentOf m.src s).lepoch]
        (setAgent m.src { agentOf m.src s with expiry := s.now + (cohOf (agentOf m.src s).sid s).lease } s) := by
  simp [servePulse, hr, hk, hl, he, Nat.not_lt.2 hx]

/-- An agent that has not joined, or joined without a cache, has no lease to renew. -/
theorem servePulse_denied (hk : (agentOf m.src s).kind = 0 ∨ ((agentOf m.src s).kind = 2 ∧ (agentOf m.src s).lapsed = false)) :
    servePulse m le s = sendWords m.port 0xC3 m.src m.tag m.tgen stDENIED [(agentOf m.src s).lepoch]
      (countDenied (sidOf m.port m.src s) s) := by
  simp [servePulse, hr, hk]

/-- A lease that has lapsed, has another epoch or has expired is lost. -/
theorem servePulse_lost (hk : (agentOf m.src s).kind ≠ 0) (hl : (agentOf m.src s).kind = 2 → (agentOf m.src s).lapsed = true)
    (hx : (agentOf m.src s).lapsed = true ∨ le ≠ (agentOf m.src s).lepoch ∨ (agentOf m.src s).expiry < s.now) :
    servePulse m le s = sendWords m.port 0xC3 m.src m.tag m.tgen stLEASELOST [(agentOf m.src s).lepoch] s := by
  have hj : ¬((agentOf m.src s).kind = 0 ∨ ((agentOf m.src s).kind = 2 ∧ (agentOf m.src s).lapsed = false)) := by simpa [hk] using hl
  simp only [servePulse, hr, Bool.false_eq_true, if_false, if_neg hj, if_pos hx]

end

/-! ### The events of leases (R147, R150) -/

section
variable {s : State} {aid : Nat} (ha : s.alive = true)
include ha

theorem leaseExpiry_passed (hc : isCaching aid s = true) (hx : (agentOf aid s).expiry < s.now) :
    exec (.leaseExpiry aid) s = .next (leaseEnd aid 0 s) := by
  simp [exec_leaseExpiry, execLeaseExpiry, act, ha, hc, hx]

theorem snoopTimeout_late (hl : snoopLate aid s = true) : exec (.snoopTimeout aid) s = .next (leaseEnd aid 1 s) := by
  simp [exec_snoopTimeout, execSnoopTimeout, act, ha, hl]

/-- With no line in the directory the scan of an ended lease is over, and its record is written (R150). -/
theorem leaseExpired_scanned {c m x : Nat} (he : (agentOf aid s).ending = some (c, m, x)) (hd : s.dir.ents = []) (ho : s.outst = []) :
    exec (.leaseExpired aid) s = .next (emit 0x0E (agentOf aid s).sid 0 0 ([aid, (agentOf aid s).lepoch, c, m, x, 0] ++ w64 s.now)
      (setAgent aid { agentOf aid s with ending := none } s)) := by
  simp [exec_leaseExpired, execLeaseExpired, act, ha, he, hd, ho]

/-! ### Holds and reservations (R137, R138) -/

theorem holdEnd_over {k : Nat} {e : DirEnt} (he : entOf k s = some e) (ht : e.holdEnd ≤ s.now) : exec (.holdEnd k) s = .next (pumpLine k s) := by
  simp [exec_holdEnd, execHoldEnd, act, ha, he, ht]

theorem reservationExpiry_lapses {k i t : Nat} (hr : s.dir.reserv = [⟨aid, k, i, t⟩]) (ht : t ≤ s.now) (hw : s.dir.reservWait = []) :
    exec (.reservationExpiry aid k) s = .next { s with dir.reserv := [] } := by
  simp [exec_reservationExpiry, execReservationExpiry, act, ha, hr, ht, nextReserv, hw]

/-! ### Completion timers (08 R310) -/

/-- The timer of a request for which nothing else waits: its TAG is held back, the host is told (the HID in the record is log 50) and a FENCE
is sent. -/
theorem completionTimeout_fence {o : Outst} (hs : s.outst = [o]) (hi : o.aid = aid) (hl : o.lost = false)
    (ht : o.sent + completionLimit o.port s ≤ s.now) (hp : o.purpose = .fence aid) :
    exec (.completionTimeout aid o.tag) s = .next (sendFence o.port aid (emit 0x17 4095 0 0 [timeoutHid o s, o.aid, o.op, o.tag]
      { s with outst := [{ o with lost := true }] })) := by
  simp [exec_completionTimeout, execCompletionTimeout, act, ha, hs, hi, hl, ht, expire, hp]

end

theorem leaseExpiry_within {s : State} {aid : Nat} (hx : s.now ≤ (agentOf aid s).expiry) : exec (.leaseExpiry aid) s = .next s := by
  simp [exec_leaseExpiry, execLeaseExpiry, act, Nat.not_lt.2 hx]

theorem snoopTimeout_within {s : State} {aid : Nat} (hl : snoopLate aid s = false) : exec (.snoopTimeout aid) s = .next s := by
  simp [exec_snoopTimeout, execSnoopTimeout, act, hl]

theorem holdEnd_within {s : State} {k : Nat} {e : DirEnt} (he : entOf k s = some e) (ht : s.now < e.holdEnd) :
    exec (.holdEnd k) s = .next s := by
  simp [exec_holdEnd, execHoldEnd, act, he, Nat.not_le.2 ht]

/-! ### The records of regions (R155, R156) -/

/-- The oldest record that a region owes is written once the holder's recall is over. -/
theorem regionRecord_oldest {name : Nat} {g : Region} {o : Owed} {rest : List Owed} {s : State} (ha : s.alive = true)
    (hg : smGet name s.dir.regions = some g) (ho : g.owed = o :: rest) (hr : recallOver o.hid s = true) : regionRecord name o.kind s =
      owedRecord name g.sid o { s with dir.regions := smSet name { g with owed := rest } s.dir.regions } := by
  simp [regionRecord, hg, ho, ha, hr]

theorem regionRecord_waits {name : Nat} {g : Region} {o : Owed} {rest : List Owed} {s : State} (hg : smGet name s.dir.regions = some g)
    (ho : g.owed = o :: rest) (hr : recallOver o.hid s = false) (kind : Nat) : regionRecord name kind s = s := by
  simp [regionRecord, hg, ho, hr]

/-- Settles O24: joins and pulses are judged by the agent's entry (`serveJoin_free`, `servePulse_renews`), and each event acts when its time has
come and else changes nothing. -/
theorem leasesAndTimers : Obligations.LeasesAndTimers := by
  refine ⟨fun s m kind le hd hr => ?_, fun s aid ha => ⟨leaseExpiry_passed ha, leaseExpiry_within, snoopTimeout_late ha, snoopTimeout_within,
    fun c m x => leaseExpired_scanned ha, fun k e => holdEnd_over ha, fun k e => holdEnd_within, fun k i t => reservationExpiry_lapses ha,
    fun o => completionTimeout_fence ha, fun name g o rest hg ho hover => ?_,
    fun name g o rest hg ho hover => ?_⟩⟩
  · rw [exec_join hd, exec_pulse hd]
    refine ⟨?_, fun hk hj hl => congrArg _ (serveJoin_joined hr hk hj hl), fun hk hj he => congrArg _ (serveJoin_scanning hr hk hj he),
      fun h1 h2 => congrArg _ (serveJoin_reserved h1 h2), fun hk hl he hx => congrArg _ (servePulse_renews hr hk hl he hx),
      fun hk => congrArg _ (servePulse_denied hr hk), fun hk hl => congrArg _ (servePulse_lost hr hk (fun _ => hl) (.inl hl)),
      fun hk hl hx => congrArg _ (servePulse_lost hr (by simp [hk]) (by simp [hk]) (.inr hx))⟩
    rintro hk hj he ⟨_, _, _, _, _, _, _, _⟩ rfl rfl rfl rfl rfl rfl rfl rfl
    exact congrArg _ (serveJoin_free hr hk hj he)
  · have hrec := regionRecord_oldest ha hg ho hover
    refine ⟨fun hk => ?_, fun hk => ?_⟩
    · rw [exec_regionChange, ← hk, hrec]
      simp only [owedRecord, hk, if_true]
    · rw [exec_regionContested, ← hk, hrec]
      simp only [owedRecord, hk, Nat.reduceEqDiff, if_false]
  · rw [exec_regionChange, exec_regionContested, regionRecord_waits hg ho hover, regionRecord_waits hg ho hover]
    exact ⟨rfl, rfl⟩

end Sys2Proof.Machine
end

section
/-! PROOFS. Kiln arithmetic (O41): a value that a format holds rounds to its own code, without a flag. -/

namespace Sys2Proof.Machine

/-! ### Rounding exact values (05 R173) -/

/-- A count that needs no finer unit than it has is not rounded, in any mode. -/
theorem roundUnits_exact {e q : Int} (h : q ≤ e) (mode : Nat) (neg : Bool) (r16 m : Nat) :
    roundUnits mode neg r16 m e q = (m * 2 ^ (e - q).toNat, false) := by
  simp [roundUnits, h]

/-- A value whose last place is the one to which the format rounds keeps its mantissa, in any mode. -/
theorem Fmt.round_exact {k : Fmt} {m : Nat} {e : Int} (h : e + k.mb = max ((Nat.log2 m : Nat) + e) k.emin) (mode : Nat) (neg : Bool)
    (r16 : Nat) : (k.round mode neg r16 m e).code = (e + k.mb - k.emin).toNat * 2 ^ k.mb + m ∧ (k.round mode neg r16 m e).inexact = false := by
  simp [Fmt.round, ← h, roundUnits_exact]

/-- What a format holds has its own code after rounding, in any mode. -/
theorem Fmt.round_decode {k : Fmt} {v m : Nat} {n : Bool} {e : Int} (h : k.decode v = .fin n m e) (hm : m ≠ 0)
    (mode : Nat) (neg : Bool) (r16 : Nat) :
    (k.round mode neg r16 m e).code = v % 2 ^ (k.width - 1) ∧ (k.round mode neg r16 m e).inexact = false := by
  unfold Fmt.decode at h
  dsimp only at h
  generalize v % 2 ^ (k.width - 1) = mag at *
  have hf : mag % 2 ^ k.mb < 2 ^ k.mb := Nat.mod_lt _ (Nat.two_pow_pos _)
  have hmag := Nat.div_add_mod mag (2 ^ k.mb)
  split at h
  · split at h <;> cases h
  split at h
  next hsub =>
    obtain ⟨-, rfl, rfl⟩ := Val.fin.inj h
    have hlog := (Nat.log2_lt hm).2 hf
    have hr := Fmt.round_exact (k := k) (m := mag % 2 ^ k.mb) (e := k.emin - k.mb) (by omega) mode neg r16
    rw [hsub] at hmag
    simpa using hr.imp_left fun hc => hc.trans (by simpa using hmag)
  next hnorm =>
    obtain ⟨-, rfl, rfl⟩ := Val.fin.inj h
    obtain ⟨x, hx⟩ := Nat.exists_eq_add_one_of_ne_zero hnorm
    have hlog : Nat.log2 (mag % 2 ^ k.mb + 2 ^ k.mb) = k.mb := (Nat.log2_eq_iff hm).2 ⟨by omega, by rw [Nat.pow_succ]; omega⟩
    refine (Fmt.round_exact (by rw [hlog, hx]; simp only [Fmt.emin]; omega) mode neg r16).imp_left fun hc => hc.trans ?_
    rw [hx, Nat.mul_succ, Nat.mul_comm] at hmag
    have he : ((((mag / 2 ^ k.mb : Nat) : Int) - k.bias - k.mb) + k.mb - k.emin).toNat = x := by simp only [Fmt.emin]; omega
    rw [he]
    omega

/-! ### Binary32 (05 R165 to R167) -/

/-- A word below infinity holds a finite value with the word's sign, and a zero only as +0 or -0. -/
theorem val32_finite {x : Word} (h : x.toNat % 2 ^ 31 < 0x7F800000) :
    ∃ m e, val32 x = .fin (bitOf x.toNat 31) m e ∧ (m = 0 → x.toNat % 2 ^ 31 = 0) := by
  have hmax : ¬ binary32.maxCode < x.toNat % 2 ^ (binary32.width - 1) := by simp only [binary32]; omega
  unfold val32 Fmt.decode
  simp only [hmax, if_false]
  split
  next hsub => exact ⟨_, _, rfl, fun hm => by simp only [binary32] at hsub hm; omega⟩
  next hnorm => exact ⟨_, _, rfl, fun hm => by simp only [binary32] at hm; omega⟩

/-- A finite value of binary32 that is not zero rounds to the word that holds it, without a flag. -/
theorem round32_val32 {x : Word} {m : Nat} {e : Int} (h : val32 x = .fin (bitOf x.toNat 31) m e) (hm : m ≠ 0)
    (hx : x.toNat % 2 ^ 31 < 0x7F800000) : round32 (bitOf x.toNat 31) m e = ⟨x.toNat, 0⟩ := by
  obtain ⟨hc, hi⟩ := Fmt.round_decode h hm 0 (bitOf x.toNat 31) 0
  have hmax : ¬ binary32.maxCode < x.toNat % 2 ^ (binary32.width - 1) := by simp only [binary32]; omega
  have hsign : binary32.sign (bitOf x.toNat 31) + x.toNat % 2 ^ 31 = x.toNat := by
    have := x.isLt
    simp only [Fmt.sign, bitOf, beq_iff_eq, binary32]
    split <;> omega
  simp only [round32, hm, hc, hi, hmax, if_false, decide_false, roundFlags, Bool.and_false, flagIf]
  exact congrArg (Flagged.mk · 0) hsign

/-! ### Sums (05 R178) -/

/-- The exact sum of a value and a zero is the value. -/
theorem exactSum_zero {n k : Bool} {m : Nat} {e d : Int} (hm : m ≠ 0) :
    exactSum [.fin n m e, .fin k 0 d] = (if n then -(m : Int) else m, e) := by
  simp [exactSum, hm]

/-- Adding a zero to a finite value that is none rounds the value itself. -/
theorem sum32_zero {n k : Bool} {m : Nat} {e d : Int} (hm : m ≠ 0) : sum32 false [.fin n m e, .fin k 0 d] = round32 n m e := by
  have hinf : List.filterMap Val.infSign [.fin n m e, .fin k 0 d] = [] := rfl
  cases n <;> simp [sum32, Val.isNan, hinf, exactSum_zero hm, hm, Nat.pos_of_ne_zero, (Int.natCast_nonneg m).not_gt]

/-- A NaN among the terms makes the sum the canonical NaN. -/
theorem sum32_nan {nv : Bool} {ts : List Val} (h : ts.any Val.isNan = true) : (sum32 nv ts).v = 0x7FC00000 := by
  simp only [sum32, h, Bool.or_true, if_true]
  rfl

/-- A product with a NaN is a NaN. -/
theorem Val.isNan_mul {a b : Val} (h : a.isNan = true ∨ b.isNan = true) : (a.mul b).1.isNan = true := by
  cases a <;> cases b <;> simp_all [Val.mul, Val.isNan]

/-! ### The identities of O41 -/

/-- A NaN operand makes the sum of a fire the canonical NaN. -/
theorem dot32_nan {a : Word} {x y : Val} (h : x.isNan = true ∨ y.isNan = true) : (dot32 a 0 [x] [y]).v = 0x7FC00000 := by
  refine sum32_nan ?_
  have hp := Val.isNan_mul h
  cases hv : (x.mul y).1 <;> simp_all [Val.scale, Val.isNan]

/-- A comparison with a NaN holds only where it asks for unordered. -/
theorem fcmp_nan {m : Nat} {x y : Word} (h : (val32 x).isNan = true ∨ (val32 y).isNan = true) : (fcmp m x y).1 = (m == 3) := by
  simp [fcmp, h]

theorem isNan_of_eq {x y : Val} {b : Bool} (h : x = .nan b ∨ y = .nan b) : x.isNan = true ∨ y.isNan = true := by
  rcases h with rfl | rfl
  · exact .inl rfl
  · exact .inr rfl

/-- Adding +0 keeps every finite word but -0. -/
theorem add32f_zero {x : Word} (h : x.toNat % 2 ^ 31 < 0x7F800000) (hz : x ≠ 0x80000000#32) : add32f x 0 = ⟨x.toNat, 0⟩ := by
  obtain ⟨m, e, hv, hm0⟩ := val32_finite h
  by_cases hm : m = 0
  · have hx : x = 0#32 := by have := hm0 hm; bv_omega
    subst hx
    decide
  · rw [add32f, show val32 0 = .fin false 0 (-149) by decide, hv, sum32_zero hm, round32_val32 hv hm h]

/-- The codes of eight bits, digit by digit. -/
theorem forall_lt_256 {P : Nat → Prop} (h : ∀ a < 16, ∀ b < 16, P (16 * a + b)) (v : Nat) (hv : v < 256) : P v := by
  have hd := h (v / 16) (by omega) (v % 16) (by omega)
  rwa [Nat.div_add_mod] at hd

theorem convert_unpack_e5m2 : ∀ v < 256, (e5m2.decode v).isNan = false →
    (unpack32 4 v).f = 0 ∧ convert e5m2 0 false 0 (BitVec.ofNat 32 (unpack32 4 v).v) = ⟨v, 0⟩ :=
  forall_lt_256 (by decide)

theorem convert_unpack_e4m3 : ∀ v < 256, (e4m3.decode v).isNan = false →
    (unpack32 3 v).f = 0 ∧ convert e4m3 0 false 0 (BitVec.ofNat 32 (unpack32 3 v).v) = ⟨v, 0⟩ :=
  forall_lt_256 (by decide)

/-- Settles O41: NaNs pass through products and sums, a finite word rounds back to itself (`Fmt.round_decode`), and the two formats of eight
bits have 256 codes each. -/
theorem arithmeticIdentities : Obligations.ArithmeticIdentities :=
  ⟨fun _ _ _ _ h => dot32_nan (isNan_of_eq h), fun _ _ _ _ h => fcmp_nan (isNan_of_eq h), convert_unpack_e5m2, convert_unpack_e4m3,
    fun _ => add32f_zero, by decide⟩

end Sys2Proof.Machine
end

section
/-! PROOFS. The module's count of fires (15 R462, counter 2), which nothing but a fire changes (O39): what the end of a step and the stream
engines do leaves it as it is. A helper that touches no counter at all is said to keep the whole of `obs`, or its counters. -/

namespace Sys2Proof.Machine

/-- Steps that leave a part of the state alone do so one after another. -/
theorem foldl_keeps {α β γ : Type} (get : β → γ) {g : β → α → β} (hg : ∀ b a, get (g b a) = get b) (l : List α) (b : β) :
    get (l.foldl g b) = get b := by
  induction l generalizing b with
  | nil => rfl
  | cons a l ih => exact (ih (g b a)).trans (hg b a)

/-! ### What the hub sends (08, 09) -/

@[simp] theorem modPortCtr_obs (p : Nat) (f : PortCtr → PortCtr) (s : State) : (modPortCtr p f s).obs = s.obs := rfl

@[simp] theorem noteBreach_obs (sid guarantee reason port meter amount : Nat) (s : State) :
    (noteBreach sid guarantee reason port meter amount s).obs = s.obs := by
  unfold noteBreach
  dsimp only
  split <;> rfl

@[simp] theorem countLate_obs (sid : Nat) (s : State) : (countLate sid s).obs = s.obs := rfl

@[simp] theorem countDenied_obs (sid : Nat) (s : State) : (countDenied sid s).obs = s.obs := rfl

@[simp] theorem sendAt_obs (due p : Nat) (plain : Bool) (m : OutMsg) (s : State) : (sendAt due p plain m s).obs = s.obs := by
  unfold sendAt
  dsimp only
  (repeat' split) <;> simp

@[simp] theorem sendOn_obs (p : Nat) (fence : Bool) (m : OutMsg) (s : State) : (sendOn p fence m s).obs = s.obs := by simp [sendOn]

@[simp] theorem sendWords_obs (p op dst tag tgen status : Nat) (body : List Nat) (s : State) :
    (sendWords p op dst tag tgen status body s).obs = s.obs := by
  simp [sendWords]

@[simp] theorem flushFences_obs (p aid : Nat) (s : State) : (flushFences p aid s).obs = s.obs := by
  unfold flushFences
  split
  · rfl
  · rw [modPort_obs]
    exact foldl_keeps State.obs (fun _ _ => sendWords_obs ..) _ s

@[simp] theorem closeReq_obs (p aid tag : Nat) (s : State) : (closeReq p aid tag s).obs = s.obs := by simp [closeReq]

@[simp] theorem clearAgentNacks_obs (aid : Nat) (s : State) : (clearAgentNacks aid s).obs = s.obs := rfl

@[simp] theorem done_obs (p aid tag tgen sid status : Nat) (line : Option (LineData × Nat)) (old : List Nat) (s : State) :
    (done p aid tag tgen sid status line old s).obs = s.obs := by
  unfold done
  split <;> simp

@[simp] theorem sendTracked_obs (p op aid : Nat) (body : List Nat) (line : Option (LineData × Nat)) (pur : Purpose) (s : State) :
    (sendTracked p op aid body line pur s).obs = s.obs := by
  simp [sendTracked]

@[simp] theorem sendHread_obs (hid off : Nat) (pur : Purpose) (s : State) : (sendHread hid off pur s).obs = s.obs := by simp [sendHread]

@[simp] theorem sendHwrite_obs (hid off : Nat) (d : LineData) (cause : Nat) (markOnly : Bool) (pur : Purpose) (s : State) :
    (sendHwrite hid off d cause markOnly pur s).obs = s.obs := by
  simp [sendHwrite]

@[simp] theorem sendCompletion_obs (due : Nat) (sub : Nat × Nat × Nat × Nat) (status : Nat) (rec : List Nat) (s : State) :
    (sendCompletion due sub status rec s).obs = s.obs := by
  simp [sendCompletion]

@[simp] theorem chargeF_obs (sid bytes : Nat) (s : State) : (chargeF sid bytes s).2.obs = s.obs := by unfold chargeF; split <;> rfl

@[simp] theorem chargeL_obs (sid lines : Nat) (s : State) : (chargeL sid lines s).2.obs = s.obs := by unfold chargeL; split <;> rfl

/-! ### Heat (02 R66 to R69) -/

@[simp] theorem modLeaf_obs (sid base : Nat) (f : Leaf → Leaf) (s : State) : (modLeaf sid base f s).obs = s.obs := rfl

@[simp] theorem closeBatch_obs (s : State) : (closeBatch s).obs = s.obs := by unfold closeBatch; dsimp only; split <;> rfl

@[simp] theorem readyRec_obs (r : FaultRec) (s : State) : (readyRec r s).obs = s.obs := by
  unfold readyRec
  dsimp only
  (repeat' split) <;> simp

@[simp] theorem addHeat_obs (sid base n : Nat) (s : State) : (addHeat sid base n s).obs = s.obs := by
  unfold addHeat
  dsimp only
  (repeat' split) <;> simp

@[simp] theorem streamLine_obs (fid sid pva : Nat) (s : State) : (streamLine fid sid pva s).obs = s.obs := by
  unfold streamLine
  dsimp only
  (repeat' split) <;> simp

/-! ### Lines of DRAM (03) -/

@[simp] theorem noteCE_obs (l : Nat) (s : State) : (noteCE l s).obs = s.obs := by unfold noteCE; dsimp only; split <;> rfl

@[simp] theorem noteUE_obs_global (l sid finder : Nat) (s : State) : (noteUE l sid finder s).obs.global = s.obs.global := by
  unfold noteUE
  dsimp only
  (repeat' split) <;> simp

@[simp] theorem noteDecode_obs_global (l sid finder : Nat) (s : State) : (noteDecode l sid finder s).obs.global = s.obs.global := by
  unfold noteDecode
  split <;> simp

@[simp] theorem setSide_obs_global (l : Nat) (f : Line → Line) (s : State) : (setSide l f s).obs.global = s.obs.global := by simp [setSide]

@[simp] theorem setCraze_obs_global (l : Nat) (v : BitVec 4) (s : State) : (setCraze l v s).obs.global = s.obs.global := by simp [setCraze]

@[simp] theorem setSummary_obs_global (l : Nat) (v : BitVec 16) (s : State) : (setSummary l v s).obs.global = s.obs.global := by
  simp [setSummary]

/-- Another counter of the module leaves the count of fires alone. -/
@[simp] theorem addGlobal_fires {n : Nat} (h : n ≠ 2) (k : Nat) (s : State) : (addGlobal n k s).obs.global[2]? = s.obs.global[2]? := by
  simp [addGlobal, h]

theorem writeLocal_fires {l sid tag : Nat} {d : LineData} {m : BitVec 64} {cause : Nat} {summary : Option (BitVec 16)} {s t : State}
    (h : writeLocal l sid tag d m cause summary s = some t) : t.obs.global[2]? = s.obs.global[2]? := by
  unfold writeLocal at h
  split at h
  · split at h
    · cases h
    · obtain rfl := Option.some.inj h
      simp
  · cases h

@[simp] theorem readLocal_fires (l sid : Nat) (s : State) : (readLocal l sid s).2.obs.global[2]? = s.obs.global[2]? := by
  unfold readLocal
  dsimp only
  (repeat' split) <;> simp

/-! ### The directory (04) -/

@[simp] theorem modEnt_obs (k : Nat) (f : DirEnt → DirEnt) (s : State) : (modEnt k f s).obs = s.obs := rfl

@[simp] theorem setAgent_obs (aid : Nat) (a : Agent) (s : State) : (setAgent aid a s).obs = s.obs := rfl

@[simp] theorem entFromSummary_obs (k sid page : Nat) (s : State) : (entFromSummary k sid page s).2.obs = s.obs := by
  unfold entFromSummary
  dsimp only
  (repeat' split) <;> simp

@[simp] theorem sendSnoop_obs (k : Nat) (inv : Bool) (aid : Nat) (s : State) : (sendSnoop k inv aid s).obs = s.obs := by simp [sendSnoop]

@[simp] theorem clearNacks_obs (aid k : Nat) (s : State) : (clearNacks aid k s).obs = s.obs := rfl

@[simp] theorem setPresence_obs (k : Nat) (s : State) : (setPresence k s).obs = s.obs := by unfold setPresence; split <;> rfl

@[simp] theorem countAccess_obs (q : Req) (s : State) : (countAccess q s).obs = s.obs := by unfold countAccess; split <;> simp

@[simp] theorem doneReq_obs (k : Nat) (q : Req) (status : Nat) (line : Option (LineData × Nat)) (old : List Nat) (s : State) :
    (doneReq k q status line old s).obs = s.obs := by
  unfold doneReq
  (repeat' split) <;> simp

@[simp] theorem grant_obs (k : Nat) (q : Req) (op : Nat) (line : Option (LineData × Nat)) (s : State) :
    (grant k q op line s).obs = s.obs := by
  simp [grant]

@[simp] theorem modHead_obs (k : Nat) (q : Req) (s : State) : (modHead k q s).obs = s.obs := rfl

@[simp] theorem writeRemote_obs (k : Nat) (q : Req) (d : LineData) (c : Nat) (s : State) : (writeRemote k q d c s).obs = s.obs := by
  simp [writeRemote]

@[simp] theorem noteRecalled_obs (k : Nat) (s : State) : (noteRecalled k s).obs = s.obs := by unfold noteRecalled; split <;> rfl

@[simp] theorem pushReq_obs (k : Nat) (q : Req) (s : State) : (pushReq k q s).obs = s.obs := rfl

@[simp] theorem newEnt_obs (k : Nat) (q : Req) (s : State) : (newEnt k q s).obs = s.obs := by simp [newEnt]

@[simp] theorem nextReserv_obs (s : State) : (nextReserv s).obs = s.obs := by unfold nextReserv; split <;> rfl

@[simp] theorem useResv_obs (k : Nat) (q : Req) (s : State) : (useResv k q s).obs = s.obs := by unfold useResv; split <;> simp

@[simp] theorem nack_obs (k : Nat) (q : Req) (reason : Nat) (s : State) : (nack k q reason s).obs = s.obs := by
  unfold nack
  dsimp only
  (repeat' split) <;> simp

@[simp] theorem freeEnt_obs_global (k : Nat) (s : State) : (freeEnt k s).obs.global = s.obs.global := by
  unfold freeEnt
  dsimp only
  (repeat' split) <;> simp

@[simp] theorem popHead_obs_global (k : Nat) (s : State) : (popHead k s).obs.global = s.obs.global := by
  unfold popHead
  dsimp only
  (repeat' split) <;> simp

@[simp] theorem markOwned_obs_global (k aid : Nat) (s : State) : (markOwned k aid s).obs.global = s.obs.global := by
  unfold markOwned
  dsimp only
  (repeat' split) <;> simp

@[simp] theorem refuseHead_obs_global (k : Nat) (q : Req) (status : Nat) (s : State) :
    (refuseHead k q status s).obs.global = s.obs.global := by
  simp [refuseHead]

@[simp] theorem wrote_obs_global (k : Nat) (q : Req) (old : List Nat) (s : State) : (wrote k q old s).obs.global = s.obs.global := by
  simp [wrote]

@[simp] theorem deliver_obs_global (k : Nat) (q : Req) (d : LineData × Nat) (s : State) :
    (deliver k q d s).obs.global = s.obs.global := by
  unfold deliver
  dsimp only
  split <;> simp

@[simp] theorem remoteData_obs_global (k : Nat) (q : Req) (d : LineData) (c : Nat) (s : State) :
    (remoteData k q d c s).obs.global = s.obs.global := by
  unfold remoteData
  (repeat' split) <;> simp

@[simp] theorem serveRemote_obs_global (k : Nat) (e : DirEnt) (q : Req) (s : State) :
    (serveRemote k e q s).obs.global = s.obs.global := by
  unfold serveRemote
  (repeat' split) <;> simp

/-- The state of a read that is taken apart. -/
theorem snd_fires {α : Type} {x : α × State} {a : α} {s t : State} (hx : x.2.obs.global[2]? = s.obs.global[2]?) (e : x = (a, t)) :
    t.obs.global[2]? = s.obs.global[2]? := by
  subst e
  exact hx

@[simp] theorem serveLocal_fires (k : Nat) (q : Req) (s : State) : (serveLocal k q s).obs.global[2]? = s.obs.global[2]? := by
  have hr (sid : Nat) := readLocal_fires (keyLine k) sid s
  unfold serveLocal
  dsimp only
  split
  · split
    next u e => simp [writeLocal_fires e]
    next => simp
  · split
    next u e => simp [snd_fires (hr _) e]
    next d c u e =>
      have hu := snd_fires (hr _) e
      split
      · split <;> simp [hu]
      · split
        next v e' => simp [writeLocal_fires e', hu]
        next => simp [hu]
  · split
    next d u e => simp [snd_fires (hr _) e]
    next u e => simp [snd_fires (hr _) e]

@[simp] theorem serveHead_fires (k : Nat) (e : DirEnt) (q : Req) (s : State) : (serveHead k e q s).obs.global[2]? = s.obs.global[2]? := by
  unfold serveHead
  (repeat' split) <;> simp

@[simp] theorem sendSnoops_obs (k : Nat) (inv : Bool) (l : List Nat) (s : State) : (l.foldl (fun s a => sendSnoop k inv a s) s).obs = s.obs :=
  foldl_keeps State.obs (fun _ _ => sendSnoop_obs ..) l s

@[simp] theorem pump_fires (fuel k : Nat) (s : State) : (pump fuel k s).obs.global[2]? = s.obs.global[2]? := by
  induction fuel generalizing s with
  | zero => rfl
  | succ n ih =>
    unfold pump
    dsimp only
    (repeat' split) <;> simp [ih]

@[simp] theorem evictLine_fires (v : Nat) (s : State) : (evictLine v s).obs.global[2]? = s.obs.global[2]? := by simp [evictLine]

@[simp] theorem tryWay_fires (w : Nat × Req × Option Nat) (s : State) : (tryWay w s).obs.global[2]? = s.obs.global[2]? := by
  unfold tryWay
  (repeat' split) <;> simp

@[simp] theorem serveWays_fires (n : Nat) (s : State) : (serveWays n s).obs.global[2]? = s.obs.global[2]? := by
  induction n generalizing s with
  | zero => rfl
  | succ n ih =>
    have hw : (s.dir.wayWait.foldl (fun s w => tryWay w s) s).obs.global[2]? = s.obs.global[2]? :=
      foldl_keeps (fun s : State => s.obs.global[2]?) (fun s w => tryWay_fires w s) _ s
    unfold serveWays
    dsimp only
    (repeat' split) <;> simp [hw, ih]

@[simp] theorem pumpLine_fires (k : Nat) (s : State) : (pumpLine k s).obs.global[2]? = s.obs.global[2]? := by simp [pumpLine]

@[simp] theorem dirEnter_fires (k : Nat) (q : Req) (s : State) : (dirEnter k q s).obs.global[2]? = s.obs.global[2]? := by
  unfold dirEnter
  split <;> simp

@[simp] theorem dirRequest_fires (k : Nat) (q : Req) (s : State) : (dirRequest k q s).obs.global[2]? = s.obs.global[2]? := by
  unfold dirRequest
  split <;> simp

@[simp] theorem flushClaims_fires (s : State) : (flushClaims s).obs.global[2]? = s.obs.global[2]? :=
  foldl_keeps (fun s : State => s.obs.global[2]?) (fun _ _ => by (repeat' split) <;> simp) _ { s with dir.claimWait := [] }

/-! ### The end of firings and parts (06 R209) -/

@[simp] theorem freeShelf_obs (sh : Nat) (s : State) : (freeShelf sh s).obs = s.obs := rfl

@[simp] theorem winRest_obs (w : Nat) (rearm : Bool) (s : State) : (winRest w rearm s).obs = s.obs := by
  unfold winRest
  (repeat' split) <;> rfl

@[simp] theorem endFiring_fires (f : Firing) (s : State) : (endFiring f s).obs.global[2]? = s.obs.global[2]? := by
  have hf (l : List Nat) (u : State) :
      (l.foldl (fun s sh => if ((shelfOf sh s).bind (·.run)) = some f.fid then freeShelf sh s else s) u).obs = u.obs :=
    foldl_keeps State.obs (fun _ _ => by split <;> rfl) l u
  unfold endFiring
  dsimp only
  (repeat' split) <;> simp [hf]

@[simp] theorem stopFiring_fires (fid status : Nat) (s : State) : (stopFiring fid status s).obs.global[2]? = s.obs.global[2]? := by
  unfold stopFiring
  (repeat' split) <;> simp

@[simp] theorem tagStop_fires (fid : Nat) (s : State) : (tagStop fid s).obs.global[2]? = s.obs.global[2]? := by simp [tagStop]

@[simp] theorem endPart_obs (fid i : Nat) (s : State) : (endPart fid i s).obs = s.obs := by
  unfold endPart
  split
  · rfl
  · split
    · rfl
    · exact foldl_keeps State.obs (fun _ _ => freeShelf_obs ..) _ _

@[simp] theorem checkPart_obs (fid sh : Nat) (s : State) : (checkPart fid sh s).obs = s.obs := by
  unfold checkPart
  (repeat' split) <;> simp

/-! ### The commit of a step (06 R213 to R216, R222) -/

@[simp] theorem countNine_obs (k cause : Nat) (s : State) : (countNine k cause s).obs = s.obs := by unfold countNine; split <;> rfl

@[simp] theorem countLine_obs (fid cause : Nat) (s : State) : (countLine fid cause s).obs = s.obs := rfl

@[simp] theorem sendPush_obs (f : Firing) (o : OutLine) (cause : Nat) (s : State) : (sendPush f o cause s).obs = s.obs := by
  unfold sendPush
  dsimp only
  (repeat' split) <;> simp

@[simp] theorem writeOut_fires (f : Firing) (k role : Nat) (o : OutLine) (cause : Nat) (s : State) :
    (writeOut f k role o cause s).obs.global[2]? = s.obs.global[2]? := by
  unfold writeOut
  dsimp only
  split
  · simp
  · split
    · rfl
    · split
      next u e => simp [writeLocal_fires e]
      next => split <;> simp

@[simp] theorem commitOut_fires (f : Firing) (k : Nat) (gr : List Nat) (role sent : Nat) (bs : List (Nat × Nat)) (nine : Bool) (s : State) :
    (commitOut f k gr role sent bs nine s).obs.global[2]? = s.obs.global[2]? := by
  unfold commitOut
  split
  · rfl
  · exact (foldl_keeps (fun s : State => s.obs.global[2]?) (fun _ _ => writeOut_fires ..) _ _).trans (by simp)

@[simp] theorem commitLane_fires (f : Firing) (k : Nat) (gr old : List Nat) (nine : Bool) (l : Lane) (s : State) :
    (commitLane f k gr old nine l s).2.obs.global[2]? = s.obs.global[2]? :=
  foldl_keeps (fun s : State => s.obs.global[2]?) (fun _ _ => commitOut_fires ..) _ s

@[simp] theorem countRepeat_fires (sid : Nat) (x : Shelf) (s : State) : (countRepeat sid x s).obs.global[2]? = s.obs.global[2]? := by
  unfold countRepeat
  split <;> simp

@[simp] theorem commitShelf_fires (sh : Nat) (s : State) : (commitShelf sh s).obs.global[2]? = s.obs.global[2]? := by
  unfold commitShelf
  split
  · rfl
  · split
    · rfl
    · split
      · rfl
      · simp only [checkPart_obs, traceHub_obs_global, modShelf_obs, countRepeat_fires]
        exact foldl_keeps (fun a : List Lane × State => a.2.obs.global[2]?) (fun _ _ => commitLane_fires ..) _ ([], s)

/-! ### Reading ahead (06 R211, R217) -/

theorem thenRead_fires {α β : Type} {x : Option α × State} {g : α → State → Option β × State} {s : State}
    (hx : x.2.obs.global[2]? = s.obs.global[2]?) (hg : ∀ a u, (g a u).2.obs.global[2]? = u.obs.global[2]?) :
    (thenRead x g).2.obs.global[2]? = s.obs.global[2]? := by
  obtain ⟨_ | a, u⟩ := x
  · exact hx
  · exact (hg a u).trans hx

@[simp] theorem readBytes_fires (fid sid : Nat) (r : Run) (off n : Nat) (s : State) :
    (readBytes fid sid r off n s).2.obs.global[2]? = s.obs.global[2]? := by
  unfold readBytes
  dsimp only
  split
  · rfl
  · refine foldl_keeps (fun p : Option (List (Nat × Nat)) × State => p.2.obs.global[2]?) (fun p i => ?_) _ (some [], s)
    split
    · rfl
    · split
      · rfl
      · split
        · split
          next e => simp [snd_fires (readLocal_fires ..) e]
          next e => simp [snd_fires (readLocal_fires ..) e]
        · rfl

@[simp] theorem splitWords_fires (f : Firing) (sl : Slot) (c : Nat × Nat × Nat) (s : State) :
    (splitWords f sl c s).2.obs.global[2]? = s.obs.global[2]? :=
  thenRead_fires (readBytes_fires ..) fun _ _ => thenRead_fires (by split <;> simp) fun _ _ => rfl

@[simp] theorem readAhead_fires (f : Firing) (sl : Slot) (n : Nat) (cs : List (Nat × Nat × Nat)) (s : State) :
    (readAhead f sl n cs s).2.obs.global[2]? = s.obs.global[2]? := by
  induction cs generalizing n s with
  | nil => rfl
  | cons c cs ih =>
    unfold readAhead
    split
    · exact thenRead_fires (splitWords_fires ..) fun _ _ => thenRead_fires (ih ..) fun _ _ => rfl
    · rfl

@[simp] theorem feedStream_fires (f : Firing) (x : Shelf) (p : Nat × Nat) (s : State) :
    (feedStream f x p s).2.obs.global[2]? = s.obs.global[2]? := by
  unfold feedStream
  split
  · split
    · rfl
    · exact thenRead_fires (readAhead_fires ..) fun _ _ => rfl
  · rfl

@[simp] theorem feedAll_fires (f : Firing) (ps : List (Nat × Nat)) (x : Shelf) (s : State) :
    (feedAll f ps x s).2.obs.global[2]? = s.obs.global[2]? := by
  induction ps generalizing x s with
  | nil => rfl
  | cons p ps ih => exact thenRead_fires (feedStream_fires ..) fun _ _ => ih ..

@[simp] theorem refusePart_fires (f : Firing) (sh : Nat) (s : State) : (refusePart f sh s).obs.global[2]? = s.obs.global[2]? := by
  unfold refusePart
  dsimp only
  split <;> simp

@[simp] theorem feed_fires (sh : Nat) (s : State) : (feed sh s).obs.global[2]? = s.obs.global[2]? := by
  unfold feed
  dsimp only
  (repeat' split) <;> simp

end Sys2Proof.Machine
end

section
/-! PROOFS. Lane-wise instructions (06 R218 to R222): what issues, and what `lanewise` leaves of a shelf. -/

namespace Sys2Proof.Machine

/-! ### Issue -/

/-- What issues stands on a shelf that is there. -/
theorem shelfOf_of_issuing {sh w : Nat} {s : State} {f : Firing} {x : Shelf} (h : issuing sh w s = some (f, x)) : shelfOf sh s = some x := by
  unfold issuing at h
  split at h
  · cases h
  next y hy =>
    split at h
    · cases h
    · split at h
      · cases h
      · split at h
        · split at h
          · rw [hy, (Prod.mk.inj (Option.some.inj h)).2]
          · cases h
        · cases h

/-! ### Shelves -/

theorem shelfOf_modShelf_same {sh : Nat} {s : State} {x : Shelf} (h : shelfOf sh s = some x) (g : Shelf → Shelf) :
    shelfOf sh (modShelf sh g s) = some (g x) := by
  simp only [shelfOf] at h
  simp [shelfOf, modShelf, h]

theorem shelfOf_modShelf_other {q sh : Nat} (h : q ≠ sh) (g : Shelf → Shelf) (s : State) : shelfOf q (modShelf sh g s) = shelfOf q s := by
  simp [shelfOf, modShelf, Ne.symm h]

theorem modShelf_only (sh : Nat) (g : Shelf → Shelf) (s : State) : Only [.kiln] s (modShelf sh g s) := by
  intro p hp
  cases p <;> simp_all [modShelf, Comp.same]

theorem countFires_only (sid n : Nat) (s : State) : Only [.sags, .obs] s (countFires sid n s) := by
  intro p hp
  cases p <;> simp_all [countFires, Comp.same]

/-! ### What a lane-wise instruction does -/

/-- A lane-wise instruction changes the lanes, the slots and the place of its shelf; the place goes on by one instruction, or by one repetition. -/
theorem lanesAfter_eq (f : Firing) (pn : Bool) (ps cost : Nat) (op : LaneCtx → Lane → Lane) (x : Shelf) : ∃ i r,
    lanesAfter f pn ps cost op x =
      { x with lanes := x.lanes.mapIdx fun j l => if executes pn ps l then op (laneCtx f x ps j l) l else l
               slots := x.slots + cost, idx := i, rep := r }
    ∧ (x.rep ≤ 1 → i = x.idx + 1 ∧ r = 0) ∧ (1 < x.rep → i = x.idx ∧ r = x.rep - 1) := by
  rw [List.mapIdx_eq_zipIdx_map]
  unfold lanesAfter advance
  dsimp only
  split
  next h => exact ⟨_, _, rfl, fun hr => absurd h (Nat.not_lt.2 hr), fun _ => ⟨rfl, rfl⟩⟩
  next h => exact ⟨_, _, rfl, fun _ => ⟨rfl, rfl⟩, fun hr => absurd hr h⟩

/-- A fire counts for its sagger and for the module, and for nothing else. -/
theorem countFires_if_only (isFire : Bool) (sid n : Nat) (s : State) :
    Only [.kiln, .sags, .obs] s (if isFire then countFires sid n s else s) := by
  cases isFire
  · exact Only.rfl' _ s
  · exact (countFires_only sid n s).mono (by decide)

theorem shelfOf_countFires_if (q : Nat) (isFire : Bool) (sid n : Nat) (s : State) :
    shelfOf q (if isFire then countFires sid n s else s) = shelfOf q s := by
  cases isFire <;> rfl

/-- An instruction that runs as `lanewise` does to its shelf and its lanes what `LaneStep` says. -/
theorem laneStep_of_lanewise {i : Instr} {sh w : Nat} {pn : Bool} {ps cost : Nat} {isFire : Bool} {r : LaneCtx → Lane → Lane} {s : State}
    (h : exec i s = .next (lanewise sh w pn ps cost isFire r s)) : LaneStep i sh w pn ps cost r s := by
  intro f x hi
  have hO := countFires_if_only isFire f.sid (x.lanes.filter (executes pn ps)).length s
  have hS (q : Nat) := shelfOf_countFires_if q isFire f.sid (x.lanes.filter (executes pn ps)).length s
  obtain ⟨ix, rp, hy, hone, hrep⟩ := lanesAfter_eq f pn ps cost r x
  refine ⟨modShelf sh (fun _ => lanesAfter f pn ps cost r x) _, lanesAfter f pn ps cost r x, h.trans (by simp only [lanewise, hi]),
    hO.trans ((modShelf_only sh _ _).mono (by decide)), shelfOf_modShelf_same ((hS sh).trans (shelfOf_of_issuing hi)) _,
    fun q hq => (shelfOf_modShelf_other hq _ _).trans (hS q), ?_⟩
  rw [hy]
  refine ⟨rfl, hone, hrep, rfl, rfl, rfl, rfl, rfl, List.length_mapIdx, fun j l hl => ?_⟩
  simp [hl]

/-- Every lane that executes a fire counts for the module (15 R462); the commit and the stream engine behind it count none. -/
theorem lanewise_fires {sh w : Nat} {s : State} {f : Firing} {x : Shelf} (hi : issuing sh w s = some (f, x)) (pn : Bool) (ps cost : Nat)
    (op : LaneCtx → Lane → Lane) : (lanewise sh w pn ps cost true op s).obs.global[2]? =
      (s.obs.global[2]?).map fun v => add64 v (x.lanes.filter (executes pn ps)).length := by
  simp only [lanewise, hi, if_true, feed_fires]
  split <;> simp [countFires, addGlobal]

/-! ### Fires (05 R163, R177 to R179, R184) -/

section
variable (s : State) (sh : Nat) (g : GArgs)

/-! Each fire's row of the dispatch. -/

theorem exec_fma32 : exec (.fma32 sh g) s = execFma32 sh g s := rfl
theorem exec_dot2 : exec (.dot2 sh g) s = execDot2 sh g s := rfl
theorem exec_dot4 : exec (.dot4 sh g) s = execDot4 sh g s := rfl
theorem exec_dot4x : exec (.dot4x sh g) s = execDot4x sh g s := rfl
theorem exec_dot8x : exec (.dot8x sh g) s = execDot8x sh g s := rfl
theorem exec_add32f : exec (.add32f sh g) s = execAdd32f sh g s := rfl
theorem exec_func : exec (.func sh g) s = execFunc sh g s := rfl

end

/-- Settles O39: every fire runs as `lanewise` does (`laneStep_of_lanewise`), and counts its executing lanes (`lanewise_fires`). -/
theorem glazeFires : Obligations.GlazeFires := by
  intro s sh g
  refine ⟨?_, laneStep_of_lanewise (exec_add32f s sh g), laneStep_of_lanewise (exec_func s sh g),
    fun f x hi => ⟨_, exec_fma32 s sh g, lanewise_fires hi ..⟩⟩
  intro i op hi
  simp only [List.mem_cons, Prod.mk.injEq, List.not_mem_nil, or_false] at hi
  rcases hi with ⟨rfl, rfl⟩ | ⟨rfl, rfl⟩ | ⟨rfl, rfl⟩ | ⟨rfl, rfl⟩ | ⟨rfl, rfl⟩
  · exact laneStep_of_lanewise (exec_fma32 s sh g)
  · exact laneStep_of_lanewise (exec_dot2 s sh g)
  · exact laneStep_of_lanewise (exec_dot4 s sh g)
  · exact laneStep_of_lanewise (exec_dot4x s sh g)
  · exact laneStep_of_lanewise (exec_dot8x s sh g)

end Sys2Proof.Machine
end

section
/-! PROOFS. Operands (O36; 06 R196, R212, R216) and the moves and integer instructions of a lane (O37, O38; R219 to R223). -/

namespace Sys2Proof.Machine

/-! ### Sources and destinations (R196, R216) -/

section
variable {k : LaneCtx} {l : Lane} {c d n t : Nat} {v : TWord} {b : Bool}

/-- A word register is read as it stands. -/
theorem readSrc_word (h : c < 24) : readSrc c k l = (⟨l.w.getD c (clean 0), 127⟩, l) := if_pos h

/-- Codes 24 to 27 pop a stream (R212). -/
theorem readSrc_stream (h : n < 4) : readSrc (24 + n) k l = popIn n l := by
  rw [readSrc, if_neg (by omega), if_pos (by omega), Nat.add_sub_cancel_left]

theorem popIn_cons {x : SWord} {rest : List SWord} (h : l.ins[n]? = some (x :: rest)) :
    popIn n l = (x, { l with ins := l.ins.set n rest, pops := l.pops + 1 }) := by
  simp [popIn, List.getD_eq_getElem?_getD, h]

/-- A stream that has ended gives +0 (R212). -/
theorem popIn_nil (h : l.ins[n]? = some []) : popIn n l = (plainWord 0 0, l) := by
  simp [popIn, List.getD_eq_getElem?_getD, h]

theorem writeDst_word (h : d < 24) : writeDst d v k l = { l with w := l.w.set d ⟨v.v, max v.t k.t0⟩ } := if_pos h

theorem writePred_eq (h : d < 8) (h0 : d ≠ 0) : writePred d b t k l = { l with m := l.m.set d (b, max t k.t0) } := by
  rw [writePred, Nat.mod_eq_of_lt h, if_neg h0]

end

/-- Settles O36: each code is one branch of `readSrc`, `writeDst` and `writePred`. -/
theorem glazeOperands : Obligations.GlazeOperands := by
  intro k l c d t v b hw hm
  refine ⟨fun hc => ?_, fun n x rest hn hi hx => ?_, fun n hn hx => ?_, rfl, rfl, rfl, rfl, fun hd => ?_, rfl, rfl, rfl,
    fun hd h0 => ?_, rfl, rfl⟩
  · rw [readSrc_word hc]
    exact ⟨rfl, rfl⟩
  · rw [readSrc_stream hn, popIn_cons hx]
    exact ⟨rfl, List.getElem?_set_self (hi ▸ hn), rfl⟩
  · rw [readSrc_stream hn, popIn_nil hx]
    exact ⟨rfl, rfl⟩
  · rw [writeDst_word hd]
    exact ⟨List.getElem?_set_self (hw ▸ hd), fun e he => List.getElem?_set_ne he.symm, rfl, rfl, rfl, rfl⟩
  · rw [writePred_eq hd h0]
    exact ⟨List.getElem?_set_self (hm ▸ hd), fun e he => List.getElem?_set_ne he.symm⟩

/-! ### Moves, loads, streams and conversions (R219 to R223) -/

section
variable (s : State) (sh : Nat) (g : GArgs) (pn : Bool) (ps d imm : Nat)

/-! Each instruction's row of the dispatch. -/

theorem exec_glazeNop : exec (.glazeNop sh g) s = execGlazeNop sh g s := rfl
theorem exec_ldi : exec (.ldi sh pn ps d imm) s = execLdi sh pn ps d imm s := rfl
theorem exec_ldh : exec (.ldh sh pn ps d imm) s = execLdh sh pn ps d imm s := rfl
theorem exec_mov : exec (.mov sh g) s = execMov sh g s := rfl
theorem exec_sel : exec (.sel sh g) s = execSel sh g s := rfl
theorem exec_ldp : exec (.ldp sh g) s = execLdp sh g s := rfl
theorem exec_ldc : exec (.ldc sh g) s = execLdc sh g s := rfl
theorem exec_stp : exec (.stp sh g) s = execStp sh g s := rfl
theorem exec_avail : exec (.avail sh g) s = execAvail sh g s := rfl
theorem exec_cread : exec (.cread sh g) s = execCread sh g s := rfl
theorem exec_cvt : exec (.cvt sh g) s = execCvt sh g s := rfl
theorem exec_unpk : exec (.unpk sh g) s = execUnpk sh g s := rfl
theorem exec_flags : exec (.flags sh g) s = execFlags sh g s := rfl
theorem exec_iadd : exec (.iadd sh g) s = execIadd sh g s := rfl
theorem exec_isub : exec (.isub sh g) s = execIsub sh g s := rfl
theorem exec_imul : exec (.imul sh g) s = execImul sh g s := rfl
theorem exec_logic : exec (.logic sh g) s = execLogic sh g s := rfl
theorem exec_shift : exec (.shift sh g) s = execShift sh g s := rfl
theorem exec_icmp : exec (.icmp sh g) s = execIcmp sh g s := rfl
theorem exec_fcmp : exec (.fcmp sh g) s = execFcmp sh g s := rfl
theorem exec_plog : exec (.plog sh g) s = execPlog sh g s := rfl

end

/-- Settles O37: every move, load and conversion runs as `lanewise` does (`laneStep_of_lanewise`); what LDH and CVT keep of a discarded destination
and UNPK of an element beyond the word are open words (log 16). -/
theorem glazeMoves : Obligations.GlazeMoves := by
  intro s sh g pn ps d imm
  exact ⟨laneStep_of_lanewise (exec_glazeNop s sh g), laneStep_of_lanewise (exec_ldi s sh pn ps d imm),
    laneStep_of_lanewise (exec_ldh s sh pn ps d imm), laneStep_of_lanewise (exec_mov s sh g), laneStep_of_lanewise (exec_sel s sh g),
    laneStep_of_lanewise (exec_ldp s sh g), laneStep_of_lanewise (exec_ldc s sh g), laneStep_of_lanewise (exec_stp s sh g),
    laneStep_of_lanewise (exec_avail s sh g), laneStep_of_lanewise (exec_cread s sh g), laneStep_of_lanewise (exec_cvt s sh g),
    laneStep_of_lanewise (exec_unpk s sh g), laneStep_of_lanewise (exec_flags s sh g)⟩

/-! ### Integer, logic and comparison (R219 to R223) -/

/-- The low bits of MOD, by which LOGIC, SHIFT and PLOG choose. -/
theorem low_two_bits (md : Nat) : md % 4 = 0 ∨ md % 4 = 1 ∨ md % 4 = 2 ∨ md % 4 = 3 := by omega

theorem logicOp_eq (md : Nat) (x y : Word) : logicOp md x y =
    if md % 4 = 0 then x &&& y else if md % 4 = 1 then x ||| y else if md % 4 = 2 then x ^^^ y else x &&& ~~~y := by
  unfold logicOp
  rcases low_two_bits md with h | h | h | h <;> simp [h]

theorem shiftOp_eq (md : Nat) (x y : Word) : shiftOp md x y =
    if md % 4 = 0 then x <<< (y.toNat % 32) else if md % 4 = 1 then x >>> (y.toNat % 32) else x.sshiftRight (y.toNat % 32) := by
  unfold shiftOp
  rcases low_two_bits md with h | h | h | h <;> simp [h]

/-- What an instruction does to a lane may be said in any way that comes to the same. -/
theorem LaneStep.congr {i : Instr} {sh w : Nat} {pn : Bool} {ps cost : Nat} {r r' : LaneCtx → Lane → Lane} {s : State}
    (h : LaneStep i sh w pn ps cost r s) (e : ∀ k l, r k l = r' k l) : LaneStep i sh w pn ps cost r' s :=
  (funext₂ e : r = r') ▸ h

/-- Settles O38: every integer instruction runs as `lanewise` does (`laneStep_of_lanewise`), X read before Y (log 46); LOGIC, SHIFT and PLOG choose by
the low bits of MOD. -/
theorem glazeInteger : Obligations.GlazeInteger := by
  intro s sh g
  refine ⟨?_, (laneStep_of_lanewise (exec_logic s sh g)).congr fun k l => ?_, (laneStep_of_lanewise (exec_shift s sh g)).congr fun k l => ?_,
    laneStep_of_lanewise (exec_icmp s sh g), laneStep_of_lanewise (exec_fcmp s sh g),
    (laneStep_of_lanewise (exec_plog s sh g)).congr fun k l => ?_⟩
  · intro i op hi
    simp only [List.mem_cons, Prod.mk.injEq, List.not_mem_nil, or_false] at hi
    rcases hi with ⟨rfl, rfl⟩ | ⟨rfl, rfl⟩ | ⟨rfl, rfl⟩
    · exact laneStep_of_lanewise (exec_iadd s sh g)
    · exact laneStep_of_lanewise (exec_isub s sh g)
    · exact laneStep_of_lanewise (exec_imul s sh g)
  · simp only [op2, logicOp_eq]
  · simp only [op2, shiftOp_eq]
  · rcases low_two_bits g.md with h | h | h | h <;> simp [h]

end Sys2Proof.Machine
end

section
/-! PROOFS. The glaze library (O31; 06 R224 to R229, R233) and the commands of firings (O32; R197 to R203, R230 to R233). -/

namespace Sys2Proof.Machine

section
variable (s : State) (r id sid len n mode action tag sub : Nat) (ppas sids : List Nat) (item : Item) (img : GlazeImg) (sig : Bool)
  (m : Mhd) (d : FireDesc)

theorem exec_klnLibGrant : exec (.klnLibGrant r n ppas) s = execKlnLibGrant r n ppas s := rfl
theorem exec_glazeInstall : exec (.glazeInstall r len item img sig) s = execGlazeInstall r len item img sig s := rfl
theorem exec_glazeRemove : exec (.glazeRemove r id) s = execGlazeRemove r id s := rfl
theorem exec_glazePermit : exec (.glazePermit r id mode action n sids) s = execGlazePermit r id mode action n sids s := rfl
theorem exec_glazeRead : exec (.glazeRead r n) s = execGlazeRead r n s := rfl
theorem exec_kilnFire : exec (.kilnFire r sid item d) s = execKilnFire r sid item d s := rfl
theorem exec_fire : exec (.fire m d) s = execFire m d s := rfl
theorem exec_firingCancel : exec (.firingCancel r sid sub tag) s = execFiringCancel r sid sub tag s := rfl
theorem exec_fireCancel : exec (.fireCancel m tag) s = execFireCancel m tag s := rfl
theorem exec_firingRead : exec (.firingRead r sid sub tag) s = execFiringRead r sid sub tag s := rfl

end

/-! ### Installing a glaze (R221, R226 to R228) -/

section
variable {s : State} {r len : Nat} {f : Inflight} {item : Item} {img : GlazeImg}

/-- GLAZE_INSTALL of LENGTH 0 reads nothing (00 R16). -/
theorem glazeInstall_nothing (h : Ready r 0x52 0 s f) (ha : item.off % 64 = 0) (hl : s.pen.otp.lc = 2) (sig : Bool) :
    exec (.glazeInstall r 0 item img sig) s = .next (ok r [] (latched r 0 s)) := by
  rw [exec_glazeInstall]
  exact (cmd_acts h (by simp [hl, itemAlign, ha])).trans (by rw [if_pos (.inl rfl)])

/-- An item that reads well and holds an image of this format without reserved bits, whose key is in force and whose code keeps R221, leaves
its length and its signature to check. -/
theorem installChks_valid (hl : s.pen.otp.lc = 2) (hi : GoodItem item len s) (hf : img.fmt = 1) (hr : img.resv = false)
    (hc : ∀ w ∈ img.code, codeResv w = false) (h1 : 1 ≤ img.id) (h2 : img.id ≤ 65535) (hw : img.codeWords ≤ 16384)
    (hg : ∃ g, genNow s = some g ∧ bitOf g.glazeValid img.key = true) (hd : imageDeny img = false) (sig : Bool) :
    ∃ l, (∀ c ∈ l, c.bad = false) ∧ [chkDeny (s.pen.otp.lc != 2), itemAlign item] ++ (itemRead item len s ++ imageChks len img sig s) =
      l ++ if img.codeWords = 0 then [] else [chkLen (decide (len < imageBytes img.codeWords)), chkExec (!sig) stDENIED] := by
  obtain ⟨g, hg, hk⟩ := hg
  refine ⟨_, ?_, by rw [imageChks, ← List.append_assoc, ← List.append_assoc]⟩
  simp only [List.forall_mem_append, List.forall_mem_cons, List.not_mem_nil, IsEmpty.forall_iff, implies_true, and_true, chk_bad, chkResv_bad,
    chkDeny_bad]
  exact ⟨⟨⟨by simp [hl], by simp [itemAlign, hi.1]⟩, itemRead_good hi⟩, by simp [hf], by simpa [hr] using hc,
    by simp [hg, hk, hd, h2, hw, Nat.ne_of_gt h1]⟩

end

/-- Settles O31: each command acts once its checks pass; the last check of GLAZE_INSTALL is of the signature, that of GLAZE_REMOVE of the firings. -/
theorem glazeLibrary : Obligations.GlazeLibrary := by
  intro s r id f
  refine ⟨fun n ppas h hc => (exec_klnLibGrant ..).trans (cmd_acts h hc), ?_, fun item img sig h ha hl => glazeInstall_nothing h ha hl sig,
    ?_, ?_, ?_, ?_, ?_, ?_⟩
  · intro len item img sig h hf hr hc hi hl h1 h2 hw hg hd
    have hchk := installChks_valid hl hi hf hr hc h1 h2 hw hg hd
    refine ⟨fun h0 => ?_, fun h0 hlen => ?_⟩
    · by_cases hz : len = 0
      · rw [hz]
        exact glazeInstall_nothing h hi.1 hl sig
      · obtain ⟨l, hgood, he⟩ := hchk sig
        rw [exec_glazeInstall]
        refine (cmd_acts h ?_).trans (by rw [if_pos (.inr h0)])
        rwa [if_neg hz, he, if_pos h0, List.append_nil]
    · have hz : len ≠ 0 := by unfold imageBytes at hlen; omega
      have hw0 : img.codeWords ≠ 0 := Nat.ne_of_gt h0
      refine ⟨?_, ?_⟩
      · obtain ⟨l, hgood, he⟩ := hchk true
        rw [exec_glazeInstall]
        refine (cmd_acts h ?_).trans (by rw [if_neg (not_or.2 ⟨hz, hw0⟩)])
        rw [if_neg hz, he, if_neg hw0]
        exact List.forall_mem_append.2 ⟨hgood, by simpa using hlen⟩
      · obtain ⟨l, hgood, he⟩ := hchk false
        refine cmd_refused (c := chkExec true stDENIED) (exec_glazeInstall ..) h ?_ (by decide)
        rw [if_neg hz, he, if_neg hw0, firstBad_append, firstBad_none.2 hgood]
        simp [firstBad, Nat.not_lt.2 hlen]
  · intro len item img sig h hl
    exact cmd_refused (c := chkDeny true) (exec_glazeInstall ..) h (by simp [firstBad, bne_iff_ne.2 hl]) (by decide)
  · intro h hg hu
    rw [exec_glazeRemove]
    exact cmd_acts h (by simpa [hu] using hg)
  · intro h hg hu
    exact cmd_refused (c := chkExec true stBUSY) (exec_glazeRemove ..) h (by simp [firstBad, Option.isNone_eq_false_iff.2 hg, hu]) (by decide)
  · intro h hg
    exact cmd_refused (c := chkDeny true) (exec_glazeRemove ..) h (by simp [firstBad, hg]) (by decide)
  · intro mode action n sids g h hm ha hn hg hs hp
    rw [exec_glazePermit]
    refine cmd_acts h ?_
    simp only [List.forall_mem_cons, List.not_mem_nil, IsEmpty.forall_iff, implies_true, and_true, chkResv_bad, chkDeny_bad, chkLen_bad,
      chkExec_bad, chkEach_good, hg]
    refine ⟨by simp; omega, rfl, by simpa using hs, by simpa using hn, by simpa using hp⟩
  · intro i g h hg
    obtain ⟨h3, h4, -⟩ := outRoom_checks h.2.2.2.2.2
    have hg' : (latched r 0 s).kiln.library[i]? = some g := hg
    rw [exec_glazeRead]
    exact (cmd_acts h (by simp [hg, h3, h4])).trans (by simp only [hg'])

/-! ### Commands of firings (R197 to R203, R230 to R233) -/

/-- Settles O32: a submission is accepted once its checks pass, or waits for a migration; the commands that name a firing act on the open one
of their submitter and tag. -/
theorem firingCommands : Obligations.FiringCommands := by
  intro s r sid f d
  refine ⟨?_, ?_, ?_, ?_, ?_, ?_, ?_, ?_⟩
  · intro item h hs hi hc
    have hgood : ∀ c ∈ [chkDeny (!sagThere sid s)] ++ itemChk item 256 s ++ fireChks sid d none none s, c.bad = false := by
      simp only [List.forall_mem_append, List.forall_mem_singleton]
      exact ⟨⟨by simp [sagThere_of_ne_free hs], itemChk_good hi⟩, hc⟩
    rw [exec_kilnFire]
    exact ⟨fun hw => (cmdFor_acts h hgood).trans (by simp only [hw]; rfl), fun b hw => (cmdFor_acts h hgood).trans (by simp only [hw])⟩
  · intro item h hs
    exact cmdFor_refused (c := chkDeny true) (exec_kilnFire ..) h (by simp [firstBad, sagThere, hs]) (by decide)
  · intro m u h
    rw [exec_fire, execFire, act, arrive_delivered h.1, metered_passes h (by simp)]
  · intro sub tag x h hr ho
    have ho' : openFiring sid (submitter sub) tag (latched r sid s) = some x := ho
    rw [exec_firingCancel]
    exact (cmdFor_acts h (by simp [hr, ho])).trans (by simp only [ho'])
  · intro sub tag h hr ho
    exact cmdFor_refused (c := chkDeny true) (exec_firingCancel ..) h (by simp [firstBad, hr, ho]) (by decide)
  · intro m tag u h
    rw [exec_fireCancel, execFireCancel, act, arrive_delivered h.1, metered_passes h (by simp)]
  · intro m tag ho
    simp only [execFireCancel.serveCancel, ho]
  · intro sub tag x h hr ho
    have ho' : openFiring sid (submitter sub) tag (latched r sid s) = some x := ho
    rw [exec_firingRead]
    exact (cmdFor_acts h (by simp [hr, ho])).trans (by simp only [ho'])

end Sys2Proof.Machine
end

section
/-! PROOFS. The events of firings and shelves (O33; 05 R190, 06 R193 to R210, R223 to R225, R230). -/

namespace Sys2Proof.Machine

section
variable (s : State) (fid die sh : Nat)

theorem exec_claimGranted : exec (.claimGranted fid) s = execClaimGranted fid s := rfl
theorem exec_partPlaced : exec (.partPlaced die) s = execPartPlaced die s := rfl
theorem exec_firingLimit : exec (.firingLimit fid) s = execFiringLimit fid s := rfl
theorem exec_firingDone : exec (.firingDone fid) s = execFiringDone fid s := rfl
theorem exec_shelfOut : exec (.shelfOut sh) s = execShelfOut sh s := rfl

end

section
variable {s : State} {fid : Nat} {f : Firing}

/-! ### Claims and limit (R208, R209) -/

/-- A claiming firing asks for its claims, and holds them if every page's copies are back (R208). -/
theorem claimGranted_claiming (ha : s.alive = true) (hf : firingBy fid s = some f) (hc : f.st = .claiming) :
    exec (.claimGranted fid) s = .next (if claimsReady fid (requestClaims fid s) = true ∨ claimPages f = [] then
      holdClaims f (requestClaims fid s) else requestClaims fid s) := by
  simp [exec_claimGranted, execClaimGranted, act, hf, ha, hc]

theorem claimGranted_other (hf : firingBy fid s = some f) (hc : f.st ≠ .claiming) : exec (.claimGranted fid) s = .next s := by
  simp [exec_claimGranted, execClaimGranted, act, hf, hc]

/-- A running firing that is not to stop yet stops with TIMEOUT when its limit has passed (R209). -/
theorem firingLimit_of_firingBy (hf : firingBy fid s = some f) : exec (.firingLimit fid) s = .next
    (if s.alive = true ∧ f.st = .running ∧ f.desc.limit ≠ 0 ∧ f.started + f.extra + 1000 * f.desc.limit < s.now ∧ f.stop = none
      then stopFiring fid stTIMEOUT s else s) := by
  simp only [exec_firingLimit, execFiringLimit, act, hf]

/-! ### The end of a firing (R209, R217, R223, R224, R230) -/

section
variable (ha : s.alive = true) (hf : firingBy fid s = some f) (hr : f.st = .running)
include ha hf hr

/-- A firing that is to stop is done when all its parts have stopped. -/
theorem firingDone_stopping (hs : f.stop ≠ none) : exec (.firingDone fid) s = .next
    (if ∀ p ∈ f.parts, partStopped p s = true then closeFiring fid (endParts f s) else s) := by
  have hs' : f.stop.isSome = true := Option.isSome_iff_ne_none.2 hs
  simp [exec_firingDone, execFiringDone, act, hf, ha, hr, hs']

/-- A glaze firing that runs on is done when all its parts have ended. -/
theorem firingDone_glaze (hs : f.stop = none) (hk : f.desc.kind = 1) : exec (.firingDone fid) s = .next
    (if ∀ p ∈ f.parts, p.ended = true then closeFiring fid (fredOut f 1 (fredOut f 0 s)) else s) := by
  simp [exec_firingDone, execFiringDone, act, hf, ha, hr, hs, hk]

/-- A built-in waits until its parts have their shelves. -/
theorem firingDone_unplaced (hs : f.stop = none) (hk : f.desc.kind ≠ 1) (hp : ∃ p ∈ f.parts, p.placed = false ∧ p.ended = false) :
    exec (.firingDone fid) s = .next s := by
  have hp' : (f.parts.all fun p => p.placed || p.ended) = false := by simpa using hp
  simp only [exec_firingDone, execFiringDone, act, hf, ha, hr, hs, hp']
  simp [hk]

/-- A built-in of one line at a time that has its shelves runs in one step and is done; what it moved is charged (R224, log 11). -/
theorem firingDone_builtin {u : State} (hs : f.stop = none) (hk : f.desc.kind ∈ [2, 3, 4])
    (hp : ∀ p ∈ f.parts, p.placed = true ∨ p.ended = true) (hu : runBuiltin f s = (some (), u)) : exec (.firingDone fid) s = .next (closeFiring fid (endParts f (chargeL f.sid
      (u.obs.global.getD 0 0 + u.obs.global.getD 1 0 - (s.obs.global.getD 0 0 + s.obs.global.getD 1 0)) u).2)) := by
  have hp' : (f.parts.all fun p => p.placed || p.ended) = true := by simpa using hp
  have hk' : f.desc.kind ≠ 1 ∧ f.desc.kind ≠ 5 := by
    simp only [List.mem_cons, List.not_mem_nil, or_false] at hk
    omega
  simp only [exec_firingDone, execFiringDone, act, hf, ha, hr, hs, hp', hu, if_neg hk'.2]
  simp [hk'.1]

end

end

/-! ### Shelves (05 R190) -/

/-- A marked shelf on which nothing runs leaves service. -/
theorem shelfOut_idle {s : State} {sh : Nat} {x : Shelf} (ha : s.alive = true) (hx : shelfOf sh s = some x) (hm : x.marked = true)
    (hr : x.run = none) (hw : x.window = none) : exec (.shelfOut sh) s = .next (starveParts (emit 0x0B 4095 1 (sh / 40) [sh, 1]
      (modShelf sh (fun x => { x with out := true, marked := false }) s))) := by
  simp [exec_shelfOut, execShelfOut, act, hx, ha, hm, hr, hw]

theorem shelfOut_running {s : State} {sh : Nat} {x : Shelf} (hx : shelfOf sh s = some x) (hr : x.run ≠ none) :
    exec (.shelfOut sh) s = .next s := by
  simp [exec_shelfOut, execShelfOut, act, hx, hr]

/-- Settles O33: each event by the case of its firing's state; a built-in moves its regions in one row (log 11). -/
theorem firingEvents : Obligations.FiringEvents := by
  intro s fid f ha
  refine ⟨?_, ?_, claimGranted_other, ?_, ?_, ?_, ?_, ?_, ?_, firingDone_unplaced ha, fun u hf hr => firingDone_builtin ha hf hr, ?_, ?_,
    fun sh x => shelfOut_idle ha, fun sh x => shelfOut_running⟩
  · intro hf hc hready
    rw [claimGranted_claiming ha hf hc, if_pos hready]
  · intro hf hc hready hp
    rw [claimGranted_claiming ha hf hc, if_neg (by simp [hready, hp])]
  · intro die k i shs hk hp
    simp only [exec_partPlaced, execPartPlaced, act, ha, hk, Option.bind_some, hp]
    rfl
  · intro hf hr hl ht hs
    rw [firingLimit_of_firingBy hf, if_pos ⟨ha, hr, hl, ht, hs⟩]
  · intro hf hl
    rw [firingLimit_of_firingBy hf, if_neg fun ⟨_, _, hl', _⟩ => hl' hl]
  · intro hf ht
    rw [firingLimit_of_firingBy hf, if_neg fun ⟨_, _, _, hlt, _⟩ => Nat.not_lt.2 ht hlt]
  · intro hf hr hs hp
    rw [firingDone_stopping ha hf hr hs, if_pos hp]
  · intro hf hr hs hp
    rw [firingDone_stopping ha hf hr hs, if_neg (by simpa using hp)]
  · intro hf hr hs hk hp
    rw [firingDone_glaze ha hf hr hs hk, if_pos hp]
  · intro hf hr hs hk hp
    rw [firingDone_glaze ha hf hr hs hk, if_neg (by simpa using hp)]

end Sys2Proof.Machine
end

section
/-! PROOFS. Control of a glaze (O40; 06 R211 to R223): commits, uniform instructions, meeting points, END and the stream engine. -/

namespace Sys2Proof.Machine

section
variable (s : State) (sh cond m n target imm : Nat) (bad : Option Nat) (src : Bool) (g : GArgs)

theorem exec_commit : exec (.commit sh bad) s = execCommit sh bad s := rfl
theorem exec_bra : exec (.bra sh cond m target) s = execBra sh cond m target s := rfl
theorem exec_loop : exec (.loop sh n target) s = execLoop sh n target s := rfl
theorem exec_rep : exec (.rep sh src imm) s = execRep sh src imm s := rfl
theorem exec_setct : exec (.setct sh n src imm) s = execSetct sh n src imm s := rfl
theorem exec_barrier : exec (.barrier sh) s = execBarrier sh s := rfl
theorem exec_sred : exec (.sred sh g) s = execSred sh g s := rfl
theorem exec_fred : exec (.fred sh g) s = execFred sh g s := rfl
theorem exec_endLane : exec (.endLane sh g) s = execEndLane sh g s := rfl

end

/-! ### The stream engine (R211) -/

/-- The stream engine does nothing once all streams are read. -/
theorem feed_done {sh : Nat} {s : State} {x : Shelf} (hx : shelfOf sh s = some x) (hu : ∀ l ∈ x.unread, ∀ cs ∈ l, cs = []) :
    feed sh s = s := by
  have hall : (x.unread.all fun l => l.all (·.isEmpty)) = true := by simpa using hu
  simp only [feed, hx, hall, if_true]

/-! ### Commits (05 R187 to R189, 06 R222) -/

section
variable {s : State} {sh w : Nat} {f : Firing} {x : Shelf}

/-- COMMIT of a step whose checks hold ends it. -/
theorem commit_good (hi : issuing sh (wordG 0x01 ⟨false, 0, 0, 0, 0, 0⟩) s = some (f, x)) :
    exec (.commit sh none) s = .next (commitShelf sh (modShelf sh (fun x => { x with slots := x.slots + 1, idx := x.idx + 1 }) s)) := by
  simp only [exec_commit, execCommit, act, doCommit, hi]

/-- A lane whose checks fail, and whose step is not yet written with cause 9, has its step discarded (05 R189). -/
theorem commit_mismatch {l : Nat} (hp : s.powered = true) (hx : shelfOf sh s = some x) (hr : x.run = some f.fid) (hf : firingBy f.fid s = some f)
    (hk : f.desc.kind = 1) (hl : x.lanes ≠ []) (hn : ∀ y, shelfOf sh (mismatch sh l s) = some y → l ∉ y.nine) :
    exec (.commit sh (some l)) s = .next (mismatch sh l s) := by
  have hl' : x.lanes.isEmpty = false := by simpa using hl
  simp only [exec_commit, execCommit, act, hx, hr, Option.bind_some, hf, hk, hl', hp]
  cases hy : shelfOf sh (mismatch sh l s) with
  | none => rfl
  | some y => simp [hn y hy]

/-! ### Uniform instructions (R219, R220) -/

/-- A uniform instruction that can issue changes its shelf as its body says; the step ends if that fills it, and the stream engine reads on. -/
theorem uniform_does {i : Instr} {body : Firing → Shelf → Shelf} {P : Shelf → Prop} (h : exec i s = .next (uniform sh w body s))
    (hi : issuing sh w s = some (f, x)) (hP : P (body f { x with slots := x.slots + 1 })) :
    ∃ u y, exec i s = .next (feed sh (if stepFull y then commitShelf sh u else u)) ∧ shelfOf sh u = some y ∧ P y :=
  ⟨modShelf sh (fun _ => body f { x with slots := x.slots + 1 }) s, _, h.trans (by simp only [uniform, hi]),
    shelfOf_modShelf_same (shelfOf_of_issuing hi) _, hP⟩

/-- REP by a count register that is not 0 takes no slot (R219). -/
theorem rep_register {imm : Nat} (hi : issuing sh (wordI 0x05 false 0 0 true imm) s = some (f, x)) (h0 : x.ct.getD (imm % 4) 0 ≠ 0) :
    exec (.rep sh true imm) s
      = .next (modShelf sh (fun y => { y with idx := y.idx + 1, rep := (x.ct.getD (imm % 4) 0).toNat }) s) := by
  have hn : (x.ct.getD (imm % 4) 0).toNat ≠ 0 := fun h => h0 (BitVec.eq_of_toNat_eq h)
  simp only [exec_rep, execRep, act, hi, if_true, if_neg hn]

/-- The lowest-numbered active lane. -/
theorem find_firstActive {ls : List Lane} {j : Nat} {l : Lane} (hl : ls[j]? = some l) (ha : l.fin = false)
    (hb : ∀ i k, i < j → ls[i]? = some k → k.fin = true) : (ls.zipIdx.find? fun p => !p.1.fin) = some (l, j) := by
  obtain ⟨hj, hl⟩ := List.getElem?_eq_some_iff.1 hl
  rw [List.find?_eq_some_iff_getElem]
  refine ⟨by simp [ha], j, by simpa using hj, by simp [hl], fun i hi => ?_⟩
  simpa using hb i _ hi (List.getElem?_eq_getElem (hi.trans hj))

/-! ### Meeting points (R220, R222, R223) -/

/-- A shelf comes to a meeting point behind the end of its step: it waits there, has given one value for each lane that was asked, and the
meeting is released if all are there. -/
theorem meet_does {pn : Bool} {ps : Nat} {wt : ShWait} {c : Option Nat} {y : Shelf} {i : Instr} (h : exec i s = .next (meet sh w pn ps wt c s))
    (hi : issuing sh w s = some (f, x)) (hc : issuing sh w (commitShelf sh s) = some (f, y)) :
    ∃ u z, exec i s = .next (feed sh (release f.fid sh wt u)) ∧ shelfOf sh u = some z ∧ z.wait = wt ∧ z.slots = y.slots + 1
      ∧ z.contrib.length = y.lanes.length ∧ (c = none → z.lanes = y.lanes) := by
  simp only [meet, hi, hc] at h
  refine ⟨_, _, h, shelfOf_modShelf_same (shelfOf_of_issuing hc) _, rfl, rfl, by simp, ?_⟩
  rintro rfl
  simp [Function.comp_def]

/-- A meeting point holds while a shelf of the part has not arrived. -/
theorem release_waits {fid m : Nat} {wt : ShWait} (hf : firingBy fid s = some f) (hm : m ∈ partMates f sh) (ha : arrived wt m s = false) :
    release fid sh wt s = s := by
  have hall : ((partMates f sh).all fun m => arrived wt m s) = false := List.all_eq_false.2 ⟨m, hm, by simp [ha]⟩
  simp only [release, hf, hall, if_true]

/-! ### END (R220, R222) -/

/-- What a lane-wise instruction that is no fire does to its shelf and its lanes. -/
theorem lanewise_shelf (hi : issuing sh w s = some (f, x)) (pn : Bool) (ps cost : Nat) (op : LaneCtx → Lane → Lane) :
    ∃ u y, lanewise sh w pn ps cost false op s = feed sh (if stepFull y then commitShelf sh u else u) ∧ shelfOf sh u = some y
      ∧ (x.rep ≤ 1 → y.idx = x.idx + 1)
      ∧ ∀ (j : Nat) (l : Lane), x.lanes[j]? = some l → y.lanes[j]? = some (if executes pn ps l then op (laneCtx f x ps j l) l else l) := by
  obtain ⟨ix, rp, hy, hone, -⟩ := lanesAfter_eq f pn ps cost op x
  refine ⟨modShelf sh (fun _ => lanesAfter f pn ps cost op x) s, _, by simp only [lanewise, hi, Bool.false_eq_true, if_false],
    shelfOf_modShelf_same (shelfOf_of_issuing hi) _, ?_⟩
  rw [hy]
  exact ⟨fun h => (hone h).1, fun j l hl => by simp [hl]⟩

/-- END ends the lanes that execute it; a shelf without lanes left ends its step and may complete a meeting of its part. -/
theorem endLane_does {g : GArgs} (hi : issuing sh (wordG 0x02 g) s = some (f, x)) :
    ∃ u y w, shelfOf sh u = some y ∧ (x.rep ≤ 1 → y.idx = x.idx + 1)
      ∧ (∀ (j : Nat) (l : Lane), x.lanes[j]? = some l → y.lanes[j]? = some (if executes g.pn g.ps l then { l with fin := true } else l))
      ∧ w = feed sh (if stepFull y then commitShelf sh u else u)
      ∧ exec (.endLane sh g) s = .next (if shelfEnded sh w then releaseMates f.fid sh (commitShelf sh w) else w) := by
  obtain ⟨u, y, hw, hu, hidx, hlanes⟩ := lanewise_shelf hi g.pn g.ps 1 fun _ l => { l with fin := true }
  exact ⟨u, y, _, hu, hidx, hlanes, rfl, by simp only [exec_endLane, execEndLane, act, hi, laneG, hw]⟩

end

/-- Settles O40: a uniform instruction changes its shelf by its body (`uniform_does`), a meeting point holds its shelf (`meet_does`), and
END is lane-wise; the stream engine reads on in the same row (log 11). -/
theorem glazeControl : Obligations.GlazeControl := by
  intro s sh f x
  refine ⟨commit_good, fun l => commit_mismatch, ?_, ?_, ?_, ?_, ?_, ?_, ?_, fun fid m wt => release_waits, fun g => endLane_does,
    fun hu hx => feed_done hx hu⟩
  · intro cond m target hi
    refine uniform_does (exec_bra ..) hi ⟨rfl, rfl, rfl, ?_, ?_, ?_, ?_⟩
    · rintro rfl
      rfl
    · rintro rfl
      exact if_congr (by simp) rfl rfl
    · rintro rfl
      exact if_congr (by simp [or_iff_not_imp_left]) rfl rfl
    · rintro rfl
      exact if_congr (by simp) rfl rfl
  · intro n target hi
    refine uniform_does (exec_loop ..) hi ⟨rfl, rfl, if_congr ?_ rfl rfl⟩
    exact sub_eq_zero
  · intro imm hi
    simp only [exec_rep, execRep, act, hi]
    rfl
  · intro imm hi h0
    exact ⟨_, _, rep_register hi h0, shelfOf_modShelf_same (shelfOf_of_issuing hi) _, rfl, rfl, rfl⟩
  · intro n imm hi
    exact uniform_does (exec_setct ..) hi ⟨rfl, rfl, rfl⟩
  · intro n imm j l hi hl ha hb
    refine uniform_does (exec_setct ..) hi ?_
    dsimp only
    rw [find_firstActive hl ha hb]
    exact ⟨rfl, rfl⟩
  · intro y w wt hi hc
    refine ⟨?_, ?_, ?_⟩
    · rintro rfl rfl
      obtain ⟨u, z, h, hz, hw, hs, -, hl⟩ := meet_does (exec_barrier s sh) hi hc
      exact ⟨u, z, h, hz, hw, hs, hl rfl⟩
    · rintro g rfl rfl
      obtain ⟨u, z, h, hz, hw, -, hk, -⟩ := meet_does (exec_sred s sh g) hi hc
      exact ⟨u, z, h, hz, hw, hk⟩
    · rintro g rfl rfl
      obtain ⟨u, z, h, hz, hw, -, hk, -⟩ := meet_does (exec_fred s sh g) hi hc
      exact ⟨u, z, h, hz, hw, hk⟩

end Sys2Proof.Machine
end

section
/-! PROOFS. Contexts (O34; 07 R235 to R239) and kiln windows (O35; R256 to R266). -/

namespace Sys2Proof.Machine

section
variable (s : State) (r sid base count n w i len addr round cause : Nat) (e : Ctx) (m : Mhd) (item : Item) (b : WinBlock) (data : List Word)

theorem exec_ctxGrant : exec (.ctxGrant r sid base count) s = execCtxGrant r sid base count s := rfl
theorem exec_ctxSet : exec (.ctxSet r n e) s = execCtxSet r n e s := rfl
theorem exec_agentCtxSet : exec (.agentCtxSet m n e) s = execAgentCtxSet m n e s := rfl
theorem exec_ctxRead : exec (.ctxRead r n) s = execCtxRead r n s := rfl
theorem exec_windowOpen : exec (.windowOpen r len item b) s = execWindowOpen r len item b s := rfl
theorem exec_windowArm : exec (.windowArm r w) s = execWindowArm r w s := rfl
theorem exec_windowForce : exec (.windowForce r w) s = execWindowForce r w s := rfl
theorem exec_windowClose : exec (.windowClose r w) s = execWindowClose r w s := rfl
theorem exec_windowRead : exec (.windowRead r w i) s = execWindowRead r w i s := rfl
theorem exec_windowDeadline : exec (.windowDeadline w) s = execWindowDeadline w s := rfl
theorem exec_contrib : exec (.contrib m addr round cause data) s = execContrib m addr round cause data s := rfl

end

/-! ### Contexts (R235 to R239) -/

section
variable {s : State} {r sid base count n : Nat} {f : Inflight}

/-- Contexts that are Free, or the sagger's own already (log 48), are granted to it (R236). -/
theorem ctxGrant_grants (h : Ready r 0x58 0 s f) (hs : sid ≤ 4094) (ha : sagState sid s ≠ .free) (hc : base + count ≤ 4096) (hb : base ≤ 4095)
    (ho : ∀ i, i < count → ctxOwner (base + i) s = 4095 ∨ ctxOwner (base + i) s = sid) :
    exec (.ctxGrant r sid base count) s = .next (ok r [] { latched r sid s with
      kiln.ctxs := (List.range count).foldl (fun m i => smSet (base + i) (grantedCtx sid) m) s.kiln.ctxs }) := by
  have hne : sid ≠ 4095 := by omega
  rw [exec_ctxGrant]
  refine (cmdFor_acts h ?_).trans (by simp only [if_neg hne]; rfl)
  simp only [List.forall_mem_cons, List.not_mem_nil, IsEmpty.forall_iff, implies_true, and_true, chkDeny_bad, chkLen_bad, chkExec_bad]
  refine ⟨by simp [sagThere_of_ne_free ha, hb]; omega, by simpa using hc, ?_, by simp [hne]⟩
  simpa [hne, or_iff_not_imp_left] using ho

/-- SID 4,095 frees the range, unless an open firing names a context of it (R236). -/
theorem ctxGrant_frees (h : Ready r 0x58 0 s f) (hc : base + count ≤ 4096) (hb : base ≤ 4095) (hu : ctxInUse base count s = false) :
    exec (.ctxGrant r 4095 base count) s = .next (ok r [] { latched r 4095 s with
      kiln.ctxs := (List.range count).foldl (fun m i => smDel (base + i) m) s.kiln.ctxs }) := by
  rw [exec_ctxGrant]
  exact cmdFor_acts h (by simp [hc, hb, hu])

theorem ctxGrant_busy (h : Ready r 0x58 0 s f) (hc : base + count ≤ 4096) (hb : base ≤ 4095) (hu : ctxInUse base count s = true) :
    Refuses (.ctxGrant r 4095 base count) r 0x58 stBUSY 7 s :=
  cmdFor_refused (c := chkExec true stBUSY) (exec_ctxGrant ..) h
    (by simp [firstBad, hu, Nat.not_lt.2 hc, Nat.not_lt.2 hb]) (by decide)

theorem ctxRead_shows (h : Ready r 0x5A 48 s f) (hn : n ≤ 4095) :
    exec (.ctxRead r n) s = .next (okItem r [.words (ctxWords (((ctxOf n s).map (·.e)).getD freeCtx))] (latched r 0 s)) := by
  have ⟨_, _, _, _, _, hroom⟩ := h
  obtain ⟨h3, h4, -⟩ := outRoom_checks hroom
  rw [exec_ctxRead]
  exact cmd_acts h (by simp [hn, h3, h4])

end

/-- Settles O34: the grants by `ctxGrant_grants` (own contexts again by log 48), `ctxGrant_frees` and `ctxGrant_busy`; a CTX_SET that passes its
checks fills the context, or waits while a page of its rows is migrated. -/
theorem contextCommands : Obligations.ContextCommands := by
  intro s r sid n f e
  refine ⟨fun base count => ctxGrant_grants, fun base count => ctxGrant_frees, fun base count => ctxGrant_busy, fun h hc => ?_, fun m u h => ?_,
    ctxRead_shows⟩
  · rw [exec_ctxSet]
    exact ⟨fun hw => (cmd_acts h hc).trans (by simp only [hw]), fun b hw => (cmd_acts h hc).trans (by simp only [hw])⟩
  · rw [exec_agentCtxSet, execAgentCtxSet, act, arrive_delivered h.1, metered_passes h (by simp)]

/-! ### Opening a window (R257, R258) -/

/-- A window block that WINDOW_OPEN reads from `len` bytes and accepts: its codes (R257), its place and ranges, its step, and its room (R258). -/
structure OpensWindow (len : Nat) (b : WinBlock) (s : State) : Prop where
  fmt : b.fmt = 1
  codes : b.resv = false ∧ b.cfmt < 3 ∧ b.short ≠ 3 ∧ b.gw < 5
  free : b.window ≤ 1023 ∧ smGet b.window s.kiln.wins = none
  die : dieState b.die s = .inService ∧ warmDie b.die s = false
  sagger : b.sid ≠ 0 ∧ sagState b.sid s = .active
  shelves : 1 ≤ b.shelves ∧ b.shelves ≤ 40
  contrib : 1 ≤ b.contrib ∧ b.contrib ≤ 1024
  deadline : b.deadline = 0 ∨ 1000000 ≤ b.deadline ∧ b.deadline ≤ 600000000000
  segments : b.elements % segElems b.cfmt = 0
  aids : b.aids.Nodup ∧ ∀ a ∈ b.aids, a ≤ 2047
  step : stepBad b s = false ∧ firstBad (fireChks b.sid b.step none (some b.window) s) = none
  elements : 1 ≤ b.elements ∧ b.elements ≤ b.shelves * 256 * 1920
  length : 320 + 2 * b.contrib ≤ len
  room : b.shelves ≤ (winShelves b s).length

section
variable {s : State} {r w len : Nat} {f : Inflight} {x : Window} {b : WinBlock} {item : Item}

theorem winChks_good (h : OpensWindow len b s) : ∀ c ∈ winChks len b s, c.bad = false := by
  obtain ⟨hfmt, ⟨hresv, hcfmt, hshort, hgw⟩, ⟨hwin, hnone⟩, ⟨hdie, hwarm⟩, ⟨hsid, hact⟩, ⟨hsh1, hsh2⟩, ⟨hc1, hc2⟩, hdl, hseg, ⟨hnd, haid⟩,
    ⟨hstep, hfire⟩, ⟨he1, he2⟩, hlen, hroom⟩ := h
  have he0 : b.elements ≠ 0 := Nat.ne_of_gt he1
  simp only [winChks, if_neg he0, List.forall_mem_append, List.forall_mem_cons, List.not_mem_nil, IsEmpty.forall_iff, implies_true, and_true,
    chk_bad, chkResv_bad, chkDeny_bad, chkLen_bad, chkWarm_bad, chkExec_bad]
  refine ⟨⟨by simp [hfmt], by simp [hresv, hcfmt, hshort, hgw], ?_, by simp [hstep, hfire]⟩, by simp [he2, hlen], hwarm, by simpa using hroom⟩
  have hserves : dieServes b.die s = true := by simp [dieServes, hdie]
  simpa [hwin, hnone, hserves, hsid, hact, Nat.ne_of_gt hsh1, hsh2, Nat.ne_of_gt hc1, hc2, hseg, hnd, or_iff_not_imp_left]
    using And.intro hdl haid

/-- Marking shelves changes no window. -/
theorem foldl_modShelf_wins (g : Shelf → Shelf) (l : List Nat) (s : State) : (l.foldl (fun s sh => modShelf sh g s) s).kiln.wins = s.kiln.wins :=
  foldl_keeps (·.kiln.wins) (fun s sh => modShelf_kiln_wins sh g s) l s

theorem windowOpen_opens (h : Ready r 0x5B 0 s f) (hi : GoodItem item len s) (hb : OpensWindow len b s)
    (hl : winShelves b (latched r b.sid s) = winShelves b s) :
    exec (.windowOpen r len item b) s = .next (ok r [] { ((winShelves b s).take b.shelves).foldl
        (fun s sh => modShelf sh (fun x => { x with window := some b.window }) s) (latched r b.sid s) with
      kiln.wins := smSet b.window (newWindow b ((winShelves b s).take b.shelves)) s.kiln.wins }) := by
  have hlen : len ≠ 0 := by have := hb.length; omega
  have hgood : ∀ c ∈ itemAlign item :: (itemRead item len s ++ winChks len b s), c.bad = false :=
    List.forall_mem_cons.2 ⟨by simp [itemAlign, hi.1], List.forall_mem_append.2 ⟨itemRead_good hi, winChks_good hb⟩⟩
  rw [exec_windowOpen]
  refine (cmdFor_acts h (by rwa [if_neg hlen])).trans ?_
  rw [if_neg (not_or.2 ⟨hlen, Nat.ne_of_gt hb.elements.1⟩)]
  simp only [hl, foldl_modShelf_wins]
  rfl

/-! ### Commands of a window (R262, R265, R273) -/

section
variable (hw : w ≤ 1023) (hx : smGet w s.kiln.wins = some x)
include hw hx

theorem windowArm_arms (h : Ready r 0x5C 0 s f) (hp : x.st = .parked) :
    exec (.windowArm r w) s = .next (ok r [] (modWin w (fun x => openRound (x.round + 1) x) (latched r 0 s))) := by
  rw [exec_windowArm]
  exact cmd_acts h (by simp [hw, hx, hp])

theorem windowArm_conflict (h : Ready r 0x5C 0 s f) (hp : x.st ≠ .parked) : Refuses (.windowArm r w) r 0x5C stCONFLICT 7 s := by
  have hb : (some x.st != some WState.parked) = true := by simpa using hp
  exact cmd_refused (c := chkExec true stCONFLICT) (exec_windowArm ..) h (by simp [firstBad, Nat.not_lt.2 hw, hx, hb]) (by decide)

theorem windowForce_closes (h : Ready r 0x5D 0 s f) (hs : x.st ≠ .stepping) (ho : x.opened = true) :
    exec (.windowForce r w) s = .next (ok r [] (closeRound w (latched r 0 s))) := by
  rw [exec_windowForce]
  exact cmd_acts h (by simp [hw, hx, hs, ho])

theorem windowForce_busy (h : Ready r 0x5D 0 s f) (hs : x.st = .stepping) : Refuses (.windowForce r w) r 0x5D stBUSY 7 s :=
  cmd_refused (c := chkExec true stBUSY) (exec_windowForce ..) h (by simp [firstBad, Nat.not_lt.2 hw, hx, hs]) (by decide)

theorem windowClose_parked (h : Ready r 0x5E 0 s f) (hp : x.st = .parked) :
    exec (.windowClose r w) s = .next (ok r []
      { x.shelves.foldl (fun s sh => modShelf sh (fun y => { y with window := none }) s) (latched r 0 s) with kiln.wins := smDel w s.kiln.wins }) := by
  have hx' : smGet w (latched r 0 s).kiln.wins = some x := hx
  have ho : x.st ≠ .opened := by simp [hp]
  rw [exec_windowClose]
  refine (cmd_acts h (by simp [hw, hx, hp])).trans ?_
  simp only [hx', if_neg ho, foldl_modShelf_wins]
  rfl

theorem windowClose_busy (h : Ready r 0x5E 0 s f) (hs : x.st = .stepping) : Refuses (.windowClose r w) r 0x5E stBUSY 7 s :=
  cmd_refused (c := chkExec true stBUSY) (exec_windowClose ..) h (by simp [firstBad, Nat.not_lt.2 hw, hx, hs]) (by decide)

theorem windowRead_shows {i : Nat} (h : Ready r 0x5F 0 s f) (hi : i < x.blk.contrib) :
    exec (.windowRead r w i) s = .next (ok r (windowWords (some x) i) (latched r 0 s)) := by
  have hx' : smGet w (latched r 0 s).kiln.wins = some x := hx
  rw [exec_windowRead]
  exact (cmd_acts h (by simp [hw, hx, hi])).trans (by rw [hx'])

end

/-- The round closes when DEADLINE ticks, gaps added, have passed since its first accepted contribution (R262). -/
theorem windowDeadline_of_smGet (hx : smGet w s.kiln.wins = some x) : exec (.windowDeadline w) s = .next
    (if s.alive ∧ x.opened = true ∧ 0 < x.received ∧ x.blk.deadline ≠ 0 ∧ x.firstAt + x.blk.deadline + x.extra ≤ s.now
      then closeRound w s else s) := by
  simp only [exec_windowDeadline, execWindowDeadline, act, hx]

end

/-! ### Contributions (R256, R260) -/

/-- A contribution that passes its gate and meter F is served in the state with the charge, that of 64 lines (09 R320 to R322). -/
theorem contrib_passes {s u : State} {m : Mhd} (h : Passes m (4096 + s.sags.shape.fOvh) 64 s u) (addr round cause : Nat) (data : List Word) :
    exec (.contrib m addr round cause data) s = .next (serveContrib m addr round cause data (addGlobal 5 1 u)) := by
  obtain ⟨hdel, hr, hp, hd, hb, hl⟩ := h
  have hd' : sagState (sidOf m.port m.src s) (openReq m.port m.src m.tag m.tgen false s) ≠ .draining := hd
  have hp' : (openReq m.port m.src m.tag m.tgen false s).powerOff = false := hp
  have hl' : letPass m.port m.src m.tag (sidOf m.port m.src s) (4096 + s.sags.shape.fOvh) 64 (openReq m.port m.src m.tag m.tgen false s).now
    (openReq m.port m.src m.tag m.tgen false s) = (true, u) := hl
  rw [exec_contrib, execContrib, act, arrive_delivered hdel]
  simp only [metered, hr, hd', hp', hb, Bool.false_eq_true, if_false, false_and, hl', if_true]

/-- A write to a window page is a contribution's segment, and heats its leaf by 64 lines. -/
theorem serveContrib_window {s : State} {m : Mhd} {addr off : Nat} (ha : addr < 2 ^ 52)
    (ht : translate (sidOf m.port m.src s) addr 2 s = .window off) (round cause : Nat) (data : List Word) :
    serveContrib m addr round cause data s = serveSegment m off round cause data
      (addHeat (sidOf m.port m.src s) (((leafAt (sidOf m.port m.src s) (addr / 2 ^ 21) s.xlt).map (·.1)).getD 0) 64 s) := by
  simp only [serveContrib, if_neg (Nat.not_le.2 ha), ht]

section
variable {x : Window} {aid off : Nat} (hl : x.st ≠ .lost) (ha : off % 4096 = 0) (hs : off / 4096 < winSegs x.blk)
include hl ha hs

/-- What a listed contributor's segment of a standing window meets, by its round and the ledger (R260, rows 3 to 7). -/
theorem judge_listed {i : Nat} (hi : x.blk.aids.idxOf? aid = some i) (rd : Nat) : judge (some x) aid off rd =
    if rd = x.round ∧ x.opened = true then if (i, off / 4096) ∈ x.ledger then .duplicate else .taken
    else if rd = x.round ∨ (rd + 1) % 65536 = x.round then .late
    else if rd = (x.round + 1) % 65536 then .early
    else .other := by
  have hin : ¬(x.st = .lost ∨ off % 4096 ≠ 0 ∨ winSegs x.blk ≤ off / 4096) := by simp [hl, ha, hs]
  simp only [judge, if_neg hin, hi, List.contains_iff_mem]

theorem judge_notListed (hi : x.blk.aids.idxOf? aid = none) (rd : Nat) : judge (some x) aid off rd = .notListed := by
  have hin : ¬(x.st = .lost ∨ off % 4096 ≠ 0 ∨ winSegs x.blk ≤ off / 4096) := by simp [hl, ha, hs]
  simp only [judge, if_neg hin, hi]

end

/-- Settles O35: each command passes its checks and acts, or fails the check of its rule; a block that `OpensWindow` passes all checks of
WINDOW_OPEN; a contribution is judged as `judge_listed` says. -/
theorem windowCommands : Obligations.WindowCommands := by
  refine ⟨fun s r w f x => ⟨?_, fun h hw hx => windowArm_arms hw hx h, fun h hw hx => windowArm_conflict hw hx h,
      fun h hw hx => windowForce_closes hw hx h, fun h hw hx => windowForce_busy hw hx h, fun h hw hx => windowClose_parked hw hx h,
      fun h hw hx => windowClose_busy hw hx h, fun i h hw hx => windowRead_shows hw hx h, ?_, ?_⟩,
    fun s m addr round cause data => ⟨fun u h => contrib_passes h .., fun off ha ht => serveContrib_window ha ht .., ?_,
      fun aid off rd x hl ha hs hi => judge_notListed hl ha hs hi rd, fun _ _ _ => rfl⟩⟩
  · intro len item b h hfmt hresv hcfmt hshort hgw hwarm hitem hwin hnone hdie hsid hact hsh1 hsh2 hc1 hc2 hdl hseg hnd haid hstep hfire he1 he2
      hlen hroom
    exact windowOpen_opens h hitem ⟨hfmt, ⟨hresv, hcfmt, hshort, hgw⟩, ⟨hwin, hnone⟩, ⟨hdie, hwarm⟩, ⟨hsid, hact⟩, ⟨hsh1, hsh2⟩, ⟨hc1, hc2⟩,
      hdl, hseg, ⟨hnd, haid⟩, ⟨hstep, hfire⟩, ⟨he1, he2⟩, hlen, hroom⟩
  · intro ha hx ho hr hd ht
    rw [windowDeadline_of_smGet hx, if_pos ⟨ha, ho, hr, hd, ht⟩]
  · intro hx hn
    rw [windowDeadline_of_smGet hx, if_neg (by omega)]
  · intro aid off x i hl ha hs hi
    have hj := judge_listed hl ha hs hi
    refine ⟨fun ho hm => ?_, fun ho hm => ?_, fun ho => ?_, fun rd hne hp => ?_, fun rd hne hp hn => ?_, fun rd hne hp hn => ?_⟩
    · rw [hj, if_pos ⟨rfl, ho⟩, if_neg hm]
    · rw [hj, if_pos ⟨rfl, ho⟩, if_pos hm]
    · rw [hj, if_neg (by simp [ho]), if_pos (.inl rfl)]
    · rw [hj, if_neg (by simp [hne]), if_pos (.inr hp)]
    · rw [hj, if_neg (by simp [hne]), if_neg (by simp [hne, hp]), if_pos hn]
    · rw [hj, if_neg (by simp [hne]), if_neg (by simp [hne, hp]), if_neg hn]

end Sys2Proof.Machine
end

section
/-! PROOFS. What a change of one Golha port leaves of it and of the rest: ports, associations, messages that wait to be sent (08 R276 to R308). -/

namespace Sys2Proof.Machine

/-! ### Ports -/

@[simp] theorem portOf_modPort_same (p : Nat) (g : Port → Port) (s : State) : portOf p (modPort p g s) = (portOf p s).map g := by
  simp [portOf, modPort]

theorem portOf_modPort_of {p : Nat} {s : State} {q : Port} (hq : portOf p s = some q) (g : Port → Port) : portOf p (modPort p g s) = some (g q) :=
  (portOf_modPort_same p g s).trans (congrArg _ hq)

theorem portOf_modPort_ne {p k : Nat} (h : k ≠ p) (g : Port → Port) (s : State) : portOf k (modPort p g s) = portOf k s := by
  simp [portOf, modPort, Ne.symm h]

/-- Only what the functions make of the port that stands there matters. -/
theorem modPort_congr {p : Nat} {s : State} {q : Port} {g k : Port → Port} (hq : portOf p s = some q) (h : g q = k q) :
    modPort p g s = modPort p k s := by
  have : s.ports.modify p g = s.ports.modify p k := by
    refine List.ext_getElem? fun i => ?_
    simp only [List.getElem?_modify]
    by_cases hi : p = i
    · subst hi
      rw [portOf] at hq
      simp [hq, h]
    · simp [hi]
  simp only [modPort, this]

/-- A change that changes no port leaves the state. -/
theorem modPort_self {g : Port → Port} (hg : ∀ q, g q = q) (p : Nat) (s : State) : modPort p g s = s := by
  have : g = id := funext hg
  simp [modPort, this]

theorem modPort_only (p : Nat) (g : Port → Port) (s : State) : Only [.ports] s (modPort p g s) := by
  intro c hc
  cases c <;> simp_all [Comp.same]

/-- A port is changed after a frame that gives the ports away. -/
theorem Only.modPort {cs : List Comp} {s t : State} (h : Only cs s t) (hc : .ports ∈ cs) (p : Nat) (g : Port → Port) :
    Only cs s (Machine.modPort p g t) := h.trans ((modPort_only p g t).mono (by simp [hc]))

theorem Only.portOf {cs : List Comp} {s t : State} (h : Only cs s t) (hc : Comp.ports ∉ cs) (p : Nat) :
    Machine.portOf p t = Machine.portOf p s := congrArg (·[p]?) (h .ports hc)

theorem Only.now {cs : List Comp} {s t : State} (h : Only cs s t) (hc : Comp.tal ∉ cs) : t.now = s.now :=
  congrArg (fun t => t.now) (h .tal hc : t.tal = s.tal)

@[simp] theorem portOf_emit (p kind sid region unit : Nat) (body : List Nat) (s : State) :
    portOf p (emit kind sid region unit body s) = portOf p s := by simp [portOf]

@[simp] theorem portOf_finish (p r st sg ix : Nat) (res : List Nat) (items : List OutItem) (s : State) :
    portOf p (finish r st sg ix res items s) = portOf p s := by simp [portOf]

@[simp] theorem portOf_ok (p r : Nat) (res : List Nat) (s : State) : portOf p (ok r res s) = portOf p s := portOf_finish ..

theorem portLive_of {p : Nat} {s : State} {q : Port} (hq : portOf p s = some q) : portLive p s = q.inSvc := by simp [portLive, hq]

theorem portLive_modPort {g : Port → Port} (hg : ∀ q, (g q).inSvc = q.inSvc) (p : Nat) (s : State) : portLive p (modPort p g s) = portLive p s := by
  simp [portLive, Function.comp_def, hg]

/-- A port that enters Training keeps what it holds and sends (R288). -/
theorem portOf_toTraining {p : Nat} {s : State} {q : Port} (hq : portOf p s = some q) (fast : Bool) : portOf p (toTraining fast p s) =
    some { q with st := .training, fast := fast, trainAt := s.now, retryAt := none, attempts := 0, lctl := []
                  resend := 0, nakHold := none, replaysNoAck := 0 } := by
  simp [toTraining, hq]

/-! ### Associations (R308) -/

theorem assocOf_of {p aid : Nat} {s : State} {q : Port} (hq : portOf p s = some q) : assocOf p aid s = smGet aid q.assocs := by
  simp [assocOf, hq]

theorem admitted_of {p aid : Nat} {s : State} {a : Assoc} (ha : assocOf p aid s = some a) : admitted p aid s = (a.adm == .admitted) := by
  simp [admitted, ha]

/-- A change of the port that leaves its associations alone leaves each of them. -/
theorem assocOf_modPort {g : Port → Port} (hg : ∀ q, (g q).assocs = q.assocs) (p aid : Nat) (s : State) :
    assocOf p aid (modPort p g s) = assocOf p aid s := by
  simp [assocOf, Option.bind_map, hg]

theorem admitted_modPort {g : Port → Port} (hg : ∀ q, (g q).assocs = q.assocs) (p aid : Nat) (s : State) :
    admitted p aid (modPort p g s) = admitted p aid s := by
  simp only [admitted, assocOf_modPort hg]

@[simp] theorem assocOf_modAssoc (p aid : Nat) (g : Assoc → Assoc) (s : State) :
    assocOf p aid (modAssoc p aid g s) = (assocOf p aid s).map g := by
  simp [assocOf, modAssoc, Option.bind_map, smGet_smMod_same, Option.map_bind]

theorem assocOf_setAssoc {p aid : Nat} {s : State} {q : Port} (hq : portOf p s = some q) (a : Assoc) :
    assocOf p aid (setAssoc p aid a s) = some a := by
  simp [assocOf, setAssoc, hq, smGet_smSet_same]

theorem modAssoc_only (p aid : Nat) (g : Assoc → Assoc) (s : State) : Only [.ports] s (modAssoc p aid g s) := modPort_only p _ s

/-! ### Messages that wait to be sent (R298, R300) -/

/-- A message waits behind the others of its port. -/
def queueTx (x : TxItem) (q : Port) : Port := { q with txq := q.txq ++ [x] }

/-- A message to a port in service, unless it is sealed and its agent not admitted, waits there. Of one that is no answer on VC1 nothing but
that is noted. -/
theorem sendOn_queues {p : Nat} {plain : Bool} {m : OutMsg} {s : State} (hl : portLive p s = true) (ha : plain = true ∨ admitted p m.dst s = true)
    (hv : outVc m.op ≠ 1) : ∃ x : TxItem, sendOn p plain m s = modPort p (queueTx x) s ∧ x.msg = { m with load := 0 } := by
  have hgo : (portLive p s && (plain || admitted p m.dst s)) = true := by rcases ha with h | h <;> simp [hl, h]
  unfold sendOn sendAt
  rw [if_pos hgo]
  extract_lets vc sid m' r excess cls x u
  have hvc : (vc == 1) = false := beq_false_of_ne hv
  refine ⟨x, if_neg (by simp [hvc]), ?_⟩
  simp only [x, m', vc, if_neg hv]

/-- A message of words alone. -/
theorem sendOn_words {p op dst tag tgen status : Nat} {body : List Nat} {plain : Bool} {s : State} (hl : portLive p s = true)
    (ha : plain = true ∨ admitted p dst s = true) (hv : outVc op ≠ 1) : ∃ x : TxItem,
      sendOn p plain ⟨op, dst, tag, tgen, status, 0, body, none, none⟩ s = modPort p (queueTx x) s
        ∧ x.msg = ⟨op, dst, tag, tgen, status, 0, body, none, none⟩ := sendOn_queues hl ha hv

end Sys2Proof.Machine
end

section
/-! PROOFS. Messages from agents and answers from holders (O21; 08 R297 to R312). The drop and count of R305 are the port's (log 4): of an AID that
is not admitted nothing reaches the hub. -/

namespace Sys2Proof.Machine

/-! ### Arrival (R298, R305; 11 R388) -/

section
variable {m : Mhd} {s : State} (i : Instr) (serve : Nat → State → State)

theorem arrive_notAdmitted (ha : admitted m.port m.src s = false) : arrive m i serve s = s := by simp [arrive, ha]

variable (hp : s.powered = true) (hl : portLive m.port s = true) (ha : admitted m.port m.src s = true)
include hp hl ha

theorem arrive_otherAid (hd : some m.dst ≠ (portOf m.port s).map (·.par.portAid)) : arrive m i serve s = protoErr m.port s := by
  simp [arrive, hp, hl, ha, hd, protoErr]

theorem arrive_waits (hd : some m.dst = (portOf m.port s).map (·.par.portAid)) (hh : s.holds = true) :
    arrive m i serve s = { s with twin.rxWait := s.twin.rxWait ++ [i] } := by
  simp [arrive, hp, hl, ha, hd, hh]

end

/-! ### Answers (R301, R303, R311) -/

section
variable {m : Mhd} {s : State}

theorem exec_fence : exec (.fence m) s = execFence m s := rfl
theorem exec_fenceAck : exec (.fenceAck m) s = execFenceAck m s := rfl

theorem exec_hdata (hd : Delivered m s) (st : Nat) (ls : List (LineData × Nat)) :
    exec (.hdata m st ls) s = .next (answer m 0x0C (serveHdata st ls) s) := congrArg _ (arrive_delivered hd _ _)

theorem exec_hdone (hd : Delivered m s) (st : Nat) : exec (.hdone m st) s = .next (answer m 0x0D (serveHdone st) s) :=
  congrArg _ (arrive_delivered hd _ _)

variable (hr : m.resv = false)
include hr

theorem answer_late {op : Nat} (serve : Outst → State → State) (ho : outstOf m.port m.src m.tag m.tgen op s = none) :
    answer m op serve s = lateAnswer m.port s := by
  simp [answer, hr, ho]

theorem answer_closes {op : Nat} {o : Outst} (serve : Outst → State → State) (ho : outstOf m.port m.src m.tag m.tgen op s = some o) :
    answer m op serve s = serve o (closeOutst o s) := by
  simp [answer, hr, ho]

variable (hd : Delivered m s)
include hd

/-- A FENCE that nothing precedes at its meter is answered behind the earlier requests of its agent. -/
theorem fence_flushes (hb : meterBusy (sidOf m.port m.src s) (openReq m.port m.src m.tag m.tgen true s) = false) (ho : s.powerOff = false)
    {u : State} (hl : letPass m.port m.src m.tag (sidOf m.port m.src s) s.sags.shape.fOvh 1 s.now (openReq m.port m.src m.tag m.tgen true s) = (true, u)) :
    exec (.fence m) s = .next (flushFences m.port m.src (addGlobal 5 1 u)) := by
  have ho' : (openReq m.port m.src m.tag m.tgen true s).powerOff = false := ho
  have hn : (openReq m.port m.src m.tag m.tgen true s).now = s.now := rfl
  rw [exec_fence, execFence, act, arrive_delivered hd]
  simp [metered, hr, ho', hb, hn, hl]

theorem fenceAck_late (ho : outstOf m.port m.src m.tag m.tgen 0x0B s = none) : exec (.fenceAck m) s = .next (lateAnswer m.port s) := by
  rw [exec_fenceAck, execFenceAck, act, arrive_delivered hd]
  simp [hr, ho]

/-- With no other request outstanding, a FENCE_ACK closes its FENCE, and no tag is left that another FENCE would free. -/
theorem fenceAck_closes {o : Outst} (hs : s.outst = [o]) (ho : outstOf m.port m.src m.tag m.tgen 0x0B s = some o) :
    exec (.fenceAck m) s = .next { s with outst := [] } := by
  rw [exec_fenceAck, execFenceAck, act, arrive_delivered hd]
  simp [hr, ho, hs]

end

/-- Settles O21: `arrive` sorts a message by its sender, its DST and the planes; a FENCE, a publication and the answers of holders are then served
as their lemmas say. -/
theorem messagesAndAnswers : Obligations.MessagesAndAnswers := by
  refine ⟨fun m i serve s => ⟨arrive_notAdmitted i serve, arrive_otherAid i serve, arrive_waits i serve, fun h => arrive_delivered h i serve⟩,
    fun s m hd hr => ⟨fun hb ho hl => fence_flushes hr hd hb ho (Prod.ext hl rfl), fun p => congrArg _ (arrive_delivered hd _ _),
      fun st ls ho => ?_, fun st ls o ho => ?_, fun st o ho => ?_, fun st ho => ?_, fun o hs ho => fenceAck_closes hr hd hs ho,
      fun ho => fenceAck_late hr hd ho⟩⟩
  · exact (exec_hdata hd st ls).trans (congrArg _ (answer_late hr _ ho))
  · exact (exec_hdata hd st ls).trans (congrArg _ (answer_closes hr _ ho))
  · exact (exec_hdone hd st).trans (congrArg _ (answer_closes hr _ ho))
  · exact (exec_hdone hd st).trans (congrArg _ (answer_late hr _ ho))

end Sys2Proof.Machine
end

section
/-! PROOFS. Port commands (O46; 08 R313, R308, R309). -/

namespace Sys2Proof.Machine

section
variable (s : State) (r p aid sid mode : Nat) (c : PortParams)

theorem exec_portConfig : exec (.portConfig r c) s = execPortConfig r c s := rfl
theorem exec_aidAllow : exec (.aidAllow r p aid sid) s = execAidAllow r p aid sid s := rfl
theorem exec_portReset : exec (.portReset r p mode) s = execPortReset r p mode s := rfl
theorem exec_saRekey : exec (.saRekey r p aid) s = execSaRekey r p aid s := rfl
theorem exec_portRead : exec (.portRead r p aid) s = execPortRead r p aid s := rfl
theorem exec_aidDetach : exec (.aidDetach r p aid) s = execAidDetach r p aid s := rfl

end

/-! ### Completing -/

@[simp] theorem portOf_latched (p r sid : Nat) (s : State) : portOf p (latched r sid s) = portOf p s := rfl

/-- A completion adds to what the command changed the host path and the observation records. -/
theorem ok_only {cs : List Comp} {r sid : Nat} {res : List Nat} {s u : State} (hh : .host ∈ cs) (ho : .obs ∈ cs)
    (hu : Only cs (latched r sid s) u) : Only cs s (ok r res u) :=
  (((latched_only r sid s).mono (by simp [hh])).trans hu).trans ((finish_only _ _ _ _ _ _ _).mono (by simp [hh, ho]))

section
variable {s : State} {r : Nat} {f : Inflight}

/-! ### PORT_CONFIG (R288, R313; log 38) -/

/-- What PORT_CONFIG makes of its port, with the key that port identity keys come from (12 R414). -/
def configured (key : Option Nat) (now : Nat) (c : PortParams) (q : Port) : Port :=
  let q := { q with par := c, idKey := if c.enable = 1 ∧ q.inSvc = true then key.map fun k => portIdKey k c.port else q.idKey }
  if c.enable = 0 ∧ q.st ≠ .down then { q with st := .down, downAt := now, retryAt := none, lctl := [], resend := 0 } else q

/-- Its values are stored, a port that is disabled is Down, one that is enabled in service has its identity key; the held flits and the
associations stay. -/
theorem configured_fields (key : Option Nat) (now : Nat) (c : PortParams) (q : Port) :
    (configured key now c q).par = c ∧ (configured key now c q).st = (if c.enable = 0 then .down else q.st)
      ∧ (configured key now c q).held = q.held ∧ (configured key now c q).assocs = q.assocs
      ∧ (configured key now c q).idKey = (if c.enable = 1 ∧ q.inSvc = true then key.map fun k => portIdKey k c.port else q.idKey) := by
  by_cases h : c.enable = 0 ∧ q.st ≠ .down
  · rw [configured, if_pos h]
    exact ⟨rfl, (if_pos h.1).symm, rfl, rfl, rfl⟩
  · rw [configured, if_neg h]
    refine ⟨rfl, ?_, rfl, rfl, rfl⟩
    by_cases he : c.enable = 0
    · have hst : q.st = .down := by simpa [he] using h
      rw [if_pos he]
      exact hst
    · rw [if_neg he]

theorem portConfig_stores {c : PortParams} (h : Ready r 0x70 0 s f) (he : c.enable ≤ 1) (hc : c.certEpochMin < 2 ^ 32) (hr : portRanges c = true)
    (ht : aidTaken c s = false) :
    exec (.portConfig r c) s = .next (ok r [] (modPort c.port (configured s.pen.aliasKey s.now c) (latched r 0 s))) := by
  rw [exec_portConfig]
  exact cmd_acts h (by simp [hr, ht]; omega)

theorem portConfig_denied {c : PortParams} (h : Ready r 0x70 0 s f) (he : c.enable ≤ 1) (hc : c.certEpochMin < 2 ^ 32)
    (hr : portRanges c = false) : Refuses (.portConfig r c) r 0x70 stDENIED 3 s := by
  have hcodes : (decide (2 ≤ c.enable) || decide (2 ^ 32 ≤ c.certEpochMin)) = false := by simp; omega
  exact cmd_refused (c := chkDeny true) (exec_portConfig ..) h (by simp only [firstBad, chkResv_bad, hcodes, chkDeny_bad, hr]; rfl) (by decide)

/-! ### AID_ALLOW and AID_DETACH (R308, R313) -/

theorem aidAllow_notes {p aid sid : Nat} (h : Ready r 0x71 0 s f) (hlc : s.pen.otp.lc = 2) (hp : p < 16) (ha : aid < 2048) (h0 : sid ≠ 0)
    (hs : sid < 4095) (hact : sagState sid s = .active) (hn : assocOf p aid s = none)
    (ho : onOther p aid (fun a => a.adm == .admitted && a.sid != sid) s = 0) (hal : onOther p aid (fun a => a.allow.isSome) s < 2) :
    exec (.aidAllow r p aid sid) s = .next (ok r [] (setAssoc p aid (freshAssoc (some sid)) (latched r 0 s))) := by
  have hn' : assocOf p aid (latched r 0 s) = none := hn
  rw [exec_aidAllow]
  refine (cmd_acts h ?_).trans ?_
  · simp [hlc, hp, ha, h0, hact, hn, ho, hal]; omega
  · simp only [if_neg (Nat.ne_of_lt hs), hn']; rfl

theorem aidAllow_denied {p aid sid : Nat} (h : Ready r 0x71 0 s f) (hlc : s.pen.otp.lc ≠ 2) : Refuses (.aidAllow r p aid sid) r 0x71 stDENIED 3 s := by
  have hb : (s.pen.otp.lc != 2) = true := bne_iff_ne.2 hlc
  exact cmd_refused (c := chkDeny true) (exec_aidAllow ..) h (by simp only [firstBad, chkDeny_bad, hb, Bool.true_or, if_true]) (by decide)

/-- An admission that has ended leaves the AID a stranger with what it is allowed. -/
theorem assocOf_endAdmission (p aid : Nat) (s : State) :
    assocOf p aid (endAdmission p aid s) = (assocOf p aid s).map fun a => freshAssoc a.allow :=
  assocOf_modAssoc p aid (fun a => freshAssoc a.allow) s

theorem endAdmission_only (p aid : Nat) (s : State) : Only [.ports, .outst] s (endAdmission p aid s) := by
  intro c hc
  cases c <;> simp_all [Comp.same, endAdmission, modAssoc]

theorem aidDetach_ends {p aid : Nat} (h : Ready r 0x75 0 s f) (hp : p < 16) (ha : aid < 2048) :
    exec (.aidDetach r p aid) s = .next (ok r [] (endAdmission p aid (latched r 0 s))) := by
  rw [exec_aidDetach]
  exact cmd_acts h (by simp [hp, ha])

/-! ### PORT_RESET (R288, R289; log 40) -/

theorem portReset_trains {p mode : Nat} {q : Port} (h : Ready r 0x72 0 s f) (hp : p < 16) (hm : mode ≤ 1) (hq : portOf p s = some q)
    (hi : q.inSvc = true) (he : q.par.enable = 1) : exec (.portReset r p mode) s = .next (ok r [] (toTraining false p
      (modPort p (fun q => { q with fresh := q.fresh || mode == 1 }) (latched r 0 s)))) := by
  have hon : ((portOf p (latched r 0 s)).map portOn).getD false = true := by simp [hq, portOn, hi, he]
  have hfresh : (if mode = 1 then modPort p (fun q => { q with fresh := true }) (latched r 0 s) else latched r 0 s)
      = modPort p (fun q => { q with fresh := q.fresh || mode == 1 }) (latched r 0 s) := by
    obtain rfl | rfl : mode = 0 ∨ mode = 1 := by omega
    · exact (modPort_self (fun q => by simp) _ _).symm
    · simp
  rw [exec_portReset]
  refine (cmd_acts h (by simp [hp]; omega)).trans ?_
  simp only [if_pos hon, hfresh]

/-! ### SA_REKEY and PORT_READ (R309; 10 R369) -/

theorem saRekey_starts {p aid : Nat} (h : Ready r 0x73 0 s f) (ha : admitted p aid s = true) :
    exec (.saRekey r p aid) s = .next (ok r [] (startRekey p aid (latched r 0 s))) := by
  rw [exec_saRekey]
  exact cmd_acts h (by simp [ha])

theorem saRekey_denied {p aid : Nat} (h : Ready r 0x73 0 s f) (ha : admitted p aid s = false) : Refuses (.saRekey r p aid) r 0x73 stDENIED 3 s :=
  cmd_refused (c := chkDeny true) (exec_saRekey ..) h (by simp [firstBad, ha]) (by decide)

theorem portRead_admitted {p aid : Nat} {a : Assoc} (h : Ready r 0x74 0 s f) (hp : p < 16) (ha : aid < 2048) (hx : assocOf p aid s = some a)
    (had : a.adm = .admitted) : exec (.portRead r p aid) s
      = .next (ok r ([2, a.sid, a.gen, 0] ++ w64 a.txIvc ++ w64 (a.rx.next - 1)) (latched r 0 s)) := by
  have hx' : assocOf p aid (latched r 0 s) = some a := hx
  rw [exec_portRead]
  refine (cmd_acts h (by simp [hp, ha])).trans ?_
  simp only [hx', Option.getD_some, had, if_true]

end

/-- Settles O46: each command that passes its checks acts on its port alone; an AID out of range fails `portRanges`. -/
theorem portCommands : Obligations.PortCommands := by
  refine fun s r f => ⟨?_, ?_, ?_, fun p aid sid => aidAllow_denied, ?_, fun p aid => saRekey_starts, fun p aid => saRekey_denied,
    fun p aid a => portRead_admitted, ?_⟩
  · intro c q h hq hport he haid hc1 hc2 hr1 hr2 hl1 hl2 hs1 hs2 hcert ht
    have hranges : portRanges c = true := by simp [portRanges, hport, haid, hc1, hc2, hr1, hr2, hl1, hl2, hs1, hs2]
    obtain ⟨hpar, hst, hheld, hassocs, hkey⟩ := configured_fields s.pen.aliasKey s.now c q
    refine ⟨_, _, portConfig_stores h he hcert hranges ht, ok_only (by decide) (by decide) ((Only.rfl' _ _).modPort (by decide) _ _),
      inflightOf_finish .., by simp [hq], hpar, hst, hheld, hassocs, hkey, fun p hp => ?_⟩
    rw [portOf_ok, portOf_modPort_ne hp, portOf_latched]
  · intro c h _ he hcert haid
    exact portConfig_denied h he hcert (by simp [portRanges, Nat.not_le.2 haid])
  · intro p aid sid h hlc hp ha h0 hs hact hn ho hal
    exact aidAllow_notes h hlc hp ha h0 hs hact hn ho hal
  · intro p mode q h hp hm hq hi he
    refine ⟨_, _, portReset_trains h hp hm hq hi he, ok_only (by decide) (by decide)
      (((Only.rfl' _ _).modPort (by decide) _ _).modPort (by decide) _ _), (portOf_ok ..).trans (portOf_toTraining (portOf_modPort_of hq _) _), rfl, rfl, rfl, rfl, rfl, inflightOf_finish ..⟩
  · intro p aid h hp ha
    have hx : assocOf p aid (ok r [] (endAdmission p aid (latched r 0 s))) = (assocOf p aid s).map fun a => freshAssoc a.allow := by
      have := assocOf_endAdmission p aid (latched r 0 s)
      simpa only [assocOf, portOf_ok, portOf_latched] using this
    refine ⟨_, aidDetach_ends h hp ha, ok_only (by decide) (by decide) ((endAdmission_only p aid _).mono (by decide)), ?_, ?_, inflightOf_finish ..⟩
    · rw [admitted, hx]
      cases assocOf p aid s <;> rfl
    · rw [hx]
      cases assocOf p aid s <;> rfl

end Sys2Proof.Machine
end

section
/-! PROOFS. Link states, lanes and replay of a port in service (O47; 08 R276 to R290, R396). -/

namespace Sys2Proof.Machine

section
variable (s : State) (p lane codeword cause n rxAck : Nat) (flag : Bool) (credits : List Nat)

theorem exec_signalDetect : exec (.signalDetect p) s = execSignalDetect p s := rfl
theorem exec_trained : exec (.trained p flag) s = execTrained p flag s := rfl
theorem exec_trainingTimeout : exec (.trainingTimeout p) s = execTrainingTimeout p s := rfl
theorem exec_trainingRetry : exec (.trainingRetry p) s = execTrainingRetry p s := rfl
theorem exec_resume : exec (.resume p flag n rxAck credits) s = execResume p flag n rxAck credits s := rfl
theorem exec_lockLost : exec (.lockLost p) s = execLockLost p s := rfl
theorem exec_retrain : exec (.retrain p) s = execRetrain p s := rfl
theorem exec_laneFail : exec (.laneFail p lane codeword) s = execLaneFail p lane codeword s := rfl
theorem exec_laneSwap : exec (.laneSwap p lane codeword) s = execLaneSwap p lane codeword s := rfl
theorem exec_laneSwapAck : exec (.laneSwapAck p lane codeword) s = execLaneSwapAck p lane codeword s := rfl
theorem exec_lctlResend : exec (.lctlResend p) s = execLctlResend p s := rfl
theorem exec_replayTimeout : exec (.replayTimeout p) s = execReplayTimeout p s := rfl
theorem exec_portLost : exec (.portLost p cause) s = execPortLost p cause s := rfl

end

/-! ### Helpers of the link -/

@[simp] theorem portOf_sendRetrain (p k : Nat) (s : State) : portOf k (sendRetrain p s) = portOf k s := by
  unfold sendRetrain
  split <;> rfl

/-- A record may be counted for a frozen region; the time stays (13 R442). -/
@[simp] theorem emit_now (kind sid region unit : Nat) (body : List Nat) (s : State) : (emit kind sid region unit body s).now = s.now := by
  simp only [State.now, emit_tal, countStamped]
  split <;> rfl

/-- A port's grants are all that one step of bringing them up changes (R294). -/
theorem grantOne_grants (held : Nat → Nat) (q : Port) (i : Nat) : ∃ g, grantOne held q i = { q with grantedRx := g } := by
  unfold grantOne
  rcases poolShape i with ⟨low, step, shared⟩
  dsimp only
  split <;> exact ⟨_, rfl⟩

theorem foldl_grantOne_grants (held : Nat → Nat) (l : List Nat) (q : Port) : ∃ g, l.foldl (grantOne held) q = { q with grantedRx := g } := by
  induction l generalizing q with
  | nil => exact ⟨q.grantedRx, rfl⟩
  | cons i l ih =>
    obtain ⟨g, hg⟩ := grantOne_grants held q i
    obtain ⟨g', hg'⟩ := ih { q with grantedRx := g }
    exact ⟨g', by rw [List.foldl_cons, hg, hg']⟩

/-- Bringing up the grants of a port changes nothing else of it. -/
theorem portOf_regrant {p : Nat} {s : State} {q : Port} (hq : portOf p s = some q) : ∃ g, portOf p (regrant p s) = some { q with grantedRx := g } := by
  obtain ⟨g, hg⟩ := foldl_grantOne_grants (fun i => poolHeld p i q s) (List.range 14) q
  exact ⟨g, by rw [regrant, portOf_modPort_same, hq, Option.map_some, hg]⟩

theorem regrant_only (p : Nat) (s : State) : Only [.ports] s (regrant p s) := modPort_only p _ s

theorem takeAck_held_congr {a : Nat} {q k : Port} (hh : k.held = q.held) (ha : k.lastAck = q.lastAck) : (takeAck a k).held = (takeAck a q).held := by
  simp only [takeAck, hh, ha]
  split
  exacts [hh, rfl]

/-- An ACK that says what the last one said frees nothing (R285). -/
theorem takeAck_same (q : Port) : takeAck q.lastAck q = q := by
  simp [takeAck]

/-- An ACK that goes on by `n` frees the `n` oldest held flits. -/
theorem takeAck_held {q : Port} {n : Nat} (h0 : 0 < n) (hn : n ≤ q.held.length) (h1 : n < 4096) (h2 : q.lastAck < 4096) :
    (takeAck ((q.lastAck + n) % 4096) q).held = q.held.drop n := by
  have : ((q.lastAck + n) % 4096 + 4096 - q.lastAck) % 4096 = n := by omega
  rw [takeAck, this, if_neg (by omega)]

/-- A port whose attempt has succeeded: it sends a RESUME, and after a full training, or at half width, its lanes start anew. -/
def trainedPort (narrow : Bool) (q : Port) : Port :=
  let keep := q.fast && !narrow
  { q with st := .resuming, narrow := narrow, trainNo := (q.trainNo + 1) % 256, codewords := 0, swapped := if keep then q.swapped else 15
           txSwap := if keep then q.txSwap else none, failedLanes := if keep then q.failedLanes else [], lctl := [⟨1, 0, 0, none⟩] }

/-- An operation whose answer has not come in 1,000 ticks is to be sent again. -/
def resent (now : Nat) (c : Lctl) : Lctl := if ∃ x, c.sent = some x ∧ x + 1000 ≤ now then { c with sent := none } else c

section
variable {s : State} {p : Nat} {q : Port} (hp : s.powered = true) (hq : portOf p s = some q) (hi : q.inSvc = true)

/-! ### Events of a port in service -/

section
variable {able : Port → Bool} {f : Port → State → State}

include hq in
theorem onPort_ignores (h : able q = false) : onPort p able f s = .next s := by simp [onPort, act, hq, h]

include hp hq hi in
theorem onPort_acts (h : able q = true) : onPort p able f s = .next (f q s) := by simp [onPort, act, hp, hq, hi, h]

end

/-! ### Training (R288, R290) -/

include hp hq hi

theorem signalDetect_trains (he : q.par.enable = 1) (hst : q.st = .down) : exec (.signalDetect p) s = .next (toTraining false p s) := by
  rw [exec_signalDetect]
  exact onPort_acts hp hq hi (by simp [portOn, hi, he, hst])

omit hp hi in
theorem signalDetect_disabled (he : q.par.enable = 0) : exec (.signalDetect p) s = .next s := by
  rw [exec_signalDetect]
  exact onPort_ignores hq (by simp [portOn, he])

theorem retrain_trains (hst : q.st = .up) : exec (.retrain p) s = .next (toTraining true p s) := by
  rw [exec_retrain]
  exact onPort_acts hp hq hi (by simp [hst])

/-- How many codewords could not be corrected is drawn, and counted, before the training. -/
theorem lockLost_trains (hst : q.st = .up) : exec (.lockLost p) s = .next (toTraining true p
    (modPortCtr p (fun c => { c with fecUncorr := add32 c.fecUncorr (draw s).1 }) (draw s).2)) := by
  rw [exec_lockLost]
  exact onPort_acts hp hq hi (by simp [hst])

theorem trained_resumes (narrow : Bool) (hst : q.st = .training) (hr : q.retryAt = none) (ht : s.now ≤ q.trainAt + trainBound q.fast) :
    exec (.trained p narrow) s = .next (modPort p (trainedPort narrow) s) := by
  rw [exec_trained, execTrained, act]
  simp only [hq, hp, hi, hst, hr, ht, beq_self_eq_true, Option.isNone_none, decide_true, Bool.and_self, if_true]
  exact congrArg _ (modPort_congr hq rfl)

theorem trainingTimeout_fails (hst : q.st = .training) (hr : q.retryAt = none) (ht : q.trainAt + trainBound q.fast < s.now) :
    exec (.trainingTimeout p) s = .next (modPort p
      (fun q => { q with attempts := q.attempts + 1, wasUp := false, retryAt := some (s.now + 10000000) })
      (if q.wasUp then emit 0x11 4095 2 p [q.attempts + 1, q.held.length] s else s)) := by
  rw [exec_trainingTimeout, execTrainingTimeout, act]
  simp only [hq, hp, hi, hst, hr, ht, beq_self_eq_true, Option.isNone_none, decide_true, Bool.and_self, if_true]
  cases q.wasUp <;> simp

theorem trainingRetry_trains {t : Nat} (hst : q.st = .training) (hr : q.retryAt = some t) (ht : t ≤ s.now) : exec (.trainingRetry p) s =
    .next (modPort p (fun q => { q with fast := false, trainAt := s.now, retryAt := none }) s) := by
  simp [exec_trainingRetry, execTrainingRetry, act, hp, hq, hi, hst, hr, ht]

/-! ### RESUME (R288, R289) -/

/-- A fresh RESUME brings the port up with both directions anew. -/
theorem resume_fresh (rxAck : Nat) (credits : List Nat) (hst : q.st = .resuming) : ∃ t h, exec (.resume p true q.trainNo rxAck credits) s = .next t
    ∧ portOf p t = some h ∧ h.st = .up ∧ h.held = [] ∧ h.txSeq = 0 ∧ h.rxE = 0 ∧ h.lastAck = 4095 ∧ h.fresh = false
    ∧ h.ctr.freshDiscard = add32 q.ctr.freshDiscard q.held.length ∧ h.assocs = q.assocs ∧ h.txq = q.txq := by
  rw [exec_resume, execResume, onPort_acts hp hq hi (by simp [hst])]
  simp only [Bool.true_or, if_true]
  obtain ⟨g, hg⟩ := portOf_regrant (portOf_modPort_of hq _)
  exact ⟨_, _, rfl, (portOf_emit ..).trans hg, rfl, rfl, rfl, rfl, rfl, rfl, rfl, rfl, rfl⟩

/-- A RESUME that acknowledges nothing new brings the port up and has it send again all it holds. -/
theorem resume_replays (credits : List Nat) (hst : q.st = .resuming) (hf : q.fresh = false) : ∃ t h,
    exec (.resume p false q.trainNo q.lastAck credits) s = .next t ∧ portOf p t = some h
    ∧ h.st = .up ∧ h.held = q.held ∧ h.resend = q.held.length ∧ h.txSeq = q.txSeq ∧ h.rxE = q.rxE := by
  rw [exec_resume, execResume, onPort_acts hp hq hi (by simp [hst])]
  simp only [hf, Bool.or_self, Bool.false_eq_true, if_false, takeAck_same]
  obtain ⟨g, hg⟩ := portOf_regrant (portOf_modPort_of hq _)
  exact ⟨_, _, rfl, (portOf_emit ..).trans hg, rfl, rfl, rfl, rfl, rfl⟩

omit hp hi in
theorem resume_otherTrainNo {n : Nat} (fresh : Bool) (rxAck : Nat) (credits : List Nat) (hn : n ≠ q.trainNo) :
    exec (.resume p fresh n rxAck credits) s = .next s := by
  rw [exec_resume]
  exact onPort_ignores hq (by simp [Ne.symm hn])

/-! ### Lanes (R278) -/

/-- While lane 8 is free, the first data lane that fails is to move there. -/
theorem laneFail_swaps {lane : Nat} (codeword : Nat) (hst : q.st = .up) (hl : lane < 8) (hn : lane ∉ q.failedLanes) (hf : spareFree q = true) :
    exec (.laneFail p lane codeword) s = .next
      (modPort p (fun q => { q with lctl := q.lctl ++ [⟨2, lane, (codeword + 1024) % 2 ^ 32, none⟩] })
        (modPort p (fun q => { q with failedLanes := q.failedLanes ++ [lane], codewords := codeword % 2 ^ 32 }) s)) := by
  rw [exec_laneFail, execLaneFail, onPort_acts hp hq hi (by simp [hst, hn]; omega)]
  simp only [hl, hf, and_self, if_true]

/-- Once lane 8 is taken, another data lane that fails has the port trained again. -/
theorem laneFail_trains {lane : Nat} (codeword : Nat) (hst : q.st = .up) (hl : lane < 8) (hn : lane ∉ q.failedLanes) (hf : spareFree q = false) :
    exec (.laneFail p lane codeword) s = .next (toTraining true p (sendRetrain p
      (modPort p (fun q => { q with failedLanes := q.failedLanes ++ [lane], codewords := codeword % 2 ^ 32 }) s))) := by
  rw [exec_laneFail, execLaneFail, onPort_acts hp hq hi (by simp [hst, hn]; omega)]
  simp only [hf, Bool.false_eq_true, and_false, if_false, Nat.ne_of_lt hl, false_and]

theorem laneSwap_acknowledges {lane : Nat} (codeword : Nat) (hst : q.st = .up) (hl : lane < 8) (hn : q.txSwap = none) :
    exec (.laneSwap p lane codeword) s = .next (emit 0x13 4095 2 p [lane, codeword]
      (modPort p (fun q => { q with txSwap := some (lane, codeword), lctl := q.lctl ++ [⟨3, lane, codeword, none⟩] }) s)) := by
  rw [exec_laneSwap, execLaneSwap, onPort_acts hp hq hi (by simp [hst, hl, hn])]
  simp only [hn, Option.isNone_none, if_true]

/-- The LANE_SWAP that is acknowledged waits no more, and its lane is received on lane 8. -/
theorem laneSwapAck_swaps {lane codeword : Nat} (hst : q.st = .up) (hc : ∃ c ∈ q.lctl, c.op = 2 ∧ c.lane = lane ∧ c.codeword = codeword) :
    exec (.laneSwapAck p lane codeword) s = .next (emit 0x13 4095 2 p [lane, codeword] (modPort p (fun q => { q with
      swapped := lane, lctl := q.lctl.filter fun c => !(c.op == 2 && c.lane == lane && c.codeword == codeword) }) s)) := by
  rw [exec_laneSwapAck]
  exact onPort_acts hp hq hi (by simpa [hst, and_assoc] using hc)

/-! ### Link control and replay (R282, R286) -/

theorem lctlResend_due (hst : q.st = .up) :
    exec (.lctlResend p) s = .next (modPort p (fun q => { q with lctl := q.lctl.map (resent s.now) }) s) := by
  rw [exec_lctlResend, execLctlResend, act]
  simp only [hq, hp, hi, hst, beq_self_eq_true, Bool.true_or, Bool.and_self, if_true]
  refine congrArg _ (modPort_congr hq (congrArg (fun l => { q with lctl := l }) (List.map_congr_left fun c _ => ?_)))
  obtain ⟨op, lane, codeword, _ | t⟩ := c <;> simp [resent]

theorem replayTimeout_replays {h0 : HeldFlit} {rest : List HeldFlit} (hst : q.st = .up) (hh : q.held = h0 :: rest) (hr : q.resend = 0)
    (ht : h0.sentAt + q.par.replayTimeout ≤ s.now) : exec (.replayTimeout p) s = .next (startReplay p s) := by
  simp [exec_replayTimeout, execReplayTimeout, act, hp, hq, hi, hst, hh, hr, ht]

theorem portLost_loses {cause : Nat} (h1 : 1 ≤ cause) (h4 : cause ≤ 4) : exec (.portLost p cause) s = .next (losePort p cause s) := by
  rw [exec_portLost]
  exact onPort_acts hp hq hi (by simp [h1, h4])

omit hp hi in
/-- The eighth replay without a new ACK ends in Training. -/
theorem startReplay_of : startReplay p s =
    let t := modPort p (fun q => { q with
      resend := q.held.length, replaysNoAck := q.replaysNoAck + 1, ctr := { q.ctr with replays := add32 q.ctr.replays 1 } }) s
    if 8 ≤ q.replaysNoAck + 1 then toTraining true p (sendRetrain p t) else t := by
  simp [startReplay, hq]

end

/-- Settles O47: in the state of the port in which it can come each event does what its lemma says. -/
theorem linkTraining : Obligations.LinkTraining := by
  intro s p q hp hq hi
  refine ⟨signalDetect_trains hp hq hi, signalDetect_disabled hq, retrain_trains hp hq hi, fun fast => ⟨_, portOf_toTraining hq fast, ?_⟩,
    fun hst => ?_, fun narrow hst hr ht => ?_, fun hst hr ht => ?_, fun t0 hst hr ht => trainingRetry_trains hp hq hi hst hr ht,
    fun rxAck credits => resume_fresh hp hq hi rxAck credits, fun n rxAck credits _ hn => resume_otherTrainNo hq true rxAck credits hn,
    fun credits => resume_replays hp hq hi credits, fun lane cw hst hl hf hsw hc => ?_, fun lane cw hst hl hn hsw => ?_,
    fun lane cw hst hl hn => ?_, fun lane cw hst hc => ?_, fun hst => ?_, fun h0 rest hst hh hr ht hn => ?_, fun h0 rest hst hh hr ht hn => ?_,
    fun cause => portLost_loses hp hq hi⟩
  · exact ⟨rfl, rfl, rfl, rfl, rfl, rfl, rfl, rfl, rfl⟩
  · have hd : Only [.ports, .free] s (draw s).2 := fun c hc => by cases c <;> simp_all [Comp.same, draw]
    refine ⟨_, _, lockLost_trains hp hq hi hst, (hd.modPort (by decide) _ _).modPort (by decide) _ _,
      portOf_toTraining (portOf_modPort_of hq _) _, rfl, rfl, rfl⟩
  · refine ⟨_, _, trained_resumes hp hq hi narrow hst hr ht, modPort_only _ _ _, portOf_modPort_of hq _, rfl, rfl, rfl, rfl, rfl,
      fun hf => ?_⟩
    simp [trainedPort, hf]
  · refine ⟨_, { q with attempts := q.attempts + 1, wasUp := false, retryAt := some (s.now + 10000000) }, trainingTimeout_fails hp hq hi hst hr ht, ?_,
      hst, rfl, rfl, rfl, fun hw => by simp [hw]⟩
    cases q.wasUp <;> simp [hq]
  · have hfree : spareFree q = true := by simpa [spareFree, hsw, hf] using hc
    refine ⟨_, _, laneFail_swaps hp hq hi cw hst hl (by simp [hf]) hfree, (modPort_only _ _ _).modPort (by decide) _ _,
      portOf_modPort_of (portOf_modPort_of hq _) _, hst, by simp [hf], rfl⟩
  · have hfree : spareFree q = false := by simp [spareFree, hsw]
    refine ⟨_, _, laneFail_trains hp hq hi cw hst hl hn hfree,
      portOf_toTraining ((portOf_sendRetrain ..).trans (portOf_modPort_of hq _)) _, rfl, rfl, rfl⟩
  · exact ⟨_, _, laneSwap_acknowledges hp hq hi cw hst hl hn, (portOf_emit ..).trans (portOf_modPort_of hq _), rfl, rfl, hst⟩
  · refine ⟨_, _, laneSwapAck_swaps hp hq hi hst hc, (portOf_emit ..).trans (portOf_modPort_of hq _), rfl, fun c hc => ?_⟩
    simpa [imp_iff_not_or, or_assoc] using (List.mem_filter.1 hc).2
  · refine ⟨_, _, lctlResend_due hp hq hi hst, modPort_only _ _ _, portOf_modPort_of hq _, List.length_map _, fun i c d hc hd => ?_⟩
    obtain rfl : resent s.now c = d := by simpa [hc] using hd
    unfold resent
    split <;> exact ⟨rfl, rfl, rfl, rfl⟩
  · rw [replayTimeout_replays hp hq hi hst hh hr ht, startReplay_of hq, if_neg (by omega)]
  · rw [replayTimeout_replays hp hq hi hst hh hr ht, startReplay_of hq, if_pos (by omega)]
    exact ⟨_, _, rfl, portOf_toTraining ((portOf_sendRetrain ..).trans (portOf_modPort_of hq _)) _, rfl, rfl⟩

end Sys2Proof.Machine
end

section
/-! PROOFS. Flits received and sent (O48; 08 R277 to R298, 09 R323 to R337). -/

namespace Sys2Proof.Machine

theorem exec_flitReceive (p : Nat) (f : RxFlit) (s : State) : exec (.flitReceive p f) s = execFlitReceive p f s := rfl
theorem exec_flitSend (p : Nat) (s : State) : exec (.flitSend p) s = execFlitSend p s := rfl

/-! ### Received (R277, R281, R284, R285) -/

@[simp] theorem takeAck_rxE (a : Nat) (q : Port) : (takeAck a q).rxE = q.rxE := by
  simp only [takeAck]
  split <;> rfl

@[simp] theorem takeAck_nakSent (a : Nat) (q : Port) : (takeAck a q).nakSent = q.nakSent := by
  simp only [takeAck]
  split <;> rfl

/-- A frame of both branches is a frame of the choice. -/
theorem Only.ite {cs : List Comp} {s t u : State} {c : Prop} [Decidable c] (ht : Only cs s t) (hu : Only cs s u) :
    Only cs s (if c then t else u) := by
  split
  exacts [ht, hu]

theorem draw_only (s : State) : Only [.free] s (draw s).2 := by
  intro c hc
  cases c <;> simp_all [Comp.same, draw]

/-- What a good flit without NAK leaves before its SEQ is looked at: what the FEC corrected is drawn (log 13), its ACK taken, and its credit. -/
def ackTaken (p : Nat) (f : RxFlit) (s : State) : State :=
  let t := modPort p (takeAck f.ack) (modPortCtr p (fun c => { c with fecCorr := add32 c.fecCorr (draw s).1 }) (draw s).2)
  if f.cv ∧ f.cvc < 7 then modPort p (fun q => { q with grantedTx := q.grantedTx.set (crIdx f.cvc (f.ck % 2)) (f.ccount % 2 ^ 32) }) t else t

section
variable {s : State} {p : Nat} {q : Port} (hp : s.powered = true) (hq : portOf p s = some q) (hi : q.inSvc = true) (hst : q.st = .up)
include hp hq hi hst

/-- A flit with a bad CRC or of another training is counted and asks for a NAK; what the FEC corrected is drawn (log 13). -/
theorem flitReceive_bad {f : RxFlit} (hf : f.crcOk = false ∨ f.trainNo ≠ q.trainNo) : exec (.flitReceive p f) s = .next
    (modPort p (fun k => { k with nakSent := true, ctr := { k.ctr with crcFail := add32 k.ctr.crcFail 1 } })
      (modPortCtr p (fun c => { c with fecCorr := add32 c.fecCorr (draw s).1 }) (draw s).2)) := by
  rw [exec_flitReceive, execFlitReceive, onPort_acts hp hq hi (by simp [hst])]
  have hbad : f.crcOk = false ∨ f.fmt ≠ 1 ∨ f.ftype = 0 ∨ 3 < f.ftype ∨ f.trainNo ≠ q.trainNo := by tauto
  simp only [if_pos hbad]

omit hi hst hp in
/-- Beyond that the port stands as it did. -/
theorem ackTaken_leaves (f : RxFlit) : Only [.ports, .free] s (ackTaken p f s) ∧ ∃ k, portOf p (ackTaken p f s) = some k ∧ k.rxE = q.rxE
    ∧ k.nakSent = q.nakSent ∧ k.held = (takeAck f.ack q).held := by
  unfold ackTaken
  extract_lets t
  have ht : Only [.ports, .free] s t := ((draw_only s).mono (by decide)).modPort (by decide) _ _ |>.modPort (by decide) _ _
  have hk : portOf p t = some (takeAck f.ack { q with ctr := { q.ctr with fecCorr := add32 q.ctr.fecCorr (draw s).1 } }) :=
    portOf_modPort_of (portOf_modPort_of (s := (draw s).2) hq _) _
  split
  · exact ⟨ht.modPort (by decide) _ _, _, portOf_modPort_of hk _, takeAck_rxE .., takeAck_nakSent .., takeAck_held_congr rfl rfl⟩
  · exact ⟨ht, _, hk, takeAck_rxE .., takeAck_nakSent .., takeAck_held_congr rfl rfl⟩

/-- Then the SEQ of a SEQ flit is compared with the expected one. -/
theorem flitReceive_seq {f : RxFlit} (hc : f.crcOk = true) (hfmt : f.fmt = 1) (ht : f.ftype = 1) (hn : f.trainNo = q.trainNo) (hnak : f.nak = false)
    (hm : f.msgs = []) : exec (.flitReceive p f) s = .next (
      if (f.seq + 4096 - q.rxE) % 4096 = 0 then
        regrant p (modPort p (fun k => { k with rxE := (k.rxE + 1) % 4096, nakSent := false }) (ackTaken p f s))
      else if (f.seq + 4096 - q.rxE) % 4096 < 2048 then modPort p (fun k => { k with nakSent := true }) (ackTaken p f s)
      else ackTaken p f s) := by
  rw [exec_flitReceive, execFlitReceive, onPort_acts hp hq hi (by simp [hst])]
  simp [hc, hfmt, ht, hn, hnak, hm, ackTaken]

end

/-! ### Sent (R279, R280, R283, R293) -/

/-- The flit that a port sends: it carries the port's ACK, its NAK and the credit that is due. -/
def flitOf (p ftype seq cont : Nat) (msgs : List OutMsg) (ctl : Option (Lctl × Bool × Nat × List Nat)) (q : Port) : TxFlit :=
  ⟨p, ftype, seq, (q.rxE + 4095) % 4096, q.nakSent, creditNext q / 2, creditNext q % 2, q.grantedRx.getD (creditNext q) 0, q.trainNo, cont, msgs, ctl⟩

/-- The port after a flit. -/
def flitSent (ftype : Nat) (q : Port) : Port :=
  { q with flits := q.flits + 1, crAt := q.crAt.set (creditNext q) (q.flits + 1)
           crSent := q.crSent.set (creditNext q) (q.grantedRx.getD (creditNext q) 0), sinceIdle := if ftype = 2 then 0 else q.sinceIdle + 1 }

section
variable {s : State} {p : Nat} {q : Port} (hq : portOf p s = some q) (ftype seq cont : Nat) (msgs : List OutMsg)
  (ctl : Option (Lctl × Bool × Nat × List Nat))
include hq

theorem putFlit_of : putFlit p ftype seq cont msgs ctl s =
    modPort p (flitSent ftype) { s with fabOut := s.fabOut ++ [flitOf p ftype seq cont msgs ctl q] } := by
  simp only [putFlit, hq]
  exact modPort_congr (s := { s with fabOut := _ }) hq rfl

/-- A flit goes out, and nothing but its port notes it. -/
theorem putFlit_sends : Only [.ports, .outs] s (putFlit p ftype seq cont msgs ctl s)
    ∧ (putFlit p ftype seq cont msgs ctl s).fabOut = s.fabOut ++ [flitOf p ftype seq cont msgs ctl q]
    ∧ portOf p (putFlit p ftype seq cont msgs ctl s) = some (flitSent ftype q) := by
  rw [putFlit_of hq]
  refine ⟨?_, rfl, portOf_modPort_of (s := { s with fabOut := _ }) hq _⟩
  intro c hc
  cases c <;> simp_all [Comp.same]

theorem sendLctl_of (c : Lctl) : ∃ (ctl : Lctl × Bool × Nat × List Nat) (g : Port → Port), ctl.1.op = c.op
    ∧ sendLctl p c s = modPort p g (putFlit p 3 0 0 [] (some ctl) s) := by
  simp only [sendLctl, hq]
  exact ⟨_, _, rfl, rfl⟩

end

/-- A flit with messages takes the next SEQ and is held. -/
def seqFlit (now : Nat) (msgs : List OutMsg) (q : Port) : Port :=
  { q with txSeq := (q.txSeq + 1) % 4096, held := q.held ++ [⟨q.txSeq, now, 0, msgs⟩] }

theorem lctl_sent {q : Port} (hl : ∀ c ∈ q.lctl, c.sent.isSome = true) : q.lctl.find? (·.sent.isNone) = none :=
  List.find?_eq_none.2 fun c hc => by simp [Option.isSome_iff_ne_none.1 (hl c hc)]

section
variable {s : State} {p : Nat} {q : Port} (hp : s.powered = true) (hq : portOf p s = some q) (hi : q.inSvc = true) (hst : q.st = .up)
include hp hq hi hst

theorem flitSend_idleDue (hs : 4095 ≤ q.sinceIdle) : exec (.flitSend p) s = .next (putFlit p 2 0 0 [] none s) := by
  rw [exec_flitSend, execFlitSend, onPort_acts hp hq hi (by simp [hst]), if_pos hs]

variable (hs : q.sinceIdle < 4095)
include hs

theorem flitSend_control {c : Lctl} (hc : q.lctl.find? (·.sent.isNone) = some c) : exec (.flitSend p) s = .next (sendLctl p c s) := by
  rw [exec_flitSend, execFlitSend, onPort_acts hp hq hi (by simp [hst]), if_neg (by omega)]
  simp only [hc]

variable (hl : ∀ c ∈ q.lctl, c.sent.isSome = true)
include hl

theorem flitSend_replays {h : HeldFlit} (hr : q.resend ≠ 0) (hh : q.held[q.held.length - q.resend]? = some h) : exec (.flitSend p) s =
    .next (putFlit p 1 h.seq h.cont h.msgs none (modPort p (fun k => { k with
      resend := k.resend - 1, held := k.held.modify (q.held.length - q.resend) fun h => { h with sentAt := s.now } }) s)) := by
  rw [exec_flitSend, execFlitSend, onPort_acts hp hq hi (by simp [hst]), if_neg (by omega)]
  simp only [lctl_sent hl, hst, ne_eq, not_true_eq_false, if_false, hr, not_false_eq_true, if_true, hh]

theorem flitSend_full (hr : q.resend = 0) (hh : 1024 ≤ q.held.length) : exec (.flitSend p) s = .next (putFlit p 2 0 0 [] none s) := by
  rw [exec_flitSend, execFlitSend, onPort_acts hp hq hi (by simp [hst]), if_neg (by omega)]
  simp only [lctl_sent hl, hst, ne_eq, not_true_eq_false, if_false, hr, hh, if_true]

/-- With nothing under way a port packs what may start now; an IDLE goes out when that is nothing. -/
theorem flitSend_packs {msgs : List OutMsg} {u : State} (hr : q.resend = 0) (hh : q.held.length < 1024) (ht : q.txLeft = 0)
    (hk : packFlit p 16 238 [] s = (msgs, u)) : exec (.flitSend p) s = .next (
      if msgs = [] then putFlit p 2 0 0 [] none u else putFlit p 1 q.txSeq 0 msgs none (modPort p (seqFlit u.now msgs) u)) := by
  have hself : modPort p (fun k => { k with txLeft := k.txLeft }) s = s := modPort_self (fun _ => rfl) p s
  rw [exec_flitSend, execFlitSend, onPort_acts hp hq hi (by simp [hst]), if_neg (by omega)]
  simp only [lctl_sent hl, hst, ne_eq, not_true_eq_false, if_false, hr, Nat.not_le.2 hh, ht, Nat.zero_min, hself, Nat.zero_le, if_true, true_and,
    Nat.sub_zero, hk]
  rfl

end

/-! ### Packing a message (R297, R298; 09 R323, R329, R337) -/

theorem modCtr_only (sid : Nat) (g : Counters → Counters) (s : State) : Only [.sags] s (modCtr sid g s) := by
  intro c hc
  cases c <;> simp_all [Comp.same, modCtr]

theorem noteBreach_only (sid guarantee reason port meter amount : Nat) (s : State) :
    Only [.sags] s (noteBreach sid guarantee reason port meter amount s) := by
  unfold noteBreach
  dsimp only
  split
  all_goals
    intro c hc
    cases c <;> simp_all [Comp.same]

theorem traceMsg_only (r : TraceRec) (body : List Nat) (s : State) : Only [.obs, .host] s (traceMsg r body s) := by
  intro c hc
  cases c <;> simp_all [Comp.same]

theorem noteLate_only (p : Nat) (x : TxItem) (s : State) : Only [.sags] s (noteLate p x s) := by
  unfold noteLate
  extract_lets sid t cur
  have ht : Only [.sags] s t := Only.ite (modCtr_only _ _ s) (Only.rfl' _ s)
  exact Only.ite (Only.rfl' _ s) (Only.ite ht (Only.ite (ht.trans (noteBreach_only _ _ _ _ _ _ t))
    (Only.ite (ht.trans (noteBreach_only _ _ _ _ _ _ t)) ht)))

theorem noteSlow_only (p : Nat) (x : TxItem) (s : State) : Only [.sags] s (noteSlow p x s) := by
  unfold noteSlow
  extract_lets sid
  split
  · exact Only.rfl' _ s
  · refine Only.ite (Only.rfl' _ s) ?_
    split
    · exact Only.rfl' _ s
    · extract_lets peak t
      have ht : Only [.sags] s t :=
        Only.ite (Only.rfl' _ s) (Only.ite (noteBreach_only _ _ _ _ _ _ s) (Only.ite (noteBreach_only _ _ _ _ _ _ s) (Only.rfl' _ s)))
      exact Only.ite (ht.trans (noteBreach_only _ _ _ _ _ _ t)) ht

/-- A port without messages packs none. -/
theorem packFlit_empty {p : Nat} {s : State} {q : Port} (hq : portOf p s = some q) (ht : q.txq = []) (n room : Nat) (l : List OutMsg) :
    packFlit p n room l s = (l, s) := by
  have hn : nextMsg p s = none := by simp [nextMsg, hq, ht]
  cases n <;> simp [packFlit, hn]

/-- The only message that waits is next when its credit and its port's schedule let it start. -/
theorem nextMsg_single {p : Nat} {s : State} {q : Port} {x : TxItem} (hq : portOf p s = some q) (ht : q.txq = [x]) (hc : creditFor q x = true)
    (hg : gateTx p x s = true) : nextMsg p s = some 0 := by
  simp [nextMsg, hq, ht, hc, hg, List.range_succ]

/-- What the start of a message leaves in a flit with `room` payload bytes left: breaches noted, its credit taken, the bytes that go over, its
IVC, its trace record (R292, R298, R299). -/
def startMsg (p room : Nat) (x : TxItem) (s : State) : State :=
  let t := modPort p (fun q => { q with
    usedTx := bump (crIdx x.vc 0) 1 (bump (crIdx x.vc 1) (ceilDiv (bodyLen x.msg) 64) q.usedTx), txLeft := wireLen x.msg - room })
    (noteSlow p x (noteLate p x s))
  let u := if plainMsg x.msg then t else modAssoc p x.msg.dst (fun a => { a with txIvc := a.txIvc + 1 }) t
  traceMsg ⟨3, p, regionFrozen 2 p u, false, sidOf p x.msg.dst u, x.msg.op, x.vc, x.msg.tag, regionTally 2 p u, 0,
    ((assocOf p x.msg.dst t).map (·.txIvc)).getD 0 % 2 ^ 40, ((assocOf p x.msg.dst t).map (·.gen)).getD 0 % 2,
    ((portOf p u).map (·.par.portAid)).getD 0, x.msg.dst⟩ (msgBody u.dir.handleKey x.msg) u

/-- The message that is next starts, unless its admission has ended, and the room behind it is packed. -/
theorem packFlit_starts {p n room i : Nat} {l : List OutMsg} {s : State} {q : Port} {x : TxItem} (hr : room ≠ 0) (hq : portOf p s = some q)
    (hn : nextMsg p s = some i) (hx : q.txq[i]? = some x) (ha : plainMsg x.msg = true ∨ admitted p x.msg.dst s = true) :
    packFlit p (n + 1) room l s = packFlit p n (room - wireLen x.msg) (l ++ [x.msg])
      (startMsg p room x (modPort p (fun q => { q with txq := q.txq.eraseIdx i }) s)) := by
  have he : admitted p x.msg.dst (modPort p (fun q => { q with txq := q.txq.eraseIdx i }) s) = admitted p x.msg.dst s :=
    admitted_modPort (fun _ => by rfl) ..
  have hkeep : ¬(plainMsg x.msg = false ∧ admitted p x.msg.dst s = false) := by
    rintro ⟨h1, h2⟩
    simp [h1, h2] at ha
  rw [packFlit, if_neg hr, hn]
  simp only [hq, Option.bind_some, hx, he, if_neg hkeep]
  rfl

/-- A message that starts takes nothing from the queue of its port and none of its SEQs. -/
theorem startMsg_leaves {p : Nat} {s : State} {q : Port} (hq : portOf p s = some q) (room : Nat) (x : TxItem) :
    Only [.ports, .sags, .obs, .host] s (startMsg p room x s)
      ∧ ∃ k, portOf p (startMsg p room x s) = some k ∧ k.txq = q.txq ∧ k.txSeq = q.txSeq ∧ k.held = q.held := by
  unfold startMsg
  extract_lets t u
  have hn : Only [.sags] s (noteSlow p x (noteLate p x s)) := (noteLate_only p x s).trans (noteSlow_only p x _)
  have ht : portOf p t = some _ := portOf_modPort_of ((hn.portOf (by decide) p).trans hq) _
  have htf : Only [.ports, .sags, .obs, .host] s t := (hn.mono (by decide)).modPort (by decide) _ _
  have huf : Only [.ports, .sags, .obs, .host] s u := Only.ite htf (htf.trans ((modAssoc_only _ _ _ _).mono (by decide)))
  have hu : ∃ k, portOf p u = some k ∧ k.txq = q.txq ∧ k.txSeq = q.txSeq ∧ k.held = q.held := by
    by_cases hp : plainMsg x.msg = true
    · simp only [u, if_pos hp]
      exact ⟨_, ht, rfl, rfl, rfl⟩
    · simp only [u, if_neg hp]
      exact ⟨_, portOf_modPort_of ht _, rfl, rfl, rfl⟩
  obtain ⟨k, hk, hfields⟩ := hu
  exact ⟨huf.trans ((traceMsg_only _ _ _).mono (by decide)), k, ((traceMsg_only _ _ u).portOf (by decide) p).trans hk, hfields⟩

/-- The only message that waits leaves in the next flit when it fits and its admission stands. -/
theorem packFlit_single {p : Nat} {s : State} {q : Port} {x : TxItem} (hq : portOf p s = some q) (ht : q.txq = [x]) (hc : creditFor q x = true)
    (hg : gateTx p x s = true) (ha : plainMsg x.msg = true ∨ admitted p x.msg.dst s = true) :
    ∃ u k, packFlit p 16 238 [] s = ([x.msg], u) ∧ Only [.ports, .sags, .obs, .host] s u ∧ portOf p u = some k ∧ k.txq = [] ∧ k.txSeq = q.txSeq
      ∧ k.held = q.held := by
  obtain ⟨hf, k, hk, htx, hseq, hheld⟩ := startMsg_leaves (portOf_modPort_of hq fun q => { q with txq := q.txq.eraseIdx 0 }) 238 x
  have hk0 : k.txq = [] := by simp [htx, ht]
  refine ⟨_, k, ?_, ((modPort_only _ _ _).mono (by decide)).trans hf, hk, hk0, hseq, hheld⟩
  rw [packFlit_starts (by decide) hq (nextMsg_single hq ht hc hg) (by simp [ht]) ha, packFlit_empty hk hk0, List.nil_append]

/-- Settles O48: a flit received is dropped and counted, or its ACK taken and its SEQ compared with the expected one; what a port sends follows
the order of R286, one lemma for each turn. -/
theorem flits : Obligations.Flits := by
  intro s p q hp hq hi hst
  refine ⟨fun f hf => ?_, fun f hc hfmt ht hn hnak hm => ?_, fun c hs hc => ?_, fun h0 hs hl hr hh => ?_, fun h => ?_,
    fun x hl hr hh hs ht hx hc hg ha _ => ?_⟩
  · exact ⟨_, _, flitReceive_bad hp hq hi hst hf, (((draw_only s).mono (by decide)).modPort (by decide) _ _).modPort (by decide) _ _,
      portOf_modPort_of (portOf_modPort_of (s := (draw s).2) hq _) _, rfl, rfl, rfl, rfl, rfl⟩
  · obtain ⟨hu, k, hk, hrx, hnk, hheld⟩ := ackTaken_leaves hq f
    have hx := flitReceive_seq hp hq hi hst hc hfmt ht hn hnak hm
    have hnone : f.ack = q.lastAck → k.held = q.held := fun ha => by rw [hheld, ha, takeAck_same]
    have hsome : ∀ n, 0 < n → n ≤ q.held.length → n < 4096 → q.lastAck < 4096 → f.ack = (q.lastAck + n) % 4096 → k.held = q.held.drop n :=
      fun n h0 h1 h2 h3 ha => by rw [hheld, ha, takeAck_held h0 h1 h2 h3]
    rcases Nat.eq_zero_or_pos ((f.seq + 4096 - q.rxE) % 4096) with hd | hd
    · obtain ⟨g, hg⟩ := portOf_regrant (portOf_modPort_of hk fun k => { k with rxE := (k.rxE + 1) % 4096, nakSent := false })
      rw [if_pos hd] at hx
      exact ⟨_, _, hx, (hu.modPort (by decide) _ _).trans ((regrant_only p _).mono (by decide)), hg, fun _ => ⟨by rw [hrx], rfl⟩,
        fun h => absurd h (by omega), fun h => absurd h (by omega), hnone, hsome⟩
    · have hne : f.seq % 4096 ≠ q.rxE % 4096 := by omega
      rw [if_neg (Nat.ne_of_gt hd)] at hx
      by_cases hlt : (f.seq + 4096 - q.rxE) % 4096 < 2048
      · rw [if_pos hlt] at hx
        exact ⟨_, _, hx, hu.modPort (by decide) _ _, portOf_modPort_of hk _, fun h => absurd h hne, fun _ _ => ⟨hrx, rfl⟩,
          fun h => absurd hlt (Nat.not_lt.2 h), hnone, hsome⟩
      · rw [if_neg hlt] at hx
        exact ⟨_, _, hx, hu, hk, fun h => absurd h hne, fun _ h => absurd h hlt, fun _ => ⟨hrx, hnk⟩, hnone, hsome⟩
  · obtain ⟨ctl, g, hop, hx⟩ := sendLctl_of hq c
    obtain ⟨hf, hout, -⟩ := putFlit_sends hq 3 0 0 [] (some ctl)
    exact ⟨_, flitOf p 3 0 0 [] (some ctl) q, (flitSend_control hp hq hi hst hs hc).trans (congrArg _ hx), hf.modPort (by decide) _ _, hout, rfl,
      congrArg some hop, rfl, rfl⟩
  · obtain ⟨hf, hout, hk⟩ := putFlit_sends (portOf_modPort_of hq _) 1 h0.seq h0.cont h0.msgs none
    exact ⟨_, _, _, flitSend_replays hp hq hi hst hs hl hr hh, ((modPort_only _ _ _).mono (by decide)).trans hf, hout, rfl, rfl, rfl, hk, rfl, rfl⟩
  · have hidle : exec (.flitSend p) s = .next (putFlit p 2 0 0 [] none s) := by
      by_cases hs : 4095 ≤ q.sinceIdle
      · exact flitSend_idleDue hp hq hi hst hs
      · obtain ⟨hl, hr, hx, ht⟩ := h.resolve_left hs
        by_cases hh : q.held.length < 1024
        · rw [flitSend_packs hp hq hi hst (by omega) hl hr hh ht (packFlit_empty hq hx ..), if_pos rfl]
        · exact flitSend_full hp hq hi hst (by omega) hl hr (by omega)
    obtain ⟨hf, hout, hk⟩ := putFlit_sends hq 2 0 0 [] none
    exact ⟨_, _, _, hidle, hf, hout, rfl, rfl, rfl, hk, rfl, rfl⟩
  · obtain ⟨u, k, hpk, hu, hk, hk0, hseq, hheld⟩ := packFlit_single hq hx hc hg ha
    obtain ⟨hf, hout, hk'⟩ := putFlit_sends (portOf_modPort_of hk (seqFlit u.now [x.msg])) 1 q.txSeq 0 [x.msg] none
    have hx := flitSend_packs hp hq hi hst hs hl hr hh ht hpk
    rw [if_neg (by simp)] at hx
    have hsent : u.fabOut = s.fabOut := (hu .outs (by decide)).2.1
    have hnow : u.now = s.now := hu.now (by decide)
    refine ⟨_, flitOf p 1 q.txSeq 0 [x.msg] none (seqFlit u.now [x.msg] k), _, hx,
      ((hu.mono (by decide)).modPort (by decide) _ _).trans (hf.mono (by decide)), hout.trans (congrArg (· ++ _) hsent), rfl, rfl, rfl, hk', hk0, ?_, ?_⟩
    · simp only [flitSent, seqFlit, hseq]
    · simp only [flitSent, seqFlit, hseq, hheld, hnow]

end Sys2Proof.Machine
end

section
/-! PROOFS. Admission of agents and rekeying (O49; 08 R305 to R309). That strangers' messages are spaced by STRANGER_RATE and that a HELLO turned
away counts in STRANGER_DROP is log 37. -/

namespace Sys2Proof.Machine

theorem exec_admitTimeout (p aid : Nat) (s : State) : exec (.admitTimeout p aid) s = execAdmitTimeout p aid s := rfl
theorem exec_rekey (m : Mhd) (gen : Nat) (s : State) : exec (.rekey m gen) s = execRekey m gen s := rfl
theorem exec_rekeyAck (m : Mhd) (gen : Nat) (s : State) : exec (.rekeyAck m gen) s = execRekeyAck m gen s := rfl
theorem exec_ivcLimit (p aid : Nat) (s : State) : exec (.ivcLimit p aid) s = execIvcLimit p aid s := rfl
theorem exec_rekeyWindowEnd (p aid : Nat) (s : State) : exec (.rekeyWindowEnd p aid) s = execRekeyWindowEnd p aid s := rfl

/-- A message for the J9P comes, well formed and while the planes take input, to port `q` in service, which knows its sender by `a`. -/
structure AtPort (m : Mhd) (s : State) (q : Port) (a : Assoc) : Prop where
  powered : s.powered = true
  port : portOf m.port s = some q
  inSvc : q.inSvc = true
  linked : q.st ≠ .down
  sender : smGet m.src q.assocs = some a
  dst : m.dst = q.par.portAid
  formed : m.resv = false
  taken : s.holds = false

section
variable {m : Mhd} {s : State} {q : Port} {a : Assoc}

theorem AtPort.live (h : AtPort m s q a) : portLive m.port s = true := (portLive_of h.port).trans h.inSvc

theorem AtPort.assoc (h : AtPort m s q a) : assocOf m.port m.src s = some a := (assocOf_of h.port).trans h.sender

theorem AtPort.delivered (h : AtPort m s q a) (ha : a.adm = .admitted) : Delivered m s :=
  ⟨h.powered, h.live, by rw [admitted_of h.assoc, ha]; rfl, by simp [h.port, h.dst], h.taken⟩

/-! ### Strangers (R305) -/

/-- A stranger's message is let in: the next may come when its time at STRANGER_RATE is over. -/
def letIn (p bytes : Nat) (s : State) : State := modPort p (fun q => { q with strangerAt := s.now + strangerTicks bytes q }) s

theorem letIn_only (p bytes : Nat) (s : State) : Only [.ports] s (letIn p bytes s) := modPort_only p _ s

theorem AtPort.afterLetIn (h : AtPort m s q a) (bytes : Nat) :
    AtPort m (letIn m.port bytes s) { q with strangerAt := s.now + strangerTicks bytes q } a :=
  ⟨h.powered, portOf_modPort_of h.port _, h.inSvc, h.linked, h.sender, h.dst, h.formed, h.taken⟩

theorem arriveAdmit_serves (h : AtPort m s q a) (hadm : a.adm ≠ .admitted) (ht : q.strangerAt ≤ s.now) (i : Instr) (bytes : Nat)
    (serve : Port → Assoc → State → State) : arriveAdmit m i bytes serve s = serve q a (letIn m.port bytes s) := by
  obtain ⟨hp, hq, hi, hst, ha, hd, hr, hh⟩ := h
  simp [arriveAdmit, letIn, hp, hq, hi, hst, ha, hd, hr, hh, hadm, Nat.not_lt.2 ht]

theorem arriveAdmit_tooSoon (h : AtPort m s q a) (hadm : a.adm ≠ .admitted) (ht : s.now < q.strangerAt) (i : Instr) (bytes : Nat)
    (serve : Port → Assoc → State → State) : arriveAdmit m i bytes serve s = dropStranger m.port s := by
  obtain ⟨hp, hq, hi, hst, ha, hd, hr, hh⟩ := h
  simp [arriveAdmit, hp, hq, hi, hst, ha, hd, hr, hh, hadm, ht]

theorem notAdmitted_answers (hl : portLive m.port s = true) : ∃ x : TxItem, notAdmitted m s = modPort m.port (queueTx x) s
    ∧ x.msg.op = 0xA3 ∧ x.msg.status = stNOTADMITTED ∧ x.msg.dst = m.src := by
  obtain ⟨x, hx, hm⟩ := sendOn_words (plain := true) hl (.inl rfl) (show outVc 0xA3 ≠ 1 by decide)
  exact ⟨x, hx, by rw [hm], by rw [hm], by rw [hm]⟩

/-! ### HELLO (R306, R308) -/

/-- The handshake of a REPLY keeps what K0 needs: the key pair and the nonce are drawn. -/
def replied (p nonceA xa versions : Nat) (s : State) (a : Assoc) : Assoc :=
  { a with replyAt := s.now, hand := some ((draw s).1 % 2 ^ 448, xa, transcript1 (edPublic (storedKey p s)) nonceA xa versions
      ((draw (draw s).2).1 % 2 ^ 256) ((draw s).1 % 2 ^ 448)) }

theorem answerHello_replies (hl : portLive m.port s = true) (nonceA xa versions : Nat) (a : Assoc) : ∃ x : TxItem,
    answerHello m nonceA xa versions a s
        = modPort m.port (queueTx x) (setAssoc m.port m.src (replied m.port nonceA xa versions s a) (draw (draw s).2).2)
      ∧ x.msg.op = 0xA1 ∧ x.msg.dst = m.src ∧ x.msg.tag = m.tag := by
  have hl' : ∀ b, portLive m.port (setAssoc m.port m.src b (draw (draw s).2).2) = true := fun b => (portLive_modPort (fun _ => by rfl) ..).trans hl
  obtain ⟨x, hx, hm⟩ := sendOn_words (plain := true) (hl' _) (.inl rfl) (show outVc 0xA1 ≠ 1 by decide)
  exact ⟨x, hx, by rw [hm], by rw [hm], by rw [hm]⟩

theorem serveHello_replies {sid : Nat} (nonceA xa versions : Nat) (hadm : a.adm = .stranger) (hal : a.allow = some sid)
    (hv : bitOf versions 1 = true) (hn : (q.assocs.filter fun x => x.2.adm == .replied && x.1 != m.src).length < 64)
    (hrng : s.pen.rngFail = false) :
    serveHello m nonceA xa versions q a s = answerHello m nonceA xa versions { a with adm := .replied } s := by
  simp only [serveHello, hadm, hal, hv, hn, hrng, Option.isSome_some, and_self, if_true]
  rfl

theorem serveHello_turnsAway (nonceA xa versions : Nat) (hadm : a.adm = .stranger) (hal : a.allow = none) :
    serveHello m nonceA xa versions q a s = notAdmitted m (dropStranger m.port s) := by
  simp [serveHello, hadm, hal]

/-- A stranger that is allowed gets its REPLY, and its handshake waits for the PROVE. -/
theorem admitHello_replies (h : AtPort m s q a) {sid nonceA xa versions : Nat} (hadm : a.adm = .stranger) (ht : q.strangerAt ≤ s.now)
    (hal : a.allow = some sid) (hv : bitOf versions 1 = true)
    (hn : (q.assocs.filter fun x => x.2.adm == .replied && x.1 != m.src).length < 64) (hrng : s.pen.rngFail = false) :
    ∃ t k, exec (.admitHello m ⟨nonceA, xa, versions⟩) s = .next t ∧ Only [.ports, .free] s t
      ∧ assocOf m.port m.src t = some (replied m.port nonceA xa versions s { a with adm := .replied }) ∧ portOf m.port t = some k
      ∧ ∃ x, k.txq = q.txq ++ [x] ∧ x.msg.op = 0xA1 ∧ x.msg.dst = m.src ∧ x.msg.tag = m.tag := by
  have hin := h.afterLetIn 108
  obtain ⟨x, hx, hop, hdst, htag⟩ := answerHello_replies hin.live nonceA xa versions { a with adm := .replied }
  have hkey : storedKey m.port (letIn m.port 108 s) = storedKey m.port s := by simp [storedKey, hin.port, h.port]
  have hrep : replied m.port nonceA xa versions (letIn m.port 108 s) { a with adm := .replied }
      = replied m.port nonceA xa versions s { a with adm := .replied } := by
    rw [replied, hkey]
    rfl
  have hdraws : Only [.ports, .free] s (draw (draw (letIn m.port 108 s)).2).2 :=
    ((letIn_only m.port 108 s).mono (by decide)).trans (((draw_only _).trans (draw_only _)).mono (by decide))
  rw [hrep] at hx
  exact ⟨_, _, congrArg Host.Outcome.next ((arriveAdmit_serves h (by simp [hadm]) ht ..).trans
      ((serveHello_replies (s := letIn m.port 108 s) nonceA xa versions hadm hal hv hn hrng).trans hx)),
    (hdraws.modPort (by decide) _ _).modPort (by decide) _ _, (assocOf_modPort (fun _ => by rfl) ..).trans (assocOf_setAssoc hin.port _),
    portOf_modPort_of (portOf_modPort_of hin.port _) _, x, rfl, hop, hdst, htag⟩

/-- A stranger that is not allowed is told so, and counted. -/
theorem admitHello_turnsAway (h : AtPort m s q a) (nonceA xa versions : Nat) (hadm : a.adm = .stranger) (ht : q.strangerAt ≤ s.now)
    (hal : a.allow = none) : ∃ t k, exec (.admitHello m ⟨nonceA, xa, versions⟩) s = .next t ∧ Only [.ports] s t
      ∧ assocOf m.port m.src t = some a ∧ portOf m.port t = some k ∧ k.ctr.strangerDrop = add32 q.ctr.strangerDrop 1
      ∧ ∃ x, k.txq = q.txq ++ [x] ∧ x.msg.op = 0xA3 ∧ x.msg.status = stNOTADMITTED ∧ x.msg.dst = m.src := by
  have hin := h.afterLetIn 108
  obtain ⟨x, hx, hmsg⟩ := notAdmitted_answers (s := dropStranger m.port (letIn m.port 108 s))
    ((portLive_modPort (fun _ => by rfl) ..).trans hin.live)
  have hport := portOf_modPort_of (portOf_modPort_of hin.port fun q => { q with ctr := { q.ctr with strangerDrop := add32 q.ctr.strangerDrop 1 } })
    (queueTx x)
  exact ⟨_, _, congrArg Host.Outcome.next ((arriveAdmit_serves h (by simp [hadm]) ht ..).trans ((serveHello_turnsAway _ _ _ hadm hal).trans hx)),
    ((letIn_only m.port 108 s).modPort (by decide) _ _).modPort (by decide) _ _, (assocOf_of hport).trans h.sender, hport, rfl, x, rfl, hmsg⟩

/-! ### PROVE (R307, R308) -/

section
variable {ida certSig keyslot ce : Nat} {c1 c2 : Bool}

theorem proveFault_eq_zero : proveFault keyslot ce c1 c2 q s = 0 ↔ fabricKey keyslot s = true ∧ c1 = true ∧ q.par.certEpochMin ≤ ce ∧ c2 = true := by
  unfold proveFault
  split_ifs <;> simp_all

theorem proveFault_ne_zero (h : fabricKey keyslot s = false ∨ c1 = false ∨ c2 = false ∨ ce < q.par.certEpochMin) :
    proveFault keyslot ce c1 c2 q s ≠ 0 := by
  rw [ne_eq, proveFault_eq_zero]
  rintro ⟨hk, h1, he, h2⟩
  simp [hk, h1, h2, Nat.not_lt.2 he] at h

/-- The association that a good PROVE makes: K0 comes from the handshake. -/
def provedAssoc (now ida certSig keyslot ce : Nat) (a : Assoc) : Assoc :=
  { freshAssoc a.allow with
    adm := .admitted, sid := a.allow.getD 4095, admAt := now, certEpoch := ce, keyslot := keyslot
    keys := match a.hand with
      | some (x, xa, t1) => [(0, firstKey x xa (transcript2 t1 ida ce keyslot certSig))]
      | none => [] }

theorem provedAssoc_keys {x xa t1 : Nat} (hh : a.hand = some (x, xa, t1)) (now : Nat) :
    (provedAssoc now ida certSig keyslot ce a).keys = [(0, firstKey x xa (transcript2 t1 ida ce keyslot certSig))] := by
  simp [provedAssoc, hh]

theorem serveProve_admits (h : AtPort m s q a) {k : Port} (hadm : a.adm = .replied) (hf : proveFault keyslot ce c1 c2 k s = 0) : ∃ x : TxItem,
    serveProve m ida certSig keyslot ce c1 c2 k a s = emit 0x15 (a.allow.getD 4095) 2 m.port [m.src, ce, keyslot]
      (modPort m.port (queueTx x) (setAssoc m.port m.src (provedAssoc s.now ida certSig keyslot ce a) s))
    ∧ x.msg.op = 0xA3 ∧ x.msg.status = stOK ∧ x.msg.body = [a.allow.getD 4095] := by
  have hl : portLive m.port (setAssoc m.port m.src (provedAssoc s.now ida certSig keyslot ce a) s) = true :=
    (portLive_modPort (fun _ => by rfl) ..).trans h.live
  have had : admitted m.port m.src (setAssoc m.port m.src (provedAssoc s.now ida certSig keyslot ce a) s) = true :=
    admitted_of (assocOf_setAssoc h.port _)
  obtain ⟨x, hx, hm⟩ := sendOn_words (plain := false) (tag := m.tag) (tgen := m.tgen) (status := stOK) (body := [a.allow.getD 4095]) hl (.inr had)
    (show outVc 0xA3 ≠ 1 by decide)
  refine ⟨x, ?_, by rw [hm], by rw [hm], by rw [hm]⟩
  rw [← hx]
  simp only [serveProve, hadm, hf, if_true]
  rfl

theorem serveProve_fails (hadm : a.adm = .replied) (hf : proveFault keyslot ce c1 c2 q s ≠ 0) :
    serveProve m ida certSig keyslot ce c1 c2 q a s = emit 0x16 4095 2 m.port [m.src, proveFault keyslot ce c1 c2 q s]
      (notAdmitted m (setAssoc m.port m.src (freshAssoc a.allow) s)) := by
  simp [serveProve, hadm, hf]

/-- A good PROVE makes the association of its AID anew and is answered with the SID. -/
theorem admitProve_admits (h : AtPort m s q a) {sid : Nat} (hadm : a.adm = .replied) (ht : q.strangerAt ≤ s.now) (hal : a.allow = some sid)
    (hk : fabricKey keyslot s = true) (he : q.par.certEpochMin ≤ ce) :
    ∃ t k, exec (.admitProve m ⟨ida, certSig, keyslot⟩ ce true true) s = .next t
      ∧ assocOf m.port m.src t = some (provedAssoc s.now ida certSig keyslot ce a) ∧ portOf m.port t = some k
      ∧ ∃ x, k.txq = q.txq ++ [x] ∧ x.msg.op = 0xA3 ∧ x.msg.status = stOK ∧ x.msg.body = [sid] := by
  have hin := h.afterLetIn 316
  obtain ⟨x, hx, hop, hstatus, hbody⟩ := serveProve_admits (ida := ida) (certSig := certSig) hin hadm
    ((proveFault_eq_zero (s := letIn m.port 316 s)).2 ⟨hk, rfl, he, rfl⟩)
  have hport := (portOf_emit m.port 0x15 (a.allow.getD 4095) 2 m.port [m.src, ce, keyslot] _).trans (portOf_modPort_of (portOf_modPort_of hin.port
    fun q => { q with assocs := smSet m.src (provedAssoc s.now ida certSig keyslot ce a) q.assocs }) (queueTx x))
  exact ⟨_, _, congrArg Host.Outcome.next ((arriveAdmit_serves h (by simp [hadm]) ht ..).trans hx), (assocOf_of hport).trans (smGet_smSet_same ..), hport, x, rfl, hop,
    hstatus, by rw [hbody, hal]; rfl⟩

/-- A bad PROVE leaves its AID a stranger with what it is allowed. -/
theorem admitProve_fails (h : AtPort m s q a) (hadm : a.adm = .replied) (ht : q.strangerAt ≤ s.now)
    (hbad : fabricKey keyslot s = false ∨ c1 = false ∨ c2 = false ∨ ce < q.par.certEpochMin) :
    ∃ t, exec (.admitProve m ⟨ida, certSig, keyslot⟩ ce c1 c2) s = .next t ∧ assocOf m.port m.src t = some (freshAssoc a.allow) := by
  have hin := h.afterLetIn 316
  have hf := proveFault_ne_zero (s := letIn m.port 316 s) hbad
  obtain ⟨x, hx, -⟩ := notAdmitted_answers (s := setAssoc m.port m.src (freshAssoc a.allow) (letIn m.port 316 s))
    ((portLive_modPort (fun _ => by rfl) ..).trans hin.live)
  have hserve := serveProve_fails (m := m) (ida := ida) (certSig := certSig) hadm hf
  have hport := portOf_modPort_of (portOf_modPort_of hin.port fun q => { q with assocs := smSet m.src (freshAssoc a.allow) q.assocs }) (queueTx x)
  rw [hx] at hserve
  exact ⟨_, congrArg Host.Outcome.next ((arriveAdmit_serves h (by simp [hadm]) ht ..).trans hserve),
    (assocOf_of ((portOf_emit ..).trans hport)).trans (smGet_smSet_same ..)⟩

end

theorem admitTimeout_forgets {p aid : Nat} (hp : s.powered = true) (ha : assocOf p aid s = some a) (hadm : a.adm = .replied)
    (ht : a.replyAt + 100000000 ≤ s.now) : exec (.admitTimeout p aid) s = .next (modAssoc p aid (fun a => freshAssoc a.allow) s) := by
  simp [exec_admitTimeout, execAdmitTimeout, act, ha, hp, ht, hadm]

end

/-! ### Keys (R307, R309) -/

/-- Erasing the keys of lower generations leaves those from `lo` on. -/
theorem smGet_filter_ge {α : Type} {lo k : Nat} (h : lo ≤ k) (m : SMap α) : smGet k (m.filter fun x => decide (lo ≤ x.1)) = smGet k m := by
  induction m with
  | nil => rfl
  | cons x m ih =>
    obtain ⟨j, v⟩ := x
    by_cases hj : lo ≤ j
    · simp [smGet, hj, ih]
    · have hne : j ≠ k := by omega
      have hlt : ¬k < j := by omega
      simp [smGet, hj, ih, hne, hlt]

/-- The key of the next generation is derived from that of the present one. -/
theorem withKey_next {g k : Nat} {keys : SMap Nat} (hk : smGet g keys = some k) (hn : smGet (g + 1) keys = none) :
    withKey (g + 1) keys = smSet (g + 1) (nextKey k) keys := by
  simp [withKey, hk, hn]

/-- The association whose transmitter has switched. -/
def switched (a : Assoc) : Assoc := eraseKeys { a with gen := a.gen + 1, txIvc := 0, rekeying := false, keys := withKey (a.gen + 1) a.keys }

/-- Of a generation that is not erased the key is the one that was there or has been derived. -/
theorem smGet_switched_keys (a : Assoc) : smGet (a.gen + 1) (switched a).keys = smGet (a.gen + 1) (withKey (a.gen + 1) a.keys) :=
  smGet_filter_ge (Nat.min_le_left ..) _

theorem nextKey_switched {k : Nat} {a : Assoc} (hk : smGet a.gen a.keys = some k) (hn : smGet (a.gen + 1) a.keys = none) :
    smGet (a.gen + 1) (switched a).keys = some (nextKey k) := by
  rw [smGet_switched_keys, withKey_next hk hn, smGet_smSet_same]

/-! ### Rekeying (R309) -/

section
variable {m : Mhd} {s : State} {q : Port} {a b : Assoc}

theorem assocOf_switchTx {p aid : Nat} (ha : assocOf p aid s = some a) : assocOf p aid (switchTx p aid s) = some (switched a) :=
  (assocOf_modAssoc ..).trans (congrArg _ ha)

/-- A sealed message about an association that has just changed goes out behind the others; the admission has stayed. -/
theorem sendWords_afterChange {p op aid tag tgen status : Nat} {body : List Nat} {g : Assoc → Assoc} (hq : portOf p s = some q) (hi : q.inSvc = true)
    (ha : assocOf p aid s = some a) (hadm : (g a).adm = .admitted) (hv : outVc op ≠ 1) :
    ∃ t k, sendWords p op aid tag tgen status body (modAssoc p aid g s) = t ∧ Only [.ports] s t ∧ assocOf p aid t = some (g a) ∧ portOf p t = some k
      ∧ ∃ x, k.txq = q.txq ++ [x] ∧ x.msg = ⟨op, aid, tag, tgen, status, 0, body, none, none⟩ := by
  have hb : assocOf p aid (modAssoc p aid g s) = some (g a) := (assocOf_modAssoc ..).trans (congrArg _ ha)
  have hl : portLive p (modAssoc p aid g s) = true := (portLive_modPort (fun _ => by rfl) ..).trans ((portLive_of hq).trans hi)
  obtain ⟨x, hx, hm⟩ := sendOn_words (plain := false) hl (.inr ((admitted_of hb).trans (by rw [hadm]; rfl))) hv
  exact ⟨_, _, hx, (modAssoc_only _ _ _ s).modPort (by decide) _ _, (assocOf_modPort (fun _ => by rfl) ..).trans hb,
    portOf_modPort_of (portOf_modPort_of hq _) _, x, rfl, hm⟩

section
variable (hd : Delivered m s) (hr : m.resv = false) (ha : assocOf m.port m.src s = some a)
include hd hr ha

theorem rekey_switches (hn : a.rekeying = false) : exec (.rekey m (a.gen + 1)) s =
    .next (sendWords m.port 0xA5 m.src m.tag m.tgen 0 [a.gen + 1] (switchTx m.port m.src s)) := by
  rw [exec_rekey, execRekey, act, arrive_delivered hd]
  simp [hr, ha, hn]

theorem rekey_otherGen {gen : Nat} (hg : gen ≠ a.gen + 1) : exec (.rekey m gen) s = .next (protoErr m.port s) := by
  rw [exec_rekey, execRekey, act, arrive_delivered hd]
  simp [hr, ha, hg]

/-- The initiator's transmitter switches; where no message of the new generation has come yet, the acknowledgement is its first. -/
theorem rekeyAck_switches (hn : a.rekeying = true) : exec (.rekeyAck m (a.gen + 1)) s = .next (
    if a.rxGen < a.gen + 1 then modAssoc m.port m.src (newGen s.now) (switchTx m.port m.src s) else switchTx m.port m.src s) := by
  rw [exec_rekeyAck, execRekeyAck, act, arrive_delivered hd]
  simp only [hr, ha, hn, Bool.false_eq_true, if_false, Bool.true_eq_false, ne_eq, not_true_eq_false, or_self]
  rfl

end

theorem ivcLimit_starts {p aid : Nat} (hal : s.alive = true) (ha : assocOf p aid s = some a) (ht : 2 ^ 47 ≤ a.txIvc) :
    exec (.ivcLimit p aid) s = .next (startRekey p aid s) := by
  rw [exec_ivcLimit, execIvcLimit, act]
  simp only [ha, if_pos (And.intro hal ht)]

theorem startRekey_sends {p aid : Nat} (ha : assocOf p aid s = some a) (hadm : a.adm = .admitted) (hn : a.rekeying = false) :
    startRekey p aid s = sendWords p 0xA4 aid 0 0 0 [a.gen + 1] (modAssoc p aid (fun a => { a with rekeying := true }) s) := by
  simp [startRekey, ha, hadm, hn]

theorem rekeyWindowEnd_erases {p aid : Nat} {w : IvcWin} (ha : assocOf p aid s = some a) (ho : a.old = some w) (ht : a.oldUntil ≤ s.now) :
    exec (.rekeyWindowEnd p aid) s = .next (modAssoc p aid (fun a => eraseKeys { a with old := none, oldUntil := 0 }) s) := by
  simp [exec_rekeyWindowEnd, execRekeyWindowEnd, act, ha, ho, ht]

end

/-- Settles O49: a stranger's HELLO and PROVE are judged by `serveHello` and `serveProve` (the transcripts' layout is log 77); the key of the next
generation is there when the transmitter has switched. -/
theorem admission : Obligations.Admission := by
  intro s m q a hp hq hi hst hga hd hr hh
  have h : AtPort m s q a := ⟨hp, hq, hi, hst, hga, hd, hr, hh⟩
  refine ⟨fun nonceA xa versions hadm ht => ⟨fun ⟨sid, hal⟩ hv hn hrng => ?_, fun hal => admitHello_turnsAway h nonceA xa versions hadm ht hal⟩,
    fun nonceA xa versions hadm ht => congrArg Host.Outcome.next (arriveAdmit_tooSoon h (by simp [hadm]) ht ..),
    fun ida certSig keyslot ce sid hadm ht hal hk he => ?_, fun ida certSig keyslot ce c1 c2 hadm ht hbad => ?_,
    fun hadm ht => admitTimeout_forgets hp h.assoc hadm ht, fun gen hadm hn hg => ?_,
    fun gen hadm hg => rekey_otherGen (h.delivered hadm) hr h.assoc hg, fun gen hadm hn hg => ?_, fun halive hadm hn ht => ?_,
    fun w ho ht => rekeyWindowEnd_erases h.assoc ho ht⟩
  · obtain ⟨t, k, hx, honly, hb, hk, hmsg⟩ := admitHello_replies h hadm ht hal hv hn hrng
    exact ⟨t, _, k, hx, honly, hb, rfl, rfl, rfl, rfl, hk, hmsg⟩
  · obtain ⟨t, k, hx, hb, hport, hmsg⟩ := admitProve_admits h hadm ht hal hk he
    exact ⟨t, _, k, hx, hb, rfl, by simp [provedAssoc, hal], rfl, rfl, rfl, fun x xa t1 hhand => provedAssoc_keys hhand _, hport, hmsg⟩
  · obtain ⟨t, hx, hb⟩ := admitProve_fails h hadm ht hbad
    exact ⟨t, _, hx, hb, rfl, rfl⟩
  · subst hg
    obtain ⟨t, k, ht, honly, hb, hk, x, htx, hm⟩ := sendWords_afterChange (g := switched) hq hi h.assoc hadm (show outVc 0xA5 ≠ 1 by decide)
    exact ⟨t, _, k, (rekey_switches (h.delivered hadm) hr h.assoc hn).trans (congrArg _ ht), honly, hb, rfl, rfl, rfl, fun k => nextKey_switched, hk, x, htx,
      by rw [hm], by rw [hm], by rw [hm]⟩
  · subst hg
    have hsw := assocOf_switchTx h.assoc
    have hx := rekeyAck_switches (h.delivered hadm) hr h.assoc hn
    by_cases hnew : a.rxGen < a.gen + 1
    · rw [if_pos hnew] at hx
      exact ⟨_, newGen s.now (switched a), hx, (modAssoc_only _ _ _ s).modPort (by decide) _ _, (assocOf_modAssoc ..).trans (congrArg _ hsw),
        rfl, rfl, rfl, rfl, hadm⟩
    · rw [if_neg hnew] at hx
      exact ⟨_, switched a, hx, modAssoc_only _ _ _ s, hsw, rfl, rfl, rfl, rfl, hadm⟩
  · obtain ⟨t, k, hsend, honly, hb, hk, x, htx, hm⟩ := sendWords_afterChange (g := fun a => { a with rekeying := true }) (tag := 0) (tgen := 0)
      (status := 0) (body := [a.gen + 1]) hq hi h.assoc hadm (show outVc 0xA4 ≠ 1 by decide)
    exact ⟨t, _, k, (ivcLimit_starts halive h.assoc ht).trans (congrArg _ ((startRekey_sends h.assoc hadm hn).trans hsend)), honly, hb, rfl, rfl, hk, x,
      htx, by rw [hm], by rw [hm]⟩

end Sys2Proof.Machine
end

section
/-! PROOFS. Sagger commands (O16; 09 R315 to R319, R323, R328, R339, R340). -/

namespace Sys2Proof.Machine

section
variable (s : State) (r sid die mask tc db load : Nat) (p : SagParams) (force : Bool) (c : ShapeCfg)

theorem exec_saggerCreate : exec (.saggerCreate r sid p) s = execSaggerCreate r sid p s := rfl
theorem exec_saggerSet : exec (.saggerSet r sid p force) s = execSaggerSet r sid p force s := rfl
theorem exec_saggerShelves : exec (.saggerShelves r sid die mask) s = execSaggerShelves r sid die mask s := rfl
theorem exec_saggerSeal : exec (.saggerSeal r sid tc db load) s = execSaggerSeal r sid tc db load s := rfl
theorem exec_saggerUnseal : exec (.saggerUnseal r sid) s = execSaggerUnseal r sid s := rfl
theorem exec_saggerDrain : exec (.saggerDrain r sid) s = execSaggerDrain r sid s := rfl
theorem exec_saggerResume : exec (.saggerResume r sid) s = execSaggerResume r sid s := rfl
theorem exec_saggerDestroy : exec (.saggerDestroy r sid) s = execSaggerDestroy r sid s := rfl
theorem exec_saggerRead : exec (.saggerRead r sid) s = execSaggerRead r sid s := rfl
theorem exec_shapeConfig : exec (.shapeConfig r c) s = execShapeConfig r c s := rfl

end

/-! ### Entries -/

section
variable {s : State} {sid : Nat} {g : Sagger}

theorem sagState_of (hg : sagOf sid s = some g) : sagState sid s = g.st := by simp [sagState, hg]

theorem sagSealed_of (hg : sagOf sid s = some g) : sagSealed sid s = g.sealed := by
  rw [sagOf] at hg
  simp [sagSealed, hg]

theorem sagOf_modSag (sid : Nat) (k : Sagger → Sagger) (s : State) : sagOf sid (modSag sid k s) = (sagOf sid s).map k :=
  smGet_smMod_same ..

end

/-! ### SAGGER_CREATE (R315, R316, R324, R328) -/

section
variable {s : State} {r sid : Nat} {f : Inflight}

section
variable {p : SagParams} (h : Ready r 0x10 0 s f) (hm : ∀ m ∈ p.shelves, m < 2 ^ 40) (hlc : s.pen.otp.lc = 2) (h1 : 1 ≤ sid) (h2 : sid ≤ 4094)
  (hr : sagRanges p = true) (hl : p.sealLoad ≤ 15)
include h hm hlc h1 h2 hr hl

theorem saggerCreate_creates (hst : sagState sid s = .free) (hc : commitBad sid p.fCrate p.lCrate s = false)
    (hk : ∀ k, k < 8 → maskClash sid k (p.shelves.getD k 0) (·.sealed) s = false) :
    exec (.saggerCreate r sid p) s = .next (ok r [] { latched r sid s with
      sags.tab := smSet sid (newSagger p s.now) s.sags.tab, dir.cohCfg := smSet sid s.dir.cohDef s.dir.cohCfg
      xlt.heatCfg := smSet sid s.xlt.heatDef s.xlt.heatCfg }) := by
  have hne : sid ≠ 0 := Nat.ne_of_gt h1
  rw [exec_saggerCreate]
  exact cmdFor_acts h (by simpa [hlc, hne, h2, hr, hl, hst, hc] using ⟨hm, hk⟩)

theorem saggerCreate_conflict (hst : sagState sid s ≠ .free) : Refuses (.saggerCreate r sid p) r 0x10 stCONFLICT 7 s := by
  have hne : sid ≠ 0 := Nat.ne_of_gt h1
  have hres : (p.shelves.any fun m => decide (2 ^ 40 ≤ m)) = false := by simpa using hm
  have hdeny : (sid == 0 || decide (4094 < sid) || !sagRanges p || decide (15 < p.sealLoad)) = false := by simp [hne, h2, hr, hl]
  have hb : (sagState sid s != .free) = true := bne_iff_ne.2 hst
  exact cmdFor_refused (c := chkExec true stCONFLICT) (exec_saggerCreate ..) h
    (by simp only [firstBad, chkResv_bad, hres, chkDeny_bad, hlc, hdeny, chkExec_bad, hb]; rfl) (by decide)

end

/-! ### The life of a sagger (R316, R317, R328, R339) -/

variable {g : Sagger} (hs : sid ≤ 4094) (hg : sagOf sid s = some g)
include hs hg

theorem saggerSet_sets {p : SagParams} {force : Bool} (h : Ready r 0x11 0 s f) (hn : g.st ≠ .free) (hr : sagRanges p = true)
    (hc : force = true ∨ commitBad sid p.fCrate p.lCrate s = false) :
    exec (.saggerSet r sid p force) s = .next (ok r [] (modSag sid (fun g => { g with
      f := remeter g.f g.par.fCrate g.par.fCburst g.par.fPrate g.par.fPburst p.fCburst p.fPrate p.fPburst s.now
      l := remeter g.l g.par.lCrate g.par.lCburst g.par.lPrate g.par.lPburst p.lCburst p.lPrate p.lPburst s.now
      par := { p with shelves := g.par.shelves, sealLoad := g.par.sealLoad } }) (latched r sid s))) := by
  have hcommit : (!force && commitBad sid p.fCrate p.lCrate s) = false := by rcases hc with hc | hc <;> simp [hc]
  rw [exec_saggerSet]
  exact cmdFor_acts h (by simp [hs, hr, sagState_of hg, hn, hcommit])

theorem saggerShelves_sets {die mask : Nat} (h : Ready r 0x12 0 s f) (hn : g.st ≠ .free) (hm : mask < 2 ^ 40) (hd : die < 8)
    (hw : warmDie die s = false) (hc : maskClash sid die mask (·.sealed) s = false)
    (ho : g.sealed = true → maskClash sid die mask (fun _ => true) s = false ∧ shelvesUsed sid die mask s = false)
    (hwin : windowHolds sid die mask s = false) :
    exec (.saggerShelves r sid die mask) s = .next (ok r [] (modSag sid (fun g => { g with
      par := { g.par with shelves := g.par.shelves.set die mask } }) (latched r sid s))) := by
  have hd' : die ≤ 7 := by omega
  rw [exec_saggerShelves]
  exact cmdFor_acts h (by simpa [hs, hd', sagState_of hg, hn, hw, hc, sagSealed_of hg, hwin] using And.intro hm ho)

theorem saggerSeal_seals {tc db load : Nat} (h : Ready r 0x13 0 s f) (hn : g.st ≠ .free) (h0 : sid ≠ 0) (ht : tc ≤ 16) (hd : db ≤ 16)
    (hl : load ≤ 15) (hc : sealClash sid tc db (releaseParts s) = false) :
    exec (.saggerSeal r sid tc db load) s = .next (ok r [] (modSag sid (fun g => { g with
      sealed := true, leaving := false, tcBlocks := tc, dirBlocks := db, par := { g.par with sealLoad := load } })
      (releaseParts (latched r sid s)))) := by
  rw [exec_saggerSeal]
  exact cmdFor_acts h (by simp [h0, hs, ht, hd, hl, sagState_of hg, hn, hc])

/-- SAGGER_UNSEAL of a sagger that is not sealed changes nothing. -/
theorem saggerUnseal_unsealed (h : Ready r 0x14 0 s f) (hn : g.st ≠ .free) (hu : g.sealed = false) :
    exec (.saggerUnseal r sid) s = .next (ok r [] (latched r sid s)) := by
  have hl : sagSealed sid (latched r sid s) = false := (sagSealed_of (s := latched r sid s) hg).trans hu
  rw [exec_saggerUnseal]
  refine (cmdFor_acts h (by simp [hs, sagState_of hg, hn])).trans ?_
  simp only [hl, Bool.false_eq_true, if_false]

theorem saggerUnseal_unseals (h : Ready r 0x14 0 s f) (hn : g.st ≠ .free) (hu : g.sealed = true) :
    exec (.saggerUnseal r sid) s = .next (ok r [] (releaseParts { modSag sid (fun g => { g with sealed := false, leaving := true })
      (latched r sid s) with ports := s.ports.map fun (q : Port) =>
        { q with gate := q.gate.map (openEntries sid), gateNext := q.gateNext.map fun x => (x.1, openEntries sid x.2) } })) := by
  have hl : sagSealed sid (latched r sid s) = true := (sagSealed_of (s := latched r sid s) hg).trans hu
  rw [exec_saggerUnseal]
  refine (cmdFor_acts h (by simp [hs, sagState_of hg, hn])).trans ?_
  simp only [hl, if_true]
  rfl

theorem saggerDrain_drains (h : Ready r 0x15 0 s f) (ha : g.st = .active) (h0 : sid ≠ 0) :
    exec (.saggerDrain r sid) s = .next (drainedRecord sid (ok r [] (modSag sid (fun g => { g with st := .draining, drainDue := true })
      (latched r sid s)))) := by
  have hl : sagState sid (latched r sid s) = .active := (sagState_of (s := latched r sid s) hg).trans ha
  rw [exec_saggerDrain]
  refine (cmdFor_acts h (by simp [h0, hs, sagState_of hg, ha])).trans ?_
  simp [hl]

/-- SAGGER_DRAIN of a sagger that drains already changes nothing. -/
theorem saggerDrain_draining (h : Ready r 0x15 0 s f) (hd : g.st = .draining) (h0 : sid ≠ 0) :
    exec (.saggerDrain r sid) s = .next (ok r [] (latched r sid s)) := by
  have hl : sagState sid (latched r sid s) = .draining := (sagState_of (s := latched r sid s) hg).trans hd
  rw [exec_saggerDrain]
  refine (cmdFor_acts h (by simp [h0, hs, sagState_of hg, hd])).trans ?_
  simp [hl]

theorem saggerResume_resumes (h : Ready r 0x16 0 s f) (hd : g.st = .draining) :
    exec (.saggerResume r sid) s = .next (ok r [] (modSag sid (fun g => { g with st := .active, drainDue := false }) (latched r sid s))) := by
  rw [exec_saggerResume]
  exact cmdFor_acts h (by simp [hs, sagState_of hg, hd])

theorem saggerResume_conflict (h : Ready r 0x16 0 s f) (hd : g.st ≠ .draining) : Refuses (.saggerResume r sid) r 0x16 stCONFLICT 7 s := by
  have hb : (sagState sid s != .draining) = true := bne_iff_ne.2 (by rwa [sagState_of hg])
  exact cmdFor_refused (c := chkExec true stCONFLICT) (exec_saggerResume ..) h (by simp [firstBad, Nat.not_lt.2 hs, hb]) (by decide)

end

section
variable {s : State} {r sid : Nat} {f : Inflight} (hs : sid ≤ 4094)
include hs

theorem saggerDestroy_conflict (h : Ready r 0x17 0 s f) (hb : destroyBad sid s = true) :
    Refuses (.saggerDestroy r sid) r 0x17 stCONFLICT 7 s :=
  cmdFor_refused (c := chkExec true stCONFLICT) (exec_saggerDestroy ..) h (by simp [firstBad, Nat.not_lt.2 hs, hb]) (by decide)

theorem saggerRead_shows (h : Ready r 0x1A 128 s f) :
    exec (.saggerRead r sid) s = .next (okItem r [.words (sagWords sid (latched r sid s))] (latched r sid s)) := by
  have ⟨_, _, _, _, _, hroom⟩ := h
  obtain ⟨h3, h4, -⟩ := outRoom_checks hroom
  rw [exec_saggerRead]
  exact cmdFor_acts h (by simp [hs, h3, h4])

end

theorem shapeConfig_stores {s : State} {r : Nat} {f : Inflight} {c : ShapeCfg} (h : Ready r 0x19 0 s f) (hf : c.fOvh ≤ 1024)
    (hs1 : 1000 ≤ c.samplePeriod) (hs2 : c.samplePeriod ≤ 1000000) (hc1 : 1 ≤ c.crowdLimit) (hc2 : c.crowdLimit ≤ 2048)
    (hw1 : 1000 ≤ c.commitWait) (hw2 : c.commitWait ≤ 10000000) (hb1 : 100000 ≤ c.breachWindow) (hb2 : c.breachWindow ≤ 1000000000) :
    exec (.shapeConfig r c) s = .next (ok r [] { latched r 0 s with sags.shape := c }) := by
  rw [exec_shapeConfig]
  exact cmd_acts h (by simp [hf, hs1, hs2, hc2, hw1, hw2, hb1, hb2]; omega)

/-! ### SAGGER_DESTROY (R316, R317) -/

/-- The change concerns pool memory alone, and looks at nothing else. -/
def MemOnly (k : State → State) : Prop := ∀ s u : State, k { u with mem := s.mem } = { u with mem := (k s).mem }

theorem MemOnly.foldl {α : Type} {k : State → α → State} (hk : ∀ a, MemOnly fun s => k s a) (l : List α) : MemOnly fun s => l.foldl k s := by
  intro s u
  induction l generalizing s with
  | nil => rfl
  | cons a l ih => exact (congrArg (l.foldl k) (hk a s u)).trans (ih (k s a))

theorem memOnly_ownLine (l tag : Nat) (d : LineData) : MemOnly (ownLine l tag d) := by
  intro s u
  have hg (k : Nat) : dieGen k { u with mem := s.mem } = dieGen k s := rfl
  simp only [ownLine, hg]

theorem memOnly_wipeTable (t : Table) : MemOnly (wipeTable t) := by
  intro s u
  unfold wipeTable
  extract_lets l n clean ls clean' ls'
  have hd (k : Nat) : dieState k { u with mem := s.mem } = dieState k s := rfl
  rw [hd]
  split
  · exact MemOnly.foldl (k := fun s k => ownLine k 0 0 s) (fun k => memOnly_ownLine k 0 0) ls s u
  · rfl

/-- The tables of a SID wiped. -/
def wipedTables (sid : Nat) (s : State) : State := (s.xlt.tables.filter (·.sid == sid)).foldl (fun s x => wipeTable x s) s

/-- A SID's tables are wiped in the state that a command acts in as they would be before. -/
theorem wipedTables_latched (r sid : Nat) (s : State) :
    wipedTables sid (latched r sid s) = { latched r sid s with mem := (wipedTables sid s).mem } :=
  MemOnly.foldl memOnly_wipeTable (s.xlt.tables.filter (·.sid == sid)) s (latched r sid s)

theorem setMem_only (m : MemSt) (s : State) : Only [.mem] s { s with mem := m } := by
  intro c hc
  cases c <;> simp_all [Comp.same]

/-- The state without the sagger of a SID: its entry, open breaches, tables with their epochs and settings, mirror and permits are gone. -/
def withoutSagger (sid : Nat) (s : State) : State :=
  { s with
    sags.tab := smDel sid s.sags.tab
    sags.breaches := s.sags.breaches.filter (·.sid != sid)
    xlt.tables := s.xlt.tables.filter (·.sid != sid)
    xlt.epochs := smDel sid s.xlt.epochs
    xlt.taken := s.xlt.taken.filter fun t => t.sid != sid || t.ack
    xlt.heatCfg := smDel sid s.xlt.heatCfg
    dir.cohCfg := smDel sid s.dir.cohCfg
    obs.mirrors := smDel sid s.obs.mirrors
    kiln.library := s.kiln.library.map fun (g : Glaze) => { g with sids := g.sids.filter (· != sid) } }

section
variable {s : State} {r sid : Nat} {f : Inflight}

theorem saggerDestroy_destroys (hs : sid ≤ 4094) (h : Ready r 0x17 0 s f) (hb : destroyBad sid s = false) :
    exec (.saggerDestroy r sid) s = .next (ok r [] (withoutSagger sid { latched r sid s with mem := (wipedTables sid s).mem })) := by
  rw [exec_saggerDestroy, ← wipedTables_latched]
  exact cmdFor_acts h (by simp [hs, hb])

theorem withoutSagger_only (sid : Nat) (s : State) : Only [.obs, .sags, .xlt, .dir, .kiln] s (withoutSagger sid s) := by
  intro c hc
  cases c <;> simp_all [Comp.same, withoutSagger]

theorem sagOf_withoutSagger_ne (hw : smWf s.sags.tab = true) {q : Nat} (hq : q ≠ sid) : sagOf q (withoutSagger sid s) = sagOf q s :=
  smGet_smDel_ne _ hw hq

theorem sagState_withoutSagger (hw : smWf s.sags.tab = true) : sagState sid (withoutSagger sid s) = .free := by
  have : sagOf sid (withoutSagger sid s) = none := smGet_smDel_same _ _ hw
  simp [sagState, this]

/-- A command that leaves the rings to its completion is answered with OK. -/
theorem ok_replied {op need : Nat} {res : List Nat} {u : State} (h : Ready r op need s f) (hu : u.host = (latched r sid s).host) :
    Replied r op stOK res [] s (ok r res u) := by
  obtain ⟨-, -, hf, rfl, -, -⟩ := h
  have hr (q : Nat) : ringOf q u = ringOf q (latched r sid s) := by simp only [ringOf, hu]
  have hi : inflightOf r u = inflightOf r (latched r sid s) := by simp only [inflightOf, hr]
  exact finish_replied (f := { f with lsid := sid, start := latchOf sid s }) (hi.trans (inflightOf_latched hf))
    fun q hq => (hr q).trans (ringOf_latched_ne hq)

theorem sagOf_finish (q r st sg ix : Nat) (res : List Nat) (items : List OutItem) (s : State) :
    sagOf q (finish r st sg ix res items s) = sagOf q s := by simp [sagOf]

end

/-- Settles O16: each command passes its checks and acts, or fails the check of its rule. That SAGGER_UNSEAL opens the gate entries at once, that
SAGGER_DESTROY drops the mirror, and what `destroyBad` counts as held are the model's choice (log 51). -/
theorem saggerCommands : Obligations.SaggerCommands := by
  refine ⟨fun s r sid p f h hm hlc h1 h2 hr hl => ⟨fun hst hc hk hw =>
      ⟨saggerCreate_creates h hm hlc h1 h2 hr hl hst hc hk, smGet_smSet_same .., rfl, fun q hq => smGet_smSet_ne _ _ hw hq⟩,
      saggerCreate_conflict h hm hlc h1 h2 hr hl⟩,
    fun s r sid f g hs hg => ⟨fun p force => saggerSet_sets hs hg, fun die mask => saggerShelves_sets hs hg, fun tc db load => saggerSeal_seals hs hg,
      saggerUnseal_unsealed hs hg, fun h hn hu => ⟨_, saggerUnseal_unseals hs hg h hn hu, ?_, fun p => List.getElem?_map ..⟩, saggerDrain_drains hs hg,
      saggerDrain_draining hs hg, saggerResume_resumes hs hg, saggerResume_conflict hs hg, fun h hb hw => ?_, saggerDestroy_conflict hs,
      saggerRead_shows hs, fun c => shapeConfig_stores⟩⟩
  · exact (sagOf_modSag ..).trans (congrArg _ hg)
  · refine ⟨_, saggerDestroy_destroys hs h hb, ?_, ok_replied h rfl, ?_, fun q hq => ?_, ?_, ?_, ?_, ?_, ?_, ?_⟩
    · exact ok_only (sid := sid) (by decide) (by decide) (((setMem_only _ _).mono (by decide)).trans
        ((withoutSagger_only sid _).mono (by decide)))
    · rw [sagState, ok, sagOf_finish]
      exact sagState_withoutSagger hw
    · exact (sagOf_finish ..).trans (sagOf_withoutSagger_ne (s := { latched r sid s with mem := (wipedTables sid s).mem }) hw hq)
    exacts [finish_dir .., congrArg (·.shape) (finish_sags ..), finish_mem .., finish_obs_mirrors .., finish_xlt .., finish_kiln ..]

end Sys2Proof.Machine
end

section
/-! PROOFS. Gate schedules (O17; 09 R325 to R327) and the events of shaping (O18; R316, R322, R333, R334, R338). -/

namespace Sys2Proof.Machine

section
variable (s : State) (r p efmt n guard sid port guarantee reason : Nat) (item : Item) (force : Bool) (es : List GateEntry)

theorem exec_gateLoad : exec (.gateLoad r p efmt n item force guard es) s = execGateLoad r p efmt n item force guard es s := rfl
theorem exec_gateEntry : exec (.gateEntry p) s = execGateEntry p s := rfl
theorem exec_queueSample : exec .queueSample s = execQueueSample s := rfl
theorem exec_meterAdmit : exec (.meterAdmit sid port) s = execMeterAdmit sid port s := rfl
theorem exec_breachRecord : exec (.breachRecord sid guarantee reason) s = execBreachRecord sid guarantee reason s := rfl
theorem exec_saggerDrained : exec (.saggerDrained sid) s = execSaggerDrained sid s := rfl

end

/-! ### GATE_LOAD (R325, R326) -/

section
variable {s : State} {p : Nat} {q : Port} (hq : portOf p s = some q)
include hq

theorem gate_of : (portOf p s).bind (·.gate) = q.gate := by rw [hq]; rfl

theorem gateFrom_none (hg : q.gate = none) : gateFrom p s = s.now := by simp [gateFrom, hq, hg]

theorem gateFrom_some {g : GateSched} (hg : q.gate = some g) : gateFrom p s = periodEnd g := by simp [gateFrom, hq, hg]

section
variable {r n guard : Nat} {f : Inflight} {item : Item} {es : List GateEntry} (h : Ready r 0x18 0 s f) (hp : p < 16) (hn : n ≤ 1024)
  (hg1 : 8 ≤ guard) (hg2 : guard ≤ 4096) (ha : item.off % 64 = 0) (hi : n = 0 ∨ GoodItem item (8 * n) s)
  (he : ∀ e ∈ es.take n, e.resv = false ∧ e.kind < 3) (hb : gateBad guard (es.take n) s = false)
include h hp hn hg1 hg2 ha hi he hb

/-- A valid schedule passes every check of GATE_LOAD; a forced one asks for no capacity (R324, R326). -/
theorem gateLoad_loads : (q.gate = none → exec (.gateLoad r p 1 n item true guard es) s
      = .next (ok r (w64 s.now) (setGate p (gateSched (es.take n) guard s.now) (latched r 0 s))))
    ∧ ∀ g, q.gate = some g → exec (.gateLoad r p 1 n item true guard es) s = .next (ok r (w64 (periodEnd g))
      (modPort p (fun q => { q with gateNext := some (periodEnd g, gateSched (es.take n) guard (periodEnd g)) }) (latched r 0 s))) := by
  have hread : ∀ c ∈ (if n = 0 then [] else itemRead item (8 * n) s), c.bad = false := by
    by_cases h0 : n = 0
    · simp [h0]
    · rw [if_neg h0]
      exact itemRead_good (hi.resolve_left h0)
  have hkinds : ((es.take n).any fun e => e.resv || decide (3 ≤ e.kind)) = false :=
    List.any_eq_false.2 fun e hm => by simp [(he e hm).1, (he e hm).2]
  have hranges : (decide (15 < p) || decide (1024 < n) || decide (guard < 8) || decide (4096 < guard)) = false := by simp; omega
  have hql : portOf p (latched r 0 s) = some q := hq
  rw [exec_gateLoad, execGateLoad, cmd_acts h ?good]
  case good =>
    simp only [List.forall_mem_append, List.forall_mem_cons, List.not_mem_nil, IsEmpty.forall_iff, implies_true, and_true, chk_bad, chkResv_bad,
      chkDeny_bad, chkExec_bad, hkinds, hb, hranges]
    exact ⟨⟨⟨rfl, trivial, by simp [itemAlign, ha]⟩, hread⟩, trivial, trivial, rfl⟩
  refine ⟨fun hg => ?_, fun g hg => ?_⟩
  · simp only [gate_of hql, gateFrom_none hql hg, hg]
    rfl
  · simp only [gate_of hql, gateFrom_some hql hg, hg]

end

omit hq in
theorem gateLoad_version {r n guard : Nat} {f : Inflight} {item : Item} {es : List GateEntry} (h : Ready r 0x18 0 s f) :
    Refuses (.gateLoad r p 2 n item true guard es) r 0x18 stVERSION 1 s :=
  cmd_refused (c := chk true stVERSION 1) (exec_gateLoad ..) h (by simp [firstBad]) (by decide)

/-! ### GATE_ENTRY (R326, R327) -/

section
variable {g : GateSched} {e : GateEntry} (hp : s.powered = true) (hg : q.gate = some g) (he : g.entries[g.cur]? = some e)
  (ht : g.curAt + e.duration ≤ s.now)
include hp hg he ht

theorem gateEntry_next (hl : g.cur + 1 < g.entries.length) : exec (.gateEntry p) s = .next (gateTrace p (modPort p (fun q => { q with
    gate := some { g with cur := g.cur + 1, curAt := g.curAt + e.duration, used := 0 } }) s)) := by
  have hgo : ¬(s.powered = false ∨ s.now < g.curAt + e.duration) := by simp [hp, ht]
  simp only [exec_gateEntry, execGateEntry, act, hq, hg, he, if_neg hgo, if_pos hl]

omit hq hp hg ht in
/-- The period of a schedule that stands at its last entry ends with that entry. -/
theorem periodEnd_last (hl : g.cur + 1 = g.entries.length) : periodEnd g = g.curAt + e.duration := by
  have hdrop : g.entries.drop g.cur = [e] := by
    obtain ⟨hlt, rfl⟩ := List.getElem?_eq_some_iff.1 he
    rw [List.drop_eq_getElem_cons hlt, List.drop_of_length_le (Nat.le_of_eq hl.symm)]
  simp [periodEnd, hdrop, gatePeriod]

theorem gateEntry_again (hl : g.cur + 1 = g.entries.length) (hn : q.gateNext = none) : exec (.gateEntry p) s = .next (gateTrace p
    (modPort p (fun q => { q with gate := some { g with cur := 0, start := g.curAt + e.duration, curAt := g.curAt + e.duration, used := 0 } }) s)) := by
  have hgo : ¬(s.powered = false ∨ s.now < g.curAt + e.duration) := by simp [hp, ht]
  have hlast : ¬g.cur + 1 < g.entries.length := by omega
  simp only [exec_gateEntry, execGateEntry, act, hq, hg, he, if_neg hgo, if_neg hlast, hn, periodEnd_last he hl]

theorem gateEntry_replaced {x : Nat} {k : GateSched} (hl : g.cur + 1 = g.entries.length) (hn : q.gateNext = some (x, k)) :
    exec (.gateEntry p) s = .next (setGate p { k with start := g.curAt + e.duration, curAt := g.curAt + e.duration } s) := by
  have hgo : ¬(s.powered = false ∨ s.now < g.curAt + e.duration) := by simp [hp, ht]
  have hlast : ¬g.cur + 1 < g.entries.length := by omega
  simp only [exec_gateEntry, execGateEntry, act, hq, hg, he, if_neg hgo, if_neg hlast, hn, periodEnd_last he hl]

end

end

/-- Settles O17: a valid schedule passes its checks and stands at once, or behind the running period; an entry whose duration has passed gives way to
the next one, the last to a schedule that was loaded or to the first. -/
theorem gateSchedules : Obligations.GateSchedules := by
  intro s r p n guard f item es q hq
  refine ⟨fun h hp hn hg1 hg2 ha hi he hb => ?_, gateLoad_version, fun g e hp hg he ht =>
    ⟨gateEntry_next hq hp hg he ht, gateEntry_again hq hp hg he ht, fun x k => gateEntry_replaced hq hp hg he ht⟩⟩
  obtain ⟨hnone, hsome⟩ := gateLoad_loads hq h hp hn hg1 hg2 ha hi he hb
  cases hg : q.gate with
  | none => exact hnone hg
  | some g => exact hsome g hg

/-! ### Events of shaping (R316, R322, R333, R338) -/

theorem setSags_only (x : Sags) (s : State) : Only [.sags] s { s with sags := x } := by
  intro c hc
  cases c <;> simp_all [Comp.same]

theorem releaseParts_only (s : State) : Only [.sags] s (releaseParts s) := setSags_only _ s

section
variable {s : State} {sid : Nat} {g : Sagger} (ha : s.alive = true)
include ha

/-- A sample changes the saggers' entries and its own time alone. -/
theorem queueSample_samples (ht : s.sags.sampleAt + s.sags.shape.samplePeriod ≤ s.now) :
    ∃ tab, exec .queueSample s = .next (releaseParts { s with sags.tab := tab, sags.sampleAt := s.now }) := by
  have hgo : ¬(s.alive = false ∨ s.now < s.sags.sampleAt + s.sags.shape.samplePeriod) := by simp [ha, ht]
  rw [exec_queueSample, execQueueSample, act, if_neg hgo]
  exact ⟨_, rfl⟩

/-- The first request of a sagger has nothing before it at its meter (R322). -/
theorem meterAdmit_first {w : Waiting} {rest : List Waiting} {m : Mhd} (hg : sagOf sid s = some g) (hw : g.waiting = w :: rest)
    (hm : cmdMhd w.cmd = some m) (hp : (letPass m.port m.src m.tag sid w.cost w.lines w.at_ s).1 = true) :
    exec (.meterAdmit sid w.port) s = .next (serveAgain w.cmd (addGlobal 5 1 (modCtr sid (fun c => { c with
      waitTicks := add64 c.waitTicks ((letPass m.port m.src m.tag sid w.cost w.lines w.at_ s).2.now - w.at_) })
      (modSag sid (fun g => { g with waiting := g.waiting.eraseIdx 0 }) (letPass m.port m.src m.tag sid w.cost w.lines w.at_ s).2)))) := by
  have hi : (w :: rest).findIdx? (fun x => x.port == w.port) = some 0 := by simp [List.findIdx?_cons]
  have hat : (w :: rest)[0]? = some w := rfl
  simp only [exec_meterAdmit, execMeterAdmit, act, hg, hw, hi, hat, Option.bind_some, hm, ha, hp, List.take_zero, List.any_nil, Bool.not_true,
    Bool.or_self, Bool.false_eq_true, if_false]

theorem breachRecord_writes {b : Breach} (hb : s.sags.breaches = [b]) (hg : sagOf b.sid s = some g)
    (hm : bitOf g.par.breachMask (b.guarantee - 4) = true) (ht : b.start + s.sags.shape.breachWindow ≤ s.now) :
    exec (.breachRecord b.sid b.guarantee b.reason) s = .next (logBreach b (emit 0x03 b.sid 0 0 (breachWords b)
      (modCtr b.sid (fun c => { c with breaches := add64 c.breaches 1 })
        { s with sags.breaches := [], sags.breachCnt := add32 s.sags.breachCnt 1 }))) := by
  have hgo : ¬(s.alive = false ∨ s.now < b.start + s.sags.shape.breachWindow) := by simp [ha, ht]
  have hg' : sagOf b.sid { s with sags.breaches := [] } = some g := hg
  simp [exec_breachRecord, execBreachRecord, act, hb, hgo, hg', hm]

theorem saggerDrained_records : exec (.saggerDrained sid) s = .next (drainedRecord sid s) := by
  simp [exec_saggerDrained, execSaggerDrained, act, ha]

end

/-- The record that is due is written once no work is in flight, and is due no more (R316). -/
theorem drainedRecord_due {s : State} {sid : Nat} {g : Sagger} (hg : sagOf sid s = some g) (hst : g.st = .draining) (hd : g.drainDue = true)
    (hw : sagWork sid s = false) : drainedRecord sid s = emit 0x06 sid 0 0 [] (modSag sid (fun g => { g with drainDue := false }) s) := by
  simp only [drainedRecord, hg, if_pos (And.intro hst (And.intro hd hw))]

/-- Settles O18: the guard of each event holds, so that it happens. -/
theorem shapingEvents : Obligations.ShapingEvents := by
  refine fun s sid ha => ⟨fun ht => ?_, fun g w rest m => meterAdmit_first ha, fun b g => breachRecord_writes ha, saggerDrained_records ha,
    fun g => drainedRecord_due⟩
  obtain ⟨tab, hx⟩ := queueSample_samples ha ht
  exact ⟨_, hx, (setSags_only { s.sags with tab := tab, sampleAt := s.now } s).trans (releaseParts_only _), rfl, rfl, rfl⟩

end Sys2Proof.Machine
end

section
/-! PROOFS. Registers and the PCIe link (O44; 00 R9 to R11, 10 R341 to R349, R365, R375, R379, R380). -/

namespace Sys2Proof.Machine

section
variable (s : State) (off width rate : Nat) (v : Word) (bme d3 : Bool)

theorem exec_registerWrite : exec (.registerWrite off v) s = execRegisterWrite off v s := rfl
theorem exec_lowWordRead : exec (.lowWordRead off) s = execLowWordRead off s := rfl
theorem exec_busMasterChange : exec (.busMasterChange bme d3) s = execBusMasterChange bme d3 s := rfl
theorem exec_hostPathReset : exec .hostPathReset s = execHostPathReset s := rfl
theorem exec_pcieLinkTrained : exec (.pcieLinkTrained width rate) s = execPcieLinkTrained width rate s := rfl

end

/-! ### Pending messages (R345, R365) -/

theorem Only.foldl {cs : List Comp} {α : Type} {k : State → α → State} (hk : ∀ s a, Only cs s (k s a)) (l : List α) (s : State) :
    Only cs s (l.foldl k s) := by
  induction l generalizing s with
  | nil => exact Only.rfl' _ s
  | cons a l ih => exact (hk s a).trans (ih (k s a))

/-- One vector's message is sent if it waits and can be sent. -/
def flushVec (s : State) (v : Nat) : State := if s.host.pba.getLsbD v && s.dma && !vecMasked v s then sendVec v s else s

theorem flushVecs_eq (s : State) : flushVecs s = (List.range 64).foldl flushVec s := rfl

theorem sendVec_only (v : Nat) (s : State) : Only [.host, .outs] s (sendVec v s) := by
  intro c hc
  cases c <;> simp_all [Comp.same]

theorem flushVec_only (s : State) (v : Nat) : Only [.host, .outs] s (flushVec s v) := Only.ite (sendVec_only v s) (Only.rfl' _ s)

theorem flushVecs_only (s : State) : Only [.host, .outs] s (flushVecs s) := Only.foldl flushVec_only _ s

/-- What sending a message leaves alone, sending all that wait leaves alone. -/
theorem flushVecs_keeps {α : Type} (get : State → α) (hg : ∀ v s, get (sendVec v s) = get s) (s : State) : get (flushVecs s) = get s :=
  (congrArg get (flushVecs_eq s)).trans (foldl_keeps get (fun s v => by unfold flushVec; split <;> simp [hg]) _ s)

theorem sendVec_dma (v : Nat) (s : State) : (sendVec v s).dma = s.dma := by simp [State.dma]

theorem sendVec_vecMasked (w v : Nat) (s : State) : vecMasked w (sendVec v s) = vecMasked w s := by simp [vecMasked]

theorem sendVec_linkWidth (v : Nat) (s : State) : (sendVec v s).host.linkWidth = s.host.linkWidth := by unfold sendVec; split <;> rfl

theorem sendVec_linkRate (v : Nat) (s : State) : (sendVec v s).host.linkRate = s.host.linkRate := by unfold sendVec; split <;> rfl

theorem sendVec_linkDegraded (v : Nat) (s : State) : linkDegraded (sendVec v s) = linkDegraded s := by
  simp [linkDegraded, sendVec_linkWidth, sendVec_linkRate]

theorem flushVec_dma (s : State) (v : Nat) : (flushVec s v).dma = s.dma := by unfold flushVec; split <;> simp [sendVec_dma]

theorem flushVec_vecMasked (w : Nat) (s : State) (v : Nat) : vecMasked w (flushVec s v) = vecMasked w s := by
  unfold flushVec
  split <;> simp [sendVec_vecMasked]

/-- Nothing is sent while the function may issue nothing. -/
theorem flushVecs_of_not_dma {s : State} (hd : s.dma = false) : flushVecs s = s :=
  List.foldlRecOn (motive := (· = s)) (List.range 64) flushVec rfl fun t ht v _ => by simp [ht, flushVec, hd]

theorem flushVec_sent {s : State} {v : Nat} (hp : s.host.pba.getLsbD v = true) (hd : s.dma = true) (hm : vecMasked v s = false) :
    flushVec s v = { s with hostOut := s.hostOut ++ [.msix v], host.pba := s.host.pba &&& ~~~(1#64 <<< v) } := by
  simp [flushVec, sendVec, hp, hd, hm]

/-- A vector's message is left alone, or sent and pending no more. -/
theorem flushVec_cases (s : State) (v : Nat) : flushVec s v = s
    ∨ flushVec s v = { s with hostOut := s.hostOut ++ [.msix v], host.pba := s.host.pba &&& ~~~(1#64 <<< v) } := by
  by_cases hs : (s.host.pba.getLsbD v && s.dma && !vecMasked v s) = true
  · simp only [Bool.and_eq_true, Bool.not_eq_true'] at hs
    obtain ⟨⟨hp, hd⟩, hm⟩ := hs
    exact .inr (flushVec_sent hp hd hm)
  · exact .inl (if_neg hs)

/-- The message of a vector that can be sent is pending no more, and has been sent if it was. -/
def VecFlushed (s : State) (v : Nat) (t : State) : Prop :=
  t.host.pba.getLsbD v = false ∧ (s.host.pba.getLsbD v = true → .msix v ∈ t.hostOut)

section
variable {s : State} {v : Nat}

theorem flushVec_flushes (hv : v < 64) (hd : s.dma = true) (hm : vecMasked v s = false) : VecFlushed s v (flushVec s v) := by
  cases hp : s.host.pba.getLsbD v with
  | false => simp [VecFlushed, flushVec, hp]
  | true =>
    rw [flushVec_sent hp hd hm]
    simp [VecFlushed, hv]

theorem flushVec_pba_ne {w : Nat} (h : w ≠ v) (hv : v < 64) : (flushVec s w).host.pba.getLsbD v = s.host.pba.getLsbD v := by
  rcases flushVec_cases s w with hw | hw <;> rw [hw]
  simp [hv]
  omega

theorem flushVec_pba_false (hp : s.host.pba.getLsbD v = false) (w : Nat) : (flushVec s w).host.pba.getLsbD v = false := by
  rcases flushVec_cases s w with hw | hw <;> simp [hw, hp]

theorem flushVec_hostOut {x : HostOut} (hx : x ∈ s.hostOut) (w : Nat) : x ∈ (flushVec s w).hostOut := by
  rcases flushVec_cases s w with hw | hw <;> simp [hw, hx]

/-- What is flushed stays flushed. -/
theorem VecFlushed.after_flushVec {t : State} (h : VecFlushed s v t) (w : Nat) : VecFlushed s v (flushVec t w) :=
  ⟨flushVec_pba_false h.1 w, fun hp => flushVec_hostOut (h.2 hp) w⟩

theorem foldl_flushVec_flushes {l : List Nat} (hl : v ∈ l) (hv : v < 64) (hd : s.dma = true) (hm : vecMasked v s = false) :
    VecFlushed s v (l.foldl flushVec s) := by
  induction l generalizing s with
  | nil => cases hl
  | cons w l ih =>
    by_cases hw : w = v
    · subst hw
      exact List.foldlRecOn l flushVec (flushVec_flushes hv hd hm) fun _ ht w _ => ht.after_flushVec w
    · have h := ih (s := flushVec s w) ((List.mem_cons.1 hl).resolve_left (Ne.symm hw)) (by rw [flushVec_dma, hd])
        (by rw [flushVec_vecMasked, hm])
      rwa [VecFlushed, flushVec_pba_ne hw hv] at h

theorem flushVecs_flushes (hv : v < 64) (hd : s.dma = true) (hm : vecMasked v s = false) : VecFlushed s v (flushVecs s) :=
  foldl_flushVec_flushes (List.mem_range.2 hv) hv hd hm

end

/-! ### Writing registers (R379, R380) -/

/-- The registers of GLB are read only. -/
theorem registerWrite_glb {s : State} {off : Nat} (ho : off < 0x10000) (v : Word) : exec (.registerWrite off v) s = .next s := by
  have h1 : ¬(0x10000 ≤ off ∧ off < 0x101C0) := by omega
  have h2 : ¬(0x20000 ≤ off ∧ off < 0x20400) := by omega
  have h3 : ¬2 ^ 32 ≤ off := by omega
  simp only [exec_registerWrite, execRegisterWrite, act, if_neg h1, if_neg h2, if_neg h3]
  split
  · rfl
  · split
    case h_11 => rfl
    all_goals omega

section
variable {s : State} (hh : s.glb.hubReset = false)
include hh

theorem registerWrite_fwLen (v : Word) : exec (.registerWrite 0x600010 v) s = .next { s with pen.fwLen := v.toNat } := by
  simp [exec_registerWrite, execRegisterWrite, act, hh]

theorem registerWrite_fwAddrLow (v : Word) :
    exec (.registerWrite 0x600008 v) s = .next { s with pen.fwAddr := (s.pen.fwAddr / 2 ^ 32 * 2 ^ 32 + v.toNat) / 64 * 64 } := by
  simp [exec_registerWrite, execRegisterWrite, act, hh, putWord]

theorem registerWrite_ringSize {r : Nat} (hr : r < 7) (v : Word) :
    exec (.registerWrite (0x10000 + 64 * r + 8) v) s = .next (writeRing r 8 v.toNat s) := by
  have h1 : 0x10000 ≤ 0x10000 + 64 * r + 8 ∧ 0x10000 + 64 * r + 8 < 0x101C0 := by omega
  have h4 : ¬(s.glb.hubReset = true ∨ (0x10000 + 64 * r + 8) % 4 ≠ 0) := by simp [hh]; omega
  have hq : (0x10000 + 64 * r + 8 - 0x10000) / 64 = r := by omega
  have ho : (0x10000 + 64 * r + 8) % 64 = 8 := by omega
  simp only [exec_registerWrite, execRegisterWrite, act, if_neg h4, if_pos h1, hq, ho]

omit hh in
theorem writeRing_size {r : Nat} {g : Ring} (hg : ringOf r s = some g) (hst : g.st = .stopped) (v : Nat) :
    writeRing r 8 v s = modRing r (fun g => { g with size := v % 32 }) s := by
  simp [writeRing, hg, hst]

omit hh in
theorem writeRing_size_running {r : Nat} {g : Ring} (hg : ringOf r s = some g) (hst : g.st ≠ .stopped) (v : Nat) :
    writeRing r 8 v s = { s with host.doorbellErr := add32 s.host.doorbellErr 1 } := by
  simp [writeRing, hg, hst, badConfig]

theorem registerWrite_bounceSize (hst : ∀ g ∈ s.host.rings, g.st = .stopped) (v : Word) :
    exec (.registerWrite 0x10210 v) s = .next { s with host.bounceSize := v.toNat % 2 ^ 15 } := by
  have hall : s.host.rings.all (·.st == .stopped) = true := by simpa using hst
  simp [exec_registerWrite, execRegisterWrite, act, hh, writeBounce, hall]

/-! ### Reading registers (R347) -/

section
variable {off : Nat} (ho : off % 4 = 0)
include ho

theorem lowWordRead_word (hn : read64 off s = none) (hl : smGet off s.host.highs = none) :
    exec (.lowWordRead off) s = .next { s with hostOut := s.hostOut ++ [.read off (readWord off s)] } := by
  simp [exec_lowWordRead, execLowWordRead, act, hh, ho, hn, hl]

/-- The low word of a 64-bit register latches its high word. -/
theorem lowWordRead_low {v : Nat} (hv : read64 off s = some v) : exec (.lowWordRead off) s = .next { s with
    hostOut := s.hostOut ++ [.read off (v % 2 ^ 32)], host.highs := smSet (off + 4) (v / 2 ^ 32 % 2 ^ 32) s.host.highs } := by
  simp [exec_lowWordRead, execLowWordRead, act, hh, ho, hv]

theorem lowWordRead_latched {x : Nat} (hn : read64 off s = none) (hx : smGet off s.host.highs = some x) :
    exec (.lowWordRead off) s = .next { s with hostOut := s.hostOut ++ [.read off x], host.highs := smDel off s.host.highs } := by
  simp [exec_lowWordRead, execLowWordRead, act, hh, ho, hn, hx]

end

/-! ### The PCIe link (R344, R345, R375) -/

theorem busMasterChange_flushes (bme d3 : Bool) :
    exec (.busMasterChange bme d3) s = .next (flushVecs { s with host.bme := bme, host.d3hot := d3 }) := by
  simp [exec_busMasterChange, execBusMasterChange, act, hh]

theorem pcieLinkTrained_flushes (w rate : Nat) :
    exec (.pcieLinkTrained w rate) s = .next (flushVecs { s with host.linkWidth := w, host.linkRate := rate, host.linkUp := true }) := by
  simp [exec_pcieLinkTrained, execPcieLinkTrained, act, hh]

theorem hostPathReset_ends : exec .hostPathReset s = .next (endSession { s with
    host.bme := false, host.d3hot := false, host.pba := 0, host.msix := (List.replicate 64 [0#32, 0#32, 0#32, 1#32]).flatten }) := by
  simp [exec_hostPathReset, execHostPathReset, act, hh]

end

/-- Ending the session stops the rings and erases the session's keys. -/
theorem endSession_only (s : State) : Only [.host, .pen] s (endSession s) := by
  intro c hc
  cases c <;> simp_all [Comp.same, endSession, stopRings]

theorem ringOf_endSession (r : Nat) (s : State) : ringOf r (endSession s) = (ringOf r s).map (resetRing' (some 6)) := by
  simp [ringOf, endSession, stopRings]

theorem setHost_only (h : HostIf) (s : State) : Only [.host] s { s with host := h } := by
  intro c hc
  cases c <;> simp_all [Comp.same]

theorem setHostOut_only (o : List HostOut) (h : HostIf) (s : State) : Only [.host, .outs] s { s with hostOut := o, host := h } := by
  intro c hc
  cases c <;> simp_all [Comp.same]

/-- Settles O44: a write goes to the field of its register, a read answers the word or the latched high word, and what changes Bus Master Enable or
the link sends the messages that wait, if they can be sent now (`flushVecs_flushes`). -/
theorem registersAndPcie : Obligations.RegistersAndPcie := by
  intro s hh
  refine ⟨registerWrite_fwLen hh, registerWrite_fwAddrLow hh, fun off v ho => registerWrite_glb ho v, fun r g v hr hg hst => ?_,
    fun r g v hr hg hst => ?_, registerWrite_bounceSize hh, fun off ho => lowWordRead_word hh ho, fun off v ho hv => ?_, fun d3 => ?_,
    fun bme d3 v => ?_, ?_, fun w rate => ?_⟩
  · rw [registerWrite_ringSize hh hr, writeRing_size hg hst]
  · rw [registerWrite_ringSize hh hr, writeRing_size_running hg hst]
  · refine ⟨_, lowWordRead_low hh ho hv, setHostOut_only _ _ s, rfl, fun u hu hhighs hn => ?_⟩
    have hx : smGet (off + 4) u.host.highs = some (v / 2 ^ 32 % 2 ^ 32) := (congrArg _ hhighs).trans (smGet_smSet_same ..)
    exact ⟨_, lowWordRead_latched hu (by omega) hn hx, rfl⟩
  · rw [busMasterChange_flushes hh, flushVecs_of_not_dma (by simp [State.dma])]
  · refine ⟨_, busMasterChange_flushes hh bme d3, ((setHost_only _ s).mono (by decide)).trans (flushVecs_only _),
      flushVecs_keeps (·.host.bme) sendVec_host_bme _, flushVecs_keeps (·.host.d3hot) sendVec_host_d3hot _,
      flushVecs_keeps (·.host.rings) sendVec_host_rings _, fun hv hd hm => ?_⟩
    rw [flushVecs_keeps State.dma sendVec_dma] at hd
    exact flushVecs_flushes hv hd hm
  · refine ⟨_, hostPathReset_ends hh, ((setHost_only _ s).mono (by decide)).trans (endSession_only _), rfl, rfl, ?_, fun r g hg => ?_, rfl, rfl, rfl⟩
    · simp [endSession, stopRings]
    · exact ⟨_, (ringOf_endSession ..).trans (congrArg _ hg), rfl, rfl, rfl, rfl, rfl, rfl⟩
  · refine ⟨_, pcieLinkTrained_flushes hh w rate, ((setHost_only _ s).mono (by decide)).trans (flushVecs_only _),
      flushVecs_keeps (·.host.linkWidth) sendVec_linkWidth _, flushVecs_keeps (·.host.linkRate) sendVec_linkRate _,
      flushVecs_keeps (·.host.linkUp) sendVec_host_linkUp _, flushVecs_keeps (·.host.rings) sendVec_host_rings _, ?_⟩
    rw [flushVecs_keeps linkDegraded sendVec_linkDegraded]
    simp [linkDegraded]

end Sys2Proof.Machine
end

section
/-! PROOFS. What completing a command leaves (O9; 10 R361, R363). -/

namespace Sys2Proof.Machine

/-! ### The trace's frame (15 R471 to R474) -/

section
variable {α : Type} {get : State → α} (hrec : ∀ kind sid region unit body s, get (emitRaw kind sid region unit body s) = get s)
  (htrace : ∀ (x : Trace) (s : State), get { s with obs.trace := x } = get s)
include hrec htrace

theorem traceState_keeps (st : Nat) (s : State) : get (traceState st s) = get s := (hrec ..).trans (htrace ..)

theorem traceStore_keeps (r : TraceRec) (s : State) : get (traceStore r s) = get s := by
  unfold traceStore
  dsimp only
  (repeat' split) <;> simp [traceState_keeps hrec htrace, htrace]

omit hrec in
theorem traceLose_keeps (source : Nat) (s : State) : get (traceLose source s) = get s := htrace ..

theorem traceMarker_keeps (code count : Nat) (s : State) : get (traceMarker code count s) = get s := by
  unfold traceMarker
  split <;> simp [traceStore_keeps hrec htrace]

theorem tracePut_keeps (r : TraceRec) (s : State) : get (tracePut r s) = get s := by
  unfold tracePut
  dsimp only
  (repeat' split) <;> simp [traceStore_keeps hrec htrace, traceMarker_keeps hrec htrace, traceLose_keeps htrace, htrace]

/-- What neither an event record nor the trace's own fields change, a record offered to the trace leaves alone. -/
theorem traceMsg_keeps (r : TraceRec) (body : List Nat) (s : State) : get (traceMsg r body s) = get s := by
  unfold traceMsg
  dsimp only
  (repeat' split) <;> simp [tracePut_keeps hrec htrace, traceLose_keeps htrace]

theorem traceHub_keeps (source unit sid op arg tag addr : Nat) (s : State) : get (traceHub source unit sid op arg tag addr s) = get s :=
  traceMsg_keeps hrec htrace ..

end

section
variable (kind sid region unit : Nat) (body : List Nat) (s : State)

theorem emitRaw_host_bounceBase : (emitRaw kind sid region unit body s).host.bounceBase = s.host.bounceBase := by
  unfold emitRaw
  dsimp only
  (repeat' split) <;> simp

theorem emitRaw_host_doorbellErr : (emitRaw kind sid region unit body s).host.doorbellErr = s.host.doorbellErr := by
  unfold emitRaw
  dsimp only
  (repeat' split) <;> simp

end

/-! ### Completing (10 R361, R363) -/

section
variable {r st sg ix : Nat} {res : List Nat} {items : List OutItem} {s : State}

theorem finish_host_bounceBase : (finish r st sg ix res items s).host.bounceBase = s.host.bounceBase := by
  unfold finish
  split
  · rfl
  · exact traceHub_keeps (get := (·.host.bounceBase)) emitRaw_host_bounceBase (fun _ _ => rfl) ..

theorem finish_host_doorbellErr : (finish r st sg ix res items s).host.doorbellErr = s.host.doorbellErr := by
  unfold finish
  split
  · rfl
  · exact traceHub_keeps (get := (·.host.doorbellErr)) emitRaw_host_doorbellErr (fun _ _ => rfl) ..

theorem finish_ringOf_ne {q : Nat} (h : q ≠ r) : ringOf q (finish r st sg ix res items s) = ringOf q s := by
  unfold finish
  split
  · rfl
  · simp [ringOf, modRing, Ne.symm h]

/-- The counter of completed commands counts every answer (15 R481). -/
theorem finish_obs_global {f : Inflight} (hf : inflightOf r s = some f) :
    (finish r st sg ix res items s).obs.global = s.obs.global.modify 4 fun v => add64 v 1 := by
  unfold finish
  rw [hf]
  exact congrArg (List.modify · 4 _) (traceHub_keeps (get := (·.obs.global)) (fun _ _ _ _ _ _ => by simp) (fun _ _ => rfl) ..)

end

/-- Settles O9: a completion is one `finish` with OK. -/
theorem completionReply : Obligations.CompletionReply := by
  intro r res s f hf
  obtain ⟨written, hq⟩ := finish_statusQ hf stOK 0 0xFFFFF res []
  exact ⟨finish_only _ _ _ _ _ _ _, inflightOf_finish .., fun q hq => finish_ringOf_ne hq, ⟨_, hq, rfl, rfl, rfl, rfl, rfl, rfl, rfl, rfl, rfl⟩,
    finish_host_cfg .., finish_host_irqCause .., finish_host_faultQ .., finish_host_msix .., finish_host_bounceBase,
    finish_host_bounceSize .., finish_host_doorbellErr, finish_obs_mirrors .., finish_obs_contact .., finish_obs_global hf⟩

/-! ### Starting a step (O1) -/

/-- Settles O1: a step looks at the front of the queue first. -/
theorem stepRunsFrontCommand : Obligations.StepRunsFrontCommand := by
  intro c rest s h
  simp only [step, h]

end Sys2Proof.Machine
end

section
/-! PROOFS. System commands (O10; 10 R370, R372; 00 R16). -/

namespace Sys2Proof.Machine

section
variable (s : State) (r q c sid addr len : Nat) (cfg : HostCfg) (item : Item) (lines : List (LineData × Nat))

theorem exec_nop : exec (.nop r) s = execNop r s := rfl
theorem exec_hostConfig : exec (.hostConfig r cfg) s = execHostConfig r cfg s := rfl
theorem exec_sysFence : exec (.sysFence r) s = execSysFence r s := rfl
theorem exec_fenceCancel : exec (.fenceCancel r q c) s = execFenceCancel r q c s := rfl
theorem exec_poolRead : exec (.poolRead r sid addr len) s = execPoolRead r sid addr len s := rfl
theorem exec_poolWrite : exec (.poolWrite r sid addr len item lines) s = execPoolWrite r sid addr len item lines s := rfl

end

section
variable {s : State} {r : Nat} {f : Inflight}

/-! ### NOP, HOST_CONFIG, fences (R370) -/

theorem nop_answers (h : Ready r 0x00 0 s f) : exec (.nop r) s = .next (ok r [] (latched r 0 s)) := by
  rw [exec_nop]
  exact cmd_acts h (by simp)

theorem hostCfgOk_iff (c : HostCfg) : hostCfgOk c = true ↔ c.vec.length = 5 ∧ (∀ v ∈ c.vec, v ≤ 63) ∧ (1 ≤ c.countStatus ∧ c.countStatus ≤ 4096)
    ∧ c.waitStatus ≤ 1000000 ∧ (1 ≤ c.countEvent ∧ c.countEvent ≤ 4096) ∧ c.waitEvent ≤ 1000000 ∧ c.poison ≤ 1 := by
  simp [hostCfgOk, and_assoc]

theorem hostConfig_stores {c : HostCfg} (h : Ready r 0x01 0 s f) (hc : hostCfgOk c = true) :
    exec (.hostConfig r c) s = .next (ok r [] { latched r 0 s with host.cfg := c }) := by
  rw [exec_hostConfig]
  exact cmd_acts h (by simp [hc])

theorem hostConfig_refuses {c : HostCfg} (h : Ready r 0x01 0 s f) (hc : hostCfgOk c = false) : Refuses (.hostConfig r c) r 0x01 stDENIED 3 s :=
  cmd_refused (c := chkDeny true) (exec_hostConfig ..) h (by simp [firstBad, hc]) (by decide)

/-- Replies owed on other rings are not those of the ring that latches. -/
theorem owedReplies_latched : owedReplies r (latched r 0 s) = owedReplies r s := by
  refine congrArg (s.host.statusQ.map (fun x => (x.ring, x.cseq)) ++ ·) (List.filterMap_congr fun q _ => ?_)
  by_cases hq : q = r
  · simp [hq]
  · simp [hq, inflightOf, ringOf_latched_ne]

theorem sysFence_acts (h : Ready r 0x02 0 s f) : exec (.sysFence r) s = .next
    (if owedReplies r s = [] then ok r [] (latched r 0 s) else park r (.sysFence (owedReplies r s)) (latched r 0 s)) := by
  rw [exec_sysFence, ← owedReplies_latched (s := s)]
  exact cmd_acts h (by simp)

theorem fenceCancel_ends {q : Nat} {g : Inflight} (h : Ready r 0x05 0 s f) (hq : q < 4) (hg : inflightOf q s = some g) (hp : parkedFence g = true) :
    exec (.fenceCancel r q g.cseq) s = .next (ok r [] (okStatus q stINCOMPLETE [] (latched r 0 s))) := by
  rw [exec_fenceCancel]
  exact cmd_acts h (by simp [hq, hg, hp])

theorem fenceCancel_refuses {q : Nat} (c : Nat) (h : Ready r 0x05 0 s f) (hq : 4 ≤ q) : Refuses (.fenceCancel r q c) r 0x05 stDENIED 3 s :=
  cmd_refused (c := chkDeny true) (exec_fenceCancel ..) h (by simp [firstBad, Nat.not_lt.2 hq]) (by decide)

/-! ### POOL_READ and POOL_WRITE (R372) -/

section
variable {sid addr len : Nat}

theorem mem_poolChks {acc : Nat} {c : Chk} :
    c ∈ poolChks sid addr len acc s ↔ c ∈ poolPre sid addr len acc s ∨ c = poolLen sid addr len s ∨ c = poolWarm sid addr s := by
  simp [poolChks]

theorem poolRead_acts (h : Ready r 0x03 (poolItem len) s f) (hc : ∀ c ∈ poolChks sid addr len 1 s, c.bad = false) :
    exec (.poolRead r sid addr len) s = .next (if poolMigrates sid addr len 1 (latched r sid s)
      then park r (.retry (.poolRead r sid addr len)) (latched r sid s) else poolReadStart r sid addr len (latched r sid s)) := by
  have hready := h
  obtain ⟨-, -, -, -, -, hroom⟩ := h
  obtain ⟨h3, h4, -⟩ := outRoom_checks hroom
  rw [exec_poolRead]
  refine cmdFor_acts hready fun c hm => ?_
  simp only [List.mem_append, List.mem_cons, List.not_mem_nil, or_false] at hm
  rcases hm with hm | rfl | rfl | rfl | rfl
  · exact hc c (mem_poolChks.2 (.inl hm))
  · exact h3
  · exact hc _ (mem_poolChks.2 (.inr (.inl rfl)))
  · exact h4
  · exact hc _ (mem_poolChks.2 (.inr (.inr rfl)))

theorem poolWrite_acts {item : Item} (lines : List (LineData × Nat)) (h : Ready r 0x04 0 s f)
    (hc : ∀ c ∈ poolChks sid addr len 2 s, c.bad = false) (ha : item.off % 64 = 0) (hi : len = 0 ∨ GoodItem item (poolItem len) s) :
    exec (.poolWrite r sid addr len item lines) s = .next (if poolMigrates sid addr len 2 (latched r sid s)
      then park r (.retry (.poolWrite r sid addr len item lines)) (latched r sid s) else poolWriteStart r sid addr len lines (latched r sid s)) := by
  rw [exec_poolWrite]
  refine cmdFor_acts h fun c hm => ?_
  simp only [List.mem_append, List.mem_cons, List.not_mem_nil, or_false] at hm
  rcases hm with (hm | rfl | hm) | rfl | rfl
  · exact hc c (mem_poolChks.2 (.inl hm))
  · simp [itemAlign, ha]
  · split at hm
    · cases hm
    next hl => exact itemRead_good (hi.resolve_left hl) c hm
  · exact hc _ (mem_poolChks.2 (.inr (.inl rfl)))
  · exact hc _ (mem_poolChks.2 (.inr (.inr rfl)))

/-- The walk of a transfer's pages sees nothing of the host path. -/
theorem poolMigrates_latched (acc : Nat) : poolMigrates sid addr len acc (latched r sid s) = poolMigrates sid addr len acc s := rfl

theorem inflightOf_park {p : Park} {t : State} {g : Inflight} (h : inflightOf r t = some g) : inflightOf r (park r p t) = some { g with parked := some p } := by
  obtain ⟨x, hx, hg⟩ := Option.bind_eq_some_iff.1 h
  simp [park, inflightOf_modRing_self, hx, hg]

/-- A write of no lines is done at once (00 R16). -/
theorem poolWriteStart_nil (lines : List (LineData × Nat)) {t : State} {g : Inflight} (h : inflightOf r t = some g) :
    poolWriteStart r sid addr 0 lines t = ok r [] (park r (.poolWrite sid (epochOf sid t) (poolRun sid addr 0 true t) []) t) := by
  simp [poolWriteStart, poolGo, inflightOf_park h]

theorem park_only (p : Park) (t : State) : Only [.host] t (park r p t) := by
  intro c hc
  cases c <;> simp_all [Comp.same]

theorem ringOf_park_ne {q : Nat} (p : Park) (t : State) (h : q ≠ r) : ringOf q (park r p t) = ringOf q t := by simp [park, ringOf_modRing, h]

/-- A completion of a parked command answers like any other. -/
theorem ok_park_replied {p : Park} {op need : Nat} (h : Ready r op need s f) :
    Replied r op stOK [] [] s (ok r [] (park r p (latched r sid s))) := by
  obtain ⟨-, -, hf, hop, -, -⟩ := h
  subst hop
  exact (finish_replied (inflightOf_park (inflightOf_latched hf)) fun q hq => (ringOf_park_ne _ _ hq).trans (ringOf_latched_ne hq) :)

end

end

/-- Settles O10: each command passes or fails its checks, and acts in the state in which its counters are latched. -/
theorem systemCommands : Obligations.SystemCommands := by
  refine ⟨fun s r f => ⟨nop_answers, ?_, ?_, ?_, ?_, fun q g h hq _ hg hp => fenceCancel_ends h hq hg hp,
    fun q c h hq => fenceCancel_refuses c h hq⟩, fun s r sid addr len f => ⟨⟨?_, ?_⟩, ?_, ?_⟩⟩
  · intro c h hl hv h1 h2 h3 h4 h5 h6 h7
    exact hostConfig_stores h ((hostCfgOk_iff c).2 ⟨hl, hv, ⟨h1, h2⟩, h3, ⟨h4, h5⟩, h6, h7⟩)
  · rintro c h ⟨v, hv, hbig⟩
    refine hostConfig_refuses h (Bool.eq_false_iff.2 fun hok => ?_)
    obtain ⟨-, hall, -⟩ := (hostCfgOk_iff c).1 hok
    exact absurd (hall v hv) (Nat.not_le.2 hbig)
  · intro h he
    rw [sysFence_acts h, if_pos he]
  · intro h he
    rw [Parks, sysFence_acts h, if_neg he]
  · intro h hc hm
    rw [poolRead_acts h hc, poolMigrates_latched, hm, if_neg Bool.false_ne_true]
  · intro h hc hm
    rw [Parks, poolRead_acts h hc, poolMigrates_latched, if_pos hm]
  · intro item lines h hc hi hm
    rw [poolWrite_acts lines h hc hi.1 (.inr hi), poolMigrates_latched, hm, if_neg Bool.false_ne_true]
  · intro item lines h hc ha hm
    refine ⟨_, poolWrite_acts lines h hc ha (.inl rfl), ?_⟩
    obtain ⟨-, -, hf, -, -, -⟩ := id h
    rw [poolMigrates_latched, hm, if_neg Bool.false_ne_true, poolWriteStart_nil lines (inflightOf_latched hf)]
    exact ⟨ok_only (by simp) (by simp) ((park_only _ _).mono (by simp)), ok_park_replied h⟩

end Sys2Proof.Machine
end

section
/-! PROOFS. Ring states and interrupts (O42; 10 R353 to R358, R365, R374, R381). -/

namespace Sys2Proof.Machine

section
variable (s : State) (r n : Nat) (event : Bool)

theorem exec_ringStart : exec (.ringStart r) s = execRingStart r s := rfl
theorem exec_ringReset : exec (.ringReset r) s = execRingReset r s := rfl
theorem exec_commandDoorbell : exec (.commandDoorbell r n) s = execCommandDoorbell r n s := rfl
theorem exec_consumerDoorbell : exec (.consumerDoorbell r n) s = execConsumerDoorbell r n s := rfl
theorem exec_ringDmaError : exec (.ringDmaError r) s = execRingDmaError r s := rfl
theorem exec_irqCauseClear : exec (.irqCauseClear n) s = execIrqCauseClear n s := rfl
theorem exec_statusInterrupt : exec (.statusInterrupt event) s = execStatusInterrupt event s := rfl

end

/-! ### Interrupts (R365) -/

theorem sendVec_host (v : Nat) (s : State) : (sendVec v s).host = { s.host with pba := (sendVec v s).host.pba } := by
  unfold sendVec
  split <;> rfl

/-- Raising a source sets its cause bit, and its vector's message is sent or pending. -/
theorem raiseIrq_host (src : Nat) (s : State) : (raiseIrq src s).host
    = { s.host with irqCause := s.host.irqCause ||| (1#5 <<< src), pba := (raiseIrq src s).host.pba } := sendVec_host ..

theorem raiseIrq_irqCause (src : Nat) (s : State) : (raiseIrq src s).host.irqCause = s.host.irqCause ||| (1#5 <<< src) :=
  congrArg HostIf.irqCause (raiseIrq_host src s)

theorem raiseIrq_only (src : Nat) (s : State) : Only [.host, .outs] s (raiseIrq src s) := by
  intro c hc
  cases c <;> simp_all [Comp.same]

/-- Raising a source takes nothing back that was put out. -/
theorem raiseIrq_hostOut {x : HostOut} {s : State} (h : x ∈ s.hostOut) (src : Nat) : x ∈ (raiseIrq src s).hostOut := by
  unfold raiseIrq sendVec
  split <;> simp [h]

theorem ringOf_raiseIrq (q src : Nat) (s : State) : ringOf q (raiseIrq src s) = ringOf q s := by simp [ringOf]

/-! ### Rings -/

theorem modRing_modRing (r : Nat) (f g : Ring → Ring) (s : State) : modRing r f (modRing r g s) = modRing r (f ∘ g) s := by
  simp [modRing, List.modify_modify_eq]

theorem modRing_only (r : Nat) (f : Ring → Ring) (s : State) : Only [.host] s (modRing r f s) := by
  intro c hc
  cases c <;> simp_all [Comp.same]

theorem haltRing_only (r cause : Nat) (s : State) : Only [.host, .outs] s (haltRing r cause s) :=
  ((modRing_only r _ s).mono (by simp)).trans (raiseIrq_only 3 _)

section
variable {s : State} {r : Nat} {g : Ring}

theorem ringOf_modRing_self (hg : ringOf r s = some g) (f : Ring → Ring) : ringOf r (modRing r f s) = some (f g) := by
  simp [ringOf_modRing, hg]

theorem ringOf_modRing_ne {q : Nat} (hq : q ≠ r) (f : Ring → Ring) : ringOf q (modRing r f s) = ringOf q s := by simp [ringOf_modRing, hq]

theorem ringOf_haltRing (hg : ringOf r s = some g) (cause : Nat) : ringOf r (haltRing r cause s) = some { g with st := .halted, cause := cause } :=
  (ringOf_raiseIrq ..).trans (ringOf_modRing_self hg _)

theorem haltRing_irqCause (cause : Nat) : (haltRing r cause s).host.irqCause = s.host.irqCause ||| 8 := raiseIrq_irqCause ..

/-! ### START and RESET (R357, R374; log 36) -/

/-- The bounce region and Bus Master Enable are as a ring needs them, and so is the ring's size. -/
def SetUp (g : Ring) (s : State) : Prop :=
  (4 ≤ g.size ∧ g.size ≤ 16) ∧ (1 ≤ s.host.bounceSize ∧ s.host.bounceSize ≤ 16384) ∧ s.host.bme = true

theorem startRing_runs (hg : ringOf r s = some g) (hst : g.st = .stopped) (hn : g.stored = none) (hs : s.pen.session = true) (hu : SetUp g s)
    (hr : r ≠ 5) : startRing r s = modRing r (fun g => { g with st := .running, cause := 0, stored := none }) s := by
  obtain ⟨⟨h1, h2⟩, ⟨h3, h4⟩, h5⟩ := hu
  have hb : ¬(g.size < 4 ∨ 16 < g.size ∨ s.host.bounceSize = 0 ∨ 16384 < s.host.bounceSize ∨ s.host.bme = false) := by
    rw [h5]
    rintro (h | h | h | h | h)
    exacts [absurd h1 (Nat.not_le.2 h), absurd h2 (Nat.not_le.2 h), absurd h3 (h ▸ by decide), absurd h4 (Nat.not_le.2 h), absurd h (by decide)]
  simp [startRing, hg, hst, hs, if_neg hb, hn, hr]

theorem startRing_unattended (hg : ringOf r s = some g) (hst : g.st = .stopped) (hs : s.pen.session = false) :
    startRing r s = modRing r (fun g => { g with cause := 6 }) s := by
  simp [startRing, hg, hst, hs]

theorem startRing_started (hg : ringOf r s = some g) (hst : g.st ≠ .stopped) : startRing r s = s := by simp [startRing, hg, hst]

theorem ringOf_stopRing (q : Nat) : ringOf q (stopRing r s) = ringOf q (modRing r (resetRing' none) s) := by
  unfold stopRing
  dsimp only
  split <;> rfl

theorem stopRing_only : Only [.host] s (stopRing r s) := by
  unfold stopRing
  exact Only.ite ((modRing_only r _ s).trans (setHost_only _ _)) (modRing_only r _ s)

/-! ### Doorbells (R354; log 58) -/

theorem takeDoorbell_takes (hg : ringOf r s = some g) {p : Nat} (hp : takeDoorbell.sub32 p g.cons ≤ 2 ^ g.size) : takeDoorbell r p s
    = modRing r (fun g => { g with prod := p, doorbell := p, bells := if p = g.prod then g.bells else g.bells ++ [(p, g.bellAt)] }) s := by
  simp [takeDoorbell, hg, ringSlots, hp]

theorem takeDoorbell_halts (hg : ringOf r s = some g) {p : Nat} (hp : ¬takeDoorbell.sub32 p g.cons ≤ 2 ^ g.size) :
    takeDoorbell r p s = haltRing r 2 s := by
  simp [takeDoorbell, hg, ringSlots, hp]

/-! ### The events -/

section
variable (hh : s.glb.hubReset = false)
include hh

theorem commandDoorbell_running (hg : ringOf r s = some g) (hr : r < 4) {p : Nat} (hp : p < 2 ^ 32) (hst : g.st = .running) :
    exec (.commandDoorbell r p) s = .next (takeDoorbell r p (modRing r (fun g => { g with bellAt := s.now }) s)) := by
  simp only [exec_commandDoorbell, execCommandDoorbell, act, Nat.mod_eq_of_lt hp]
  simp [hh, Nat.not_le.2 hr, hg, hst]

theorem commandDoorbell_stores (hg : ringOf r s = some g) (hr : r < 4) {p : Nat} (hp : p < 2 ^ 32) (hst : g.st ≠ .running) :
    exec (.commandDoorbell r p) s = .next (modRing r (fun g => { g with bellAt := s.now, stored := some p }) s) := by
  simp only [exec_commandDoorbell, execCommandDoorbell, act, Nat.mod_eq_of_lt hp]
  simp [hh, Nat.not_le.2 hr, hg, hst, modRing_modRing, Function.comp_def]

theorem consumerDoorbell_counts (hg : ringOf r s = some g) (hr : 4 ≤ r) {c : Nat} (hc : c < 2 ^ 32) : exec (.consumerDoorbell r c) s = .next
    (if takeDoorbell.sub32 c g.cons ≤ takeDoorbell.sub32 g.prod g.cons then modRing r (fun g => { g with cons := c, doorbell := c }) s
      else raiseIrq 3 { s with host.doorbellErr := add32 s.host.doorbellErr 1 }) := by
  simp only [exec_consumerDoorbell, execConsumerDoorbell, act, Nat.mod_eq_of_lt hc]
  simp [hh, Nat.not_lt.2 hr, hg]

end

theorem ringDmaError_halts (hg : ringOf r s = some g) (hst : g.st = .running) (hd : s.dma = true) :
    exec (.ringDmaError r) s = .next (haltRing r 5 s) := by
  simp [exec_ringDmaError, execRingDmaError, act, hg, hst, hd]

/-- Bits written as ones are cleared; a source has its bit among the five or none. -/
theorem clearCauses_getLsbD (x : BitVec 5) (mask b : Nat) : (x &&& ~~~BitVec.ofNat 5 mask).getLsbD b = (x.getLsbD b && !mask.testBit b) := by
  rw [BitVec.getLsbD_and, BitVec.getLsbD_not, BitVec.getLsbD_ofNat]
  by_cases hb : b < 5
  · simp only [hb, decide_true, Bool.true_and]
  · simp only [BitVec.getLsbD_of_ge x b (Nat.not_lt.1 hb), Bool.false_and]

theorem statusInterrupt_raises (hgap : s.twin.gap = none) (h0 : s.host.stUnsig ≠ 0)
    (hdue : s.host.cfg.countStatus ≤ s.host.stUnsig ∨ s.host.stFirst + s.host.cfg.waitStatus ≤ s.now) :
    exec (.statusInterrupt false) s = .next (raiseIrq 0 { s with host.stUnsig := 0 }) := by
  simp [exec_statusInterrupt, execStatusInterrupt, act, hgap, h0, hdue]

theorem eventInterrupt_waits (hc : s.host.evUnsig < s.host.cfg.countEvent) (hw : s.now < s.host.evFirst + s.host.cfg.waitEvent) :
    exec (.statusInterrupt true) s = .next s := by
  simp [exec_statusInterrupt, execStatusInterrupt, act, Nat.not_le.2 hc, Nat.not_le.2 hw]

end

/-- Settles O42: each event is one change of its ring, with the PATH source where the path is at fault. -/
theorem ringEvents : Obligations.RingEvents := by
  intro s r g hh hg
  refine ⟨fun hst hn hs h1 h2 h3 h4 h5 hr => ?_, fun hst hs => ?_, fun hst => ?_, ?_, fun p hr hp hst => ?_,
    fun p hr hp hst => commandDoorbell_stores hh hg hr hp hst, fun c hr hc => ?_, ringDmaError_halts hg,
    ⟨_, ringOf_haltRing hg 5, rfl, rfl, rfl, rfl, rfl⟩, fun mask => ?_, fun hgap h0 hdue => ?_, fun _ hc hw => eventInterrupt_waits hc hw⟩
  · simp [exec_ringStart, execRingStart, act, hh, startRing_runs hg hst hn hs ⟨⟨h1, h2⟩, ⟨h3, h4⟩, h5⟩ hr]
  · simp [exec_ringStart, execRingStart, act, hh, startRing_unattended hg hst hs]
  · simp [exec_ringStart, execRingStart, act, hh, startRing_started hg hst]
  · refine ⟨stopRing r s, _, by simp [exec_ringReset, execRingReset, act, hh], stopRing_only,
      fun q hq => (ringOf_stopRing q).trans (ringOf_modRing_ne hq _), (ringOf_stopRing r).trans (ringOf_modRing_self hg _), ?_⟩
    exact ⟨rfl, rfl, rfl, rfl, rfl, rfl, rfl, rfl, rfl⟩
  · have hbell := ringOf_modRing_self hg fun g => { g with bellAt := s.now }
    rw [commandDoorbell_running hh hg hr hp hst]
    split
    next hfit =>
      rw [takeDoorbell_takes hbell hfit, modRing_modRing]
      exact ⟨_, _, rfl, modRing_only _ _ _, fun q hq => ringOf_modRing_ne hq _, ringOf_modRing_self hg _, rfl, rfl, rfl, hst, rfl, rfl, rfl⟩
    next hpast =>
      rw [takeDoorbell_halts hbell hpast]
      exact ⟨_, _, rfl, ((modRing_only _ _ _).mono (by simp)).trans (haltRing_only _ _ _), ringOf_haltRing hbell 2, rfl, rfl, rfl,
        haltRing_irqCause 2⟩
  · rw [consumerDoorbell_counts hh hg hr hc]
    split
    · rfl
    · refine ⟨_, rfl, ((setHost_only _ _).mono (by simp)).trans (raiseIrq_only _ _), ?_, ?_, raiseIrq_irqCause ..⟩
      · rw [raiseIrq_host]
      · rw [raiseIrq_host]
  · exact ⟨_, rfl, setHost_only _ _, rfl, clearCauses_getLsbD _ _⟩
  · refine ⟨_, statusInterrupt_raises hgap h0 hdue, ((setHost_only _ _).mono (by simp)).trans (raiseIrq_only _ _), ?_, ?_,
      raiseIrq_irqCause .., ?_⟩ <;> rw [raiseIrq_host]

end Sys2Proof.Machine
end

section
/-! PROOFS. Fetching, parked commands, entries written to the host (O43; 10 R350 to R365; 02 R73; 15 R468). -/

namespace Sys2Proof.Machine

section
variable (s : State) (r : Nat) (p : Packet)

theorem exec_commandFetch : exec (.commandFetch r p) s = execCommandFetch r p s := rfl
theorem exec_outputEntryWrite : exec (.outputEntryWrite r) s = execOutputEntryWrite r s := rfl
theorem exec_parkedCommandComplete : exec (.parkedCommandComplete r) s = execParkedCommandComplete r s := rfl

end

/-! ### Fetching (R355, R356) -/

/-- What a packet of a ring with the count and the SEQ of `g` puts in flight (R355). -/
def fetched (p : Packet) (g : Ring) (s : State) : Inflight :=
  ⟨pkOp p, pkCtag p, g.seq, pkLatch p, pkOutOff p, pkOutLen p, s.now, latchOf 0 s, 0, ((g.bells.head?).map (·.2)).getD s.now, none⟩

/-- A ring whose head packet is fetched moves on. -/
def pastHead (f : Inflight) (g : Ring) : Ring :=
  { g with cons := add32 g.cons 1, seq := add64 g.seq 1, since := none, inflight := some f
           bells := g.bells.dropWhile fun b => b.1 == add32 g.cons 1 }

section
variable {s : State} {r : Nat} {g : Ring} {p : Packet}

/-- The ring's turn has come, and the function may read its packet. -/
def Turn (r : Nat) (g : Ring) (s : State) : Prop := s.alive = true ∧ s.dma = true ∧ nextRing s = some r ∧ ringOf r s = some g

/-- The packet is the one that the ring expects in its slot. -/
def Expected (p : Packet) (r : Nat) (g : Ring) : Prop := p.stream = r ∧ p.slot = g.cons % 2 ^ g.size ∧ p.seq = g.seq

theorem commandFetch_fetches (ht : Turn r g s) (hp : Expected p r g) (htag : p.tagOk = true) (hc : ∀ c ∈ packetChks p s, c.bad = false) :
    exec (.commandFetch r p) s = .next (modRing r (pastHead (fetched p g s)) s) := by
  obtain ⟨ha, hd, hn, hg⟩ := ht
  obtain ⟨h1, h2, h3⟩ := hp
  simp only [exec_commandFetch, execCommandFetch, act, ha, Bool.true_eq_false, hd, hn, ne_eq, not_true_eq_false, or_self, ↓reduceIte, hg, h1, h2,
    ringSlots, h3, htag, Host.Outcome.next.injEq]
  split
  next c hb => exact absurd (hb.symm.trans (firstBad_none.2 hc)) (by simp)
  next => rfl

/-- A packet that fails a check of its own is answered at once. -/
theorem commandFetch_answers (ht : Turn r g s) (hp : Expected p r g) (htag : p.tagOk = true) {c : Chk} (hc : firstBad (packetChks p s) = some c) :
    exec (.commandFetch r p) s = .next (finish r c.status c.stage c.index [] [] (modRing r (pastHead (fetched p g s)) s)) := by
  obtain ⟨ha, hd, hn, hg⟩ := ht
  obtain ⟨h1, h2, h3⟩ := hp
  simp only [exec_commandFetch, execCommandFetch, act, ha, Bool.true_eq_false, hd, hn, ne_eq, not_true_eq_false, or_self, ↓reduceIte, hg, h1, h2,
    ringSlots, h3, htag, Host.Outcome.next.injEq]
  split
  next c' hb =>
    obtain rfl := Option.some.inj (hb.symm.trans hc)
    rfl
  next hb => exact absurd (hb.symm.trans hc) (by simp)

theorem commandFetch_sequence (ht : Turn r g s) (hp : ¬Expected p r g) : exec (.commandFetch r p) s = .next (haltRing r 3 s) := by
  obtain ⟨ha, hd, hn, hg⟩ := ht
  have hb : p.stream ≠ r ∨ p.slot ≠ g.cons % ringSlots g ∨ p.seq ≠ g.seq := by
    rw [Expected, not_and_or, not_and_or] at hp
    exact hp
  simp [exec_commandFetch, execCommandFetch, act, ha, hd, hn, hg, if_pos hb]

theorem commandFetch_auth (ht : Turn r g s) (hp : Expected p r g) (htag : p.tagOk = false) :
    exec (.commandFetch r p) s = .next (haltRing r 4 { s with host.authFail := add32 s.host.authFail 1 }) := by
  obtain ⟨ha, hd, hn, hg⟩ := ht
  obtain ⟨h1, h2, h3⟩ := hp
  simp [exec_commandFetch, execCommandFetch, act, ha, hd, hn, hg, h1, h2, h3, htag, ringSlots]

theorem firstBad_packetChks_version (h : pkFmt p ≠ 1) : firstBad (packetChks p s) = some (chk true stVERSION 1) := by
  simp [packetChks, firstBad, bne_iff_ne.2 h]

/-! ### Commands that wait (R363) -/

theorem parkedCommandComplete_goesOn {f : Inflight} {w : Park} (ha : s.alive = true) (hr : r < 4) (hf : inflightOf r s = some f)
    (hw : f.parked = some w) : exec (.parkedCommandComplete r) s = .next (goOn r w s) := by
  simp [exec_parkedCommandComplete, execParkedCommandComplete, act, hf, hw, ha, hr]

/-! ### Entries written to the host (R351, R353, R365) -/

/-- Entries are written: the hub runs and no gap holds them. -/
def Writes (s : State) : Prop := s.glb.hubReset = false ∧ s.tal.running = true ∧ s.twin.gap = none

/-- The ring takes an entry. -/
def Takes (r : Nat) (g : Ring) (s : State) : Prop := s.dma = true ∧ ringOf r s = some g ∧ g.st = .running ∧ 0 < freeSlots g

/-- A ring that has taken an entry. -/
def pastEntry (g : Ring) : Ring := { g with prod := add32 g.prod 1, seq := add64 g.seq 1 }

theorem putEntry_takes (h : Takes r g s) : putEntry r s = some (g.prod % 2 ^ g.size, g.seq, modRing r pastEntry s) := by
  obtain ⟨hd, hg, hst, hn⟩ := h
  simp only [putEntry, hd, hg, hst, hn, ringSlots, and_self, ↓reduceIte]
  rfl

theorem outputEntryWrite_gap (h : s.twin.gap.isSome = true) : exec (.outputEntryWrite r) s = .next s := by
  simp [exec_outputEntryWrite, execOutputEntryWrite, act, h]

/-- A status reply is written behind its output item; that of MODULE_RESET starts its delay. -/
def replyWritten (x : Reply) (g : Ring) (s : State) : State :=
  { s with host.statusQ := s.host.statusQ.drop 1
           glb.resetDue := if x.opcode = 0x0B ∧ x.status = stOK then some (s.now + 1000000) else s.glb.resetDue
           hostOut := s.hostOut ++ (if x.items.isEmpty then [] else [HostOut.item x.ring x.cseq x.items])
             ++ [.status (g.prod % 2 ^ g.size) g.seq (replyBytes x)]
           host.stUnsig := s.host.stUnsig + 1
           host.stFirst := if s.host.stUnsig = 0 then s.now else s.host.stFirst }

theorem replyWritten_only (x : Reply) (g : Ring) (s : State) : Only [.host, .outs, .glb] s (replyWritten x g (modRing 4 pastEntry s)) := by
  intro c hc
  cases c <;> simp_all [Comp.same, replyWritten]

theorem outputEntryWrite_status (hw : Writes s) (ht : Takes 4 g s) {x : Reply} {rest : List Reply} (hx : s.host.statusQ = x :: rest) :
    exec (.outputEntryWrite 4) s = .next (replyWritten x g (modRing 4 pastEntry s)) := by
  obtain ⟨h1, h2, h3⟩ := hw
  cases hi : x.items <;>
    simp [exec_outputEntryWrite, execOutputEntryWrite, act, h1, h2, h3, hx, putEntry_takes ht, replyWritten, State.now, hi]

/-- A fault record is written; the last of its batch raises FAULT. -/
def faultWritten (x : FaultRec) (g : Ring) (s : State) : State :=
  { s with host.faultQ := s.host.faultQ.drop 1, hostOut := s.hostOut ++ [.fault (g.prod % 2 ^ g.size) g.seq (faultBytes x)]
           xlt.batchLast := x.batch }

theorem faultWritten_only (x : FaultRec) (g : Ring) (s : State) : Only [.host, .outs, .xlt] s (faultWritten x g (modRing 5 pastEntry s)) := by
  intro c hc
  cases c <;> simp_all [Comp.same, faultWritten]

theorem outputEntryWrite_fault (hw : Writes s) (ht : Takes 5 g s) {x : FaultRec} {rest : List FaultRec} (hx : s.host.faultQ = x :: rest) :
    exec (.outputEntryWrite 5) s = .next (if x.last then raiseIrq 1 (faultWritten x g (modRing 5 pastEntry s))
      else faultWritten x g (modRing 5 pastEntry s)) := by
  obtain ⟨h1, h2, h3⟩ := hw
  simp [exec_outputEntryWrite, execOutputEntryWrite, act, h1, h2, h3, hx, putEntry_takes ht, faultWritten]

/-- An event record is written and leaves the buffer. -/
def eventWritten (x : Event) (g : Ring) (s : State) : State :=
  { popEvent s with hostOut := s.hostOut ++ [.event (g.prod % 2 ^ g.size) g.seq (eventBytes x)], host.evUnsig := s.host.evUnsig + 1
                    host.evFirst := if s.host.evUnsig = 0 then s.now else s.host.evFirst }

theorem eventWritten_only (x : Event) (g : Ring) (s : State) : Only [.host, .outs] s (eventWritten x g (modRing 6 pastEntry s)) := by
  intro c hc
  cases c <;> simp_all [Comp.same, eventWritten, popEvent]

theorem outputEntryWrite_event (hw : Writes s) (ht : Takes 6 g s) {x : Event} {rest : List Event} (hx : s.host.evBuf = x :: rest) :
    exec (.outputEntryWrite 6) s = .next (eventWritten x g (modRing 6 pastEntry s)) := by
  obtain ⟨h1, h2, h3⟩ := hw
  simp [exec_outputEntryWrite, execOutputEntryWrite, act, h1, h2, h3, hx, putEntry_takes ht, eventWritten, popEvent, State.now]

end

/-- Settles O43: a packet that its ring expects is fetched, and answered at once when a check of its own fails; one that it does not expect halts
the ring; an entry takes the next slot of its ring. -/
theorem fetchAndWrite : Obligations.FetchAndWrite := by
  intro s r g
  refine ⟨fun p ha hd hn hg => ⟨fun h1 h2 h3 htag => ⟨fun hc => ?_, fun hv => ?_⟩, fun hseq => ?_, fun h1 h2 h3 htag => ?_⟩,
    fun x rest hh hr hgap hd hx hg hst hn => ?_, fun x rest hh hr hgap hd hx hg hst hn => ?_, fun x rest hh hr hgap hd hx hg hst hn => ?_,
    outputEntryWrite_gap, fun f cmds ha hr hf hw => ?_, fun f sid epoch ha hr hf hw => parkedCommandComplete_goesOn ha hr hf hw⟩
  · exact ⟨_, _, _, commandFetch_fetches ⟨ha, hd, hn, hg⟩ ⟨h1, h2, h3⟩ htag hc, modRing_only _ _ _, fun q hq => ringOf_modRing_ne hq _,
      ringOf_modRing_self hg _, rfl, rfl, rfl, rfl, rfl, rfl, rfl, rfl, rfl, rfl, rfl, rfl, rfl⟩
  · have hin : inflightOf r (modRing r (pastHead (fetched p g s)) s) = some (fetched p g s) :=
      congrArg (·.bind Ring.inflight) (ringOf_modRing_self hg _)
    obtain ⟨written, hq⟩ := finish_statusQ hin stVERSION 1 0xFFFFF [] []
    exact ⟨_, commandFetch_answers ⟨ha, hd, hn, hg⟩ ⟨h1, h2, h3⟩ htag (firstBad_packetChks_version hv),
      ((modRing_only _ _ _).mono (by simp)).trans (finish_only _ _ _ _ _ _ _), inflightOf_finish .., _, hq, rfl, rfl, rfl, rfl, rfl⟩
  · exact commandFetch_sequence ⟨ha, hd, hn, hg⟩ fun hp => hseq hp.2.2
  · exact commandFetch_auth ⟨ha, hd, hn, hg⟩ ⟨h1, h2, h3⟩ htag
  · refine ⟨_, _, outputEntryWrite_status ⟨hh, hr, hgap⟩ ⟨hd, hg, hst, hn⟩ hx, replyWritten_only _ _ _, ?_, ringOf_modRing_self hg _, rfl, rfl, rfl,
      rfl, rfl⟩
    simp [replyWritten, hx]
  · have hw : Only [.host, .outs, .xlt] s (faultWritten x g (modRing 5 pastEntry s)) := faultWritten_only _ _ _
    refine ⟨_, outputEntryWrite_fault ⟨hh, hr, hgap⟩ ⟨hd, hg, hst, hn⟩ hx, Only.ite (hw.trans ((raiseIrq_only _ _).mono (by simp))) hw, ?_⟩
    cases x.last <;> simp [faultWritten, hx, raiseIrq_irqCause, raiseIrq_hostOut]
  · exact ⟨_, outputEntryWrite_event ⟨hh, hr, hgap⟩ ⟨hd, hg, hst, hn⟩ hx, eventWritten_only _ _ _, 
      congrArg (List.drop 1 · ++ s.host.evKept.take 1) hx, rfl, rfl, rfl⟩
  · have hgo := parkedCommandComplete_goesOn ha hr hf hw
    exact ⟨fun hn => by simp [hgo, goOn, hn], fun hn => by simp [hgo, goOn, hn]⟩

end Sys2Proof.Machine
end

section
/-! PROOFS. The queue of commands (O7; log 1): the shapes that steps are made of.

`f_pending` says that `f` leaves the queue alone. Those that hold by computation are proved by `(rfl)`, in parentheses: `simp` uses a lemma proved by
a bare `rfl` for rewriting by computation only, and then cannot give it to `foldl_pending`, `thenRead_pending` and `readEach_pending`. -/

namespace Sys2Proof.Machine

/-! ### Shapes -/

@[simp] theorem ite_pending (c : Prop) [Decidable c] (s t : State) :
    (if c then s else t).pending = if c then s.pending else t.pending := by
  split <;> rfl

@[simp] theorem ite_snd_pending {α : Type} (c : Prop) [Decidable c] (x y : α × State) :
    (if c then x else y).2.pending = if c then x.2.pending else y.2.pending := by
  split <;> rfl

/-- Steps that leave the queue alone do so one after another. -/
@[simp] theorem foldl_pending {α : Type} {f : State → α → State} (hf : ∀ s a, (f s a).pending = s.pending) (l : List α) (s : State) :
    (l.foldl f s).pending = s.pending :=
  foldl_keeps State.pending hf l s

@[simp] theorem foldl_modShelf_pending (f : State → Nat → Shelf → Shelf) (l : List Nat) (s : State) :
    (l.foldl (fun s sh => modShelf sh (f s sh) s) s).pending = s.pending :=
  foldl_pending (f := fun s sh => modShelf sh (f s sh) s) (fun _ _ => rfl) l s

/-- A fold whose accumulator carries a state. -/
theorem foldl_carry_pending {α β : Type} {get : β → State} {f : β → α → β}
    (hf : ∀ b a, (get (f b a)).pending = (get b).pending) (l : List α) (b : β) : (get (l.foldl f b)).pending = (get b).pending :=
  foldl_keeps (fun b => (get b).pending) hf l b

/-- The queue of a state that a result carries. -/
theorem pending_of_snd {α : Type} {x : α × State} {a : α} {u : State} (e : x = (a, u)) : u.pending = x.2.pending := by rw [e]

/-! ### Reads that go on when the last gave a value -/

@[simp] theorem thenRead_pending {α β : Type} {g : α → State → Option β × State} (hg : ∀ a s, (g a s).2.pending = s.pending)
    (x : Option α × State) : (thenRead x g).2.pending = x.2.pending := by
  obtain ⟨_ | a, s⟩ := x
  · rfl
  · exact hg a s

@[simp] theorem readEach_pending {α β : Type} {g : α → State → Option β × State} (hg : ∀ a s, (g a s).2.pending = s.pending) (l : List α)
    (s : State) : (readEach g l s).2.pending = s.pending := by
  induction l generalizing s with
  | nil => rfl
  | cons a l ih => simp [readEach, hg, ih]

/-! ### Outcomes -/

/-- The command answers a next state with the queue as it was. -/
def KeepsQueue (o : Host.Outcome State Fault Refusal) (s : State) : Prop := ∃ t, o = .next t ∧ t.pending = s.pending

theorem keepsQueue_act {f : State → State} {s : State} (h : (f s).pending = s.pending) : KeepsQueue (act f s) s := ⟨_, rfl, h⟩

theorem after_pending {o : Host.Outcome State Fault Refusal} {s : State} (h : KeepsQueue o s) : (after s o).pending = s.pending := by
  obtain ⟨t, rfl, ht⟩ := h
  exact ht

section
variable {f : State → State} (hf : ∀ s, (f s).pending = s.pending) (s : State)
include hf

theorem keepsQueue_cmdFor (r op sid : Nat) (checks : Inflight → State → List Chk) : KeepsQueue (cmdFor r op sid checks f s) s := by
  refine ⟨_, rfl, ?_⟩
  split
  · rfl
  · split
    · split
      · simp
      · simp [hf]
    · rfl

theorem keepsQueue_cmd (r op : Nat) (checks : Inflight → State → List Chk) : KeepsQueue (cmd r op checks f s) s :=
  keepsQueue_cmdFor hf s r op 0 checks

theorem keepsQueue_memCmd (r op die : Nat) (checks : Inflight → State → List Chk) : KeepsQueue (memCmd r op die checks f s) s := by
  obtain ⟨t, ht, hq⟩ :=
    keepsQueue_cmd hf (if ((inflightOf r s).map (·.opcode)) = some op ∧ s.alive = true then touchDie die s else s) r op checks
  exact ⟨t, ht, hq.trans (by simp)⟩

end

end Sys2Proof.Machine
end

section
/-! PROOFS. The queue of commands (O7), continued: memory, the fabric and the movers. -/

namespace Sys2Proof.Machine

/-! ### Shared operations (09) -/

@[simp] theorem draw_pending (s : State) : (draw s).2.pending = s.pending := (rfl)

@[simp] theorem countDenied_pending (sid : Nat) (s : State) : (countDenied sid s).pending = s.pending := (rfl)

@[simp] theorem flushVecs_pending (s : State) : (flushVecs s).pending = s.pending := by simp [flushVecs]

@[simp] theorem ok_pending (r : Nat) (res : List Nat) (s : State) : (ok r res s).pending = s.pending := by simp [ok]

@[simp] theorem okItem_pending (r : Nat) (items : List OutItem) (s : State) : (okItem r items s).pending = s.pending := by simp [okItem]

@[simp] theorem okStatus_pending (r status : Nat) (res : List Nat) (s : State) : (okStatus r status res s).pending = s.pending := by
  simp [okStatus]

@[simp] theorem refuse_pending (r status stage : Nat) (s : State) : (refuse r status stage s).pending = s.pending := by simp [refuse]

/-! ### Pool memory (03) -/

@[simp] theorem noteUE_pending (l sid finder : Nat) (s : State) : (noteUE l sid finder s).pending = s.pending := by simp [noteUE]

@[simp] theorem noteCE_pending (l : Nat) (s : State) : (noteCE l s).pending = s.pending := by simp [noteCE]

@[simp] theorem noteDecode_pending (l sid finder : Nat) (s : State) : (noteDecode l sid finder s).pending = s.pending := by
  unfold noteDecode
  split <;> simp

@[simp] theorem setSide_pending (l : Nat) (f : Line → Line) (s : State) : (setSide l f s).pending = s.pending := by simp [setSide]

@[simp] theorem setSummary_pending (l : Nat) (v : BitVec 16) (s : State) : (setSummary l v s).pending = s.pending := by simp [setSummary]

@[simp] theorem setCraze_pending (l : Nat) (v : BitVec 4) (s : State) : (setCraze l v s).pending = s.pending := by simp [setCraze]

@[simp] theorem readLocal_pending (l sid : Nat) (s : State) : (readLocal l sid s).2.pending = s.pending := by
  unfold readLocal
  (repeat' split) <;> simp

theorem writeLocal_pending {l sid tag cause : Nat} {d : LineData} {m : BitVec 64} {v : Option (BitVec 16)} {s t : State}
    (h : writeLocal l sid tag d m cause v s = some t) : t.pending = s.pending := by
  unfold writeLocal at h
  split at h
  · split at h
    · cases h
    · obtain rfl := Option.some.inj h
      simp
  · cases h

@[simp] theorem ownLine_pending (l tag : Nat) (d : LineData) (s : State) : (ownLine l tag d s).pending = s.pending := (rfl)

/-! ### Messages to send (09) -/

@[simp] theorem modPortCtr_pending (p : Nat) (f : PortCtr → PortCtr) (s : State) : (modPortCtr p f s).pending = s.pending := (rfl)

@[simp] theorem modAssoc_pending (p aid : Nat) (f : Assoc → Assoc) (s : State) : (modAssoc p aid f s).pending = s.pending := (rfl)

@[simp] theorem noteBreach_pending (sid guarantee reason port meter amount : Nat) (s : State) :
    (noteBreach sid guarantee reason port meter amount s).pending = s.pending := by
  simp [noteBreach]

@[simp] theorem countLate_pending (sid : Nat) (s : State) : (countLate sid s).pending = s.pending := (rfl)

@[simp] theorem sendAt_pending (due p : Nat) (plain : Bool) (m : OutMsg) (s : State) : (sendAt due p plain m s).pending = s.pending := by
  simp [sendAt]

@[simp] theorem sendOn_pending (p : Nat) (plain : Bool) (m : OutMsg) (s : State) : (sendOn p plain m s).pending = s.pending := by
  simp [sendOn]

@[simp] theorem sendWords_pending (p op dst tag tgen status : Nat) (body : List Nat) (s : State) :
    (sendWords p op dst tag tgen status body s).pending = s.pending := by
  simp [sendWords]

@[simp] theorem flushFences_pending (p aid : Nat) (s : State) : (flushFences p aid s).pending = s.pending := by
  unfold flushFences
  split <;> simp

@[simp] theorem closeReq_pending (p aid tag : Nat) (s : State) : (closeReq p aid tag s).pending = s.pending := by simp [closeReq]

@[simp] theorem openReq_pending (p aid tag tgen : Nat) (fence : Bool) (s : State) : (openReq p aid tag tgen fence s).pending = s.pending :=
  (rfl)

@[simp] theorem clearAgentNacks_pending (aid : Nat) (s : State) : (clearAgentNacks aid s).pending = s.pending := (rfl)

@[simp] theorem done_pending (p aid tag tgen sid status : Nat) (line : Option (LineData × Nat)) (old : List Nat) (s : State) :
    (done p aid tag tgen sid status line old s).pending = s.pending := by
  simp [done]

@[simp] theorem doneSt_pending (p aid tag tgen sid status : Nat) (s : State) :
    (doneSt p aid tag tgen sid status s).pending = s.pending := by
  simp [doneSt]

@[simp] theorem sendTracked_pending (p op aid : Nat) (body : List Nat) (line : Option (LineData × Nat)) (pur : Purpose) (s : State) :
    (sendTracked p op aid body line pur s).pending = s.pending := by
  simp [sendTracked]

@[simp] theorem sendHread_pending (hid off : Nat) (pur : Purpose) (s : State) : (sendHread hid off pur s).pending = s.pending := by
  simp [sendHread]

@[simp] theorem sendHwrite_pending (hid off : Nat) (d : LineData) (cause : Nat) (markOnly : Bool) (pur : Purpose) (s : State) :
    (sendHwrite hid off d cause markOnly pur s).pending = s.pending := by
  simp [sendHwrite]

@[simp] theorem chargeF_pending (sid bytes : Nat) (s : State) : (chargeF sid bytes s).2.pending = s.pending := by
  unfold chargeF
  split <;> rfl

@[simp] theorem chargeL_pending (sid lines : Nat) (s : State) : (chargeL sid lines s).2.pending = s.pending := by
  unfold chargeL
  split <;> rfl

@[simp] theorem letPass_pending (p aid tag sid cost lines came : Nat) (s : State) :
    (letPass p aid tag sid cost lines came s).2.pending = s.pending := by
  simp [letPass]

/-! ### Translation (02) -/

@[simp] theorem modLeaf_pending (sid base : Nat) (f : Leaf → Leaf) (s : State) : (modLeaf sid base f s).pending = s.pending := (rfl)

@[simp] theorem closeBatch_pending (s : State) : (closeBatch s).pending = s.pending := by simp [closeBatch]

@[simp] theorem readyRec_pending (r : FaultRec) (s : State) : (readyRec r s).pending = s.pending := by simp [readyRec]

theorem hitFault_pending {w : Waiter} {acc sid page kind : Nat} {big : Bool} {s t : State}
    (h : hitFault w acc sid page big kind s = some t) : t.pending = s.pending := by
  unfold hitFault at h
  split at h
  · cases h
  · split at h
    · obtain rfl := Option.some.inj h
      rfl
    · split at h
      · cases h
      · obtain rfl := Option.some.inj h
        simp

@[simp] theorem hitFault_getD_pending (w : Waiter) (acc sid page : Nat) (big : Bool) (kind : Nat) (s : State) :
    ((hitFault w acc sid page big kind s).getD s).pending = s.pending := by
  cases h : hitFault w acc sid page big kind s with
  | none => rfl
  | some t => exact hitFault_pending h

@[simp] theorem addHeat_pending (sid base n : Nat) (s : State) : (addHeat sid base n s).pending = s.pending := by
  unfold addHeat
  split <;> simp

/-! ### Directory (04) -/

@[simp] theorem modEnt_pending (k : Nat) (f : DirEnt → DirEnt) (s : State) : (modEnt k f s).pending = s.pending := (rfl)

@[simp] theorem setAgent_pending (aid : Nat) (a : Agent) (s : State) : (setAgent aid a s).pending = s.pending := (rfl)

@[simp] theorem entFromSummary_pending (k sid page : Nat) (s : State) : (entFromSummary k sid page s).2.pending = s.pending := by
  unfold entFromSummary
  dsimp only
  (repeat' split) <;> rfl

@[simp] theorem sendSnoop_pending (k : Nat) (inv : Bool) (aid : Nat) (s : State) : (sendSnoop k inv aid s).pending = s.pending := by
  simp [sendSnoop]

@[simp] theorem freeEnt_pending (k : Nat) (s : State) : (freeEnt k s).pending = s.pending := by
  unfold freeEnt
  split <;> simp

@[simp] theorem popHead_pending (k : Nat) (s : State) : (popHead k s).pending = s.pending := by
  unfold popHead
  dsimp only
  (repeat' split) <;> simp

@[simp] theorem clearNacks_pending (aid k : Nat) (s : State) : (clearNacks aid k s).pending = s.pending := (rfl)

@[simp] theorem countAccess_pending (q : Req) (s : State) : (countAccess q s).pending = s.pending := by
  unfold countAccess
  split <;> simp

@[simp] theorem setPresence_pending (k : Nat) (s : State) : (setPresence k s).pending = s.pending := by simp [setPresence]

@[simp] theorem grant_pending (k : Nat) (q : Req) (op : Nat) (line : Option (LineData × Nat)) (s : State) :
    (grant k q op line s).pending = s.pending := by
  simp [grant]

@[simp] theorem doneReq_pending (k : Nat) (q : Req) (status : Nat) (line : Option (LineData × Nat)) (old : List Nat) (s : State) :
    (doneReq k q status line old s).pending = s.pending := by
  unfold doneReq
  split <;> simp

@[simp] theorem deliver_pending (k : Nat) (q : Req) (d : LineData × Nat) (s : State) : (deliver k q d s).pending = s.pending := by
  unfold deliver
  split <;> simp

@[simp] theorem refuseHead_pending (k : Nat) (q : Req) (status : Nat) (s : State) : (refuseHead k q status s).pending = s.pending := by
  simp [refuseHead]

@[simp] theorem wrote_pending (k : Nat) (q : Req) (old : List Nat) (s : State) : (wrote k q old s).pending = s.pending := by simp [wrote]

@[simp] theorem serveLocal_pending (k : Nat) (q : Req) (s : State) : (serveLocal k q s).pending = s.pending := by
  unfold serveLocal
  dsimp only
  split
  · split
    next u e => simp [writeLocal_pending e]
    next => simp
  · split
    next u e => simp [pending_of_snd e]
    next d c u e =>
      have hu : u.pending = s.pending := by simp [pending_of_snd e]
      split
      · simp [hu]
      · split
        next v e' => simp [writeLocal_pending e', hu]
        next => simp [hu]
  · split
    next d u e => simp [pending_of_snd e]
    next u e => simp [pending_of_snd e]

@[simp] theorem modHead_pending (k : Nat) (q : Req) (s : State) : (modHead k q s).pending = s.pending := (rfl)

@[simp] theorem writeRemote_pending (k : Nat) (q : Req) (d : LineData) (c : Nat) (s : State) :
    (writeRemote k q d c s).pending = s.pending := by
  simp [writeRemote]

@[simp] theorem remoteData_pending (k : Nat) (q : Req) (d : LineData) (c : Nat) (s : State) :
    (remoteData k q d c s).pending = s.pending := by
  unfold remoteData
  (repeat' split) <;> simp

@[simp] theorem serveRemote_pending (k : Nat) (e : DirEnt) (q : Req) (s : State) : (serveRemote k e q s).pending = s.pending := by
  unfold serveRemote
  (repeat' split) <;> simp

@[simp] theorem noteRecalled_pending (k : Nat) (s : State) : (noteRecalled k s).pending = s.pending := by simp [noteRecalled]

@[simp] theorem serveHead_pending (k : Nat) (e : DirEnt) (q : Req) (s : State) : (serveHead k e q s).pending = s.pending := by
  unfold serveHead
  split <;> simp

@[simp] theorem markOwned_pending (k aid : Nat) (s : State) : (markOwned k aid s).pending = s.pending := by
  unfold markOwned
  dsimp only
  (repeat' split) <;> simp

@[simp] theorem pump_pending (fuel k : Nat) (s : State) : (pump fuel k s).pending = s.pending := by
  induction fuel generalizing s with
  | zero => rfl
  | succ n ih =>
    unfold pump
    dsimp only
    (repeat' split) <;> simp [ih]

@[simp] theorem pushReq_pending (k : Nat) (q : Req) (s : State) : (pushReq k q s).pending = s.pending := (rfl)

@[simp] theorem newEnt_pending (k : Nat) (q : Req) (s : State) : (newEnt k q s).pending = s.pending := by simp [newEnt]

@[simp] theorem evictLine_pending (v : Nat) (s : State) : (evictLine v s).pending = s.pending := by simp [evictLine]

@[simp] theorem tryWay_pending (w : Nat × Req × Option Nat) (s : State) : (tryWay w s).pending = s.pending := by
  unfold tryWay
  (repeat' split) <;> simp

@[simp] theorem serveWays_pending (n : Nat) (s : State) : (serveWays n s).pending = s.pending := by
  induction n generalizing s with
  | zero => rfl
  | succ n ih => simp [serveWays, ih]

@[simp] theorem pumpLine_pending (k : Nat) (s : State) : (pumpLine k s).pending = s.pending := by simp [pumpLine]

@[simp] theorem dirEnter_pending (k : Nat) (q : Req) (s : State) : (dirEnter k q s).pending = s.pending := by
  unfold dirEnter
  split <;> simp

@[simp] theorem nextReserv_pending (s : State) : (nextReserv s).pending = s.pending := by
  unfold nextReserv
  split <;> rfl

@[simp] theorem nack_pending (k : Nat) (q : Req) (reason : Nat) (s : State) : (nack k q reason s).pending = s.pending := by simp [nack]

@[simp] theorem useResv_pending (k : Nat) (q : Req) (s : State) : (useResv k q s).pending = s.pending := by simp [useResv]

@[simp] theorem dirRequest_pending (k : Nat) (q : Req) (s : State) : (dirRequest k q s).pending = s.pending := by
  unfold dirRequest
  split <;> simp

@[simp] theorem holdCut_pending (reason k : Nat) (s : State) : (holdCut reason k s).pending = s.pending := by
  unfold holdCut
  split <;> simp

@[simp] theorem recallLine_pending (k : Nat) (op : LineOp) (now : Bool) (s : State) : (recallLine k op now s).pending = s.pending := by
  unfold recallLine
  split <;> simp

@[simp] theorem recallPage_pending (ppa : Nat) (op : LineOp) (now : Bool) (s : State) : (recallPage ppa op now s).pending = s.pending := by
  simp [recallPage]

@[simp] theorem writeBackData_pending (k sid : Nat) (d : LineData) (cause : Nat) (s : State) :
    (writeBackData k sid d cause s).pending = s.pending := by
  unfold writeBackData
  split
  · split
    next u e => exact writeLocal_pending e
    next => rfl
  · simp

@[simp] theorem snoopAnswer_pending (k aid : Nat) (back : Option (LineData × Nat)) (gone : Bool) (s : State) :
    (snoopAnswer k aid back gone s).pending = s.pending := by
  unfold snoopAnswer
  (repeat' split) <;> simp

@[simp] theorem leaseEnd_pending (aid cause : Nat) (s : State) : (leaseEnd aid cause s).pending = s.pending := by
  unfold leaseEnd
  dsimp only
  split
  · rfl
  · rw [foldl_pending fun _ _ => flushFences_pending _ _ _]
    refine (foldl_pending (fun u k => ?_) _ _).trans (by simp)
    split
    · split
      · rw [snoopAnswer_pending]
        split <;> simp
      · simp
    · rfl

/-! ### Messages that arrive (04) -/

theorem arrive_pending (m : Mhd) (i : Instr) {serve : Nat → State → State} (hs : ∀ sid s, (serve sid s).pending = s.pending) (s : State) :
    (arrive m i serve s).pending = s.pending := by
  simp [arrive, hs]

theorem metered_pending (m : Mhd) (i : Instr) (cost : Nat) (fence : Bool) {refuse : Nat → State → State} {serve : State → State}
    (hr : ∀ st s, (refuse st s).pending = s.pending) (hs : ∀ s, (serve s).pending = s.pending) (sid : Nat) (s : State) :
    (metered m i cost fence refuse serve sid s).pending = s.pending := by
  unfold metered
  dsimp only
  (repeat' split) <;> simp [hr, hs]

@[simp] theorem refuseLine_pending (m : Mhd) (sid status : Nat) (s : State) : (refuseLine m sid status s).pending = s.pending := by
  simp [refuseLine]

@[simp] theorem zeroAnswer_pending (m : Mhd) (sid cause : Nat) (op : LineOp) (s : State) :
    (zeroAnswer m sid cause op s).pending = s.pending := by
  unfold zeroAnswer
  split <;> simp

@[simp] theorem waitMig_pending (sid base : Nat) (w : MigWait) (s : State) : (waitMig sid base w s).pending = s.pending := (rfl)

@[simp] theorem serveLine_pending (m : Mhd) (i : Instr) (q : Req) (addr sid : Nat) (s : State) :
    (serveLine m i q addr sid s).pending = s.pending := by
  unfold serveLine
  dsimp only
  split
  case h_6 =>
    split
    next u e => simp [hitFault_pending e]
    next => simp
  all_goals simp

@[simp] theorem serveCoh_pending (i : Instr) (s : State) : (serveCoh i s).pending = s.pending := by
  unfold serveCoh
  dsimp only
  (repeat' split) <;> simp

@[simp] theorem arriveCoh_pending (m : Mhd) (i : Instr) (s : State) : (arriveCoh m i s).pending = s.pending :=
  arrive_pending _ _ (fun _ _ => metered_pending _ _ _ _ (by simp) (fun _ => serveCoh_pending ..) _ _) s

@[simp] theorem serveWriteback_pending (m : Mhd) (x : Handle) (lepoch cause : Nat) (line : LineData) (sid : Nat) (s : State) :
    (serveWriteback m x lepoch cause line sid s).pending = s.pending := by
  have hw {e : DirEnt} {u : State} (h : (if isLocal x.line then writeLocal (keyLine x.line) e.sid e.sid line fullMask cause none s
      else some (writeBackData x.line e.sid line cause s)) = some u) : u.pending = s.pending := by
    split at h
    · exact writeLocal_pending h
    · obtain rfl := Option.some.inj h
      simp
  unfold serveWriteback
  dsimp only
  split
  · simp
  · split
    · simp
    · split
      · simp
      · split
        · simp
        · split
          · simp
          · split
            next => simp
            next u e => simp [hw e]

@[simp] theorem arriveRsp_pending (m : Mhd) (i : Instr) (x : Handle) (back : Option (LineData × Nat)) (gone : Bool) (s : State) :
    (arriveRsp m i x back gone s).pending = s.pending :=
  arrive_pending _ _ (by simp) s

@[simp] theorem joinAck_pending (m : Mhd) (status lepoch : Nat) (c : CohCfg) (s : State) :
    (joinAck m status lepoch c s).pending = s.pending := by
  simp [joinAck]

@[simp] theorem serveJoin_pending (m : Mhd) (kind sid : Nat) (s : State) : (serveJoin m kind sid s).pending = s.pending := by
  simp [serveJoin]

@[simp] theorem servePulse_pending (m : Mhd) (lepoch : Nat) (s : State) : (servePulse m lepoch s).pending = s.pending := by
  simp [servePulse]

@[simp] theorem superseded_pending (name : Nat) (p win : Pub) (s : State) : (superseded name p win s).pending = s.pending := by
  simp [superseded]

@[simp] theorem regionAck_pending (m : Mhd) (status active : Nat) (s : State) : (regionAck m status active s).pending = s.pending := by
  simp [regionAck]

@[simp] theorem drainHolder_pending (hid : Nat) (s : State) : (drainHolder hid s).pending = s.pending := by simp [drainHolder]

@[simp] theorem owe_pending (name kind : Nat) (old new : Pub) (s : State) : (owe name kind old new s).pending = s.pending := by
  unfold owe
  (repeat' split) <;> simp

@[simp] theorem servePublish_pending (m : Mhd) (p : Publication) (sid : Nat) (s : State) :
    (servePublish m p sid s).pending = s.pending := by
  unfold servePublish
  dsimp only
  (repeat' split) <;> simp

@[simp] theorem owedRecord_pending (name sid : Nat) (o : Owed) (s : State) : (owedRecord name sid o s).pending = s.pending := by
  simp [owedRecord]

@[simp] theorem regionRecord_pending (name kind : Nat) (s : State) : (regionRecord name kind s).pending = s.pending := by
  unfold regionRecord
  (repeat' split) <;> simp

/-! ### Coherence and holders (04) -/

@[simp] theorem bindRegion_pending (name hid : Nat) (s : State) : (bindRegion name hid s).pending = s.pending := by
  unfold bindRegion
  dsimp only
  (repeat' split) <;> simp

@[simp] theorem resolveRegion_pending (name choice : Nat) (s : State) : (resolveRegion name choice s).pending = s.pending := by
  unfold resolveRegion
  (repeat' split) <;> simp

@[simp] theorem scanEntry_pending (aid k : Nat) (s : State) : (scanEntry aid k s).pending = s.pending := by
  unfold scanEntry
  split <;> simp

/-! ### Movers (05) -/

@[simp] theorem takeAnswer_pending (w : Who) (s : State) : (takeAnswer w s).2.pending = s.pending := by
  unfold takeAnswer
  split <;> rfl

@[simp] theorem devCharge_pending (q : Req) (s : State) : (devCharge q s).2.pending = s.pending := by simp [devCharge]

@[simp] theorem devAsk_pending (k : Nat) (q : Req) (s : State) : (devAsk k q s).2.pending = s.pending := by
  unfold devAsk
  split
  next r u e => simp [pending_of_snd e]
  next u e =>
    have hu : u.pending = s.pending := by simp [pending_of_snd e]
    dsimp only
    split
    · exact hu
    · split
      next v e => simp [pending_of_snd e, hu]
      next v e => split <;> simp [pending_of_snd e, hu]

@[simp] theorem devAt_pending (ppa : Nat) (q : Req) (s : State) : (devAt ppa q s).2.pending = s.pending := by
  unfold devAt
  split <;> simp

@[simp] theorem sendCompletion_pending (due : Nat) (sub : Nat × Nat × Nat × Nat) (status : Nat) (rec : List Nat) (s : State) :
    (sendCompletion due sub status rec s).pending = s.pending := by
  simp [sendCompletion]

@[simp] theorem modRun_pending (mid : Nat) (f : MRun → MRun) (s : State) : (modRun mid f s).pending = s.pending := (rfl)

@[simp] theorem endRun_pending (x : MRun) (s : State) : (endRun x s).pending = s.pending := by
  unfold endRun
  (repeat' split) <;> simp

@[simp] theorem breakChain_pending (id : Nat) (s : State) : (breakChain id s).pending = s.pending := by simp [breakChain]

@[simp] theorem completeRun_pending (x : MRun) (s : State) : (completeRun x s).pending = s.pending := by
  unfold completeRun
  split <;> simp

@[simp] theorem hitMore_pending (w : Waiter) (acc : Nat) (f : Fault') (s : State) : (hitMore w acc f s).pending = s.pending := (rfl)

@[simp] theorem hitPages_pending (w : Waiter) (sid acc kind : Nat) (ps : List (Nat × PageRes)) (s : State) :
    (hitPages w sid acc kind ps s).pending = s.pending :=
  foldl_pending (fun _ _ => by (repeat' split) <;> simp) _ _

@[simp] theorem acceptMove_pending (x : MRun) (s : State) : (acceptMove x s).pending = s.pending := by simp [acceptMove]

@[simp] theorem refuseWork_pending (m : Mhd) (sid kind tag glaze status : Nat) (s : State) :
    (refuseWork m sid kind tag glaze status s).pending = s.pending := by
  simp [refuseWork]

@[simp] theorem setChain_pending (p aid : Nat) (c : Option Chain) (s : State) : (setChain p aid c s).pending = s.pending := (rfl)

@[simp] theorem endChain_pending (p aid : Nat) (c : Chain) (s : State) : (endChain p aid c s).pending = s.pending := by simp [endChain]

@[simp] theorem serveMove_serve1_pending (m : Mhd) (d : MoveDesc) (sid : Nat) (c : Chain) (s : State) :
    (serveMove.serve1 m d sid c s).pending = s.pending := by
  unfold serveMove.serve1
  dsimp only
  (repeat' split) <;> simp

@[simp] theorem serveMove_pending (m : Mhd) (d : MoveDesc) (s : State) : (serveMove m d s).pending = s.pending := by
  unfold serveMove
  dsimp only
  (repeat' split) <;> simp

@[simp] theorem countMoved_pending (mid page : Nat) (s : State) : (countMoved mid page s).pending = s.pending := by
  unfold countMoved
  split <;> simp

@[simp] theorem gotSource_pending (x : MRun) (l : Nat) (v : LineData × Nat) (s : State) : (gotSource x l v s).pending = s.pending := by
  simp [gotSource]

@[simp] theorem failRun_pending (mid status : Nat) (s : State) : (failRun mid status s).pending = s.pending := (rfl)

@[simp] theorem readSource_pending (x : MRun) (l off : Nat) (s : State) : (readSource x l off s).2.pending = s.pending := by
  unfold readSource
  split
  · rfl
  · split
    next d c u e => simp [pending_of_snd e]
    next st u e => (repeat' split) <;> simp [pending_of_snd e]
    next u e => simp [pending_of_snd e]

@[simp] theorem moveOn_pending (x : MRun) (c : Nat) (s : State) : (moveOn x c s).pending = s.pending := by simp [moveOn]

@[simp] theorem writeDest_pending (x : MRun) (s : State) : (writeDest x s).2.pending = s.pending := by
  unfold writeDest
  split
  · rfl
  · split
    dsimp only
    split
    next u e => simp [pending_of_snd e]
    next st u e => (repeat' split) <;> simp [pending_of_snd e]
    next u e => simp [pending_of_snd e]

@[simp] theorem moveLine_pending (mid : Nat) (s : State) : (moveLine mid s).2.pending = s.pending := by
  unfold moveLine
  (repeat' split) <;> simp

@[simp] theorem moveLines_pending (fuel mid : Nat) (s : State) : (moveLines fuel mid s).pending = s.pending := by
  induction fuel generalizing s with
  | zero => rfl
  | succ n ih =>
    unfold moveLines
    split
    next u e => simp [pending_of_snd e]
    next u e => simp [pending_of_snd e, ih]

end Sys2Proof.Machine
end

section
/-! PROOFS. The queue of commands (O7), continued: firings and windows. -/

namespace Sys2Proof.Machine

/-! ### Firings (06) -/

@[simp] theorem streamLine_pending (fid sid pva : Nat) (s : State) : (streamLine fid sid pva s).pending = s.pending := by
  unfold streamLine
  split <;> simp

@[simp] theorem readBytes_pending (fid sid : Nat) (r : Run) (off n : Nat) (s : State) :
    (readBytes fid sid r off n s).2.pending = s.pending := by
  unfold readBytes
  dsimp only
  split
  · rfl
  · refine foldl_carry_pending (get := Prod.snd) (fun p i => ?_) _ _
    split
    · rfl
    · split
      · rfl
      · split
        · split
          next u e => simp [pending_of_snd e]
          next u e => simp [pending_of_snd e]
        · rfl

@[simp] theorem readTable_pending (fid sid n : Nat) (e : Ctx) (runs : List (Nat × Run)) (s : State) :
    (readTable fid sid n e runs s).2.pending = s.pending := by
  unfold readTable
  split
  · rfl
  · split
    next u e => simp [pending_of_snd e]
    next u e => simp [pending_of_snd e]

@[simp] theorem firingFaults_pending (f : Firing) (s : State) : (firingFaults f s).pending = s.pending :=
  foldl_pending (fun _ _ => by (repeat' split) <;> simp) _ _

@[simp] theorem flushClaims_pending (s : State) : (flushClaims s).pending = s.pending := by simp [flushClaims]

@[simp] theorem freeShelf_pending (sh : Nat) (s : State) : (freeShelf sh s).pending = s.pending := (rfl)

@[simp] theorem winRest_pending (w : Nat) (rearm : Bool) (s : State) : (winRest w rearm s).pending = s.pending := by
  unfold winRest
  split <;> simp

@[simp] theorem endFiring_pending (f : Firing) (s : State) : (endFiring f s).pending = s.pending := by
  unfold endFiring
  (repeat' split) <;> simp

/-- Stated for every page size: the kernel must not compute with the real one. -/
theorem recallPages_pending (size : Nat) (ps : List (Nat × Bool)) (s : State) :
    (ps.foldl (fun s p => recallPage (localPpa (p.1 * size)) (if p.2 then .recallInv else .recallShare) false s) s).pending =
      s.pending := by
  simp

@[simp] theorem requestClaims_pending (fid : Nat) (s : State) : (requestClaims fid s).pending = s.pending := by
  unfold requestClaims
  split
  · rfl
  · dsimp only
    split
    · rfl
    · exact recallPages_pending (2 ^ 21) _ _

@[simp] theorem bakeTables_pending (f : Firing) (s : State) : (bakeTables f s).2.2.pending = s.pending := by
  refine foldl_carry_pending (get := fun p : Firing × Option Nat × State => p.2.2) (fun p c => ?_) _ _
  obtain ⟨f, bad, u⟩ := p
  dsimp only
  split
  · rfl
  · split
    next v e => simp [pending_of_snd e]
    next v e => simp [pending_of_snd e]

@[simp] theorem setFiring_pending (f : Firing) (s : State) : (setFiring f s).pending = s.pending := (rfl)

@[simp] theorem advanceFiring_pending (fid : Nat) (s : State) : (advanceFiring fid s).pending = s.pending := by
  unfold advanceFiring
  split
  · rfl
  next f _ =>
    split
    · rfl
    · have hb := bakeTables_pending f s
      split
      next f' bad u e =>
        have hu : u.pending = s.pending := by rwa [e] at hb
        split <;> simp [hu]

@[simp] theorem acceptFiring_pending (f : Firing) (s : State) : (acceptFiring f s).pending = s.pending := by simp [acceptFiring]

@[simp] theorem stopFiring_pending (fid status : Nat) (s : State) : (stopFiring fid status s).pending = s.pending := by
  unfold stopFiring
  split <;> simp

@[simp] theorem starveParts_pending (s : State) : (starveParts s).pending = s.pending := by simp [starveParts]

/-! ### Lanes (06) -/

@[simp] theorem splitWords_pending (f : Firing) (sl : Slot) (c : Nat × Nat × Nat) (s : State) :
    (splitWords f sl c s).2.pending = s.pending := by
  simp [splitWords]

@[simp] theorem readAhead_pending (f : Firing) (sl : Slot) (n : Nat) (cs : List (Nat × Nat × Nat)) (s : State) :
    (readAhead f sl n cs s).2.pending = s.pending := by
  induction cs generalizing n s with
  | nil => rfl
  | cons c cs ih => simp [readAhead, ih]

@[simp] theorem feedStream_pending (f : Firing) (x : Shelf) (p : Nat × Nat) (s : State) : (feedStream f x p s).2.pending = s.pending := by
  unfold feedStream
  split <;> simp

@[simp] theorem feedAll_pending (f : Firing) (ps : List (Nat × Nat)) (x : Shelf) (s : State) :
    (feedAll f ps x s).2.pending = s.pending := by
  induction ps generalizing x s with
  | nil => rfl
  | cons p r ih => simp [feedAll, ih]

@[simp] theorem bcastWords_pending (f : Firing) (sl : Slot) (s : State) : (bcastWords f sl s).2.pending = s.pending := by simp [bcastWords]

@[simp] theorem kvRows_pending (f : Firing) (e : Ctx) (p : Piece) (sec : Nat) (s : State) : (kvRows f e p sec s).2.pending = s.pending := by
  simp [kvRows]

@[simp] theorem bagSpan_pending (f : Firing) (e : Ctx) (p : Piece) (s : State) : (bagSpan f e p s).2.pending = s.pending := by
  simp [bagSpan]

@[simp] theorem bagRows_pending (f : Firing) (c : CtxSt) (p : Piece) (first n : Nat) (s : State) :
    (bagRows f c p first n s).2.pending = s.pending := by
  refine (thenRead_pending (fun bs u => ?_) _).trans (by simp)
  refine (thenRead_pending (fun rows v => rfl) _).trans (readEach_pending (fun i v => ?_) _ _)
  split
  · exact (thenRead_pending (fun _ _ => rfl) _).trans (by simp)
  · rfl

@[simp] theorem pieceWords_pending (f : Firing) (sl : Slot) (i : Nat) (s : State) : (pieceWords f sl i s).2.pending = s.pending := by
  unfold pieceWords
  split <;> simp

@[simp] theorem laneStream_pending (f : Firing) (bc : List (List SWord)) (gr : List Nat) (n : Nat) (s : State) :
    (laneStream f bc gr n s).2.pending = s.pending := by
  unfold laneStream
  (repeat' split) <;> simp

@[simp] theorem glazeIntact_pending (g : Glaze) (s : State) : (glazeIntact g s).2.pending = s.pending :=
  foldl_carry_pending (get := Prod.snd) (fun a _ => by simp) _ _

@[simp] theorem loadGlaze_pending (g : Glaze) (sh : Nat) (s : State) : (loadGlaze g sh s).2.pending = s.pending := by
  unfold loadGlaze
  split <;> simp

@[simp] theorem countLine_pending (fid cause : Nat) (s : State) : (countLine fid cause s).pending = s.pending := (rfl)

@[simp] theorem sendPush_pending (f : Firing) (o : OutLine) (cause : Nat) (s : State) : (sendPush f o cause s).pending = s.pending := by
  unfold sendPush
  split <;> simp

@[simp] theorem countNine_pending (k cause : Nat) (s : State) : (countNine k cause s).pending = s.pending := by simp [countNine]

@[simp] theorem tagStop_pending (fid : Nat) (s : State) : (tagStop fid s).pending = s.pending := by simp [tagStop]

@[simp] theorem writeOut_pending (f : Firing) (k role : Nat) (o : OutLine) (cause : Nat) (s : State) :
    (writeOut f k role o cause s).pending = s.pending := by
  unfold writeOut
  dsimp only
  split
  · simp
  · split
    · rfl
    · split
      next u e => simp [writeLocal_pending e]
      next => simp

@[simp] theorem commitOut_pending (f : Firing) (k : Nat) (gr : List Nat) (role sent : Nat) (bs : List (Nat × Nat)) (nine : Bool) (s : State) :
    (commitOut f k gr role sent bs nine s).pending = s.pending := by
  simp [commitOut]

@[simp] theorem commitLane_pending (f : Firing) (k : Nat) (gr old : List Nat) (nine : Bool) (l : Lane) (s : State) :
    (commitLane f k gr old nine l s).2.pending = s.pending := by
  simp [commitLane]

@[simp] theorem endPart_pending (fid i : Nat) (s : State) : (endPart fid i s).pending = s.pending := by
  unfold endPart
  (repeat' split) <;> simp

@[simp] theorem checkPart_pending (fid sh : Nat) (s : State) : (checkPart fid sh s).pending = s.pending := by
  unfold checkPart
  (repeat' split) <;> simp

@[simp] theorem countRepeat_pending (sid : Nat) (x : Shelf) (s : State) : (countRepeat sid x s).pending = s.pending := by simp [countRepeat]

@[simp] theorem commitShelf_pending (sh : Nat) (s : State) : (commitShelf sh s).pending = s.pending := by
  unfold commitShelf
  split
  · rfl
  · split
    · rfl
    · split
      · rfl
      · simp only [checkPart_pending, traceHub_pending, modShelf_pending, countRepeat_pending]
        exact foldl_carry_pending (get := Prod.snd) (fun a _ => by simp) _ _

@[simp] theorem restoreShelf_pending (sh sid : Nat) (s : State) : (restoreShelf sh sid s).pending = s.pending := by
  simp only [restoreShelf, modShelf_pending]
  cases shelfOf sh s <;> simp

@[simp] theorem markShelf_pending (sh : Nat) (s : State) : (markShelf sh s).pending = s.pending := by
  unfold markShelf
  dsimp only
  split <;> rfl

@[simp] theorem mismatch_pending (sh l : Nat) (s : State) : (mismatch sh l s).pending = s.pending := by
  unfold mismatch
  split
  · rfl
  · extract_lets pos st k u last u1 u2 u3
    split
    · rfl
    · have h2 : u2.pending = s.pending := by
        unfold u2
        split <;> rfl
      generalize hp : (if st = 0 then _ else _ : Bool × State) = p
      have hm : p.2.pending = s.pending := by
        rw [← hp]
        (repeat' split) <;> simp [u, u3, h2]
      obtain ⟨dead, v⟩ := p
      dsimp only at hm ⊢
      (repeat' split) <;> simp [hm]

@[simp] theorem refusePart_pending (f : Firing) (sh : Nat) (s : State) : (refusePart f sh s).pending = s.pending := by
  unfold refusePart
  split <;> simp

@[simp] theorem feed_pending (sh : Nat) (s : State) : (feed sh s).pending = s.pending := by
  unfold feed
  dsimp only
  (repeat' split) <;> simp

@[simp] theorem buildLanes_pending (f : Firing) (p : Part) (bc : List (List SWord)) (sh base : Nat) (s : State) :
    (buildLanes f p bc sh base s).2.pending = s.pending := by
  simp [buildLanes]

@[simp] theorem startPart_pending (f : Firing) (i : Nat) (p : Part) (s : State) : (startPart f i p s).pending = s.pending := by
  unfold startPart
  lift_lets
  extract_lets before bcast all u v w
  have hb : bcast.2.pending = s.pending := readEach_pending (fun n u => by split <;> simp) _ _
  have ha : all.2.pending = s.pending := by
    refine (thenRead_pending (fun bc u => ?_) _).trans hb
    refine (thenRead_pending (fun cb v => ?_) _).trans ?_
    · exact readEach_pending (fun q v => (thenRead_pending (fun _ _ => by exact modShelf_pending _ _ _) _).trans (by simp)) _ _
    · split <;> simp
  have hw : w.pending = s.pending := by simp [w, v, u, ha]
  clear_value w
  split <;> simp [hw]

@[simp] theorem placePart_pending (fid i : Nat) (shelves : List Nat) (s : State) : (placePart fid i shelves s).pending = s.pending := by
  unfold placePart
  split
  · rfl
  · split
    · rfl
    · lift_lets
      extract_lets p f u v
      have hv : v.pending = s.pending := by simp [v, u]
      clear_value v
      split
      · exact hv
      · split
        · simp [hv]
        next g _ =>
          have hg : (shelves.foldl (fun (a : Bool × State) sh => if a.1 then loadGlaze g sh a.2 else a) (true, v)).2.pending = v.pending :=
            foldl_carry_pending (get := Prod.snd) (fun a sh => by simp) _ _
          simp [hg, hv]

/-! ### Glazes (06) -/

@[simp] theorem countFires_pending (sid n : Nat) (s : State) : (countFires sid n s).pending = s.pending := (rfl)

@[simp] theorem lanewise_pending (sh w : Nat) (pn : Bool) (ps cost : Nat) (isFire : Bool) (op : LaneCtx → Lane → Lane) (s : State) :
    (lanewise sh w pn ps cost isFire op s).pending = s.pending := by
  unfold lanewise
  split <;> simp

@[simp] theorem laneG_pending (sh op : Nat) (g : GArgs) (isFire : Bool) (body : LaneCtx → Lane → Lane) (s : State) :
    (laneG sh op g isFire body s).pending = s.pending := by
  simp [laneG]

@[simp] theorem uniform_pending (sh w : Nat) (body : Firing → Shelf → Shelf) (s : State) : (uniform sh w body s).pending = s.pending := by
  unfold uniform
  split <;> simp

@[simp] theorem doCommit_pending (sh : Nat) (s : State) : (doCommit sh s).pending = s.pending := by
  unfold doCommit
  split <;> simp

@[simp] theorem release_pending (fid sh : Nat) (w : ShWait) (s : State) : (release fid sh w s).pending = s.pending := by
  unfold release
  (repeat' split) <;> simp

@[simp] theorem releaseMates_pending (fid sh : Nat) (s : State) : (releaseMates fid sh s).pending = s.pending := by
  unfold releaseMates
  split <;> simp

@[simp] theorem meet_pending (sh w : Nat) (pn : Bool) (ps : Nat) (wait : ShWait) (x? : Option Nat) (s : State) :
    (meet sh w pn ps wait x? s).pending = s.pending := by
  unfold meet
  dsimp only
  (repeat' split) <;> simp

/-! ### Kiln commands (06) -/

@[simp] theorem wipePages_pending (pages : List Nat) (s : State) : (wipePages pages s).pending = s.pending := by simp [wipePages]

@[simp] theorem installGlaze_put_pending (r : Nat) (img : GlazeImg) (units : List Nat) (rest : List Glaze) (s : State) :
    (installGlaze.put r img units rest s).pending = s.pending := by
  simp [installGlaze.put]

@[simp] theorem installGlaze_pending (r : Nat) (img : GlazeImg) (s : State) : (installGlaze r img s).pending = s.pending := by
  unfold installGlaze
  dsimp only
  (repeat' split) <;> simp

@[simp] theorem serveFire_pending (m : Mhd) (d : FireDesc) (s : State) : (serveFire m d s).pending = s.pending := by
  unfold serveFire
  dsimp only
  (repeat' split) <;> simp

@[simp] theorem execFireCancel_serveCancel_pending (m : Mhd) (ftag : Nat) (s : State) :
    (execFireCancel.serveCancel m ftag s).pending = s.pending := by
  unfold execFireCancel.serveCancel
  dsimp only
  split <;> simp

@[simp] theorem holdClaims_pending (f : Firing) (s : State) : (holdClaims f s).pending = s.pending := by
  unfold holdClaims
  dsimp only
  split
  · simp
  · exact foldl_pending (fun _ _ => by exact modKiln_pending _ _ _) _ _

@[simp] theorem regionLine_pending (f : Firing) (role i : Nat) (s : State) : (regionLine f role i s).2.pending = s.pending := by
  unfold regionLine
  split <;> simp

@[simp] theorem builtinOut_pending (f : Firing) (role : Nat) (o : OutLine) (cause : Nat) (s : State) :
    (builtinOut f role o cause s).pending = s.pending := by
  simp [builtinOut]

@[simp] theorem runFill_pending (f : Firing) (s : State) : (runFill f s).2.pending = s.pending := by simp [runFill]

@[simp] theorem runCopy_pending (f : Firing) (s : State) : (runCopy f s).2.pending = s.pending := by simp [runCopy]

@[simp] theorem compareScan_pending (f : Firing) (ls : List (Nat × Nat)) (s : State) : (compareScan f ls s).2.pending = s.pending := by
  induction ls generalizing s with
  | nil => rfl
  | cons l r ih => simp [compareScan, ih]

@[simp] theorem runCompare_pending (f : Firing) (s : State) : (runCompare f s).2.pending = s.pending := by simp [runCompare]

@[simp] theorem reduceElems_pending (f : Firing) (role e k : Nat) (s : State) : (reduceElems f role e k s).2.pending = s.pending := by
  unfold reduceElems
  split <;> simp

@[simp] theorem reduceLane_pending (f : Firing) (k : Nat) (gr : List Nat) (g : Nat) (s : State) :
    (reduceLane f k gr g s).2.pending = s.pending := by
  unfold reduceLane
  split <;> simp

@[simp] theorem runReduce_pending (f : Firing) (s : State) : (runReduce f s).2.pending = s.pending := by
  refine (thenRead_pending (fun _ _ => rfl) _).trans (readEach_pending (fun p u => ?_) _ _)
  exact (thenRead_pending (fun _ _ => by exact modFiring_pending _ _ _) _).trans (by simp)

@[simp] theorem runBuiltin_pending (f : Firing) (s : State) : (runBuiltin f s).2.pending = s.pending := by
  unfold runBuiltin
  split <;> simp

@[simp] theorem writeSeq_pending (f : Firing) (role : Nat) (bs : List (Nat × Nat)) (s : State) :
    (writeSeq f role bs s).pending = s.pending := by
  simp [writeSeq]

@[simp] theorem fredOut_pending (f : Firing) (n : Nat) (s : State) : (fredOut f n s).pending = s.pending := by
  unfold fredOut
  split <;> simp

@[simp] theorem endParts_pending (f : Firing) (s : State) : (endParts f s).pending = s.pending := by simp [endParts]

@[simp] theorem closeFiring_pending (fid : Nat) (s : State) : (closeFiring fid s).pending = s.pending := by
  unfold closeFiring
  split <;> simp

/-! ### Windows (07) -/

@[simp] theorem setCtx_pending (n : Nat) (e : Ctx) (s : State) : (setCtx n e s).pending = s.pending := (rfl)

@[simp] theorem serveCtxSet_pending (m : Mhd) (n : Nat) (e : Ctx) (s : State) : (serveCtxSet m n e s).pending = s.pending := by
  unfold serveCtxSet
  dsimp only
  (repeat' split) <;> simp

@[simp] theorem roundRecord_pending (w outcome firing : Nat) (s : State) : (roundRecord w outcome firing s).pending = s.pending := by
  unfold roundRecord
  split <;> simp

@[simp] theorem failStep_pending (w status : Nat) (f : Firing) (s : State) : (failStep w status f s).pending = s.pending := by
  simp [failStep]

@[simp] theorem startStep_pending (w id : Nat) (s : State) : (startStep w id s).pending = s.pending := by
  unfold startStep
  split <;> simp

@[simp] theorem closeRound_pending (w : Nat) (s : State) : (closeRound w s).pending = s.pending := by
  unfold closeRound
  split <;> simp

@[simp] theorem serveSegment_pending (m : Mhd) (off round cause : Nat) (data : List Word) (s : State) :
    (serveSegment m off round cause data s).pending = s.pending := by
  unfold serveSegment
  dsimp only
  (repeat' split) <;> simp

@[simp] theorem serveContrib_pending (m : Mhd) (addr round cause : Nat) (data : List Word) (s : State) :
    (serveContrib m addr round cause data s).pending = s.pending := by
  unfold serveContrib
  dsimp only
  split
  · simp
  · split
    · simp
    · simp
    · split
      next u e => exact hitFault_pending e
      next => simp
    · simp
    · simp

end Sys2Proof.Machine
end

section
/-! PROOFS. The queue of commands (O7), continued: translation, holders, saggers and links. -/

namespace Sys2Proof.Machine

/-! ### Translation commands (02) -/

@[simp] theorem tableEntry_pending (t : Table) (i v : Nat) (s : State) : (tableEntry t i v s).pending = s.pending := by
  unfold tableEntry
  dsimp only
  split <;> rfl

@[simp] theorem syncLeaf_pending (sid base : Nat) (big : Bool) (l : Option Leaf) (s : State) :
    (syncLeaf sid base big l s).pending = s.pending := by
  unfold syncLeaf
  split <;> simp

@[simp] theorem markChanged_pending (sid : Nat) (s : State) : (markChanged sid s).pending = s.pending := (rfl)

@[simp] theorem putLeaf_pending (sid base : Nat) (l : Leaf) (s : State) : (putLeaf sid base l s).pending = s.pending := by simp [putLeaf]

@[simp] theorem dropLeaf_pending (sid base : Nat) (big : Bool) (s : State) : (dropLeaf sid base big s).pending = s.pending := by
  simp [dropLeaf]

@[simp] theorem wipeTable_pending (t : Table) (s : State) : (wipeTable t s).pending = s.pending := by
  unfold wipeTable
  dsimp only
  split
  · exact foldl_pending (fun _ _ => ownLine_pending ..) _ _
  · rfl

@[simp] theorem enterTable_pending (t : Table) (s : State) : (enterTable t s).pending = s.pending := by
  unfold enterTable
  split <;> simp

theorem newTable_pending {level sid idx : Nat} {s t : State} (h : newTable level sid idx s = some t) : t.pending = s.pending := by
  unfold newTable at h
  split at h
  · obtain rfl := Option.some.inj h
    simp
  · split at h
    · cases h
    · obtain rfl := Option.some.inj h
      simp

theorem newTables_pending {level sid : Nat} {is : List Nat} {o : Option State} {q : List Instr} (ho : ∀ u, o = some u → u.pending = q)
    {t : State} (h : is.foldl (fun o i => o.bind (newTable level sid i)) o = some t) : t.pending = q := by
  induction is generalizing o with
  | nil => exact ho t h
  | cons i is ih =>
    refine ih (fun v hv => ?_) h
    obtain ⟨u, hu, hv⟩ := Option.bind_eq_some_iff.1 hv
    exact (newTable_pending hv).trans (ho u hu)

theorem needTables_pending {sid page n : Nat} {big : Bool} {s t : State} (h : needTables sid page n big s = some t) :
    t.pending = s.pending := by
  unfold needTables at h
  dsimp only at h
  have h2 (is : List Nat) (u : State) (hu : is.foldl (fun o i => o.bind (newTable 2 sid i)) (some s) = some u) : u.pending = s.pending :=
    newTables_pending (fun v hv => by rw [← Option.some.inj hv]) hu
  split at h
  · exact h2 _ t h
  · exact newTables_pending (h2 _) h

@[simp] theorem mapLeaves_pending (sid pva count size : Nat) (ppas : List Nat) (rd wr att pin reserve : Bool) (s : State) :
    (mapLeaves sid pva count size ppas rd wr att pin reserve s).pending = s.pending := by
  simp [mapLeaves]

@[simp] theorem presentLeaves_pending (sid : Nat) (ls : List (Nat × Leaf)) (ppas : List Nat) (s : State) :
    (presentLeaves sid ls ppas s).pending = s.pending := by
  simp [presentLeaves]

@[simp] theorem bumpEpoch_pending (sid : Nat) (ack : Bool) (pages : List (Nat × Nat)) (s : State) :
    (bumpEpoch sid ack pages s).pending = s.pending := (rfl)

@[simp] theorem recallLeaves_pending (op : LineOp) (ls : List (Nat × Leaf)) (s : State) : (recallLeaves op ls s).pending = s.pending := by
  simp [recallLeaves]

@[simp] theorem stopRun_pending (mid status : Nat) (s : State) : (stopRun mid status s).pending = s.pending := by
  unfold stopRun
  split <;> simp

@[simp] theorem refuseAgent_pending (i : Instr) (status : Nat) (s : State) : (refuseAgent i status s).pending = s.pending := by
  unfold refuseAgent
  (repeat' split) <;> simp

@[simp] theorem failWaiter_pending (timeout : Bool) (w : Waiter) (s : State) : (failWaiter timeout w s).pending = s.pending := by
  unfold failWaiter
  (repeat' split) <;> simp

@[simp] theorem dropFault_pending (id : Nat) (s : State) : (dropFault id s).pending = s.pending := (rfl)

@[simp] theorem failFault_pending (timeout : Bool) (f : Fault') (s : State) : (failFault timeout f s).pending = s.pending := by
  simp [failFault]

@[simp] theorem refillRun_pending (mid : Nat) (sel : Nat → Bool) (s : State) : (refillRun mid sel s).pending = s.pending := by
  unfold refillRun
  split <;> simp

@[simp] theorem refillFiring_pending (fid base pages : Nat) (s : State) : (refillFiring fid base pages s).pending = s.pending := by
  unfold refillFiring
  (repeat' split) <;> simp

@[simp] theorem serveAgain_pending (i : Instr) (s : State) : (serveAgain i s).pending = s.pending := by
  unfold serveAgain
  split <;> simp

@[simp] theorem retryWaiter_pending (base pages : Nat) (w : Waiter) (s : State) : (retryWaiter base pages w s).pending = s.pending := by
  unfold retryWaiter
  split <;> simp

@[simp] theorem retryUnheld_pending (s : State) : (retryUnheld s).pending = s.pending := by simp [retryUnheld]

@[simp] theorem timeOut_pending (f : Fault') (s : State) : (timeOut f s).pending = s.pending := by simp [timeOut]

@[simp] theorem resolveOne_pending (acc : Nat × Nat × State) (p : Nat × Nat) : (resolveOne acc p).2.2.pending = acc.2.2.pending := by
  obtain ⟨res, ign, u⟩ := acc
  unfold resolveOne
  dsimp only
  (repeat' split) <;> simp

@[simp] theorem cutWork_pending (sid : Nat) (pages : List Nat) (s : State) : (cutWork sid pages s).pending = s.pending := by simp [cutWork]

@[simp] theorem withdrawRange_pending (sid : Nat) (ls : List (Nat × Leaf)) (mode : Nat) (keep : Bool) (s : State) :
    (withdrawRange sid ls mode keep s).pending = s.pending := by
  simp [withdrawRange]

@[simp] theorem protectRange_pending (sid : Nat) (ls : List (Nat × Leaf)) (rd wr att pin : Bool) (s : State) :
    (protectRange sid ls rd wr att pin s).pending = s.pending := by
  simp [protectRange]

@[simp] theorem timeDecay_pending (k period : Nat) (s : State) : (timeDecay k period s).pending = s.pending := (rfl)

@[simp] theorem strayLine_pending (k : Nat) (e : DirEnt) (s : State) : (strayLine k e s).pending = s.pending := by simp [strayLine]

@[simp] theorem loseLines_pending (lost : Nat → Bool) (s : State) : (loseLines lost s).pending = s.pending :=
  foldl_pending (fun _ _ => by split <;> simp) _ _

@[simp] theorem unparkRetry_pending (r : Nat) (s : State) : (unparkRetry r s).pending = s.pending := by
  unfold unparkRetry
  (repeat' split) <;> simp

@[simp] theorem unwaitMig_pending (page n : Nat) (w : MigWait) (s : State) : (unwaitMig page n w s).pending = s.pending := by
  unfold unwaitMig
  split <;> simp

@[simp] theorem finishMig_pending (g : Mig) (l : Leaf) (s : State) : (finishMig g l s).pending = s.pending := by simp [finishMig]

theorem migMover_pending {mid : Nat} {s t : State} (h : migMover mid s = some t) : t.pending = s.pending := by
  unfold migMover at h
  split at h
  · obtain rfl := Option.some.inj h
    rfl
  · split at h
    · cases h
    · obtain rfl := Option.some.inj h
      rfl

/-! ### Holders of other modules (08) -/

@[simp] theorem closeOutst_pending (o : Outst) (s : State) : (closeOutst o s).pending = s.pending := (rfl)

@[simp] theorem lateAnswer_pending (p : Nat) (s : State) : (lateAnswer p s).pending = s.pending := (rfl)

theorem answer_pending (m : Mhd) (op : Nat) {serve : Outst → State → State} (hs : ∀ o s, (serve o s).pending = s.pending) (s : State) :
    (answer m op serve s).pending = s.pending := by
  unfold answer
  (repeat' split) <;> simp [hs]

@[simp] theorem discardBack_pending (k : Nat) (s : State) : (discardBack k s).pending = s.pending := (rfl)

@[simp] theorem serveHdata_pending (status : Nat) (lines : List (LineData × Nat)) (o : Outst) (s : State) :
    (serveHdata status lines o s).pending = s.pending := by
  unfold serveHdata
  (repeat' split) <;> simp

@[simp] theorem serveHdone_pending (status : Nat) (o : Outst) (s : State) : (serveHdone status o s).pending = s.pending := by
  unfold serveHdone
  (repeat' split) <;> simp

@[simp] theorem sendFence_pending (p aid : Nat) (s : State) : (sendFence p aid s).pending = s.pending := by simp [sendFence]

@[simp] theorem expire_pending (o : Outst) (s : State) : (expire o s).pending = s.pending := by
  unfold expire
  dsimp only
  (repeat' split) <;> simp

/-! ### Memory commands (03) -/

@[simp] theorem crazeLines_pending (n l : Nat) (a : Nat × State) : (crazeLines n l a).2.pending = a.2.pending := by
  induction n generalizing l a with
  | zero => rfl
  | succ n ih =>
    obtain ⟨k, u⟩ := a
    simp [crazeLines, ih]

@[simp] theorem crazeGo_pending (r line left : Nat) (s : State) : (crazeGo r line left s).pending = s.pending := by
  unfold crazeGo
  dsimp only
  split <;> simp

@[simp] theorem repairLine_pending (l : Nat) (s : State) : (repairLine l s).pending = s.pending := by
  unfold repairLine
  split <;> simp

@[simp] theorem pprExhausted_pending (c : RowLoc) (s : State) : (pprExhausted c s).pending = s.pending := by simp [pprExhausted]

@[simp] theorem softRepair_pending (c : RowLoc) (s : State) : (softRepair c s).pending = s.pending := by simp [softRepair]

@[simp] theorem wedgeRow_pending (c : RowLoc) (s : State) : (wedgeRow c s).pending = s.pending := (rfl)

@[simp] theorem goOffline_pending (die : Nat) (s : State) : (goOffline die s).pending = s.pending := (rfl)

@[simp] theorem sweepLine_pending (l : Nat) (s : State) : (sweepLine l s).pending = s.pending := by
  unfold sweepLine
  split <;> simp

@[simp] theorem assignSpare_pending (x : Spare) (s : State) : (assignSpare x s).2.pending = s.pending := by simp [assignSpare]

@[simp] theorem noteRowErr_pending (x : Spare) (s : State) : (noteRowErr x s).pending = s.pending := (rfl)

/-! ### Saggers (08) -/

@[simp] theorem releaseParts_pending (s : State) : (releaseParts s).pending = s.pending := (rfl)

@[simp] theorem drainedRecord_pending (sid : Nat) (s : State) : (drainedRecord sid s).pending = s.pending := by
  unfold drainedRecord
  split <;> simp

@[simp] theorem gateTrace_pending (p : Nat) (s : State) : (gateTrace p s).pending = s.pending := by
  unfold gateTrace
  (repeat' split) <;> simp

@[simp] theorem setGate_pending (p : Nat) (g : GateSched) (s : State) : (setGate p g s).pending = s.pending := by simp [setGate]

@[simp] theorem mirrorLine_pending (sid ppa i : Nat) (ws : List Nat) (s : State) : (mirrorLine sid ppa i ws s).pending = s.pending := by
  simp [mirrorLine]

@[simp] theorem mirrorSeq_pending (sid ppa seq : Nat) (s : State) : (mirrorSeq sid ppa seq s).pending = s.pending := by simp [mirrorSeq]

@[simp] theorem logBreach_pending (b : Breach) (s : State) : (logBreach b s).pending = s.pending := by
  unfold logBreach
  split <;> simp

/-! ### Links (09) -/

@[simp] theorem regrant_pending (p : Nat) (s : State) : (regrant p s).pending = s.pending := (rfl)

@[simp] theorem freePools_pending (s : State) : (freePools s).pending = s.pending := by simp [freePools]

@[simp] theorem toTraining_pending (fast : Bool) (p : Nat) (s : State) : (toTraining fast p s).pending = s.pending := (rfl)

@[simp] theorem sendRetrain_pending (p : Nat) (s : State) : (sendRetrain p s).pending = s.pending := by
  unfold sendRetrain
  split <;> rfl

@[simp] theorem startReplay_pending (p : Nat) (s : State) : (startReplay p s).pending = s.pending := by
  unfold startReplay
  dsimp only
  split <;> simp

@[simp] theorem takeNak_pending (p a : Nat) (s : State) : (takeNak p a s).pending = s.pending := by
  unfold takeNak
  split <;> simp

@[simp] theorem protoErr_pending (p : Nat) (s : State) : (protoErr p s).pending = s.pending := (rfl)

@[simp] theorem dropStranger_pending (p : Nat) (s : State) : (dropStranger p s).pending = s.pending := (rfl)

@[simp] theorem traceRx_pending (p op vc sid ivc keygen src dst : Nat) (s : State) :
    (traceRx p op vc sid ivc keygen src dst s).pending = s.pending := by
  simp [traceRx]

@[simp] theorem helloLen_pending (p : Nat) (m : RxMsg) (s : State) : (helloLen p m s).pending = s.pending := by simp [helloLen]

@[simp] theorem judgeMsg_pending (p : Nat) (m : RxMsg) (s : State) : (judgeMsg p m s).pending = s.pending := by
  unfold judgeMsg
  (repeat' split) <;> simp

@[simp] theorem rxTake_pending (p : Nat) (m : RxMsg) (s : State) : (rxTake p m s).pending = s.pending := by simp [rxTake]

@[simp] theorem noteLate_pending (p : Nat) (x : TxItem) (s : State) : (noteLate p x s).pending = s.pending := by simp [noteLate]

@[simp] theorem noteSlow_pending (p : Nat) (x : TxItem) (s : State) : (noteSlow p x s).pending = s.pending := by
  unfold noteSlow
  dsimp only
  (repeat' split) <;> simp

@[simp] theorem packFlit_pending (p n room : Nat) (l : List OutMsg) (s : State) : (packFlit p n room l s).2.pending = s.pending := by
  induction n generalizing room l s with
  | zero => rfl
  | succ n ih =>
    unfold packFlit
    dsimp only
    (repeat' split) <;> simp [ih]

@[simp] theorem putFlit_pending (p ftype seq cont : Nat) (msgs : List OutMsg) (ctl : Option (Lctl × Bool × Nat × List Nat)) (s : State) :
    (putFlit p ftype seq cont msgs ctl s).pending = s.pending := by
  unfold putFlit
  split <;> rfl

@[simp] theorem sendLctl_pending (p : Nat) (c : Lctl) (s : State) : (sendLctl p c s).pending = s.pending := by
  unfold sendLctl
  split <;> simp

@[simp] theorem endAdmission_pending (p aid : Nat) (s : State) : (endAdmission p aid s).pending = s.pending := (rfl)

theorem arriveAdmit_pending (m : Mhd) (i : Instr) (bytes : Nat) {serve : Port → Assoc → State → State}
    (hs : ∀ q a s, (serve q a s).pending = s.pending) (s : State) : (arriveAdmit m i bytes serve s).pending = s.pending := by
  unfold arriveAdmit
  split
  · rfl
  · simp [hs]

@[simp] theorem setAssoc_pending (p aid : Nat) (a : Assoc) (s : State) : (setAssoc p aid a s).pending = s.pending := (rfl)

@[simp] theorem notAdmitted_pending (m : Mhd) (s : State) : (notAdmitted m s).pending = s.pending := by simp [notAdmitted]

@[simp] theorem answerHello_pending (m : Mhd) (nonceA xa versions : Nat) (a : Assoc) (s : State) :
    (answerHello m nonceA xa versions a s).pending = s.pending := by
  simp only [answerHello, sendOn_pending, modPort_pending, draw_pending]

@[simp] theorem serveHello_pending (m : Mhd) (nonceA xa versions : Nat) (q : Port) (a : Assoc) (s : State) :
    (serveHello m nonceA xa versions q a s).pending = s.pending := by
  simp [serveHello]

@[simp] theorem serveProve_pending (m : Mhd) (ida certSig keyslot certEpoch : Nat) (certSigOk sigAOk : Bool) (q : Port) (a : Assoc) (s : State) :
    (serveProve m ida certSig keyslot certEpoch certSigOk sigAOk q a s).pending = s.pending := by
  simp [serveProve]

@[simp] theorem startRekey_pending (p aid : Nat) (s : State) : (startRekey p aid s).pending = s.pending := by
  unfold startRekey
  split <;> simp

@[simp] theorem switchTx_pending (p aid : Nat) (s : State) : (switchTx p aid s).pending = s.pending := (rfl)

@[simp] theorem losePort_pending (p cause : Nat) (s : State) : (losePort p cause s).pending = s.pending := by simp [losePort]

end Sys2Proof.Machine
end

section
/-! PROOFS. The queue of commands (O7), continued: the pause of the twin, the host path and the module. -/

namespace Sys2Proof.Machine

/-! ### The twin and its pause (12) -/

@[simp] theorem goFatal_pending (cause : Nat) (s : State) : (goFatal cause s).pending = s.pending := by simp [goFatal]

@[simp] theorem loseWindows_pending (die : Nat) (s : State) : (loseWindows die s).pending = s.pending := by simp [loseWindows]

@[simp] theorem loseMemory_pending (die scope cause : Nat) (s : State) : (loseMemory die scope cause s).pending = s.pending := by
  simp [loseMemory]

@[simp] theorem loseParts_pending (die : Nat) (f : Firing) (s : State) : (loseParts die f s).pending = s.pending := by
  unfold loseParts
  dsimp only
  (repeat' split) <;> simp

@[simp] theorem loseDie_pending (die cause : Nat) (s : State) : (loseDie die cause s).pending = s.pending := by simp [loseDie]

@[simp] theorem applySaved_pending (die : Nat) (s : State) : (applySaved die s).pending = s.pending := by simp [applySaved]

@[simp] theorem resumeTrace_pending (s : State) : (resumeTrace s).pending = s.pending := by simp [resumeTrace]

@[simp] theorem abandonSheet_pending (s : State) : (abandonSheet s).pending = s.pending := by simp [abandonSheet]

@[simp] theorem leavePlane_pending (p cause start : Nat) (s : State) : (leavePlane p cause start s).pending = s.pending := by
  simp [leavePlane]

@[simp] theorem pathSilent_pending (watcher path : Nat) (s : State) : (pathSilent watcher path s).pending = s.pending := by
  simp [pathSilent]

@[simp] theorem execPulseWindow_heard_pending (o watcher : Nat) (wire mailbox : Bool) (s : State) :
    (execPulseWindow.heard o watcher wire mailbox s).pending = s.pending := by
  simp [execPulseWindow.heard]

@[simp] theorem setHeld_pending (g : Nat) (l : List (Nat × Nat × Nat)) (s : State) : (setHeld g l s).pending = s.pending := (rfl)

@[simp] theorem diverge_pending (s : State) : (diverge s).pending = s.pending := by simp [diverge]

@[simp] theorem badResident_pending (sh id : Nat) (s : State) : (badResident sh id s).pending = s.pending := by simp [badResident]

@[simp] theorem addPause_pending (len why : Nat) (s : State) : (addPause len why s).pending = s.pending := (rfl)

@[simp] theorem noteDelay_pending (len why : Nat) (i : Instr) (s : State) : (noteDelay len why i s).pending = s.pending := by
  unfold noteDelay
  dsimp only
  (repeat' split) <;> simp

/-! ### Messages of the fabric, held back by the pause and taken after it (09, 12) -/

section
variable (s : State)

theorem keepsQueue_arrive (m : Mhd) (i : Instr) {serve : Nat → State → State} (hs : ∀ sid s, (serve sid s).pending = s.pending) :
    KeepsQueue (act (arrive m i serve) s) s :=
  keepsQueue_act (arrive_pending m i hs s)

theorem keepsQueue_arriveCoh (m : Mhd) (i : Instr) : KeepsQueue (act (arriveCoh m i) s) s := keepsQueue_act (by simp)

theorem keepsQueue_arriveRsp (m : Mhd) (i : Instr) (x : Handle) (back : Option (LineData × Nat)) (gone : Bool) :
    KeepsQueue (act (arriveRsp m i x back gone) s) s :=
  keepsQueue_act (by simp)

/-- A message that passes its sagger's meter. -/
theorem keepsQueue_metered (m : Mhd) (i : Instr) (cost : State → Nat) (fence : Bool) {refuse : Nat → Nat → State → State}
    {serve : State → State} (hr : ∀ sid st s, (refuse sid st s).pending = s.pending) (hs : ∀ s, (serve s).pending = s.pending) :
    KeepsQueue (act (arrive m i fun sid s => metered m i (cost s) fence (refuse sid) serve sid s) s) s :=
  keepsQueue_arrive s m i fun sid _ => metered_pending _ _ _ _ (hr sid) hs _ _

@[simp] theorem keepsQueue_execFenceAck (m : Mhd) : KeepsQueue (execFenceAck m s) s :=
  keepsQueue_arrive s _ _ fun _ _ => by (repeat' split) <;> simp

@[simp] theorem keepsQueue_execRekey (m : Mhd) (gen : Nat) : KeepsQueue (execRekey m gen s) s :=
  keepsQueue_arrive s _ _ fun _ _ => by dsimp only; (repeat' split) <;> simp

@[simp] theorem keepsQueue_execRekeyAck (m : Mhd) (gen : Nat) : KeepsQueue (execRekeyAck m gen s) s :=
  keepsQueue_arrive s _ _ fun _ _ => by dsimp only; (repeat' split) <;> simp

@[simp] theorem keepsQueue_execWriteback (m : Mhd) (x : Handle) (lepoch cause : Nat) (line : LineData) :
    KeepsQueue (execWriteback m x lepoch cause line s) s :=
  keepsQueue_arrive s _ _ fun _ _ => serveWriteback_pending ..

@[simp] theorem keepsQueue_execMove (m : Mhd) (d : MoveDesc) : KeepsQueue (execMove m d s) s :=
  keepsQueue_metered s _ _ _ _ (by simp) (by simp)

@[simp] theorem keepsQueue_execFire (m : Mhd) (d : FireDesc) : KeepsQueue (execFire m d s) s :=
  keepsQueue_metered s _ _ _ _ (by simp) (by simp)

@[simp] theorem keepsQueue_execFireCancel (m : Mhd) (ftag : Nat) : KeepsQueue (execFireCancel m ftag s) s :=
  keepsQueue_metered s _ _ _ _ (by simp) (by simp)

@[simp] theorem keepsQueue_execAgentCtxSet (m : Mhd) (n : Nat) (e : Ctx) : KeepsQueue (execAgentCtxSet m n e s) s :=
  keepsQueue_metered s _ _ _ _ (by simp) (by simp)

@[simp] theorem keepsQueue_execFence (m : Mhd) : KeepsQueue (execFence m s) s :=
  keepsQueue_metered s _ _ _ _ (by simp) (by simp)

@[simp] theorem keepsQueue_execContrib (m : Mhd) (addr round cause : Nat) (data : List Word) :
    KeepsQueue (execContrib m addr round cause data s) s :=
  keepsQueue_metered s _ _ _ _ (by simp) (by simp)

@[simp] theorem keepsQueue_execHdata (m : Mhd) (status : Nat) (lines : List (LineData × Nat)) : KeepsQueue (execHdata m status lines s) s :=
  keepsQueue_arrive s _ _ fun _ _ => answer_pending _ _ (by simp) _

@[simp] theorem keepsQueue_execHdone (m : Mhd) (status : Nat) : KeepsQueue (execHdone m status s) s :=
  keepsQueue_arrive s _ _ fun _ _ => answer_pending _ _ (by simp) _

@[simp] theorem keepsQueue_execJoin (m : Mhd) (kind : Nat) : KeepsQueue (execJoin m kind s) s := keepsQueue_arrive s _ _ (by simp)

@[simp] theorem keepsQueue_execPulse (m : Mhd) (lepoch : Nat) : KeepsQueue (execPulse m lepoch s) s := keepsQueue_arrive s _ _ (by simp)

@[simp] theorem keepsQueue_execRegionPublish (m : Mhd) (p : Publication) : KeepsQueue (execRegionPublish m p s) s :=
  keepsQueue_arrive s _ _ (by simp)

@[simp] theorem keepsQueue_execAdmitHello (m : Mhd) (b : HelloBody) : KeepsQueue (execAdmitHello m b s) s :=
  keepsQueue_act (arriveAdmit_pending _ _ _ (by simp) _)

@[simp] theorem keepsQueue_execAdmitProve (m : Mhd) (w : ProveId) (certEpoch : Nat) (certSigOk sigAOk : Bool) :
    KeepsQueue (execAdmitProve m w certEpoch certSigOk sigAOk s) s :=
  keepsQueue_act (arriveAdmit_pending _ _ _ (by simp) _)

end

@[simp] theorem takeWaiting_pending (i : Instr) (s : State) : (takeWaiting i s).pending = s.pending := by
  unfold takeWaiting
  split
  case h_1 | h_2 | h_3 | h_4 | h_5 | h_6 => exact after_pending (keepsQueue_arriveCoh s _ _)
  case h_8 | h_9 | h_10 => exact after_pending (keepsQueue_arriveRsp s _ _ _ _ _)
  case h_27 => rfl
  all_goals exact after_pending (by simp)

@[simp] theorem endPause_pending (len why : Nat) (s : State) : (endPause len why s).pending = s.pending := by simp [endPause]

/-! ### The host path (10) -/

@[simp] theorem refaultRecords_pending (s : State) : (refaultRecords s).pending = s.pending := by simp [refaultRecords]

@[simp] theorem stopRing_pending (r : Nat) (s : State) : (stopRing r s).pending = s.pending := by simp [stopRing]

@[simp] theorem stopRings_pending (fresh : Bool) (s : State) : (stopRings fresh s).pending = s.pending := (rfl)

@[simp] theorem takeDoorbell_pending (r p : Nat) (s : State) : (takeDoorbell r p s).pending = s.pending := by
  unfold takeDoorbell
  split <;> simp

@[simp] theorem startRing_pending (r : Nat) (s : State) : (startRing r s).pending = s.pending := by
  unfold startRing
  (repeat' split) <;> simp

@[simp] theorem endSession_pending (s : State) : (endSession s).pending = s.pending := (rfl)

@[simp] theorem ageRings_pending (s : State) : (ageRings s).pending = s.pending := (rfl)

theorem putEntry_pending {r slot seq : Nat} {s t : State} (h : putEntry r s = some (slot, seq, t)) : t.pending = s.pending := by
  unfold putEntry at h
  split at h
  · split at h
    · cases h
      rfl
    · cases h
  · cases h

@[simp] theorem popEvent_pending (s : State) : (popEvent s).pending = s.pending := (rfl)

@[simp] theorem poolFail_pending (r i st : Nat) (s : State) : (poolFail r i st s).pending = s.pending := by simp [poolFail]

@[simp] theorem poolReadEnd_pending (r : Nat) (ls : List (LineData × Nat)) (s : State) : (poolReadEnd r ls s).pending = s.pending := by
  simp [poolReadEnd]

@[simp] theorem poolGo_pending (fuel r : Nat) (s : State) : (poolGo fuel r s).pending = s.pending := by
  induction fuel generalizing s with
  | zero => rfl
  | succ n ih =>
    unfold poolGo
    split
    · split
      · simp
      · split
        · rfl
        · split
          next d c u e => simp [ih, pending_of_snd e]
          next st u e => simp [pending_of_snd e]
          next u e => simp [pending_of_snd e]
    · split
      · simp
      · split
        · rfl
        · split
          next c u e => simp [ih, pending_of_snd e]
          next st u e => simp [pending_of_snd e]
          next u e => simp [pending_of_snd e]
    · rfl

@[simp] theorem poolReadStart_pending (r sid addr len : Nat) (s : State) : (poolReadStart r sid addr len s).pending = s.pending := by
  simp [poolReadStart]

@[simp] theorem poolWriteStart_pending (r sid addr len : Nat) (lines : List (LineData × Nat)) (s : State) :
    (poolWriteStart r sid addr len lines s).pending = s.pending := by
  simp [poolWriteStart]

@[simp] theorem poolRetry_pending (r : Nat) (i : Instr) (s : State) : (poolRetry r i s).pending = s.pending := by
  unfold poolRetry
  (repeat' split) <;> simp

/-! ### Peneno and its one-time memory (13) -/

@[simp] theorem endHostWait_pending (t : Nat) (s : State) : (endHostWait t s).pending = s.pending := (rfl)

@[simp] theorem startHostWait_pending (s : State) : (startHostWait s).pending = s.pending := (rfl)

@[simp] theorem failRng_pending (test : Nat) (s : State) : (failRng test s).pending = s.pending := by simp [failRng]

@[simp] theorem zeroSheet_pending (s : State) : (zeroSheet s).pending = s.pending := (rfl)

@[simp] theorem slOff_pending (reason : Nat) (s : State) : (slOff reason s).pending = s.pending := by simp [slOff]

@[simp] theorem burn_pending (r : Nat) (b : Burn) (s : State) : (burn r b s).pending = s.pending := (rfl)

@[simp] theorem joinCert_pending (old : Option (Nat × Bool)) (c : Nat) (subjectOk : Bool) (s : State) :
    (joinCert old c subjectOk s).2.pending = s.pending := by
  unfold joinCert
  split <;> simp

@[simp] theorem endBurn_pending (b : Burn) (s : State) : (endBurn b s).pending = s.pending := by
  unfold endBurn
  split <;> simp

@[simp] theorem stopBurn_pending (s : State) : (stopBurn s).pending = s.pending := by
  unfold stopBurn
  dsimp only
  (repeat' split) <;> simp

@[simp] theorem eraseHub_pending (s : State) : (eraseHub s).pending = s.pending := (rfl)

@[simp] theorem proofEnd_pending (r nonce : Nat) (changed : List Nat) (s : State) : (proofEnd r nonce changed s).pending = s.pending := by
  unfold proofEnd
  split <;> simp

@[simp] theorem spdmSay_pending (code : Nat) (body : List Nat) (s : State) : (spdmSay code body s).pending = s.pending := (rfl)

@[simp] theorem spdmError_pending (e : Nat) (s : State) : (spdmError e s).pending = s.pending := (rfl)

/-! ### Power and clocks (11) -/

@[simp] theorem freshState_pending (s : State) : (freshState s).pending = s.pending := by simp [freshState]

@[simp] theorem dark_pending (s : State) : (dark s).pending = s.pending := by simp [dark]

@[simp] theorem failPower_pending (s : State) : (failPower s).pending = s.pending := by simp [failPower]

@[simp] theorem moduleReset_pending (cause : Nat) (s : State) : (moduleReset cause s).pending = s.pending := by simp [moduleReset]

@[simp] theorem drawPhase_pending (s : State) : (drawPhase s).2.pending = s.pending := (rfl)

@[simp] theorem badShelf_pending (sh : Nat) (s : State) : (badShelf sh s).pending = s.pending := by simp [badShelf]

@[simp] theorem repairArrays_pending (fails : List Spare) (s : State) : (repairArrays fails s).2.pending = s.pending := by
  refine foldl_carry_pending (get := Prod.snd) (fun a x => ?_) _ _
  split
  next u e => simp [pending_of_snd e]
  next u e => simp [pending_of_snd e]

@[simp] theorem startDie_pending (rate die : Nat) (s : State) : (startDie rate die s).pending = s.pending := by
  unfold startDie
  dsimp only
  (repeat' split) <;> simp

@[simp] theorem memBegin_pending (r : Nat) (s : State) : (memBegin r s).pending = s.pending := by simp [memBegin]

@[simp] theorem stopWork_pending (s : State) : (stopWork s).pending = s.pending := by simp [stopWork]

@[simp] theorem powerOffEnd_pending (r : Nat) (s : State) : (powerOffEnd r s).pending = s.pending := by simp [powerOffEnd]

@[simp] theorem loseUnit_pending (unit cause : Nat) (s : State) : (loseUnit unit cause s).pending = s.pending := by simp [loseUnit]

@[simp] theorem setCross_pending (d : ClockDomain) (x : Option Cross) (s : State) : (setCross d x s).pending = s.pending := (rfl)

@[simp] theorem stepCrossings_pending (s : State) : (stepCrossings s).pending = s.pending := (rfl)

@[simp] theorem pcieDown_pending (s : State) : (pcieDown s).pending = s.pending :=
  after_pending (keepsQueue_act (by split <;> simp))

@[simp] theorem freezeRegion_pending (unit cause : Nat) (s : State) : (freezeRegion unit cause s).pending = s.pending := (rfl)

@[simp] theorem trackRegions_pending (s : State) : (trackRegions s).pending = s.pending := (rfl)

@[simp] theorem tick_pending (s : State) : (tick s).pending = s.pending := by simp [tick]

/-! ### The side band and its pins (15) -/

@[simp] theorem sideData_pending (code : Nat) (bytes : List Nat) (s : State) : (sideData code bytes s).pending = s.pending := (rfl)

@[simp] theorem setCml_pending (s : State) : (setCml s).pending = s.pending := (rfl)

@[simp] theorem modPin_pending (p : Nat) (f : EvtPinSt → EvtPinSt) (s : State) : (modPin p f s).pending = s.pending := (rfl)

@[simp] theorem drivePin_pending (p : Nat) (level : Bool) (s : State) : (drivePin p level s).pending = s.pending := by simp [drivePin]

@[simp] theorem setIr_pending (v : Nat) (s : State) : (setIr v s).pending = s.pending := (rfl)

@[simp] theorem testBank_pending (bank : Nat) (s : State) : (testBank bank s).pending = s.pending := by simp [testBank]

/-! ### Observation (15) -/

@[simp] theorem clearPeaks_pending (sid : Nat) (s : State) : (clearPeaks sid s).pending = s.pending := (rfl)

@[simp] theorem mirrorHeatSeq_pending (sid ppa seq tally : Nat) (s : State) : (mirrorHeatSeq sid ppa seq tally s).pending = s.pending := by
  simp [mirrorHeatSeq]

@[simp] theorem spillWrite_pending (n : Nat) (ws : List Nat) (s : State) : (spillWrite n ws s).pending = s.pending := by simp [spillWrite]

/-! ### Registers (10) -/

@[simp] theorem badConfig_pending (s : State) : (badConfig s).pending = s.pending := (rfl)

@[simp] theorem writeRing_pending (r o v : Nat) (s : State) : (writeRing r o v s).pending = s.pending := by
  unfold writeRing
  split <;> simp

@[simp] theorem writeBounce_pending (off v : Nat) (s : State) : (writeBounce off v s).pending = s.pending := by
  unfold writeBounce
  (repeat' split) <;> rfl

@[simp] theorem eachRing_pending (v : Nat) {f : Nat → State → State} (hf : ∀ r s, (f r s).pending = s.pending) (s : State) :
    (eachRing v f s).pending = s.pending := by
  simp [eachRing, hf]

/-! ### Contact frames (14) -/

@[simp] theorem trimTrace_pending (s : State) : (trimTrace s).pending = s.pending := (rfl)

@[simp] theorem pauseTrace_pending (s : State) : (pauseTrace s).pending = s.pending := by simp [pauseTrace]

@[simp] theorem takeSheet_pending (r : Nat) (data : Bool) (s : State) : (takeSheet r data s).pending = s.pending := by simp [takeSheet]

@[simp] theorem goOn_pending (r : Nat) (p : Park) (s : State) : (goOn r p s).pending = s.pending := by
  unfold goOn
  (repeat' split) <;> simp

end Sys2Proof.Machine
end

section
/-! PROOFS. The queue of commands (O7), continued: the commands and events that take more than their shape. -/

namespace Sys2Proof.Machine

section
variable (s : State)

/-! ### Shapes of a chapter -/

section
variable {f : State → State} (hf : ∀ s, (f s).pending = s.pending)
include hf

theorem keepsQueue_spdmAny : KeepsQueue (spdmAny f s) s := keepsQueue_act (by split <;> simp [hf])

theorem keepsQueue_spdmKeyed : KeepsQueue (spdmKeyed f s) s := keepsQueue_spdmAny s fun _ => by split <;> simp [hf]

theorem keepsQueue_tokenCmd (r op purpose : Nat) (it : Item) (x : Token) (pre post : State → List Chk) :
    KeepsQueue (tokenCmd r op purpose it x pre post f s) s := keepsQueue_cmd (fun _ => by
  dsimp only
  (repeat' split) <;> simp [hf]) s _ _ _

end

theorem keepsQueue_onPort {f : Port → State → State} (hf : ∀ q s, (f q s).pending = s.pending) (p : Nat) (ok : Port → Bool) :
    KeepsQueue (onPort p ok f s) s := keepsQueue_act (by (repeat' split) <;> simp [hf])

theorem keepsQueue_sideRead (code : Nat) (bytes : State → List Nat) : KeepsQueue (sideRead code bytes s) s :=
  keepsQueue_act (by split <;> simp)

theorem keepsQueue_telemetry (code lo hi measured : Nat) : KeepsQueue (telemetry code lo hi measured s) s :=
  keepsQueue_act (by (repeat' split) <;> simp)

theorem keepsQueue_i3cGet (code n : Nat) : KeepsQueue (i3cGet code n s) s := keepsQueue_act (by split <;> simp)

/-! ### Agents, firings and windows (04, 06, 07) -/

@[simp] theorem keepsQueue_execLeaseExpired (aid : Nat) : KeepsQueue (execLeaseExpired aid s) s := keepsQueue_act (by
  dsimp only
  (repeat' split) <;> simp)

@[simp] theorem keepsQueue_execEndLane (sh : Nat) (g : GArgs) : KeepsQueue (execEndLane sh g s) s := keepsQueue_act (by
  split
  · rfl
  · dsimp only
    split <;> simp)

@[simp] theorem keepsQueue_execFiringDone (fid : Nat) : KeepsQueue (execFiringDone fid s) s := keepsQueue_act (by
  split
  · rfl
  · split
    · rfl
    · split
      · split <;> simp
      · split
        · split
          · dsimp only
            split
            next v e => simp [pending_of_snd e]
            next v e => simp [pending_of_snd e]
          · rfl
        · split <;> simp)

@[simp] theorem keepsQueue_execWindowOpen (r len : Nat) (item : Item) (b : WinBlock) : KeepsQueue (execWindowOpen r len item b s) s :=
  keepsQueue_cmdFor (fun _ => by split <;> simp) s _ _ _ _

@[simp] theorem keepsQueue_execWindowClose (r w : Nat) : KeepsQueue (execWindowClose r w s) s := keepsQueue_cmd (fun _ => by
  split
  · rfl
  · dsimp only
    split <;> simp) s _ _ _

/-! ### Translation (02) -/

@[simp] theorem keepsQueue_execXltRootSet (r sid : Nat) : KeepsQueue (execXltRootSet r sid s) s := keepsQueue_cmdFor (fun _ => by
  split
  next u e => simp [newTable_pending e]
  next => rfl) s _ _ _ _

@[simp] theorem keepsQueue_execXltMap (r sid pva count size ppa : Nat) (rd wr att pin reserve : Bool) (item : Item) (list : List Nat) :
    KeepsQueue (execXltMap r sid pva count size ppa rd wr att pin reserve item list s) s := by
  unfold execXltMap
  refine keepsQueue_cmdFor (fun _ => ?_) s _ _ _ _
  split
  · simp
  · split
    next => rfl
    next u e => simp [needTables_pending e]

@[simp] theorem keepsQueue_execFaultResolve (r n : Nat) (pairs : List (Nat × Nat)) : KeepsQueue (execFaultResolve r n pairs s) s :=
  keepsQueue_cmd (fun u => by
    have hl := foldl_carry_pending (get := fun a : Nat × Nat × State => a.2.2) resolveOne_pending (pairs.take n) (0, 0, u)
    simpa using hl) s _ _ _

@[simp] theorem keepsQueue_execPageMigrate (r sid pva dst : Nat) : KeepsQueue (execPageMigrate r sid pva dst s) s := by
  unfold execPageMigrate
  exact keepsQueue_cmdFor (fun _ => by split <;> simp) s _ _ _ _

@[simp] theorem keepsQueue_execMigrateDone (sid page : Nat) : KeepsQueue (execMigrateDone sid page s) s := keepsQueue_act (by
  split
  · split
    · rfl
    · lift_lets
      extract_lets mine runs u
      have hu : u.pending = s.pending := by
        unfold u
        (repeat' split) <;> simp
      clear_value u
      split
      · exact hu
      · split
        · exact hu
        next v e =>
          have hv : v.pending = s.pending := (migMover_pending e).trans hu
          dsimp only
          (repeat' split) <;> simp [hv]
  · rfl)

/-! ### Pool memory (03) -/

@[simp] theorem keepsQueue_execMemRegen (r die : Nat) : KeepsQueue (execMemRegen r die s) s := keepsQueue_memCmd (by simp) s _ _ _ _

@[simp] theorem keepsQueue_execMemCraze (r ppa lines : Nat) : KeepsQueue (execMemCraze r ppa lines s) s :=
  keepsQueue_memCmd (fun _ => by simp) s _ _ _ _

@[simp] theorem keepsQueue_execBisqueSweep (die : Nat) : KeepsQueue (execBisqueSweep die s) s := keepsQueue_act (by
  dsimp only
  (repeat' split) <;> simp)

@[simp] theorem keepsQueue_execTableSweep (plane : Nat) (found : SweepFound) : KeepsQueue (execTableSweep plane found s) s := keepsQueue_act (by
  dsimp only
  (repeat' split) <;> simp)

/-! ### Links (09) -/

@[simp] theorem keepsQueue_execResume (p : Nat) (fresh : Bool) (trainNo rxAck : Nat) (credits : List Nat) :
    KeepsQueue (execResume p fresh trainNo rxAck credits s) s := keepsQueue_onPort s (by simp) _ _

@[simp] theorem keepsQueue_execLctlResend (p : Nat) : KeepsQueue (execLctlResend p s) s := by
  unfold execLctlResend
  exact keepsQueue_act (by (repeat' split) <;> simp)

@[simp] theorem keepsQueue_execFlitReceive (p : Nat) (f : RxFlit) : KeepsQueue (execFlitReceive p f s) s := keepsQueue_onPort s (fun _ _ => by
  dsimp only
  (repeat' split) <;> simp) _ _

@[simp] theorem keepsQueue_execFlitSend (p : Nat) : KeepsQueue (execFlitSend p s) s := keepsQueue_onPort s (fun _ _ => by
  dsimp only
  (repeat' split) <;> simp) _ _

@[simp] theorem keepsQueue_execLockLost (p : Nat) : KeepsQueue (execLockLost p s) s := keepsQueue_onPort s (by simp) _ _

/-! ### The host path (10) -/

@[simp] theorem keepsQueue_execOutputEntryWrite (r : Nat) : KeepsQueue (execOutputEntryWrite r s) s := keepsQueue_act (by
  split
  · rfl
  · split
    · split
      next e =>
        dsimp only
        (repeat' split) <;> simp [putEntry_pending e]
      next => rfl
    · split
      next e =>
        dsimp only
        (repeat' split) <;> simp [putEntry_pending e]
      next => rfl
    · split
      next e => simp [putEntry_pending e]
      next => rfl
    · rfl)

@[simp] theorem keepsQueue_execCommandDoorbell (r p : Nat) : KeepsQueue (execCommandDoorbell r p s) s :=
  keepsQueue_act (by (repeat' split) <;> simp)

@[simp] theorem keepsQueue_execConsumerDoorbell (r c : Nat) : KeepsQueue (execConsumerDoorbell r c s) s := keepsQueue_act (by
  dsimp only
  (repeat' split) <;> simp)

@[simp] theorem keepsQueue_execIrqCauseClear (mask : Nat) : KeepsQueue (execIrqCauseClear mask s) s := keepsQueue_act rfl

@[simp] theorem keepsQueue_execPenFwGo (v : Word) : KeepsQueue (execPenFwGo v s) s := keepsQueue_act (by split <;> simp)

@[simp] theorem keepsQueue_execRegisterWrite (off : Nat) (v : Word) : KeepsQueue (execRegisterWrite off v s) s := keepsQueue_act (by
  dsimp only
  (repeat' split) <;> simp [after_pending])

/-! ### The module (11) -/

@[simp] theorem keepsQueue_execDieJoin (unit : Nat) (ok : Bool) (delay : Nat) : KeepsQueue (execDieJoin unit ok delay s) s := keepsQueue_act (by
  split
  · rfl
  · split
    · rfl
    · lift_lets
      extract_lets port region k failed u
      have hu : u.pending = s.pending := by
        unfold u
        split
        · split <;> simp
        · split
          · split
            next x w e =>
              dsimp only
              split <;> simp [pending_of_snd e]
          · split <;> simp [failed]
      clear_value u
      split <;> exact hu)

@[simp] theorem keepsQueue_execArrayTest (fails : ArrayFails) (badPorts badBanks : List Nat) (planeABad planeBBad : Bool) :
    KeepsQueue (execArrayTest fails badPorts badBanks planeABad planeBBad s) s := keepsQueue_act (by
  split
  · rfl
  · split
    next left v e =>
      dsimp only
      (repeat' split) <;> simp [pending_of_snd e])

@[simp] theorem keepsQueue_execTallySync : KeepsQueue (execTallySync s) s := keepsQueue_act (by
  split
  · rfl
  · refine foldl_pending (fun u k => ?_) _ _
    split
    · split
      · rfl
      · split
        next e => simp [pending_of_snd e]
    · rfl)

@[simp] theorem keepsQueue_execClockStop (d : ClockDomain) : KeepsQueue (execClockStop d s) s := keepsQueue_act (by
  dsimp only
  (repeat' split) <;> simp [after_pending])

/-! ### Observation (15) -/

@[simp] theorem keepsQueue_execMirrorUpdate (sid : Nat) : KeepsQueue (execMirrorUpdate sid s) s :=
  keepsQueue_act (by (repeat' split) <;> simp)

@[simp] theorem keepsQueue_execHeatMirrorUpdate (sid : Nat) : KeepsQueue (execHeatMirrorUpdate sid s) s :=
  keepsQueue_act (by (repeat' split) <;> simp)

end

end Sys2Proof.Machine
end

section
/-! PROOFS. The queue of commands (O7; log 1): every command and event, and every step. -/

namespace Sys2Proof.Machine

/-! ### Every command and event -/

/-- Commands of one shape need only that their own part leaves the queue alone; the others have lemmas above. -/
theorem exec_keepsQueue (i : Instr) (s : State) : KeepsQueue (exec i s) s := by
  cases i <;> dsimp only [exec]
  case nop | hostConfig | sysFence | fenceCancel | moduleReset | gateLoad | shapeConfig | agentRevoke | regionResolve | cohRead | heatConfig |
      glazeInstall | glazeRemove | glazePermit | glazeRead | ctxSet | ctxRead | windowArm | windowForce | windowRead | portConfig | aidAllow |
      portReset | saRekey | portRead | aidDetach | obsCounters | traceConfig | traceRead | contactTake | contactRead | contactRelease |
      shelfSramRead | shelfStep | proofGet | otpGenWrite | lcSeal | safelightArm | safelightClose | fwSvnCommit | facCertWrite | facProvision |
      facFwRevoke | facOtpDump | klnLibGrant | xltTableGrant | traceSpillGrant | faultConfig =>
    exact keepsQueue_cmd (fun _ => by (repeat' split) <;> simp) s _ _ _
  case poolRead | poolWrite | saggerCreate | saggerSet | saggerShelves | saggerSeal | saggerUnseal | saggerDrain | saggerResume | saggerRead |
      cohConfig | regionBind | xltPresent | xltWithdraw | xltProtect | xltFence | xltRead | moveSubmit | kilnFire | firingCancel | firingRead |
      ctxGrant | obsMirrorSet | saggerDestroy =>
    exact keepsQueue_cmdFor (fun _ => by (repeat' split) <;> simp) s _ _ _ _
  case memWedge | memPpr | memDieSet | bisqueConfig =>
    exact keepsQueue_memCmd (fun _ => by (repeat' split) <;> simp) s _ _ _ _
  case memStart | powerOffPrepare | holderSet | traceCtrl =>
    exact keepsQueue_cmd (fun _ => by dsimp only; (repeat' split) <;> simp) s _ _ _
  case lcReturn | lcScrap | safelightOpen | facDebugOpen =>
    exact keepsQueue_tokenCmd s (fun _ => by simp) _ _ _ _ _ _ _
  case tokenNonce =>
    exact keepsQueue_cmd (fun _ => by simp) s _ _ _
  case commandFetch | statusInterrupt | completionTimeout | reservationExpiry | claimGranted | moverStart | moveDone | commit | shelfOut |
      spareRowAssign | tallyStart | inputLow | pwrFail | poolReady | regionFreeze | meterAdmit | breachRecord | traceSpill | contactMarker |
      contactDone | evtTimerExpiry | evtEdge | evtTimer | arraytest | mrstNRelease | channelTrained | powerGovernor | penenoStart |
      pulseWindow | gateOutput | evtPin | firmwareVerified =>
    exact keepsQueue_act (by dsimp only; (repeat' split) <;> simp)
  case parkedCommandComplete | ringStart | ringReset | lowWordRead | busMasterChange | hostPathReset | ringDmaError | trained | trainingTimeout |
      trainingRetry | replayTimeout | admitTimeout | ivcLimit | rekeyWindowEnd | leaseExpiry | snoopTimeout | holdEnd | regionChange |
      regionContested | faultBatchClose | faultTimeout | heatDecay | withdrawAck | saggerDrained | moverLost | partPlaced | firingLimit | glazeNop |
      bra | loop | rep | setct | barrier | ldi | ldh | mov | iadd | isub | imul | logic | shift | icmp | fcmp | plog | ldp | ldc | avail | fma32 |
      dot2 | dot4 | dot4x | dot8x | func | cread | cvt | unpk | sred | fred | flags | windowDeadline | driftTracking | dieLost | d2dTransfer |
      dieOvertemp | inputGood | railGroupGood | railFault | hubResetRelease | pwrFailRailsOff | hubOvertemp | mrstN | moduleResetBegin |
      firmwareStart | rngFail | nonceLapse | safelightExpiry | pulseSend | gateUnpaired | divergenceParity | parityError | gapEnd | planeTestDone |
      twinRejoin | resyncTimeout | fatal | crossingReset | regionSyncTimeout | queueSample | gateEntry | evtPulseEnd | page | evtCapture |
      sidebandInvalid | setdasa | entdaa | rstdaa | enec | disec | extest | samplePreload | idcode | clamp | highz | intscan | bypass | tapReset |
      clockReturn | inputLowClear | lcChanged | pcieLinkTrained | sel | stp | add32f | spprRepair | wedgePassDone | tallyGap =>
    exact keepsQueue_act (by (repeat' split) <;> simp)
  case getVersion | getCapabilities | negotiateAlgorithms | spdmUnsupported =>
    exact keepsQueue_spdmAny s fun _ => by simp
  case getCertificate | challenge | getMeasurements =>
    exact keepsQueue_spdmKeyed s fun _ => by (repeat' split) <;> simp
  case keyExchange | finish =>
    exact keepsQueue_spdmKeyed s fun _ => by dsimp only; (repeat' split) <;> simp
  case rdShared | rdOwn | upgrade | rdOnce | scorch | atomic =>
    exact keepsQueue_arriveCoh s _ _
  case rspData | rspClean | rspGone =>
    exact keepsQueue_arriveRsp s _ _ _ _ _
  case laneSwap | laneSwapAck | retrain | laneFail | signalDetect | portLost =>
    exact keepsQueue_onPort s (fun _ _ => by (repeat' split) <;> simp) _ _
  case voutMode | statusWord | moduleStatus | evtResult =>
    exact keepsQueue_sideRead s _ _
  case readVin | readIin | readVout | readIout | readTemperature1 | readPout | readPin =>
    exact keepsQueue_telemetry s _ _ _ _
  case getpid | getbcr | getdcr | getstatus | getmrl | getmwl =>
    exact keepsQueue_i3cGet s _ _
  case xltRootSet | xltMap | faultResolve | pageMigrate | memCraze | memRegen | windowOpen | windowClose | commandDoorbell |
      consumerDoorbell | irqCauseClear | registerWrite | outputEntryWrite | penFwGo | writeback | move | fire | fireCancel | agentCtxSet |
      fence | fenceAck | hdata | hdone | contrib | join | pulse | regionPublish | admitHello | admitProve | rekey | rekeyAck | flitReceive |
      resume | lctlResend | lockLost | leaseExpired | migrateDone | firingDone | endLane | bisqueSweep | tableSweep | dieJoin | arrayTest |
      tallySync | clockStop | mirrorUpdate | heatMirrorUpdate | flitSend =>
    simp

/-! ### Every step -/

/-- Settles O7: a command on the rest of the queue answers a next state and leaves that rest alone (`exec_keepsQueue`), and without one a tick
leaves the empty queue empty. The queue is the model's choice (log 1). -/
theorem queueIsFifo : Obligations.QueueIsFifo := by
  unfold Obligations.QueueIsFifo
  intro s
  unfold step
  split
  next e => exact ⟨_, rfl, by simp [e]⟩
  next i rest e =>
    rw [e]
    exact exec_keepsQueue i { s with pending := rest }

end Sys2Proof.Machine
end

section
/-! PROOFS. The twin control planes (O58; 11 R382 to R395). That the join pause counts as a gap of 0 ticks, and what a gate holds, are the model's
choices (log 54). -/

namespace Sys2Proof.Machine

/-! ### One plane (R383) -/

theorem planeOf_modPlane_same (p : Nat) (f : Plane → Plane) (s : State) : planeOf p (modPlane p f s) = (planeOf p s).map f := by
  simp [planeOf, modPlane]

theorem planeOf_modPlane_of {p : Nat} {s : State} {x : Plane} (h : planeOf p s = some x) (f : Plane → Plane) :
    planeOf p (modPlane p f s) = some (f x) := by
  rw [planeOf_modPlane_same, h, Option.map_some]

theorem planeOf_modPlane_ne {p q : Nat} (h : q ≠ p) (f : Plane → Plane) (s : State) : planeOf q (modPlane p f s) = planeOf q s := by
  simp [planeOf, modPlane, Ne.symm h]

theorem planeOf_congr {s t : State} (h : t.twin.planes = s.twin.planes) (p : Nat) : planeOf p t = planeOf p s := by simp only [planeOf, h]

theorem planeIn_eq (p : Nat) (s : State) :
    planeIn p s = ((planeOf p s).map (·.st) == some .active || (planeOf p s).map (·.st) == some .standby) := by
  unfold planeIn
  cases planeOf p s <;> simp

/-- A change that leaves a plane's state alone leaves the states of all planes alone. -/
theorem planeOf_modPlane_st {f : Plane → Plane} (hf : ∀ x, (f x).st = x.st) (p q : Nat) (s : State) :
    (planeOf q (modPlane p f s)).map (·.st) = (planeOf q s).map (·.st) := by
  by_cases h : q = p
  · subst h
    rw [planeOf_modPlane_same, Option.map_map]
    exact congrArg (Option.map · _) (funext hf)
  · rw [planeOf_modPlane_ne h]

theorem planeIn_modPlane {f : Plane → Plane} (hf : ∀ x, (f x).st = x.st) (p q : Nat) (s : State) : planeIn q (modPlane p f s) = planeIn q s := by
  simp only [planeIn_eq, planeOf_modPlane_st hf]

theorem planeActive_modPlane {f : Plane → Plane} (hf : ∀ x, (f x).st = x.st) (p q : Nat) (s : State) :
    planeActive q (modPlane p f s) = planeActive q s := by
  simp only [planeActive, planeOf_modPlane_st hf]

theorem exists_of_planeIn {p : Nat} {s : State} (h : planeIn p s = true) : ∃ x, planeOf p s = some x := by
  unfold planeIn at h
  split at h
  next x hx => exact ⟨x, hx⟩
  · cases h

/-- Of the two planes in service, each is, and so is its pair. -/
theorem planeIn_pair {p : Nat} {s : State} (hp : p ≤ 1) (h0 : planeIn 0 s = true) (h1 : planeIn 1 s = true) :
    planeIn p s = true ∧ planeIn (1 - p) s = true := by
  obtain rfl | rfl : p = 0 ∨ p = 1 := by omega
  · exact ⟨h0, h1⟩
  · exact ⟨h1, h0⟩

theorem planeActive_of {p : Nat} {s : State} {x : Plane} (h : planeOf p s = some x) : planeActive p s = true ↔ x.st = .active := by
  simp [planeActive, h]

theorem exists_of_planeActive {p : Nat} {s : State} (h : planeActive p s = true) : ∃ x, planeOf p s = some x ∧ x.st = .active := by
  simpa [planeActive] using h

/-- Of two planes, one active, the active one's claim is the pair's. -/
theorem activeClaim_of {p : Nat} {s : State} {x : Plane} (hp : p ≤ 1) (hx : planeOf p s = some x) (ha : x.st = .active)
    (ho : planeActive (1 - p) s = false) : activeClaim s = x.claim := by
  unfold planeActive planeOf at *
  unfold activeClaim
  generalize s.twin.planes = l at hx ho
  obtain rfl | rfl : p = 0 ∨ p = 1 := by omega
  · obtain _ | ⟨y, l⟩ := l <;> simp_all
  · obtain _ | ⟨y, _ | ⟨z, l⟩⟩ := l <;> simp_all

/-! ### What leaves the twin alone, or most of it -/

@[simp] theorem resumeTrace_twin (s : State) : (resumeTrace s).twin = s.twin := by unfold resumeTrace; split <;> simp

@[simp] theorem abandonSheet_twin (s : State) : (abandonSheet s).twin = s.twin := by unfold abandonSheet; dsimp only; split <;> simp

@[simp] theorem regrant_twin (p : Nat) (s : State) : (regrant p s).twin = s.twin := rfl

@[simp] theorem freePools_twin (s : State) : (freePools s).twin = s.twin := foldl_keeps State.twin (fun _ _ => by simp) _ s

/-- The mailbox path stayed silent: its alarm counts, and the record of a path may be written (R386). -/
theorem pathSilent_mailbox (watcher : Nat) (s : State) :
    ∃ r, (pathSilent watcher 1 s).twin = { s.twin with alarmMail := satAdd 65535 s.twin.alarmMail 1, pathRec := r } := by
  simp only [pathSilent, if_neg Nat.one_ne_zero]
  generalize smGet _ _ = last
  cases last with
  | none => exact ⟨_, emit_twin ..⟩
  | some t =>
    dsimp only
    split
    · exact ⟨_, rfl⟩
    · exact ⟨_, emit_twin ..⟩

/-- No contact sheet is open while the planes take input. -/
theorem abandonSheet_of_runs {s : State} (h : s.holds = false) : abandonSheet s = s := by
  have hc : s.obs.contact.st ≠ 1 := by
    intro e
    simp [State.holds, e] at h
  simp [abandonSheet, hc]

theorem setTwin_only (x : Twin) (s : State) : Only [.twin] s { s with twin := x } := by
  intro c hc
  cases c <;> simp_all [Comp.same]

theorem diverge_of_runs {s : State} (h : s.holds = false) : diverge s = { s with twin.gap := some ⟨s.now, 3, true, activeClaim s, 2⟩ } := by
  simp only [diverge, abandonSheet_of_runs h]

theorem gap_of_runs {s : State} (h : s.holds = false) : s.twin.gap = none := by
  simp only [State.holds, Bool.or_eq_false_iff] at h
  exact Option.isNone_iff_eq_none.1 (by simpa using h.1)

/-- The module becomes Fatal with the cause that comes first; the twin's counters stay (R399). -/
theorem goFatal_twin {s : State} (h : s.twin.mode ≠ .fatal) (cause : Nat) :
    (goFatal cause s).twin = { s.twin with mode := .fatal, fatalCause := cause, gap := none } := by
  simp only [goFatal, if_neg h]
  unfold ibi
  split <;> rfl

theorem mode_of_powered {s : State} (h : s.powered = true) : s.twin.mode ≠ .fatal := by
  intro e
  simp [State.powered, State.on, e] at h

theorem holds_of_alive {s : State} (h : s.alive = true) : s.holds = false := by
  simp only [State.alive, Bool.and_eq_true, Bool.not_eq_true'] at h
  exact h.2

/-! ### A plane leaves (R387, R388) -/

/-- A plane that left: fenced, its loss counted, its test begun. -/
def outPlane (x : Plane) : Plane := { x with st := .out, fenced := true, losses := x.losses + 1, testing := true, missed := 0 }

/-- The other plane becomes the active one, with a claim above `old`, when the active one leaves. -/
def takenOver (p old : Nat) (s : State) : State :=
  if planeActive p s then modPlane (1 - p) (fun x => { x with st := .active, claim := add32 old 1 }) s else s

@[simp] theorem takenOver_mode (p old : Nat) (s : State) : (takenOver p old s).twin.mode = s.twin.mode := by unfold takenOver; split <;> rfl

@[simp] theorem takenOver_divLocated (p old : Nat) (s : State) : (takenOver p old s).twin.divLocated = s.twin.divLocated := by
  unfold takenOver
  split <;> rfl

section
variable {p : Nat} {s : State} (hp : planeIn p s = true)
include hp

section
variable (ho : planeIn (1 - p) s = true) (hm : s.twin.mode = .duplex) (c start : Nat)
include ho hm

/-- A plane that leaves while the other is in service: a gap runs in SOLO, and of the rest of the twin only the planes change. -/
theorem leavePlane_twin : ∃ g, (leavePlane p c start s).twin
    = { (modPlane p outPlane (takenOver p (activeClaim s) s)).twin with mode := .solo, gap := some g } := by
  have hst : (modPlane p outPlane (takenOver p (activeClaim s) s)).twin.mode ≠ .starting := by simp [hm]
  unfold outPlane takenOver at hst ⊢
  simp only [leavePlane, hp, ho, Bool.not_true, Bool.false_eq_true, if_false, abandonSheet_twin]
  rw [if_neg hst]
  exact ⟨_, rfl⟩

theorem leavePlane_mode : (leavePlane p c start s).twin.mode = .solo := by
  obtain ⟨g, hg⟩ := leavePlane_twin hp ho hm c start
  rw [hg]

theorem leavePlane_gap : (leavePlane p c start s).twin.gap.isSome = true := by
  obtain ⟨g, hg⟩ := leavePlane_twin hp ho hm c start
  rw [hg]
  rfl

theorem planeOf_leavePlane (q : Nat) : planeOf q (leavePlane p c start s) = planeOf q (modPlane p outPlane (takenOver p (activeClaim s) s)) := by
  obtain ⟨g, hg⟩ := leavePlane_twin hp ho hm c start
  exact planeOf_congr (by rw [hg]) q

theorem planeOf_leavePlane_same : ∃ y, planeOf p (leavePlane p c start s) = some y ∧ y.st = .out ∧ y.fenced = true := by
  have hne : p ≠ 1 - p := by omega
  obtain ⟨x, hx⟩ := exists_of_planeIn hp
  have ht : planeOf p (takenOver p (activeClaim s) s) = some x := by
    unfold takenOver
    split
    · rw [planeOf_modPlane_ne hne, hx]
    · exact hx
  exact ⟨_, (planeOf_leavePlane hp ho hm c start p).trans (planeOf_modPlane_of ht _), rfl, rfl⟩

theorem planeOf_leavePlane_other : planeOf (1 - p) (leavePlane p c start s) = planeOf (1 - p) (takenOver p (activeClaim s) s) := by
  have hne : 1 - p ≠ p := by omega
  rw [planeOf_leavePlane hp ho hm, planeOf_modPlane_ne hne]

/-- The plane that goes on after the active one: active, its claim one above the pair's. -/
theorem planeOf_leavePlane_successor (ha : planeActive p s = true) : ∃ z, planeOf (1 - p) (leavePlane p c start s) = some z ∧ z.st = .active
    ∧ z.claim = add32 (activeClaim s) 1 := by
  obtain ⟨z, hz⟩ := exists_of_planeIn ho
  rw [planeOf_leavePlane_other hp ho hm, takenOver, if_pos ha, planeOf_modPlane_of hz]
  exact ⟨_, rfl, rfl, rfl⟩

/-- Whichever plane was active, the one that goes on is. -/
theorem planeActive_leavePlane (ha : planeActive p s = true ∨ planeActive (1 - p) s = true) :
    planeActive (1 - p) (leavePlane p c start s) = true := by
  by_cases hp' : planeActive p s = true
  · obtain ⟨z, hz, hst, -⟩ := planeOf_leavePlane_successor hp ho hm c start hp'
    exact (planeActive_of hz).2 hst
  · have hoth := planeOf_leavePlane_other hp ho hm c start
    rw [takenOver, if_neg hp'] at hoth
    rw [planeActive, hoth]
    exact ha.resolve_left hp'

end

/-- The last plane in service takes the module with it. -/
theorem leavePlane_last (ho : planeIn (1 - p) s = false) (c start : Nat) : leavePlane p c start s = goFatal 1 s := by
  simp [leavePlane, hp, ho]

end

/-! ### Each command's row of the dispatch -/

section
variable (s : State) (p g v : Nat) (a b : Bool) (found : SweepFound)

theorem exec_pulseSend : exec (.pulseSend p) s = execPulseSend p s := rfl
theorem exec_pulseWindow : exec (.pulseWindow p a b) s = execPulseWindow p a b s := rfl
theorem exec_gateOutput : exec (.gateOutput g p v) s = execGateOutput g p v s := rfl
theorem exec_gateUnpaired : exec (.gateUnpaired g) s = execGateUnpaired g s := rfl
theorem exec_divergenceParity : exec (.divergenceParity a b) s = execDivergenceParity a b s := rfl
theorem exec_parityError : exec (.parityError p) s = execParityError p s := rfl
theorem exec_tableSweep : exec (.tableSweep p found) s = execTableSweep p found s := rfl
theorem exec_gapEnd : exec .gapEnd s = execGapEnd s := rfl
theorem exec_planeTestDone : exec (.planeTestDone p a) s = execPlaneTestDone p a s := rfl
theorem exec_twinRejoin : exec .twinRejoin s = execTwinRejoin s := rfl
theorem exec_resyncTimeout : exec (.resyncTimeout a) s = execResyncTimeout a s := rfl

end

/-! ### Pulses (R385 to R387) -/

theorem pulseSend_due {s : State} {p : Nat} {x : Plane} (hp : s.powered = true) (h0 : planeIn 0 s = true) (h1 : planeIn 1 s = true)
    (hx : planeOf p s = some x) (ht : x.pulseAt + 1000 ≤ s.now) :
    exec (.pulseSend p) s = .next (modPlane p (fun x => { x with pulseAt := s.now }) s) := by
  simp [exec_pulseSend, execPulseSend, act, hp, h0, h1, hx, ht]

/-- The watcher's window ends at `t` and the next one opens. -/
def nextWindow (w t : Nat) (s : State) : State := modPlane w (fun x => { x with windowAt := t }) s

/-- The watcher's window ended at `t` without a pulse of the other plane. -/
def missedWindow (w t : Nat) (s : State) : State := modPlane (1 - w) (fun x => { x with missed := x.missed + 1 }) (nextWindow w t s)

theorem planeIn_missedWindow (w t q : Nat) (s : State) : planeIn q (missedWindow w t s) = planeIn q s :=
  (planeIn_modPlane (fun _ => by rfl) ..).trans (planeIn_modPlane (fun _ => by rfl) ..)

theorem planeActive_missedWindow (w t q : Nat) (s : State) : planeActive q (missedWindow w t s) = planeActive q s :=
  (planeActive_modPlane (fun _ => by rfl) ..).trans (planeActive_modPlane (fun _ => by rfl) ..)

section
variable {s : State} {w : Nat} (hp : s.powered = true) (hw : w ≤ 1) (hiw : planeIn w s = true) (hio : planeIn (1 - w) s = true)
  (hm : s.twin.mode = .duplex)
include hp hw hiw hio hm

theorem pulseWindow_heard {wire mailbox : Bool} (hh : wire = true ∨ mailbox = true) :
    exec (.pulseWindow w wire mailbox) s = .next (execPulseWindow.heard (1 - w) w wire mailbox (nextWindow w s.now s)) := by
  have hge : ¬1 < w := by omega
  simp [exec_pulseWindow, execPulseWindow, act, nextWindow, hp, hge, hiw, hio, hm, hh]

section
variable {x z : Plane} (hx : planeOf (1 - w) s = some x) (hz : planeOf w s = some z)
include hz

theorem pulseWindow_open (ht : s.now < z.windowAt + 1100) : exec (.pulseWindow w false false) s = .next s := by
  have hge : ¬1 < w := by omega
  simp [exec_pulseWindow, execPulseWindow, act, hp, hge, hiw, hio, hm, hz, ht]

include hx

/-- A window without a pulse ends after 1,100 ticks; the third in a row makes the other plane silent. -/
theorem pulseWindow_missed (ht : z.windowAt + 1100 ≤ s.now) : ∃ held, exec (.pulseWindow w false false) s
    = .next (if 3 ≤ x.missed + 1 then leavePlane (1 - w) 1 held (missedWindow w (z.windowAt + 1100) s)
      else missedWindow w (z.windowAt + 1100) s) := by
  have hge : ¬1 < w := by omega
  have hne : 1 - w ≠ w := by omega
  have hmiss : planeOf (1 - w) (missedWindow w (z.windowAt + 1100) s) = some { x with missed := x.missed + 1 } :=
    planeOf_modPlane_of ((planeOf_modPlane_ne hne _ _).trans hx) _
  have hsil : execPulseWindow.silent (1 - w) (missedWindow w (z.windowAt + 1100) s) = decide (3 ≤ x.missed + 1) := by
    simp only [execPulseWindow.silent, hmiss, Option.map_some, Option.getD_some]
  unfold missedWindow nextWindow at hsil
  simp only [exec_pulseWindow, execPulseWindow, act, missedWindow, nextWindow, hp, hge, hiw, hio, hm, hz, Nat.not_lt.2 ht, hsil, Option.map_some,
    Option.getD_some, decide_eq_true_eq, Bool.not_true, Bool.or_self, bne_self_eq_false, decide_false, Bool.false_eq_true, if_false]
  exact ⟨_, rfl⟩

theorem pulseWindow_silent (ht : z.windowAt + 1100 ≤ s.now) (h2 : x.missed = 2) : ∃ t y, exec (.pulseWindow w false false) s = .next t
    ∧ planeOf (1 - w) t = some y ∧ y.st = .out ∧ y.fenced = true ∧ t.twin.mode = .solo ∧ t.twin.gap.isSome = true
    ∧ (planeActive (1 - w) s = true ∨ planeActive w s = true → planeActive w t = true) := by
  obtain ⟨held, hexec⟩ := pulseWindow_missed hp hw hiw hio hm hx hz ht
  rw [if_pos (by omega)] at hexec
  have hback : 1 - (1 - w) = w := by omega
  have hpin : planeIn (1 - w) (missedWindow w (z.windowAt + 1100) s) = true := (planeIn_missedWindow ..).trans hio
  have hoin : planeIn (1 - (1 - w)) (missedWindow w (z.windowAt + 1100) s) = true := by rw [hback, planeIn_missedWindow, hiw]
  have hdup : (missedWindow w (z.windowAt + 1100) s).twin.mode = .duplex := hm
  obtain ⟨y, hy, hout, hfen⟩ := planeOf_leavePlane_same hpin hoin hdup 1 held
  have hact := planeActive_leavePlane hpin hoin hdup 1 held
  rw [hback, planeActive_missedWindow, planeActive_missedWindow] at hact
  exact ⟨_, y, hexec, hy, hout, hfen, leavePlane_mode hpin hoin hdup 1 held, leavePlane_gap hpin hoin hdup 1 held, hact⟩

end

end

/-! ### Claim gates (R384, R387, R391) -/

theorem gateHeld_setHeld_nil {s : State} (hw : smWf s.twin.gates = true) (g : Nat) : gateHeld g (setHeld g [] s) = [] := by
  simp [gateHeld, setHeld, smGet_smDel_same g _ hw]

/-- The output of a plane that is out of service never passes. -/
theorem gateOutput_fenced {s : State} {p : Nat} (h : planeIn p s = false) (g v : Nat) : exec (.gateOutput g p v) s = .next s := by
  simp [exec_gateOutput, execGateOutput, act, h]

section
variable {s : State} {p : Nat} (hr : s.glb.hubReset = false) (hh : s.holds = false) (hi : planeIn p s = true) (g v : Nat)
include hr hh hi

theorem gateOutput_solo (hm : s.twin.mode = .solo) : exec (.gateOutput g p v) s = .next { s with twin.passed := s.twin.passed ++ [(g, v)] } := by
  simp [exec_gateOutput, execGateOutput, act, hr, hh, hi, hm]

variable (hm : s.twin.mode = .duplex)
include hm

theorem gateOutput_first (hl : gateHeld g s = []) : exec (.gateOutput g p v) s = .next (setHeld g [(p, v, s.now)] s) := by
  simp [exec_gateOutput, execGateOutput, act, hr, hh, hi, hm, hl]

variable {q t0 : Nat} (hq : q ≠ p)
include hq

theorem gateOutput_agrees (hl : gateHeld g s = [(q, v, t0)]) :
    exec (.gateOutput g p v) s = .next (setHeld g [] { s with twin.passed := s.twin.passed ++ [(g, v)] }) := by
  simp [exec_gateOutput, execGateOutput, act, hr, hh, hi, hm, hl, hq]

theorem gateOutput_differs {w : Nat} (hl : gateHeld g s = [(q, w, t0)]) (hw : w ≠ v) :
    exec (.gateOutput g p v) s = .next (diverge (setHeld g [(q, w, t0), (p, v, s.now)] s)) := by
  simp [exec_gateOutput, execGateOutput, act, hr, hh, hi, hm, hl, hq, hw]

end

theorem gateUnpaired_late {s : State} {g q v t0 : Nat} {rest : List (Nat × Nat × Nat)} (ha : s.alive = true) (hm : s.twin.mode = .duplex)
    (hl : gateHeld g s = (q, v, t0) :: rest) (ht : t0 + 2000 ≤ s.now) : exec (.gateUnpaired g) s = .next (leavePlane (1 - q) 2 t0 s) := by
  simp [exec_gateUnpaired, execGateUnpaired, act, hl, ha, hm, ht]

/-! ### Verdicts of parity (R387, R391) -/

section
variable {s : State} {g : Gap} (hp : s.powered = true) (hg : s.twin.gap = some g) (hd : g.divergence = true)
include hp hg hd

theorem divergenceParity_both : exec (.divergenceParity true true) s = .next
    (goFatal 2 (emit 0x19 4095 0 0 [0, 0xFFFFFFFF] { s with twin.divUnlocated := satAdd 65535 s.twin.divUnlocated 1 })) := by
  simp [exec_divergenceParity, execDivergenceParity, act, hp, hg, hd]

theorem divergenceParity_first : exec (.divergenceParity true false) s = .next
    (leavePlane 0 3 g.start (emit 0x19 4095 0 0 [1, 0] { s with twin.divLocated := satAdd 65535 s.twin.divLocated 1 })) := by
  simp [exec_divergenceParity, execDivergenceParity, act, hp, hg, hd]

end

theorem divergenceParity_unlocated {s : State} {g : Gap} (hp : s.powered = true) (hg : s.twin.gap = some g) (hd : g.divergence = true) :
    ∃ t, exec (.divergenceParity true true) s = .next t ∧ t.twin.mode = .fatal ∧ t.twin.fatalCause = 2
      ∧ t.twin.divUnlocated = satAdd 65535 s.twin.divUnlocated 1 := by
  have hm : (emit 0x19 4095 0 0 [0, 0xFFFFFFFF] { s with twin.divUnlocated := satAdd 65535 s.twin.divUnlocated 1 }).twin.mode ≠ .fatal := by
    rw [emit_twin]
    exact mode_of_powered hp
  refine ⟨_, divergenceParity_both hp hg hd, ?_, ?_, ?_⟩ <;> simp [goFatal_twin hm]

theorem divergenceParity_located {s : State} {g : Gap} (hp : s.powered = true) (hg : s.twin.gap = some g) (hd : g.divergence = true)
    (h0 : planeIn 0 s = true) (h1 : planeIn 1 s = true) (hm : s.twin.mode = .duplex) : ∃ t y, exec (.divergenceParity true false) s = .next t
      ∧ planeOf 0 t = some y ∧ y.st = .out ∧ t.twin.divLocated = satAdd 65535 s.twin.divLocated 1 ∧ t.twin.mode = .solo := by
  have hexec := divergenceParity_first hp hg hd
  have ht := emit_twin 0x19 4095 0 0 [1, 0] { s with twin.divLocated := satAdd 65535 s.twin.divLocated 1 }
  generalize emit 0x19 4095 0 0 [1, 0] { s with twin.divLocated := satAdd 65535 s.twin.divLocated 1 } = u at hexec ht
  have hpl : u.twin.planes = s.twin.planes := by rw [ht]
  have hin (p : Nat) : planeIn p u = planeIn p s := by simp only [planeIn_eq, planeOf_congr hpl]
  have hdup : u.twin.mode = .duplex := by rw [ht, hm]
  have hu0 := (hin 0).trans h0
  have hu1 := (hin 1).trans h1
  obtain ⟨y, hy, hout, -⟩ := planeOf_leavePlane_same hu0 hu1 hdup 3 g.start
  obtain ⟨k, hk⟩ := leavePlane_twin hu0 hu1 hdup 3 g.start
  have hloc : (leavePlane 0 3 g.start u).twin.divLocated = u.twin.divLocated := (congrArg Twin.divLocated hk).trans (takenOver_divLocated ..)
  exact ⟨_, y, hexec, hy, hout, hloc.trans (by rw [ht]), leavePlane_mode hu0 hu1 hdup 3 g.start⟩

theorem parityError_leaves {s : State} {p : Nat} (hp : s.powered = true) (hlt : p < 2) (hm : s.twin.mode = .duplex) :
    exec (.parityError p) s = .next (leavePlane p 4 s.now s) := by
  simp [exec_parityError, execParityError, act, hp, hlt, hm]

/-! ### The sweep of tables (R392; 03 R111, R114) -/

theorem tableSweep_early {s : State} (h : s.now < tableDue s) (p : Nat) (found : SweepFound) : exec (.tableSweep p found) s = .next s := by
  simp [exec_tableSweep, execTableSweep, act, h]

section
variable {s : State} (ha : s.alive = true) (ht : tableDue s ≤ s.now) (p : Nat)
include ha ht

theorem tableSweep_clean : exec (.tableSweep p ⟨true, [], []⟩) s = .next { s with mem.tableAt := s.now } := by
  simp [exec_tableSweep, execTableSweep, act, ha, ht]

theorem tableSweep_idleWord {x : Spare} {h : Shelf} (hx : x.array = 0) (hs : shelfOf x.unit s = some h) (hr : h.run = none) (ho : h.out = false) :
    exec (.tableSweep p ⟨true, [x], []⟩) s = .next (noteRowErr x { s with mem.tableAt := s.now }) := by
  simp [exec_tableSweep, execTableSweep, act, ha, ht, hx, hs, hr, ho]

/-- Tables that differ start a gap, whose parity verdict is awaited (R391). -/
theorem tableSweep_differs (hm : s.twin.mode = .duplex) : exec (.tableSweep p ⟨false, [], []⟩) s
    = .next { s with mem.tableAt := s.now, twin.gap := some ⟨s.now, 3, true, activeClaim s, 2⟩ } := by
  have hgap := diverge_of_runs (s := { s with mem.tableAt := s.now }) (holds_of_alive ha)
  have hexec : exec (.tableSweep p ⟨false, [], []⟩) s = .next (diverge { s with mem.tableAt := s.now }) := by
    simp [exec_tableSweep, execTableSweep, act, ha, ht, hm]
  exact hexec.trans (congrArg _ hgap)

end

/-! ### The end of a gap (R388 to R390) -/

/-- The state in which a gap of `len` ticks has ended: the gates are empty, what the remaining plane held has passed. -/
def gapClosed (g : Gap) (len : Nat) (s : State) : State :=
  { s with twin.gap := none, twin.gates := [],
           twin.passed := s.twin.passed ++ s.twin.gates.flatMap fun e => (e.2.filter (·.1 != g.left)).map fun o => (e.1, o.2.1),
           twin.gaps := add32 s.twin.gaps 1, twin.lastGap := len }

theorem gapEnd_ends {s : State} {g : Gap} (hp : s.powered = true) (hg : s.twin.gap = some g) (hd : g.divergence = false) :
    exec .gapEnd s = .next (endPause (min (s.now - g.start) 4096) 4 (emit 0x18 4095 0 0
      [g.left, g.cause, g.oldClaim, activeClaim s, min (s.now - g.start) 4096] (gapClosed g (min (s.now - g.start) 4096) s))) := by
  simp only [exec_gapEnd, execGapEnd, act, hg, hp, hd, Bool.true_eq_false, Bool.false_eq_true, or_self, if_false]
  rfl

/-- A pause for which no message waits moves the timers and frees the pools. -/
theorem endPause_of_nil {s : State} (h : s.twin.rxWait = []) (len why : Nat) :
    endPause len why s = freePools (addPause len why { s with twin.rxWait := [] }) := by
  simp only [endPause, h, List.foldl_nil]

theorem endPause_twin {s : State} (h : s.twin.rxWait = []) (len why : Nat) :
    (endPause len why s).twin = { s.twin with rxWait := [], pauseEnd := s.now, pauseLen := len, pauseWhy := why } := by
  rw [endPause_of_nil h, freePools_twin]
  rfl

theorem endPause_mem_of_nil {s : State} (h : s.twin.rxWait = []) (len why : Nat) : (endPause len why s).mem = s.mem := by
  rw [endPause_of_nil h, freePools_mem]
  rfl

/-! ### Coming back (R389, R393, R394) -/

section
variable {s : State} {p : Nat} {x : Plane} (hp : s.powered = true) (hx : planeOf p s = some x) (ho : x.st = .out) (ht : x.testing = true)
include hp hx ho ht

theorem planeTestDone_good (hl : x.losses ≤ 3) : exec (.planeTestDone p true) s
    = .next { modPlane p (fun x => { x with st := .resync, testing := false }) s with twin.resyncAt := s.now } := by
  simp [exec_planeTestDone, execPlaneTestDone, act, hp, hx, ho, ht, hl]

/-- A plane that fails its test, or that has left more than three times, is Dead. -/
theorem planeTestDone_dead {ok : Bool} (h : ok = false ∨ 3 < x.losses) :
    ∃ t y, exec (.planeTestDone p ok) s = .next t ∧ planeOf p t = some y ∧ y.st = .dead := by
  have hn : ¬(ok = true ∧ x.losses ≤ 3) := by
    rintro ⟨rfl, hl⟩
    exact h.elim Bool.noConfusion (Nat.not_lt.2 hl)
  have hexec : exec (.planeTestDone p ok) s
      = .next (emit 0x1B 4095 0 0 [p, x.losses] (modPlane p (fun x => { x with st := .dead, testing := false }) s)) := by
    simp [exec_planeTestDone, execPlaneTestDone, act, hp, hx, ho, ht, hn]
  exact ⟨_, _, hexec, (planeOf_congr (by rw [emit_twin]) p).trans (planeOf_modPlane_of hx _), rfl⟩

end

section
variable {s : State} {p : Nat} (hf : s.twin.planes.findIdx? (·.st == .resync) = some p)
include hf

/-- The plane in resync is there. -/
theorem exists_of_findIdx : ∃ x, planeOf p s = some x := by
  obtain ⟨hlt, -⟩ := List.findIdx?_eq_some_iff_findIdx_eq.1 hf
  exact ⟨_, List.getElem?_eq_getElem hlt⟩

/-- The plane in resync joins as Standby, its claim one below the active one's; the join pause counts as a gap of 0 ticks (log 54). -/
theorem twinRejoin_joins (ha : s.alive = true) (hact : planeActive (1 - p) s = true) (hm : s.twin.mode = .solo) : ∃ t y,
    exec .twinRejoin s = .next t ∧ planeOf p t = some y ∧ y.st = .standby ∧ y.claim = (activeClaim s + (2 ^ 32 - 1)) % 2 ^ 32 ∧ y.fenced = false
      ∧ t.twin.mode = .duplex ∧ t.twin.gaps = add32 s.twin.gaps 1 := by
  have hne : p ≠ 1 - p := by omega
  obtain ⟨x, hx⟩ := exists_of_findIdx hf
  have hgo : ¬(s.alive = false ∨ planeActive (1 - p) s = false) := by simp [ha, hact]
  rw [exec_twinRejoin, execTwinRejoin, act, hf]
  simp only [if_neg hgo]
  have hplane (f g : Plane → Plane) : planeOf p (modPlane (1 - p) g (modPlane p f s)) = some (f x) :=
    (planeOf_modPlane_ne hne _ _).trans (planeOf_modPlane_of hx _)
  refine ⟨_, _, rfl, (planeOf_congr (congrArg Twin.planes (emit_twin ..)) p).trans (hplane _ _), rfl, rfl, rfl, ?_, ?_⟩
  · simp [hm]
  · rw [emit_twin]
    rfl

theorem resyncTimeout_crcFail (hp : s.powered = true) :
    exec (.resyncTimeout true) s = .next (modPlane p (fun x => { x with st := .out, testing := true }) s) := by
  simp [exec_resyncTimeout, execResyncTimeout, act, hf, hp]

end

/-! ### The planes together -/

/-- Settles O58: each command finds its guard, so that it acts as its lemma says; what a plane that leaves does to both planes is said once
(`leavePlane_twin`). -/
theorem twinPlanes : Obligations.TwinPlanes := by
  intro s
  refine ⟨fun p x => pulseSend_due, ?pulses, ?gates, fun g p v hr hh hm hi => gateOutput_solo hr hh hi g v hm,
    fun g p v hi => gateOutput_fenced hi g v, fun g q v t0 rest ha hm _ => gateUnpaired_late ha hm, ?leaves, ?last,
    fun g hp hg hd => ⟨divergenceParity_unlocated hp hg hd, divergenceParity_located hp hg hd⟩, fun p => parityError_leaves,
    fun p e ws gs ht => tableSweep_early ht p _, ?sweep, ?gap, ?test, fun p _ ha hf => twinRejoin_joins hf ha,
    fun p hp hf => resyncTimeout_crcFail hf hp⟩
  case pulses =>
    intro w x z hp hw h0 h1 hm hx hz
    obtain ⟨hiw, hio⟩ := planeIn_pair hw h0 h1
    obtain ⟨r, hmail⟩ := pathSilent_mailbox w (modPlane (1 - w) (fun x => { x with missed := 0 }) (nextWindow w s.now s))
    refine ⟨pulseWindow_heard hp hw hiw hio hm (.inl rfl), pulseWindow_open hp hw hiw hio hm hz, fun ht hmiss => ?_, fun ht hmiss => ?_,
      _, pulseWindow_heard hp hw hiw hio hm (.inl rfl), congrArg Twin.alarmMail hmail, (congrArg Twin.mode hmail).trans hm⟩
    · obtain ⟨held, hexec⟩ := pulseWindow_missed hp hw hiw hio hm hx hz ht
      rwa [if_neg (by omega)] at hexec
    · obtain ⟨t, y, hexec, hy, hout, hfen, hsolo, hgap, hact⟩ := pulseWindow_silent hp hw hiw hio hm hx hz ht hmiss
      refine ⟨t, y, hexec, hy, hout, hfen, hsolo, hgap, fun hany => hact ?_⟩
      obtain rfl | rfl : w = 0 ∨ w = 1 := by omega
      · exact hany.symm
      · exact hany
  case gates =>
    refine fun g p v hr hh hm hi => ⟨gateOutput_first hr hh hi g v hm, fun q t0 hq hw hl => ?_, fun q w t0 hq hw hl => ?_⟩
    · exact ⟨_, gateOutput_agrees hr hh hi g v hm hq hl, setTwin_only _ s, rfl, gateHeld_setHeld_nil hw g,
        gap_of_runs hh⟩
    · have hexec := gateOutput_differs hr hh hi g v hm hq hl hw
      rw [diverge_of_runs (show (setHeld g _ s).holds = false from hh)] at hexec
      exact ⟨_, hexec, rfl, rfl, rfl⟩
  case leaves =>
    intro p c start hle h0 h1 ha hn hm
    obtain ⟨hip, hio⟩ := planeIn_pair hle h0 h1
    obtain ⟨x, hx, hst⟩ := exists_of_planeActive ha
    obtain ⟨y, hy, hout, hfen⟩ := planeOf_leavePlane_same hip hio hm c start
    obtain ⟨z, hz, hzst, hclaim⟩ := planeOf_leavePlane_successor hip hio hm c start ha
    exact ⟨y, z, hy, hout, hfen, hz, hzst, by rw [hclaim, hx, activeClaim_of hle hx hst hn, Option.map_some], leavePlane_mode hip hio hm c start⟩
  case last =>
    intro p c start hi ho hm
    rw [leavePlane_last hi ho, goFatal_twin hm]
    exact ⟨rfl, rfl⟩
  case sweep =>
    refine fun p ha ht => ⟨tableSweep_clean ha ht p, fun x h => tableSweep_idleWord ha ht p, fun hm => ⟨_, tableSweep_differs ha ht p hm, rfl⟩⟩
  case gap =>
    intro g hp hg hd hw
    have hwait : (emit 0x18 4095 0 0 [g.left, g.cause, g.oldClaim, activeClaim s, min (s.now - g.start) 4096]
        (gapClosed g (min (s.now - g.start) 4096) s)).twin.rxWait = [] := by
      rw [emit_twin]
      exact hw
    refine ⟨_, gapEnd_ends hp hg hd, ?_⟩
    rw [endPause_twin hwait, endPause_mem_of_nil hwait, emit_twin, emit_mem]
    exact ⟨rfl, rfl, rfl, rfl, rfl, rfl⟩
  case test =>
    refine fun p x hp hx ho ht => ⟨fun hl => ?_, planeTestDone_dead hp hx ho ht (.inl rfl), fun hl => planeTestDone_dead hp hx ho ht (.inr hl)⟩
    exact ⟨_, _, planeTestDone_good hp hx ho ht hl, setTwin_only _ s, planeOf_modPlane_of hx _, rfl, rfl⟩

end Sys2Proof.Machine
end

section
/-! PROOFS. One-time-programmable memory (O6; 12 R407 to R413, 14 R456): its order, and the shapes that steps are made of.

`f_pen` says what `f` leaves of Peneno: for all but Peneno's own operations and the resets, everything. Those that hold by computation are
proved by `(rfl)`, in parentheses: `simp` uses a lemma proved by a bare `rfl` for rewriting by computation only, and then cannot give it to
`foldl_pen`, `thenRead_pen` and `readEach_pen`. -/

namespace Sys2Proof.Machine

/-! ### The order of the memory (R408 to R411) -/

@[simp] theorem otpLe_refl (o : Otp) : otpLe o o :=
  ⟨le_rfl, id, id, id, Nat.and_self _, fun _ => le_rfl, fun _ => id⟩

section
variable {o p : Otp} (h : otpLe o p)
include h

theorem otpLe.set_lc {n : Nat} (hn : p.lc ≤ n) : otpLe o { p with lc := n } := by
  obtain ⟨hlc, hrest⟩ := h
  exact ⟨hlc.trans hn, hrest⟩

theorem otpLe.set_killOwner : otpLe o { p with killOwner := true } := by
  obtain ⟨hlc, -, hrest⟩ := h
  exact ⟨hlc, fun _ => rfl, hrest⟩

theorem otpLe.set_killUds : otpLe o { p with killUds := true } := by
  obtain ⟨hlc, how, -, hrest⟩ := h
  exact ⟨hlc, how, fun _ => rfl, hrest⟩

theorem otpLe.or_udsBurned (b : Bool) (u : Nat) : otpLe o { p with udsBurned := p.udsBurned || b, uds := u } := by
  obtain ⟨hlc, how, huds, hburn, hrest⟩ := h
  exact ⟨hlc, how, huds, fun ho => by simp [hburn ho], hrest⟩

theorem otpLe.or_fwRevoke (m : Nat) : otpLe o { p with fwRevoke := Nat.lor p.fwRevoke m } := by
  obtain ⟨hlc, how, huds, hburn, hrev, hrest⟩ := h
  refine ⟨hlc, how, huds, hburn, ?_, hrest⟩
  refine Nat.eq_of_testBit_eq fun j => ?_
  have hj : (o.fwRevoke &&& p.fwRevoke).testBit j = o.fwRevoke.testBit j := congrArg (Nat.testBit · j) hrev
  show (o.fwRevoke &&& (p.fwRevoke ||| m)).testBit j = _
  rw [Nat.testBit_and] at hj
  rw [Nat.testBit_and, Nat.testBit_or, Bool.and_or_distrib_left, hj, Bool.or_eq_left_iff_imp]
  exact fun hb => (Bool.and_eq_true _ _ ▸ hb).1

theorem otpLe.set_svn {i v : Nat} (hv : p.svn.getD i 0 ≤ v) : otpLe o { p with svn := p.svn.set i v } := by
  obtain ⟨hlc, how, huds, hburn, hrev, hsvn, hslots⟩ := h
  refine ⟨hlc, how, huds, hburn, hrev, fun j => (hsvn j).trans ?_, hslots⟩
  simp only [List.getD_eq_getElem?_getD] at hv ⊢
  by_cases hj : i = j
  · subst hj
    by_cases hl : i < p.svn.length <;> simp_all
  · simp [List.getElem?_set_ne hj]

theorem otpLe.set_slot (i : Nat) (g : GenRec) : otpLe o { p with slots := p.slots.set i (some g) } := by
  obtain ⟨hlc, how, huds, hburn, hrev, hsvn, hslots⟩ := h
  refine ⟨hlc, how, huds, hburn, hrev, hsvn, fun j hj => ?_⟩
  by_cases hij : i = j
  · subst hij
    by_cases hl : i < p.slots.length 
    · simp [hl]
    · simpa [List.set_eq_of_length_le (Nat.le_of_not_lt hl)] using hslots i hj
  · simpa [List.getElem?_set_ne hij] using hslots j hj
end

@[simp] theorem otpLe_used (o p : Otp) (u : List Bool) : otpLe o { p with used := u } ↔ otpLe o p := Iff.rfl

@[simp] theorem ite_otp (c : Prop) [Decidable c] (p q : Pen) : (if c then p else q).otp = if c then p.otp else q.otp := by split <;> rfl

/-! ### Shapes -/

@[simp] theorem ite_pen (c : Prop) [Decidable c] (s t : State) :
    (if c then s else t).pen = if c then s.pen else t.pen := by split <;> rfl

@[simp] theorem ite_snd_pen {α : Type} (c : Prop) [Decidable c] (x y : α × State) :
    (if c then x else y).2.pen = if c then x.2.pen else y.2.pen := by split <;> rfl

/-- Steps that leave Peneno alone do so one after another. -/
@[simp] theorem foldl_pen {α : Type} {f : State → α → State} (hf : ∀ s a, (f s a).pen = s.pen) (l : List α) (s : State) :
    (l.foldl f s).pen = s.pen :=
  foldl_keeps State.pen hf l s

@[simp] theorem foldl_modShelf_pen (f : State → Nat → Shelf → Shelf) (l : List Nat) (s : State) :
    (l.foldl (fun s sh => modShelf sh (f s sh) s) s).pen = s.pen :=
  foldl_pen (f := fun s sh => modShelf sh (f s sh) s) (fun _ _ => rfl) l s

/-- A fold whose accumulator carries a state. -/
theorem foldl_carry_pen {α β : Type} {get : β → State} {f : β → α → β}
    (hf : ∀ b a, (get (f b a)).pen = (get b).pen) (l : List α) (b : β) : (get (l.foldl f b)).pen = (get b).pen :=
  foldl_keeps (fun b => (get b).pen) hf l b

/-- Peneno in a state that a result carries. -/
theorem pen_of_snd {α : Type} {x : α × State} {a : α} {u : State} (e : x = (a, u)) : u.pen = x.2.pen := by rw [e]

/-! ### Reads that go on when the last gave a value -/

@[simp] theorem thenRead_pen {α β : Type} {g : α → State → Option β × State} (hg : ∀ a s, (g a s).2.pen = s.pen)
    (x : Option α × State) : (thenRead x g).2.pen = x.2.pen := by
  obtain ⟨_ | a, s⟩ := x
  · rfl
  · exact hg a s

@[simp] theorem readEach_pen {α β : Type} {g : α → State → Option β × State} (hg : ∀ a s, (g a s).2.pen = s.pen) (l : List α)
    (s : State) : (readEach g l s).2.pen = s.pen := by
  induction l generalizing s with
  | nil => rfl
  | cons a l ih => simp [readEach, hg, ih]

/-! ### Outcomes -/

/-- The command answers a next state with Peneno as it was. -/
def KeepsPen (o : Host.Outcome State Fault Refusal) (s : State) : Prop := ∃ t, o = .next t ∧ t.pen = s.pen

theorem keepsPen_act {f : State → State} {s : State} (h : (f s).pen = s.pen) : KeepsPen (act f s) s := ⟨_, rfl, h⟩

/-- The command answers a next state in whose one-time memory every bit stands that stood before. -/
def GainsOtp (o : Host.Outcome State Fault Refusal) (s : State) : Prop := ∃ t, o = .next t ∧ otpLe s.pen.otp t.pen.otp

theorem KeepsPen.gainsOtp {o : Host.Outcome State Fault Refusal} {s : State} (h : KeepsPen o s) : GainsOtp o s := by
  obtain ⟨t, rfl, ht⟩ := h
  exact ⟨t, rfl, by simp [ht]⟩

theorem gainsOtp_act {f : State → State} {s : State} (h : otpLe s.pen.otp (f s).pen.otp) : GainsOtp (act f s) s := ⟨_, rfl, h⟩

theorem gainsOtp_cmd {f : State → State} (hf : ∀ u, otpLe u.pen.otp (f u).pen.otp) (s : State) (r op : Nat)
    (checks : Inflight → State → List Chk) : GainsOtp (cmd r op checks f s) s := by
  refine ⟨_, rfl, ?_⟩
  split
  · simp
  · split
    · split
      · simp
      next g _ _ _ => exact hf (modRing r _ s)
    · simp

theorem after_otp {o : Host.Outcome State Fault Refusal} {s : State} (h : GainsOtp o s) : otpLe s.pen.otp (after s o).pen.otp := by
  obtain ⟨t, rfl, ht⟩ := h
  exact ht

theorem after_pen {o : Host.Outcome State Fault Refusal} {s : State} (h : KeepsPen o s) : (after s o).pen = s.pen := by
  obtain ⟨t, rfl, ht⟩ := h
  exact ht

section
variable {f : State → State} (hf : ∀ s, (f s).pen = s.pen) (s : State)
include hf

theorem keepsPen_cmdFor (r op sid : Nat) (checks : Inflight → State → List Chk) : KeepsPen (cmdFor r op sid checks f s) s := by
  refine ⟨_, rfl, ?_⟩
  split
  · rfl
  · split
    · split
      · simp
      · simp [hf]
    · rfl

theorem keepsPen_cmd (r op : Nat) (checks : Inflight → State → List Chk) : KeepsPen (cmd r op checks f s) s :=
  keepsPen_cmdFor hf s r op 0 checks

theorem keepsPen_memCmd (r op die : Nat) (checks : Inflight → State → List Chk) : KeepsPen (memCmd r op die checks f s) s := by
  obtain ⟨t, ht, hq⟩ :=
    keepsPen_cmd hf (if ((inflightOf r s).map (·.opcode)) = some op ∧ s.alive = true then touchDie die s else s) r op checks
  exact ⟨t, ht, hq.trans (by simp)⟩

end

end Sys2Proof.Machine
end

section
/-! PROOFS. One-time-programmable memory (O6), continued: memory, the fabric and the movers. -/

namespace Sys2Proof.Machine

/-! ### Shared operations (09) -/

@[simp] theorem draw_pen (s : State) : (draw s).2.pen = s.pen := (rfl)

@[simp] theorem countDenied_pen (sid : Nat) (s : State) : (countDenied sid s).pen = s.pen := (rfl)

@[simp] theorem flushVecs_pen (s : State) : (flushVecs s).pen = s.pen := by simp [flushVecs]

@[simp] theorem ok_pen (r : Nat) (res : List Nat) (s : State) : (ok r res s).pen = s.pen := by simp [ok]

@[simp] theorem okItem_pen (r : Nat) (items : List OutItem) (s : State) : (okItem r items s).pen = s.pen := by simp [okItem]

@[simp] theorem okStatus_pen (r status : Nat) (res : List Nat) (s : State) : (okStatus r status res s).pen = s.pen := by simp [okStatus]

@[simp] theorem refuse_pen (r status stage : Nat) (s : State) : (refuse r status stage s).pen = s.pen := by simp [refuse]

/-! ### Pool memory (03) -/

@[simp] theorem noteUE_pen (l sid finder : Nat) (s : State) : (noteUE l sid finder s).pen = s.pen := by simp [noteUE]

@[simp] theorem noteCE_pen (l : Nat) (s : State) : (noteCE l s).pen = s.pen := by simp [noteCE]

@[simp] theorem noteDecode_pen (l sid finder : Nat) (s : State) : (noteDecode l sid finder s).pen = s.pen := by
  unfold noteDecode
  split <;> simp

@[simp] theorem setSide_pen (l : Nat) (f : Line → Line) (s : State) : (setSide l f s).pen = s.pen := by simp [setSide]

@[simp] theorem setSummary_pen (l : Nat) (v : BitVec 16) (s : State) : (setSummary l v s).pen = s.pen := by simp [setSummary]

@[simp] theorem setCraze_pen (l : Nat) (v : BitVec 4) (s : State) : (setCraze l v s).pen = s.pen := by simp [setCraze]

@[simp] theorem readLocal_pen (l sid : Nat) (s : State) : (readLocal l sid s).2.pen = s.pen := by
  unfold readLocal
  (repeat' split) <;> simp

theorem writeLocal_pen {l sid tag cause : Nat} {d : LineData} {m : BitVec 64} {v : Option (BitVec 16)} {s t : State}
    (h : writeLocal l sid tag d m cause v s = some t) : t.pen = s.pen := by
  unfold writeLocal at h
  split at h
  · split at h
    · cases h
    · obtain rfl := Option.some.inj h
      simp
  · cases h

@[simp] theorem ownLine_pen (l tag : Nat) (d : LineData) (s : State) : (ownLine l tag d s).pen = s.pen := (rfl)

/-! ### Messages to send (09) -/

@[simp] theorem modPortCtr_pen (p : Nat) (f : PortCtr → PortCtr) (s : State) : (modPortCtr p f s).pen = s.pen := (rfl)

@[simp] theorem modAssoc_pen (p aid : Nat) (f : Assoc → Assoc) (s : State) : (modAssoc p aid f s).pen = s.pen := (rfl)

@[simp] theorem noteBreach_pen (sid guarantee reason port meter amount : Nat) (s : State) :
    (noteBreach sid guarantee reason port meter amount s).pen = s.pen := by simp [noteBreach]

@[simp] theorem countLate_pen (sid : Nat) (s : State) : (countLate sid s).pen = s.pen := (rfl)

@[simp] theorem sendAt_pen (due p : Nat) (plain : Bool) (m : OutMsg) (s : State) : (sendAt due p plain m s).pen = s.pen := by simp [sendAt]

@[simp] theorem sendOn_pen (p : Nat) (plain : Bool) (m : OutMsg) (s : State) : (sendOn p plain m s).pen = s.pen := by simp [sendOn]

@[simp] theorem sendWords_pen (p op dst tag tgen status : Nat) (body : List Nat) (s : State) :
    (sendWords p op dst tag tgen status body s).pen = s.pen := by simp [sendWords]

@[simp] theorem flushFences_pen (p aid : Nat) (s : State) : (flushFences p aid s).pen = s.pen := by
  unfold flushFences
  split <;> simp

@[simp] theorem closeReq_pen (p aid tag : Nat) (s : State) : (closeReq p aid tag s).pen = s.pen := by simp [closeReq]

@[simp] theorem openReq_pen (p aid tag tgen : Nat) (fence : Bool) (s : State) : (openReq p aid tag tgen fence s).pen = s.pen :=
  (rfl)

@[simp] theorem clearAgentNacks_pen (aid : Nat) (s : State) : (clearAgentNacks aid s).pen = s.pen := (rfl)

@[simp] theorem done_pen (p aid tag tgen sid status : Nat) (line : Option (LineData × Nat)) (old : List Nat) (s : State) :
    (done p aid tag tgen sid status line old s).pen = s.pen := by simp [done]

@[simp] theorem doneSt_pen (p aid tag tgen sid status : Nat) (s : State) :
    (doneSt p aid tag tgen sid status s).pen = s.pen := by simp [doneSt]

@[simp] theorem sendTracked_pen (p op aid : Nat) (body : List Nat) (line : Option (LineData × Nat)) (pur : Purpose) (s : State) :
    (sendTracked p op aid body line pur s).pen = s.pen := by simp [sendTracked]

@[simp] theorem sendHread_pen (hid off : Nat) (pur : Purpose) (s : State) : (sendHread hid off pur s).pen = s.pen := by simp [sendHread]

@[simp] theorem sendHwrite_pen (hid off : Nat) (d : LineData) (cause : Nat) (markOnly : Bool) (pur : Purpose) (s : State) :
    (sendHwrite hid off d cause markOnly pur s).pen = s.pen := by simp [sendHwrite]

@[simp] theorem chargeF_pen (sid bytes : Nat) (s : State) : (chargeF sid bytes s).2.pen = s.pen := by
  unfold chargeF
  split <;> rfl

@[simp] theorem chargeL_pen (sid lines : Nat) (s : State) : (chargeL sid lines s).2.pen = s.pen := by
  unfold chargeL
  split <;> rfl

@[simp] theorem letPass_pen (p aid tag sid cost lines came : Nat) (s : State) :
    (letPass p aid tag sid cost lines came s).2.pen = s.pen := by simp [letPass]

/-! ### Translation (02) -/

@[simp] theorem modLeaf_pen (sid base : Nat) (f : Leaf → Leaf) (s : State) : (modLeaf sid base f s).pen = s.pen := (rfl)

@[simp] theorem closeBatch_pen (s : State) : (closeBatch s).pen = s.pen := by simp [closeBatch]

@[simp] theorem readyRec_pen (r : FaultRec) (s : State) : (readyRec r s).pen = s.pen := by simp [readyRec]

theorem hitFault_pen {w : Waiter} {acc sid page kind : Nat} {big : Bool} {s t : State}
    (h : hitFault w acc sid page big kind s = some t) : t.pen = s.pen := by
  unfold hitFault at h
  split at h
  · cases h
  · split at h
    · obtain rfl := Option.some.inj h
      rfl
    · split at h
      · cases h
      · obtain rfl := Option.some.inj h
        simp

@[simp] theorem hitFault_getD_pen (w : Waiter) (acc sid page : Nat) (big : Bool) (kind : Nat) (s : State) :
    ((hitFault w acc sid page big kind s).getD s).pen = s.pen := by
  cases h : hitFault w acc sid page big kind s with
  | none => rfl
  | some t => exact hitFault_pen h

@[simp] theorem addHeat_pen (sid base n : Nat) (s : State) : (addHeat sid base n s).pen = s.pen := by
  unfold addHeat
  split <;> simp

/-! ### Directory (04) -/

@[simp] theorem modEnt_pen (k : Nat) (f : DirEnt → DirEnt) (s : State) : (modEnt k f s).pen = s.pen := (rfl)

@[simp] theorem setAgent_pen (aid : Nat) (a : Agent) (s : State) : (setAgent aid a s).pen = s.pen := (rfl)

@[simp] theorem entFromSummary_pen (k sid page : Nat) (s : State) : (entFromSummary k sid page s).2.pen = s.pen := by
  unfold entFromSummary
  dsimp only
  (repeat' split) <;> rfl

@[simp] theorem sendSnoop_pen (k : Nat) (inv : Bool) (aid : Nat) (s : State) : (sendSnoop k inv aid s).pen = s.pen := by simp [sendSnoop]

@[simp] theorem freeEnt_pen (k : Nat) (s : State) : (freeEnt k s).pen = s.pen := by
  unfold freeEnt
  split <;> simp

@[simp] theorem popHead_pen (k : Nat) (s : State) : (popHead k s).pen = s.pen := by
  unfold popHead
  dsimp only
  (repeat' split) <;> simp

@[simp] theorem clearNacks_pen (aid k : Nat) (s : State) : (clearNacks aid k s).pen = s.pen := (rfl)

@[simp] theorem countAccess_pen (q : Req) (s : State) : (countAccess q s).pen = s.pen := by
  unfold countAccess
  split <;> simp

@[simp] theorem setPresence_pen (k : Nat) (s : State) : (setPresence k s).pen = s.pen := by simp [setPresence]

@[simp] theorem grant_pen (k : Nat) (q : Req) (op : Nat) (line : Option (LineData × Nat)) (s : State) :
    (grant k q op line s).pen = s.pen := by simp [grant]

@[simp] theorem doneReq_pen (k : Nat) (q : Req) (status : Nat) (line : Option (LineData × Nat)) (old : List Nat) (s : State) :
    (doneReq k q status line old s).pen = s.pen := by
  unfold doneReq
  split <;> simp

@[simp] theorem deliver_pen (k : Nat) (q : Req) (d : LineData × Nat) (s : State) : (deliver k q d s).pen = s.pen := by
  unfold deliver
  split <;> simp

@[simp] theorem refuseHead_pen (k : Nat) (q : Req) (status : Nat) (s : State) : (refuseHead k q status s).pen = s.pen := by simp [refuseHead]

@[simp] theorem wrote_pen (k : Nat) (q : Req) (old : List Nat) (s : State) : (wrote k q old s).pen = s.pen := by simp [wrote]

@[simp] theorem serveLocal_pen (k : Nat) (q : Req) (s : State) : (serveLocal k q s).pen = s.pen := by
  unfold serveLocal
  dsimp only
  split
  · split
    next u e => simp [writeLocal_pen e]
    next => simp
  · split
    next u e => simp [pen_of_snd e]
    next d c u e =>
      have hu : u.pen = s.pen := by simp [pen_of_snd e]
      split
      · simp [hu]
      · split
        next v e' => simp [writeLocal_pen e', hu]
        next => simp [hu]
  · split
    next d u e => simp [pen_of_snd e]
    next u e => simp [pen_of_snd e]

@[simp] theorem modHead_pen (k : Nat) (q : Req) (s : State) : (modHead k q s).pen = s.pen := (rfl)

@[simp] theorem writeRemote_pen (k : Nat) (q : Req) (d : LineData) (c : Nat) (s : State) :
    (writeRemote k q d c s).pen = s.pen := by simp [writeRemote]

@[simp] theorem remoteData_pen (k : Nat) (q : Req) (d : LineData) (c : Nat) (s : State) : (remoteData k q d c s).pen = s.pen := by
  unfold remoteData
  (repeat' split) <;> simp

@[simp] theorem serveRemote_pen (k : Nat) (e : DirEnt) (q : Req) (s : State) : (serveRemote k e q s).pen = s.pen := by
  unfold serveRemote
  (repeat' split) <;> simp

@[simp] theorem noteRecalled_pen (k : Nat) (s : State) : (noteRecalled k s).pen = s.pen := by simp [noteRecalled]

@[simp] theorem serveHead_pen (k : Nat) (e : DirEnt) (q : Req) (s : State) : (serveHead k e q s).pen = s.pen := by
  unfold serveHead
  split <;> simp

@[simp] theorem markOwned_pen (k aid : Nat) (s : State) : (markOwned k aid s).pen = s.pen := by
  unfold markOwned
  dsimp only
  (repeat' split) <;> simp

@[simp] theorem pump_pen (fuel k : Nat) (s : State) : (pump fuel k s).pen = s.pen := by
  induction fuel generalizing s with
  | zero => rfl
  | succ n ih =>
    unfold pump
    dsimp only
    (repeat' split) <;> simp [ih]

@[simp] theorem pushReq_pen (k : Nat) (q : Req) (s : State) : (pushReq k q s).pen = s.pen := (rfl)

@[simp] theorem newEnt_pen (k : Nat) (q : Req) (s : State) : (newEnt k q s).pen = s.pen := by simp [newEnt]

@[simp] theorem evictLine_pen (v : Nat) (s : State) : (evictLine v s).pen = s.pen := by simp [evictLine]

@[simp] theorem tryWay_pen (w : Nat × Req × Option Nat) (s : State) : (tryWay w s).pen = s.pen := by
  unfold tryWay
  (repeat' split) <;> simp

@[simp] theorem serveWays_pen (n : Nat) (s : State) : (serveWays n s).pen = s.pen := by
  induction n generalizing s with
  | zero => rfl
  | succ n ih => simp [serveWays, ih]

@[simp] theorem pumpLine_pen (k : Nat) (s : State) : (pumpLine k s).pen = s.pen := by simp [pumpLine]

@[simp] theorem dirEnter_pen (k : Nat) (q : Req) (s : State) : (dirEnter k q s).pen = s.pen := by
  unfold dirEnter
  split <;> simp

@[simp] theorem nextReserv_pen (s : State) : (nextReserv s).pen = s.pen := by
  unfold nextReserv
  split <;> rfl

@[simp] theorem nack_pen (k : Nat) (q : Req) (reason : Nat) (s : State) : (nack k q reason s).pen = s.pen := by simp [nack]

@[simp] theorem useResv_pen (k : Nat) (q : Req) (s : State) : (useResv k q s).pen = s.pen := by simp [useResv]

@[simp] theorem dirRequest_pen (k : Nat) (q : Req) (s : State) : (dirRequest k q s).pen = s.pen := by
  unfold dirRequest
  split <;> simp

@[simp] theorem holdCut_pen (reason k : Nat) (s : State) : (holdCut reason k s).pen = s.pen := by
  unfold holdCut
  split <;> simp

@[simp] theorem recallLine_pen (k : Nat) (op : LineOp) (now : Bool) (s : State) : (recallLine k op now s).pen = s.pen := by
  unfold recallLine
  split <;> simp

@[simp] theorem recallPage_pen (ppa : Nat) (op : LineOp) (now : Bool) (s : State) : (recallPage ppa op now s).pen = s.pen := by simp [recallPage]

@[simp] theorem writeBackData_pen (k sid : Nat) (d : LineData) (cause : Nat) (s : State) : (writeBackData k sid d cause s).pen = s.pen := by
  unfold writeBackData
  split
  · split
    next u e => exact writeLocal_pen e
    next => rfl
  · simp

@[simp] theorem snoopAnswer_pen (k aid : Nat) (back : Option (LineData × Nat)) (gone : Bool) (s : State) :
    (snoopAnswer k aid back gone s).pen = s.pen := by
  unfold snoopAnswer
  (repeat' split) <;> simp

@[simp] theorem leaseEnd_pen (aid cause : Nat) (s : State) : (leaseEnd aid cause s).pen = s.pen := by
  unfold leaseEnd
  dsimp only
  split
  · rfl
  · rw [foldl_pen fun _ _ => flushFences_pen _ _ _]
    refine (foldl_pen (fun u k => ?_) _ _).trans (by simp)
    split
    · split
      · rw [snoopAnswer_pen]
        split <;> simp
      · simp
    · rfl

/-! ### Messages that arrive (04) -/

theorem arrive_pen (m : Mhd) (i : Instr) {serve : Nat → State → State} (hs : ∀ sid s, (serve sid s).pen = s.pen) (s : State) :
    (arrive m i serve s).pen = s.pen := by simp [arrive, hs]

theorem metered_pen (m : Mhd) (i : Instr) (cost : Nat) (fence : Bool) {refuse : Nat → State → State} {serve : State → State}
    (hr : ∀ st s, (refuse st s).pen = s.pen) (hs : ∀ s, (serve s).pen = s.pen) (sid : Nat) (s : State) :
    (metered m i cost fence refuse serve sid s).pen = s.pen := by
  unfold metered
  dsimp only
  (repeat' split) <;> simp [hr, hs]

@[simp] theorem refuseLine_pen (m : Mhd) (sid status : Nat) (s : State) : (refuseLine m sid status s).pen = s.pen := by simp [refuseLine]

@[simp] theorem zeroAnswer_pen (m : Mhd) (sid cause : Nat) (op : LineOp) (s : State) : (zeroAnswer m sid cause op s).pen = s.pen := by
  unfold zeroAnswer
  split <;> simp

@[simp] theorem waitMig_pen (sid base : Nat) (w : MigWait) (s : State) : (waitMig sid base w s).pen = s.pen := (rfl)

@[simp] theorem serveLine_pen (m : Mhd) (i : Instr) (q : Req) (addr sid : Nat) (s : State) : (serveLine m i q addr sid s).pen = s.pen := by
  unfold serveLine
  dsimp only
  split
  case h_6 =>
    split
    next u e => simp [hitFault_pen e]
    next => simp
  all_goals simp

@[simp] theorem serveCoh_pen (i : Instr) (s : State) : (serveCoh i s).pen = s.pen := by
  unfold serveCoh
  dsimp only
  (repeat' split) <;> simp

@[simp] theorem arriveCoh_pen (m : Mhd) (i : Instr) (s : State) : (arriveCoh m i s).pen = s.pen :=
  arrive_pen _ _ (fun _ _ => metered_pen _ _ _ _ (by simp) (fun _ => serveCoh_pen ..) _ _) s

@[simp] theorem serveWriteback_pen (m : Mhd) (x : Handle) (lepoch cause : Nat) (line : LineData) (sid : Nat) (s : State) :
    (serveWriteback m x lepoch cause line sid s).pen = s.pen := by
  have hw {e : DirEnt} {u : State} (h : (if isLocal x.line then writeLocal (keyLine x.line) e.sid e.sid line fullMask cause none s
      else some (writeBackData x.line e.sid line cause s)) = some u) : u.pen = s.pen := by
    split at h
    · exact writeLocal_pen h
    · obtain rfl := Option.some.inj h
      simp
  unfold serveWriteback
  dsimp only
  split
  · simp
  · split
    · simp
    · split
      · simp
      · split
        · simp
        · split
          · simp
          · split
            next => simp
            next u e => simp [hw e]

@[simp] theorem arriveRsp_pen (m : Mhd) (i : Instr) (x : Handle) (back : Option (LineData × Nat)) (gone : Bool) (s : State) :
    (arriveRsp m i x back gone s).pen = s.pen :=
  arrive_pen _ _ (by simp) s

@[simp] theorem joinAck_pen (m : Mhd) (status lepoch : Nat) (c : CohCfg) (s : State) :
    (joinAck m status lepoch c s).pen = s.pen := by simp [joinAck]

@[simp] theorem serveJoin_pen (m : Mhd) (kind sid : Nat) (s : State) : (serveJoin m kind sid s).pen = s.pen := by simp [serveJoin]

@[simp] theorem servePulse_pen (m : Mhd) (lepoch : Nat) (s : State) : (servePulse m lepoch s).pen = s.pen := by simp [servePulse]

@[simp] theorem superseded_pen (name : Nat) (p win : Pub) (s : State) : (superseded name p win s).pen = s.pen := by simp [superseded]

@[simp] theorem regionAck_pen (m : Mhd) (status active : Nat) (s : State) : (regionAck m status active s).pen = s.pen := by simp [regionAck]

@[simp] theorem drainHolder_pen (hid : Nat) (s : State) : (drainHolder hid s).pen = s.pen := by simp [drainHolder]

@[simp] theorem owe_pen (name kind : Nat) (old new : Pub) (s : State) : (owe name kind old new s).pen = s.pen := by
  unfold owe
  (repeat' split) <;> simp

@[simp] theorem servePublish_pen (m : Mhd) (p : Publication) (sid : Nat) (s : State) : (servePublish m p sid s).pen = s.pen := by
  unfold servePublish
  dsimp only
  (repeat' split) <;> simp

@[simp] theorem owedRecord_pen (name sid : Nat) (o : Owed) (s : State) : (owedRecord name sid o s).pen = s.pen := by simp [owedRecord]

@[simp] theorem regionRecord_pen (name kind : Nat) (s : State) : (regionRecord name kind s).pen = s.pen := by
  unfold regionRecord
  (repeat' split) <;> simp

/-! ### Coherence and holders (04) -/

@[simp] theorem bindRegion_pen (name hid : Nat) (s : State) : (bindRegion name hid s).pen = s.pen := by
  unfold bindRegion
  dsimp only
  (repeat' split) <;> simp

@[simp] theorem resolveRegion_pen (name choice : Nat) (s : State) : (resolveRegion name choice s).pen = s.pen := by
  unfold resolveRegion
  (repeat' split) <;> simp

@[simp] theorem scanEntry_pen (aid k : Nat) (s : State) : (scanEntry aid k s).pen = s.pen := by
  unfold scanEntry
  split <;> simp

/-! ### Movers (05) -/

@[simp] theorem takeAnswer_pen (w : Who) (s : State) : (takeAnswer w s).2.pen = s.pen := by
  unfold takeAnswer
  split <;> rfl

@[simp] theorem devCharge_pen (q : Req) (s : State) : (devCharge q s).2.pen = s.pen := by simp [devCharge]

@[simp] theorem devAsk_pen (k : Nat) (q : Req) (s : State) : (devAsk k q s).2.pen = s.pen := by
  unfold devAsk
  split
  next r u e => simp [pen_of_snd e]
  next u e =>
    have hu : u.pen = s.pen := by simp [pen_of_snd e]
    dsimp only
    split
    · exact hu
    · split
      next v e => simp [pen_of_snd e, hu]
      next v e => split <;> simp [pen_of_snd e, hu]

@[simp] theorem devAt_pen (ppa : Nat) (q : Req) (s : State) : (devAt ppa q s).2.pen = s.pen := by
  unfold devAt
  split <;> simp

@[simp] theorem sendCompletion_pen (due : Nat) (sub : Nat × Nat × Nat × Nat) (status : Nat) (rec : List Nat) (s : State) :
    (sendCompletion due sub status rec s).pen = s.pen := by simp [sendCompletion]

@[simp] theorem modRun_pen (mid : Nat) (f : MRun → MRun) (s : State) : (modRun mid f s).pen = s.pen := (rfl)

@[simp] theorem endRun_pen (x : MRun) (s : State) : (endRun x s).pen = s.pen := by
  unfold endRun
  (repeat' split) <;> simp

@[simp] theorem breakChain_pen (id : Nat) (s : State) : (breakChain id s).pen = s.pen := by simp [breakChain]

@[simp] theorem completeRun_pen (x : MRun) (s : State) : (completeRun x s).pen = s.pen := by
  unfold completeRun
  split <;> simp

@[simp] theorem hitMore_pen (w : Waiter) (acc : Nat) (f : Fault') (s : State) : (hitMore w acc f s).pen = s.pen := (rfl)

@[simp] theorem hitPages_pen (w : Waiter) (sid acc kind : Nat) (ps : List (Nat × PageRes)) (s : State) :
    (hitPages w sid acc kind ps s).pen = s.pen :=
  foldl_pen (fun _ _ => by (repeat' split) <;> simp) _ _

@[simp] theorem acceptMove_pen (x : MRun) (s : State) : (acceptMove x s).pen = s.pen := by simp [acceptMove]

@[simp] theorem refuseWork_pen (m : Mhd) (sid kind tag glaze status : Nat) (s : State) :
    (refuseWork m sid kind tag glaze status s).pen = s.pen := by simp [refuseWork]

@[simp] theorem setChain_pen (p aid : Nat) (c : Option Chain) (s : State) : (setChain p aid c s).pen = s.pen := (rfl)

@[simp] theorem endChain_pen (p aid : Nat) (c : Chain) (s : State) : (endChain p aid c s).pen = s.pen := by simp [endChain]

@[simp] theorem serveMove_serve1_pen (m : Mhd) (d : MoveDesc) (sid : Nat) (c : Chain) (s : State) : (serveMove.serve1 m d sid c s).pen = s.pen := by
  unfold serveMove.serve1
  dsimp only
  (repeat' split) <;> simp

@[simp] theorem serveMove_pen (m : Mhd) (d : MoveDesc) (s : State) : (serveMove m d s).pen = s.pen := by
  unfold serveMove
  dsimp only
  (repeat' split) <;> simp

@[simp] theorem countMoved_pen (mid page : Nat) (s : State) : (countMoved mid page s).pen = s.pen := by
  unfold countMoved
  split <;> simp

@[simp] theorem gotSource_pen (x : MRun) (l : Nat) (v : LineData × Nat) (s : State) : (gotSource x l v s).pen = s.pen := by simp [gotSource]

@[simp] theorem failRun_pen (mid status : Nat) (s : State) : (failRun mid status s).pen = s.pen := (rfl)

@[simp] theorem readSource_pen (x : MRun) (l off : Nat) (s : State) : (readSource x l off s).2.pen = s.pen := by
  unfold readSource
  split
  · rfl
  · split
    next d c u e => simp [pen_of_snd e]
    next st u e => (repeat' split) <;> simp [pen_of_snd e]
    next u e => simp [pen_of_snd e]

@[simp] theorem moveOn_pen (x : MRun) (c : Nat) (s : State) : (moveOn x c s).pen = s.pen := by simp [moveOn]

@[simp] theorem writeDest_pen (x : MRun) (s : State) : (writeDest x s).2.pen = s.pen := by
  unfold writeDest
  split
  · rfl
  · split
    dsimp only
    split
    next u e => simp [pen_of_snd e]
    next st u e => (repeat' split) <;> simp [pen_of_snd e]
    next u e => simp [pen_of_snd e]

@[simp] theorem moveLine_pen (mid : Nat) (s : State) : (moveLine mid s).2.pen = s.pen := by
  unfold moveLine
  (repeat' split) <;> simp

@[simp] theorem moveLines_pen (fuel mid : Nat) (s : State) : (moveLines fuel mid s).pen = s.pen := by
  induction fuel generalizing s with
  | zero => rfl
  | succ n ih =>
    unfold moveLines
    split
    next u e => simp [pen_of_snd e]
    next u e => simp [pen_of_snd e, ih]

end Sys2Proof.Machine
end

section
/-! PROOFS. One-time-programmable memory (O6), continued: firings and windows. -/

namespace Sys2Proof.Machine

/-! ### Firings (06) -/

@[simp] theorem streamLine_pen (fid sid pva : Nat) (s : State) : (streamLine fid sid pva s).pen = s.pen := by
  unfold streamLine
  split <;> simp

@[simp] theorem readBytes_pen (fid sid : Nat) (r : Run) (off n : Nat) (s : State) : (readBytes fid sid r off n s).2.pen = s.pen := by
  unfold readBytes
  dsimp only
  split
  · rfl
  · refine foldl_carry_pen (get := Prod.snd) (fun p i => ?_) _ _
    split
    · rfl
    · split
      · rfl
      · split
        · split
          next u e => simp [pen_of_snd e]
          next u e => simp [pen_of_snd e]
        · rfl

@[simp] theorem readTable_pen (fid sid n : Nat) (e : Ctx) (runs : List (Nat × Run)) (s : State) : (readTable fid sid n e runs s).2.pen = s.pen := by
  unfold readTable
  split
  · rfl
  · split
    next u e => simp [pen_of_snd e]
    next u e => simp [pen_of_snd e]

@[simp] theorem firingFaults_pen (f : Firing) (s : State) : (firingFaults f s).pen = s.pen :=
  foldl_pen (fun _ _ => by (repeat' split) <;> simp) _ _

@[simp] theorem flushClaims_pen (s : State) : (flushClaims s).pen = s.pen := by simp [flushClaims]

@[simp] theorem freeShelf_pen (sh : Nat) (s : State) : (freeShelf sh s).pen = s.pen := (rfl)

@[simp] theorem winRest_pen (w : Nat) (rearm : Bool) (s : State) : (winRest w rearm s).pen = s.pen := by
  unfold winRest
  split <;> simp

@[simp] theorem endFiring_pen (f : Firing) (s : State) : (endFiring f s).pen = s.pen := by
  unfold endFiring
  (repeat' split) <;> simp

/-- Stated for every page size: the kernel must not compute with the real one. -/
theorem recallPages_pen (size : Nat) (ps : List (Nat × Bool)) (s : State) :
    (ps.foldl (fun s p => recallPage (localPpa (p.1 * size)) (if p.2 then .recallInv else .recallShare) false s) s).pen =
      s.pen := by simp

@[simp] theorem requestClaims_pen (fid : Nat) (s : State) : (requestClaims fid s).pen = s.pen := by
  unfold requestClaims
  split
  · rfl
  · dsimp only
    split
    · rfl
    · exact recallPages_pen (2 ^ 21) _ _

@[simp] theorem bakeTables_pen (f : Firing) (s : State) : (bakeTables f s).2.2.pen = s.pen := by
  refine foldl_carry_pen (get := fun p : Firing × Option Nat × State => p.2.2) (fun p c => ?_) _ _
  obtain ⟨f, bad, u⟩ := p
  dsimp only
  split
  · rfl
  · split
    next v e => simp [pen_of_snd e]
    next v e => simp [pen_of_snd e]

@[simp] theorem setFiring_pen (f : Firing) (s : State) : (setFiring f s).pen = s.pen := (rfl)

@[simp] theorem advanceFiring_pen (fid : Nat) (s : State) : (advanceFiring fid s).pen = s.pen := by
  unfold advanceFiring
  split
  · rfl
  next f _ =>
    split
    · rfl
    · have hb := bakeTables_pen f s
      split
      next f' bad u e =>
        have hu : u.pen = s.pen := by rwa [e] at hb
        split <;> simp [hu]

@[simp] theorem acceptFiring_pen (f : Firing) (s : State) : (acceptFiring f s).pen = s.pen := by simp [acceptFiring]

@[simp] theorem stopFiring_pen (fid status : Nat) (s : State) : (stopFiring fid status s).pen = s.pen := by
  unfold stopFiring
  split <;> simp

@[simp] theorem starveParts_pen (s : State) : (starveParts s).pen = s.pen := by simp [starveParts]

/-! ### Lanes (06) -/

@[simp] theorem splitWords_pen (f : Firing) (sl : Slot) (c : Nat × Nat × Nat) (s : State) :
    (splitWords f sl c s).2.pen = s.pen := by simp [splitWords]

@[simp] theorem readAhead_pen (f : Firing) (sl : Slot) (n : Nat) (cs : List (Nat × Nat × Nat)) (s : State) :
    (readAhead f sl n cs s).2.pen = s.pen := by
  induction cs generalizing n s with
  | nil => rfl
  | cons c cs ih => simp [readAhead, ih]

@[simp] theorem feedStream_pen (f : Firing) (x : Shelf) (p : Nat × Nat) (s : State) : (feedStream f x p s).2.pen = s.pen := by
  unfold feedStream
  split <;> simp

@[simp] theorem feedAll_pen (f : Firing) (ps : List (Nat × Nat)) (x : Shelf) (s : State) : (feedAll f ps x s).2.pen = s.pen := by
  induction ps generalizing x s with
  | nil => rfl
  | cons p r ih => simp [feedAll, ih]

@[simp] theorem bcastWords_pen (f : Firing) (sl : Slot) (s : State) : (bcastWords f sl s).2.pen = s.pen := by simp [bcastWords]

@[simp] theorem kvRows_pen (f : Firing) (e : Ctx) (p : Piece) (sec : Nat) (s : State) : (kvRows f e p sec s).2.pen = s.pen := by simp [kvRows]

@[simp] theorem bagSpan_pen (f : Firing) (e : Ctx) (p : Piece) (s : State) : (bagSpan f e p s).2.pen = s.pen := by simp [bagSpan]

@[simp] theorem bagRows_pen (f : Firing) (c : CtxSt) (p : Piece) (first n : Nat) (s : State) : (bagRows f c p first n s).2.pen = s.pen := by
  refine (thenRead_pen (fun bs u => ?_) _).trans (by simp)
  refine (thenRead_pen (fun rows v => rfl) _).trans (readEach_pen (fun i v => ?_) _ _)
  split
  · exact (thenRead_pen (fun _ _ => rfl) _).trans (by simp)
  · rfl

@[simp] theorem pieceWords_pen (f : Firing) (sl : Slot) (i : Nat) (s : State) : (pieceWords f sl i s).2.pen = s.pen := by
  unfold pieceWords
  split <;> simp

@[simp] theorem laneStream_pen (f : Firing) (bc : List (List SWord)) (gr : List Nat) (n : Nat) (s : State) :
    (laneStream f bc gr n s).2.pen = s.pen := by
  unfold laneStream
  (repeat' split) <;> simp

@[simp] theorem glazeIntact_pen (g : Glaze) (s : State) : (glazeIntact g s).2.pen = s.pen :=
  foldl_carry_pen (get := Prod.snd) (fun a _ => by simp) _ _

@[simp] theorem loadGlaze_pen (g : Glaze) (sh : Nat) (s : State) : (loadGlaze g sh s).2.pen = s.pen := by
  unfold loadGlaze
  split <;> simp

@[simp] theorem countLine_pen (fid cause : Nat) (s : State) : (countLine fid cause s).pen = s.pen := (rfl)

@[simp] theorem sendPush_pen (f : Firing) (o : OutLine) (cause : Nat) (s : State) : (sendPush f o cause s).pen = s.pen := by
  unfold sendPush
  split <;> simp

@[simp] theorem countNine_pen (k cause : Nat) (s : State) : (countNine k cause s).pen = s.pen := by simp [countNine]

@[simp] theorem tagStop_pen (fid : Nat) (s : State) : (tagStop fid s).pen = s.pen := by simp [tagStop]

@[simp] theorem writeOut_pen (f : Firing) (k role : Nat) (o : OutLine) (cause : Nat) (s : State) : (writeOut f k role o cause s).pen = s.pen := by
  unfold writeOut
  dsimp only
  split
  · simp
  · split
    · rfl
    · split
      next u e => simp [writeLocal_pen e]
      next => simp

@[simp] theorem commitOut_pen (f : Firing) (k : Nat) (gr : List Nat) (role sent : Nat) (bs : List (Nat × Nat)) (nine : Bool) (s : State) :
    (commitOut f k gr role sent bs nine s).pen = s.pen := by simp [commitOut]

@[simp] theorem commitLane_pen (f : Firing) (k : Nat) (gr old : List Nat) (nine : Bool) (l : Lane) (s : State) :
    (commitLane f k gr old nine l s).2.pen = s.pen := by simp [commitLane]

@[simp] theorem endPart_pen (fid i : Nat) (s : State) : (endPart fid i s).pen = s.pen := by
  unfold endPart
  (repeat' split) <;> simp

@[simp] theorem checkPart_pen (fid sh : Nat) (s : State) : (checkPart fid sh s).pen = s.pen := by
  unfold checkPart
  (repeat' split) <;> simp

@[simp] theorem countRepeat_pen (sid : Nat) (x : Shelf) (s : State) : (countRepeat sid x s).pen = s.pen := by simp [countRepeat]

@[simp] theorem commitShelf_pen (sh : Nat) (s : State) : (commitShelf sh s).pen = s.pen := by
  unfold commitShelf
  split
  · rfl
  · split
    · rfl
    · split
      · rfl
      · simp only [checkPart_pen, traceHub_pen, modShelf_pen, countRepeat_pen]
        exact foldl_carry_pen (get := Prod.snd) (fun a _ => by simp) _ _

@[simp] theorem restoreShelf_pen (sh sid : Nat) (s : State) : (restoreShelf sh sid s).pen = s.pen := by
  simp only [restoreShelf, modShelf_pen]
  cases shelfOf sh s <;> simp

@[simp] theorem markShelf_pen (sh : Nat) (s : State) : (markShelf sh s).pen = s.pen := by
  unfold markShelf
  dsimp only
  split <;> rfl

@[simp] theorem mismatch_pen (sh l : Nat) (s : State) : (mismatch sh l s).pen = s.pen := by
  unfold mismatch
  split
  · rfl
  · extract_lets pos st k u last u1 u2 u3
    split
    · rfl
    · have h2 : u2.pen = s.pen := by
        unfold u2
        split <;> rfl
      generalize hp : (if st = 0 then _ else _ : Bool × State) = p
      have hm : p.2.pen = s.pen := by
        rw [← hp]
        (repeat' split) <;> simp [u, u3, h2]
      obtain ⟨dead, v⟩ := p
      dsimp only at hm ⊢
      (repeat' split) <;> simp [hm]

@[simp] theorem refusePart_pen (f : Firing) (sh : Nat) (s : State) : (refusePart f sh s).pen = s.pen := by
  unfold refusePart
  split <;> simp

@[simp] theorem feed_pen (sh : Nat) (s : State) : (feed sh s).pen = s.pen := by
  unfold feed
  dsimp only
  (repeat' split) <;> simp

@[simp] theorem buildLanes_pen (f : Firing) (p : Part) (bc : List (List SWord)) (sh base : Nat) (s : State) :
    (buildLanes f p bc sh base s).2.pen = s.pen := by simp [buildLanes]

@[simp] theorem startPart_pen (f : Firing) (i : Nat) (p : Part) (s : State) : (startPart f i p s).pen = s.pen := by
  unfold startPart
  lift_lets
  extract_lets before bcast all u v w
  have hb : bcast.2.pen = s.pen := readEach_pen (fun n u => by split <;> simp) _ _
  have ha : all.2.pen = s.pen := by
    refine (thenRead_pen (fun bc u => ?_) _).trans hb
    refine (thenRead_pen (fun cb v => ?_) _).trans ?_
    · exact readEach_pen (fun q v => (thenRead_pen (fun _ _ => by exact modShelf_pen _ _ _) _).trans (by simp)) _ _
    · split <;> simp
  have hw : w.pen = s.pen := by simp [w, v, u, ha]
  clear_value w
  split <;> simp [hw]

@[simp] theorem placePart_pen (fid i : Nat) (shelves : List Nat) (s : State) : (placePart fid i shelves s).pen = s.pen := by
  unfold placePart
  split
  · rfl
  · split
    · rfl
    · lift_lets
      extract_lets p f u v
      have hv : v.pen = s.pen := by simp [v, u]
      clear_value v
      split
      · exact hv
      · split
        · simp [hv]
        next g _ =>
          have hg : (shelves.foldl (fun (a : Bool × State) sh => if a.1 then loadGlaze g sh a.2 else a) (true, v)).2.pen = v.pen :=
            foldl_carry_pen (get := Prod.snd) (fun a sh => by simp) _ _
          simp [hg, hv]

/-! ### Glazes (06) -/

@[simp] theorem countFires_pen (sid n : Nat) (s : State) : (countFires sid n s).pen = s.pen := (rfl)

@[simp] theorem lanewise_pen (sh w : Nat) (pn : Bool) (ps cost : Nat) (isFire : Bool) (op : LaneCtx → Lane → Lane) (s : State) :
    (lanewise sh w pn ps cost isFire op s).pen = s.pen := by
  unfold lanewise
  split <;> simp

@[simp] theorem laneG_pen (sh op : Nat) (g : GArgs) (isFire : Bool) (body : LaneCtx → Lane → Lane) (s : State) :
    (laneG sh op g isFire body s).pen = s.pen := by simp [laneG]

@[simp] theorem uniform_pen (sh w : Nat) (body : Firing → Shelf → Shelf) (s : State) : (uniform sh w body s).pen = s.pen := by
  unfold uniform
  split <;> simp

@[simp] theorem doCommit_pen (sh : Nat) (s : State) : (doCommit sh s).pen = s.pen := by
  unfold doCommit
  split <;> simp

@[simp] theorem release_pen (fid sh : Nat) (w : ShWait) (s : State) : (release fid sh w s).pen = s.pen := by
  unfold release
  (repeat' split) <;> simp

@[simp] theorem releaseMates_pen (fid sh : Nat) (s : State) : (releaseMates fid sh s).pen = s.pen := by
  unfold releaseMates
  split <;> simp

@[simp] theorem meet_pen (sh w : Nat) (pn : Bool) (ps : Nat) (wait : ShWait) (x? : Option Nat) (s : State) :
    (meet sh w pn ps wait x? s).pen = s.pen := by
  unfold meet
  dsimp only
  (repeat' split) <;> simp

/-! ### Kiln commands (06) -/

@[simp] theorem wipePages_pen (pages : List Nat) (s : State) : (wipePages pages s).pen = s.pen := by simp [wipePages]

@[simp] theorem installGlaze_put_pen (r : Nat) (img : GlazeImg) (units : List Nat) (rest : List Glaze) (s : State) :
    (installGlaze.put r img units rest s).pen = s.pen := by simp [installGlaze.put]

@[simp] theorem installGlaze_pen (r : Nat) (img : GlazeImg) (s : State) : (installGlaze r img s).pen = s.pen := by
  unfold installGlaze
  dsimp only
  (repeat' split) <;> simp

@[simp] theorem serveFire_pen (m : Mhd) (d : FireDesc) (s : State) : (serveFire m d s).pen = s.pen := by
  unfold serveFire
  dsimp only
  (repeat' split) <;> simp

@[simp] theorem execFireCancel_serveCancel_pen (m : Mhd) (ftag : Nat) (s : State) : (execFireCancel.serveCancel m ftag s).pen = s.pen := by
  unfold execFireCancel.serveCancel
  dsimp only
  split <;> simp

@[simp] theorem holdClaims_pen (f : Firing) (s : State) : (holdClaims f s).pen = s.pen := by
  unfold holdClaims
  dsimp only
  split
  · simp
  · exact foldl_pen (fun _ _ => by exact modKiln_pen _ _ _) _ _

@[simp] theorem regionLine_pen (f : Firing) (role i : Nat) (s : State) : (regionLine f role i s).2.pen = s.pen := by
  unfold regionLine
  split <;> simp

@[simp] theorem builtinOut_pen (f : Firing) (role : Nat) (o : OutLine) (cause : Nat) (s : State) :
    (builtinOut f role o cause s).pen = s.pen := by simp [builtinOut]

@[simp] theorem runFill_pen (f : Firing) (s : State) : (runFill f s).2.pen = s.pen := by simp [runFill]

@[simp] theorem runCopy_pen (f : Firing) (s : State) : (runCopy f s).2.pen = s.pen := by simp [runCopy]

@[simp] theorem compareScan_pen (f : Firing) (ls : List (Nat × Nat)) (s : State) : (compareScan f ls s).2.pen = s.pen := by
  induction ls generalizing s with
  | nil => rfl
  | cons l r ih => simp [compareScan, ih]

@[simp] theorem runCompare_pen (f : Firing) (s : State) : (runCompare f s).2.pen = s.pen := by simp [runCompare]

@[simp] theorem reduceElems_pen (f : Firing) (role e k : Nat) (s : State) : (reduceElems f role e k s).2.pen = s.pen := by
  unfold reduceElems
  split <;> simp

@[simp] theorem reduceLane_pen (f : Firing) (k : Nat) (gr : List Nat) (g : Nat) (s : State) : (reduceLane f k gr g s).2.pen = s.pen := by
  unfold reduceLane
  split <;> simp

@[simp] theorem runReduce_pen (f : Firing) (s : State) : (runReduce f s).2.pen = s.pen := by
  refine (thenRead_pen (fun _ _ => rfl) _).trans (readEach_pen (fun p u => ?_) _ _)
  exact (thenRead_pen (fun _ _ => by exact modFiring_pen _ _ _) _).trans (by simp)

@[simp] theorem runBuiltin_pen (f : Firing) (s : State) : (runBuiltin f s).2.pen = s.pen := by
  unfold runBuiltin
  split <;> simp

@[simp] theorem writeSeq_pen (f : Firing) (role : Nat) (bs : List (Nat × Nat)) (s : State) :
    (writeSeq f role bs s).pen = s.pen := by simp [writeSeq]

@[simp] theorem fredOut_pen (f : Firing) (n : Nat) (s : State) : (fredOut f n s).pen = s.pen := by
  unfold fredOut
  split <;> simp

@[simp] theorem endParts_pen (f : Firing) (s : State) : (endParts f s).pen = s.pen := by simp [endParts]

@[simp] theorem closeFiring_pen (fid : Nat) (s : State) : (closeFiring fid s).pen = s.pen := by
  unfold closeFiring
  split <;> simp

/-! ### Windows (07) -/

@[simp] theorem setCtx_pen (n : Nat) (e : Ctx) (s : State) : (setCtx n e s).pen = s.pen := (rfl)

@[simp] theorem serveCtxSet_pen (m : Mhd) (n : Nat) (e : Ctx) (s : State) : (serveCtxSet m n e s).pen = s.pen := by
  unfold serveCtxSet
  dsimp only
  (repeat' split) <;> simp

@[simp] theorem roundRecord_pen (w outcome firing : Nat) (s : State) : (roundRecord w outcome firing s).pen = s.pen := by
  unfold roundRecord
  split <;> simp

@[simp] theorem failStep_pen (w status : Nat) (f : Firing) (s : State) : (failStep w status f s).pen = s.pen := by simp [failStep]

@[simp] theorem startStep_pen (w id : Nat) (s : State) : (startStep w id s).pen = s.pen := by
  unfold startStep
  split <;> simp

@[simp] theorem closeRound_pen (w : Nat) (s : State) : (closeRound w s).pen = s.pen := by
  unfold closeRound
  split <;> simp

@[simp] theorem serveSegment_pen (m : Mhd) (off round cause : Nat) (data : List Word) (s : State) :
    (serveSegment m off round cause data s).pen = s.pen := by
  unfold serveSegment
  dsimp only
  (repeat' split) <;> simp

@[simp] theorem serveContrib_pen (m : Mhd) (addr round cause : Nat) (data : List Word) (s : State) :
    (serveContrib m addr round cause data s).pen = s.pen := by
  unfold serveContrib
  dsimp only
  split
  · simp
  · split
    · simp
    · simp
    · split
      next u e => exact hitFault_pen e
      next => simp
    · simp
    · simp

end Sys2Proof.Machine
end

section
/-! PROOFS. One-time-programmable memory (O6), continued: translation, holders, saggers and links. -/

namespace Sys2Proof.Machine

/-! ### Translation commands (02) -/

@[simp] theorem tableEntry_pen (t : Table) (i v : Nat) (s : State) : (tableEntry t i v s).pen = s.pen := by
  unfold tableEntry
  dsimp only
  split <;> rfl

@[simp] theorem syncLeaf_pen (sid base : Nat) (big : Bool) (l : Option Leaf) (s : State) : (syncLeaf sid base big l s).pen = s.pen := by
  unfold syncLeaf
  split <;> simp

@[simp] theorem markChanged_pen (sid : Nat) (s : State) : (markChanged sid s).pen = s.pen := (rfl)

@[simp] theorem putLeaf_pen (sid base : Nat) (l : Leaf) (s : State) : (putLeaf sid base l s).pen = s.pen := by simp [putLeaf]

@[simp] theorem dropLeaf_pen (sid base : Nat) (big : Bool) (s : State) : (dropLeaf sid base big s).pen = s.pen := by simp [dropLeaf]

@[simp] theorem wipeTable_pen (t : Table) (s : State) : (wipeTable t s).pen = s.pen := by
  unfold wipeTable
  dsimp only
  split
  · exact foldl_pen (fun _ _ => ownLine_pen ..) _ _
  · rfl

@[simp] theorem enterTable_pen (t : Table) (s : State) : (enterTable t s).pen = s.pen := by
  unfold enterTable
  split <;> simp

theorem newTable_pen {level sid idx : Nat} {s t : State} (h : newTable level sid idx s = some t) : t.pen = s.pen := by
  unfold newTable at h
  split at h
  · obtain rfl := Option.some.inj h
    simp
  · split at h
    · cases h
    · obtain rfl := Option.some.inj h
      simp

theorem newTables_pen {level sid : Nat} {is : List Nat} {o : Option State} {p : Pen} (ho : ∀ u, o = some u → u.pen = p)
    {t : State} (h : is.foldl (fun o i => o.bind (newTable level sid i)) o = some t) : t.pen = p := by
  induction is generalizing o with
  | nil => exact ho t h
  | cons i is ih =>
    refine ih (fun v hv => ?_) h
    obtain ⟨u, hu, hv⟩ := Option.bind_eq_some_iff.1 hv
    exact (newTable_pen hv).trans (ho u hu)

theorem needTables_pen {sid page n : Nat} {big : Bool} {s t : State} (h : needTables sid page n big s = some t) : t.pen = s.pen := by
  unfold needTables at h
  dsimp only at h
  have h2 (is : List Nat) (u : State) (hu : is.foldl (fun o i => o.bind (newTable 2 sid i)) (some s) = some u) : u.pen = s.pen :=
    newTables_pen (fun v hv => by rw [← Option.some.inj hv]) hu
  split at h
  · exact h2 _ t h
  · exact newTables_pen (h2 _) h

@[simp] theorem mapLeaves_pen (sid pva count size : Nat) (ppas : List Nat) (rd wr att pin reserve : Bool) (s : State) :
    (mapLeaves sid pva count size ppas rd wr att pin reserve s).pen = s.pen := by simp [mapLeaves]

@[simp] theorem presentLeaves_pen (sid : Nat) (ls : List (Nat × Leaf)) (ppas : List Nat) (s : State) :
    (presentLeaves sid ls ppas s).pen = s.pen := by simp [presentLeaves]

@[simp] theorem bumpEpoch_pen (sid : Nat) (ack : Bool) (pages : List (Nat × Nat)) (s : State) : (bumpEpoch sid ack pages s).pen = s.pen := (rfl)

@[simp] theorem recallLeaves_pen (op : LineOp) (ls : List (Nat × Leaf)) (s : State) : (recallLeaves op ls s).pen = s.pen := by simp [recallLeaves]

@[simp] theorem stopRun_pen (mid status : Nat) (s : State) : (stopRun mid status s).pen = s.pen := by
  unfold stopRun
  split <;> simp

@[simp] theorem refuseAgent_pen (i : Instr) (status : Nat) (s : State) : (refuseAgent i status s).pen = s.pen := by
  unfold refuseAgent
  (repeat' split) <;> simp

@[simp] theorem failWaiter_pen (timeout : Bool) (w : Waiter) (s : State) : (failWaiter timeout w s).pen = s.pen := by
  unfold failWaiter
  (repeat' split) <;> simp

@[simp] theorem dropFault_pen (id : Nat) (s : State) : (dropFault id s).pen = s.pen := (rfl)

@[simp] theorem failFault_pen (timeout : Bool) (f : Fault') (s : State) : (failFault timeout f s).pen = s.pen := by simp [failFault]

@[simp] theorem refillRun_pen (mid : Nat) (sel : Nat → Bool) (s : State) : (refillRun mid sel s).pen = s.pen := by
  unfold refillRun
  split <;> simp

@[simp] theorem refillFiring_pen (fid base pages : Nat) (s : State) : (refillFiring fid base pages s).pen = s.pen := by
  unfold refillFiring
  (repeat' split) <;> simp

@[simp] theorem serveAgain_pen (i : Instr) (s : State) : (serveAgain i s).pen = s.pen := by
  unfold serveAgain
  split <;> simp

@[simp] theorem retryWaiter_pen (base pages : Nat) (w : Waiter) (s : State) : (retryWaiter base pages w s).pen = s.pen := by
  unfold retryWaiter
  split <;> simp

@[simp] theorem retryUnheld_pen (s : State) : (retryUnheld s).pen = s.pen := by simp [retryUnheld]

@[simp] theorem timeOut_pen (f : Fault') (s : State) : (timeOut f s).pen = s.pen := by simp [timeOut]

@[simp] theorem resolveOne_pen (acc : Nat × Nat × State) (p : Nat × Nat) : (resolveOne acc p).2.2.pen = acc.2.2.pen := by
  obtain ⟨res, ign, u⟩ := acc
  unfold resolveOne
  dsimp only
  (repeat' split) <;> simp

@[simp] theorem cutWork_pen (sid : Nat) (pages : List Nat) (s : State) : (cutWork sid pages s).pen = s.pen := by simp [cutWork]

@[simp] theorem withdrawRange_pen (sid : Nat) (ls : List (Nat × Leaf)) (mode : Nat) (keep : Bool) (s : State) :
    (withdrawRange sid ls mode keep s).pen = s.pen := by simp [withdrawRange]

@[simp] theorem protectRange_pen (sid : Nat) (ls : List (Nat × Leaf)) (rd wr att pin : Bool) (s : State) :
    (protectRange sid ls rd wr att pin s).pen = s.pen := by simp [protectRange]

@[simp] theorem timeDecay_pen (k period : Nat) (s : State) : (timeDecay k period s).pen = s.pen := (rfl)

@[simp] theorem strayLine_pen (k : Nat) (e : DirEnt) (s : State) : (strayLine k e s).pen = s.pen := by simp [strayLine]

@[simp] theorem loseLines_pen (lost : Nat → Bool) (s : State) : (loseLines lost s).pen = s.pen :=
  foldl_pen (fun _ _ => by split <;> simp) _ _

@[simp] theorem unparkRetry_pen (r : Nat) (s : State) : (unparkRetry r s).pen = s.pen := by
  unfold unparkRetry
  (repeat' split) <;> simp

@[simp] theorem unwaitMig_pen (page n : Nat) (w : MigWait) (s : State) : (unwaitMig page n w s).pen = s.pen := by
  unfold unwaitMig
  split <;> simp

@[simp] theorem finishMig_pen (g : Mig) (l : Leaf) (s : State) : (finishMig g l s).pen = s.pen := by simp [finishMig]

theorem migMover_pen {mid : Nat} {s t : State} (h : migMover mid s = some t) : t.pen = s.pen := by
  unfold migMover at h
  split at h
  · obtain rfl := Option.some.inj h
    rfl
  · split at h
    · cases h
    · obtain rfl := Option.some.inj h
      rfl

/-! ### Holders of other modules (08) -/

@[simp] theorem closeOutst_pen (o : Outst) (s : State) : (closeOutst o s).pen = s.pen := (rfl)

@[simp] theorem lateAnswer_pen (p : Nat) (s : State) : (lateAnswer p s).pen = s.pen := (rfl)

theorem answer_pen (m : Mhd) (op : Nat) {serve : Outst → State → State} (hs : ∀ o s, (serve o s).pen = s.pen) (s : State) :
    (answer m op serve s).pen = s.pen := by
  unfold answer
  (repeat' split) <;> simp [hs]

@[simp] theorem discardBack_pen (k : Nat) (s : State) : (discardBack k s).pen = s.pen := (rfl)

@[simp] theorem serveHdata_pen (status : Nat) (lines : List (LineData × Nat)) (o : Outst) (s : State) :
    (serveHdata status lines o s).pen = s.pen := by
  unfold serveHdata
  (repeat' split) <;> simp

@[simp] theorem serveHdone_pen (status : Nat) (o : Outst) (s : State) : (serveHdone status o s).pen = s.pen := by
  unfold serveHdone
  (repeat' split) <;> simp

@[simp] theorem sendFence_pen (p aid : Nat) (s : State) : (sendFence p aid s).pen = s.pen := by simp [sendFence]

@[simp] theorem expire_pen (o : Outst) (s : State) : (expire o s).pen = s.pen := by
  unfold expire
  dsimp only
  (repeat' split) <;> simp

/-! ### Memory commands (03) -/

@[simp] theorem crazeLines_pen (n l : Nat) (a : Nat × State) : (crazeLines n l a).2.pen = a.2.pen := by
  induction n generalizing l a with
  | zero => rfl
  | succ n ih =>
    obtain ⟨k, u⟩ := a
    simp [crazeLines, ih]

@[simp] theorem crazeGo_pen (r line left : Nat) (s : State) : (crazeGo r line left s).pen = s.pen := by
  unfold crazeGo
  dsimp only
  split <;> simp

@[simp] theorem repairLine_pen (l : Nat) (s : State) : (repairLine l s).pen = s.pen := by
  unfold repairLine
  split <;> simp

@[simp] theorem pprExhausted_pen (c : RowLoc) (s : State) : (pprExhausted c s).pen = s.pen := by simp [pprExhausted]

@[simp] theorem softRepair_pen (c : RowLoc) (s : State) : (softRepair c s).pen = s.pen := by simp [softRepair]

@[simp] theorem wedgeRow_pen (c : RowLoc) (s : State) : (wedgeRow c s).pen = s.pen := (rfl)

@[simp] theorem goOffline_pen (die : Nat) (s : State) : (goOffline die s).pen = s.pen := (rfl)

@[simp] theorem sweepLine_pen (l : Nat) (s : State) : (sweepLine l s).pen = s.pen := by
  unfold sweepLine
  split <;> simp

@[simp] theorem assignSpare_pen (x : Spare) (s : State) : (assignSpare x s).2.pen = s.pen := by simp [assignSpare]

@[simp] theorem noteRowErr_pen (x : Spare) (s : State) : (noteRowErr x s).pen = s.pen := (rfl)

/-! ### Saggers (08) -/

@[simp] theorem releaseParts_pen (s : State) : (releaseParts s).pen = s.pen := (rfl)

@[simp] theorem drainedRecord_pen (sid : Nat) (s : State) : (drainedRecord sid s).pen = s.pen := by
  unfold drainedRecord
  split <;> simp

@[simp] theorem gateTrace_pen (p : Nat) (s : State) : (gateTrace p s).pen = s.pen := by
  unfold gateTrace
  (repeat' split) <;> simp

@[simp] theorem setGate_pen (p : Nat) (g : GateSched) (s : State) : (setGate p g s).pen = s.pen := by simp [setGate]

@[simp] theorem mirrorLine_pen (sid ppa i : Nat) (ws : List Nat) (s : State) : (mirrorLine sid ppa i ws s).pen = s.pen := by simp [mirrorLine]

@[simp] theorem mirrorSeq_pen (sid ppa seq : Nat) (s : State) : (mirrorSeq sid ppa seq s).pen = s.pen := by simp [mirrorSeq]

@[simp] theorem logBreach_pen (b : Breach) (s : State) : (logBreach b s).pen = s.pen := by
  unfold logBreach
  split <;> simp

/-! ### Links (09) -/

@[simp] theorem regrant_pen (p : Nat) (s : State) : (regrant p s).pen = s.pen := (rfl)

@[simp] theorem freePools_pen (s : State) : (freePools s).pen = s.pen := by simp [freePools]

@[simp] theorem toTraining_pen (fast : Bool) (p : Nat) (s : State) : (toTraining fast p s).pen = s.pen := (rfl)

@[simp] theorem sendRetrain_pen (p : Nat) (s : State) : (sendRetrain p s).pen = s.pen := by
  unfold sendRetrain
  split <;> rfl

@[simp] theorem startReplay_pen (p : Nat) (s : State) : (startReplay p s).pen = s.pen := by
  unfold startReplay
  dsimp only
  split <;> simp

@[simp] theorem takeNak_pen (p a : Nat) (s : State) : (takeNak p a s).pen = s.pen := by
  unfold takeNak
  split <;> simp

@[simp] theorem protoErr_pen (p : Nat) (s : State) : (protoErr p s).pen = s.pen := (rfl)

@[simp] theorem dropStranger_pen (p : Nat) (s : State) : (dropStranger p s).pen = s.pen := (rfl)

@[simp] theorem traceRx_pen (p op vc sid ivc keygen src dst : Nat) (s : State) :
    (traceRx p op vc sid ivc keygen src dst s).pen = s.pen := by simp [traceRx]

@[simp] theorem helloLen_pen (p : Nat) (m : RxMsg) (s : State) : (helloLen p m s).pen = s.pen := by simp [helloLen]

@[simp] theorem judgeMsg_pen (p : Nat) (m : RxMsg) (s : State) : (judgeMsg p m s).pen = s.pen := by
  unfold judgeMsg
  (repeat' split) <;> simp

@[simp] theorem rxTake_pen (p : Nat) (m : RxMsg) (s : State) : (rxTake p m s).pen = s.pen := by simp [rxTake]

@[simp] theorem noteLate_pen (p : Nat) (x : TxItem) (s : State) : (noteLate p x s).pen = s.pen := by simp [noteLate]

@[simp] theorem noteSlow_pen (p : Nat) (x : TxItem) (s : State) : (noteSlow p x s).pen = s.pen := by
  unfold noteSlow
  dsimp only
  (repeat' split) <;> simp

@[simp] theorem packFlit_pen (p n room : Nat) (l : List OutMsg) (s : State) : (packFlit p n room l s).2.pen = s.pen := by
  induction n generalizing room l s with
  | zero => rfl
  | succ n ih =>
    unfold packFlit
    dsimp only
    (repeat' split) <;> simp [ih]

@[simp] theorem putFlit_pen (p ftype seq cont : Nat) (msgs : List OutMsg) (ctl : Option (Lctl × Bool × Nat × List Nat)) (s : State) :
    (putFlit p ftype seq cont msgs ctl s).pen = s.pen := by
  unfold putFlit
  split <;> rfl

@[simp] theorem sendLctl_pen (p : Nat) (c : Lctl) (s : State) : (sendLctl p c s).pen = s.pen := by
  unfold sendLctl
  split <;> simp

@[simp] theorem endAdmission_pen (p aid : Nat) (s : State) : (endAdmission p aid s).pen = s.pen := (rfl)

theorem arriveAdmit_pen (m : Mhd) (i : Instr) (bytes : Nat) {serve : Port → Assoc → State → State}
    (hs : ∀ q a s, (serve q a s).pen = s.pen) (s : State) : (arriveAdmit m i bytes serve s).pen = s.pen := by
  unfold arriveAdmit
  split
  · rfl
  · simp [hs]

@[simp] theorem setAssoc_pen (p aid : Nat) (a : Assoc) (s : State) : (setAssoc p aid a s).pen = s.pen := (rfl)

@[simp] theorem notAdmitted_pen (m : Mhd) (s : State) : (notAdmitted m s).pen = s.pen := by simp [notAdmitted]

@[simp] theorem answerHello_pen (m : Mhd) (nonceA xa versions : Nat) (a : Assoc) (s : State) :
    (answerHello m nonceA xa versions a s).pen = s.pen := by simp only [answerHello, sendOn_pen, modPort_pen, draw_pen]

@[simp] theorem serveHello_pen (m : Mhd) (nonceA xa versions : Nat) (q : Port) (a : Assoc) (s : State) :
    (serveHello m nonceA xa versions q a s).pen = s.pen := by simp [serveHello]

@[simp] theorem serveProve_pen (m : Mhd) (ida certSig keyslot certEpoch : Nat) (certSigOk sigAOk : Bool) (q : Port) (a : Assoc) (s : State) :
    (serveProve m ida certSig keyslot certEpoch certSigOk sigAOk q a s).pen = s.pen := by simp [serveProve]

@[simp] theorem startRekey_pen (p aid : Nat) (s : State) : (startRekey p aid s).pen = s.pen := by
  unfold startRekey
  split <;> simp

@[simp] theorem switchTx_pen (p aid : Nat) (s : State) : (switchTx p aid s).pen = s.pen := (rfl)

@[simp] theorem losePort_pen (p cause : Nat) (s : State) : (losePort p cause s).pen = s.pen := by simp [losePort]

end Sys2Proof.Machine
end

section
/-! PROOFS. One-time-programmable memory (O6), continued: the pause of the twin, the host path and the module. -/

namespace Sys2Proof.Machine

/-! ### The twin and its pause (12) -/

@[simp] theorem goFatal_pen (cause : Nat) (s : State) : (goFatal cause s).pen = s.pen := by simp [goFatal]

@[simp] theorem loseWindows_pen (die : Nat) (s : State) : (loseWindows die s).pen = s.pen := by simp [loseWindows]

@[simp] theorem loseMemory_pen (die scope cause : Nat) (s : State) : (loseMemory die scope cause s).pen = s.pen := by simp [loseMemory]

@[simp] theorem loseParts_pen (die : Nat) (f : Firing) (s : State) : (loseParts die f s).pen = s.pen := by
  unfold loseParts
  dsimp only
  (repeat' split) <;> simp

@[simp] theorem loseDie_pen (die cause : Nat) (s : State) : (loseDie die cause s).pen = s.pen := by simp [loseDie]

@[simp] theorem applySaved_pen (die : Nat) (s : State) : (applySaved die s).pen = s.pen := by simp [applySaved]

@[simp] theorem resumeTrace_pen (s : State) : (resumeTrace s).pen = s.pen := by simp [resumeTrace]

@[simp] theorem abandonSheet_pen (s : State) : (abandonSheet s).pen = s.pen := by simp [abandonSheet]

@[simp] theorem leavePlane_pen (p cause start : Nat) (s : State) : (leavePlane p cause start s).pen = s.pen := by simp [leavePlane]

@[simp] theorem pathSilent_pen (watcher path : Nat) (s : State) : (pathSilent watcher path s).pen = s.pen := by simp [pathSilent]

@[simp] theorem execPulseWindow_heard_pen (o watcher : Nat) (wire mailbox : Bool) (s : State) :
    (execPulseWindow.heard o watcher wire mailbox s).pen = s.pen := by simp [execPulseWindow.heard]

@[simp] theorem setHeld_pen (g : Nat) (l : List (Nat × Nat × Nat)) (s : State) : (setHeld g l s).pen = s.pen := (rfl)

@[simp] theorem diverge_pen (s : State) : (diverge s).pen = s.pen := by simp [diverge]

@[simp] theorem badResident_pen (sh id : Nat) (s : State) : (badResident sh id s).pen = s.pen := by simp [badResident]

@[simp] theorem addPause_pen (len why : Nat) (s : State) : (addPause len why s).pen = s.pen := (rfl)

@[simp] theorem noteDelay_pen (len why : Nat) (i : Instr) (s : State) : (noteDelay len why i s).pen = s.pen := by
  unfold noteDelay
  dsimp only
  (repeat' split) <;> simp

/-! ### Messages of the fabric, held back by the pause and taken after it (09, 12) -/

section
variable (s : State)

theorem keepsPen_arrive (m : Mhd) (i : Instr) {serve : Nat → State → State} (hs : ∀ sid s, (serve sid s).pen = s.pen) :
    KeepsPen (act (arrive m i serve) s) s :=
  keepsPen_act (arrive_pen m i hs s)

theorem keepsPen_arriveCoh (m : Mhd) (i : Instr) : KeepsPen (act (arriveCoh m i) s) s := keepsPen_act (by simp)

theorem keepsPen_arriveRsp (m : Mhd) (i : Instr) (x : Handle) (back : Option (LineData × Nat)) (gone : Bool) :
    KeepsPen (act (arriveRsp m i x back gone) s) s :=
  keepsPen_act (by simp)

/-- A message that passes its sagger's meter. -/
theorem keepsPen_metered (m : Mhd) (i : Instr) (cost : State → Nat) (fence : Bool) {refuse : Nat → Nat → State → State}
    {serve : State → State} (hr : ∀ sid st s, (refuse sid st s).pen = s.pen) (hs : ∀ s, (serve s).pen = s.pen) :
    KeepsPen (act (arrive m i fun sid s => metered m i (cost s) fence (refuse sid) serve sid s) s) s :=
  keepsPen_arrive s m i fun sid _ => metered_pen _ _ _ _ (hr sid) hs _ _

@[simp] theorem keepsPen_execFenceAck (m : Mhd) : KeepsPen (execFenceAck m s) s :=
  keepsPen_arrive s _ _ fun _ _ => by (repeat' split) <;> simp

@[simp] theorem keepsPen_execRekey (m : Mhd) (gen : Nat) : KeepsPen (execRekey m gen s) s :=
  keepsPen_arrive s _ _ fun _ _ => by dsimp only; (repeat' split) <;> simp

@[simp] theorem keepsPen_execRekeyAck (m : Mhd) (gen : Nat) : KeepsPen (execRekeyAck m gen s) s :=
  keepsPen_arrive s _ _ fun _ _ => by dsimp only; (repeat' split) <;> simp

@[simp] theorem keepsPen_execWriteback (m : Mhd) (x : Handle) (lepoch cause : Nat) (line : LineData) :
    KeepsPen (execWriteback m x lepoch cause line s) s :=
  keepsPen_arrive s _ _ fun _ _ => serveWriteback_pen ..

@[simp] theorem keepsPen_execMove (m : Mhd) (d : MoveDesc) : KeepsPen (execMove m d s) s :=
  keepsPen_metered s _ _ _ _ (by simp) (by simp)

@[simp] theorem keepsPen_execFire (m : Mhd) (d : FireDesc) : KeepsPen (execFire m d s) s :=
  keepsPen_metered s _ _ _ _ (by simp) (by simp)

@[simp] theorem keepsPen_execFireCancel (m : Mhd) (ftag : Nat) : KeepsPen (execFireCancel m ftag s) s :=
  keepsPen_metered s _ _ _ _ (by simp) (by simp)

@[simp] theorem keepsPen_execAgentCtxSet (m : Mhd) (n : Nat) (e : Ctx) : KeepsPen (execAgentCtxSet m n e s) s :=
  keepsPen_metered s _ _ _ _ (by simp) (by simp)

@[simp] theorem keepsPen_execFence (m : Mhd) : KeepsPen (execFence m s) s :=
  keepsPen_metered s _ _ _ _ (by simp) (by simp)

@[simp] theorem keepsPen_execContrib (m : Mhd) (addr round cause : Nat) (data : List Word) : KeepsPen (execContrib m addr round cause data s) s :=
  keepsPen_metered s _ _ _ _ (by simp) (by simp)

@[simp] theorem keepsPen_execHdata (m : Mhd) (status : Nat) (lines : List (LineData × Nat)) : KeepsPen (execHdata m status lines s) s :=
  keepsPen_arrive s _ _ fun _ _ => answer_pen _ _ (by simp) _

@[simp] theorem keepsPen_execHdone (m : Mhd) (status : Nat) : KeepsPen (execHdone m status s) s :=
  keepsPen_arrive s _ _ fun _ _ => answer_pen _ _ (by simp) _

@[simp] theorem keepsPen_execJoin (m : Mhd) (kind : Nat) : KeepsPen (execJoin m kind s) s := keepsPen_arrive s _ _ (by simp)

@[simp] theorem keepsPen_execPulse (m : Mhd) (lepoch : Nat) : KeepsPen (execPulse m lepoch s) s := keepsPen_arrive s _ _ (by simp)

@[simp] theorem keepsPen_execRegionPublish (m : Mhd) (p : Publication) : KeepsPen (execRegionPublish m p s) s :=
  keepsPen_arrive s _ _ (by simp)

@[simp] theorem keepsPen_execAdmitHello (m : Mhd) (b : HelloBody) : KeepsPen (execAdmitHello m b s) s :=
  keepsPen_act (arriveAdmit_pen _ _ _ (by simp) _)

@[simp] theorem keepsPen_execAdmitProve (m : Mhd) (w : ProveId) (certEpoch : Nat) (certSigOk sigAOk : Bool) :
    KeepsPen (execAdmitProve m w certEpoch certSigOk sigAOk s) s :=
  keepsPen_act (arriveAdmit_pen _ _ _ (by simp) _)

end

@[simp] theorem takeWaiting_pen (i : Instr) (s : State) : (takeWaiting i s).pen = s.pen := by
  unfold takeWaiting
  split
  case h_1 | h_2 | h_3 | h_4 | h_5 | h_6 => exact after_pen (keepsPen_arriveCoh s _ _)
  case h_8 | h_9 | h_10 => exact after_pen (keepsPen_arriveRsp s _ _ _ _ _)
  case h_27 => rfl
  all_goals exact after_pen (by simp)

@[simp] theorem endPause_pen (len why : Nat) (s : State) : (endPause len why s).pen = s.pen := by simp [endPause]

/-! ### The host path (10) -/

@[simp] theorem refaultRecords_pen (s : State) : (refaultRecords s).pen = s.pen := by simp [refaultRecords]

@[simp] theorem stopRing_pen (r : Nat) (s : State) : (stopRing r s).pen = s.pen := by simp [stopRing]

@[simp] theorem stopRings_pen (fresh : Bool) (s : State) : (stopRings fresh s).pen = s.pen := (rfl)

@[simp] theorem takeDoorbell_pen (r p : Nat) (s : State) : (takeDoorbell r p s).pen = s.pen := by
  unfold takeDoorbell
  split <;> simp

@[simp] theorem startRing_pen (r : Nat) (s : State) : (startRing r s).pen = s.pen := by
  unfold startRing
  (repeat' split) <;> simp

@[simp] theorem endSession_pen (s : State) :
    (endSession s).pen = { s.pen with session := false, handshake := false, keys := none, exch := none } := (rfl)

@[simp] theorem ageRings_pen (s : State) : (ageRings s).pen = s.pen := (rfl)

theorem putEntry_pen {r slot seq : Nat} {s t : State} (h : putEntry r s = some (slot, seq, t)) : t.pen = s.pen := by
  unfold putEntry at h
  split at h
  · split at h
    · cases h
      rfl
    · cases h
  · cases h

@[simp] theorem popEvent_pen (s : State) : (popEvent s).pen = s.pen := (rfl)

@[simp] theorem poolFail_pen (r i st : Nat) (s : State) : (poolFail r i st s).pen = s.pen := by simp [poolFail]

@[simp] theorem poolReadEnd_pen (r : Nat) (ls : List (LineData × Nat)) (s : State) : (poolReadEnd r ls s).pen = s.pen := by simp [poolReadEnd]

@[simp] theorem poolGo_pen (fuel r : Nat) (s : State) : (poolGo fuel r s).pen = s.pen := by
  induction fuel generalizing s with
  | zero => rfl
  | succ n ih =>
    unfold poolGo
    split
    · split
      · simp
      · split
        · rfl
        · split
          next d c u e => simp [ih, pen_of_snd e]
          next st u e => simp [pen_of_snd e]
          next u e => simp [pen_of_snd e]
    · split
      · simp
      · split
        · rfl
        · split
          next c u e => simp [ih, pen_of_snd e]
          next st u e => simp [pen_of_snd e]
          next u e => simp [pen_of_snd e]
    · rfl

@[simp] theorem poolReadStart_pen (r sid addr len : Nat) (s : State) : (poolReadStart r sid addr len s).pen = s.pen := by simp [poolReadStart]

@[simp] theorem poolWriteStart_pen (r sid addr len : Nat) (lines : List (LineData × Nat)) (s : State) :
    (poolWriteStart r sid addr len lines s).pen = s.pen := by simp [poolWriteStart]

@[simp] theorem poolRetry_pen (r : Nat) (i : Instr) (s : State) : (poolRetry r i s).pen = s.pen := by
  unfold poolRetry
  (repeat' split) <;> simp

/-! ### Peneno and its one-time memory (13) -/

@[simp] theorem endHostWait_pen (t : Nat) (s : State) : (endHostWait t s).pen = s.pen := (rfl)

@[simp] theorem startHostWait_pen (s : State) : (startHostWait s).pen = s.pen := (rfl)

@[simp] theorem failRng_pen (test : Nat) (s : State) : (failRng test s).pen = { s.pen with rngFail := true } := by simp [failRng]

@[simp] theorem zeroSheet_pen (s : State) : (zeroSheet s).pen = s.pen := (rfl)

@[simp] theorem slOff_pen (reason : Nat) (s : State) :
    (slOff reason s).pen = if s.pen.safelight = 0 then s.pen else { s.pen with safelight := 0, slSince := s.now, slScope := 0, slDuration := 0 } := by
  unfold slOff
  split <;> simp

@[simp] theorem burn_pen (r : Nat) (b : Burn) (s : State) : (burn r b s).pen = { s.pen with busy := some b } := (rfl)

@[simp] theorem joinCert_pen (old : Option (Nat × Bool)) (c : Nat) (subjectOk : Bool) (s : State) : (joinCert old c subjectOk s).2.pen = s.pen := by
  unfold joinCert
  split <;> simp

/-- A burn that ends has set bits only (R407 to R411). -/
theorem otpLe_endBurn {o : Otp} {s : State} (h : otpLe o s.pen.otp) (b : Burn) : otpLe o (endBurn b s).pen.otp := by
  have hmax (n : Nat) : s.pen.otp.lc ≤ max s.pen.otp.lc n := Nat.le_max_left _ _
  unfold endBurn
  dsimp only
  split
  case h_1 g => exact h.set_slot _ g
  case h_2 g => exact (h.set_lc (hmax 2)).set_slot _ g
  case h_3 => exact h.set_lc (hmax 1)
  case h_4 =>
    dsimp only
    rw [joinCert_pen]
    exact h
  case h_5 m => exact h.or_fwRevoke m
  case h_6 => exact h.set_svn (Nat.le_max_left _ _)
  case h_7 => exact (h.set_lc (hmax 3)).set_killOwner
  case h_8 t _ => exact (h.set_lc (hmax t)).set_killUds

/-- A burn that stops has set some of its bits, and no others (14 R456). -/
theorem otpLe_stopBurn {o : Otp} {s : State} (h : otpLe o s.pen.otp) : otpLe o (stopBurn s).pen.otp := by
  unfold stopBurn
  split
  · exact h
  dsimp only
  split
  · refine otpLe_endBurn ?_ _
    exact h
  split
  case h_1 => exact h
  case h_2 g _ =>
    split
    · split <;> exact h
    · exact h.set_slot _ g
  case h_3 => exact h
  case h_4 =>
    split
    · exact h
    · rw [joinCert_pen]
      exact h
  case h_5 => exact h.or_fwRevoke _
  case h_6 => exact h.set_svn (Nat.le_add_right _ _)
  case h_7 =>
    split
    · exact h
    · split
      · exact h.set_killOwner
      · exact h.set_killUds

@[simp] theorem eraseHub_pen (s : State) : (eraseHub s).pen = s.pen := (rfl)

@[simp] theorem proofEnd_pen (r nonce : Nat) (changed : List Nat) (s : State) : (proofEnd r nonce changed s).pen = s.pen := by
  unfold proofEnd
  split <;> simp

@[simp] theorem spdmSay_pen (code : Nat) (body : List Nat) (s : State) : (spdmSay code body s).pen = s.pen := (rfl)

@[simp] theorem spdmError_pen (e : Nat) (s : State) : (spdmError e s).pen = s.pen := (rfl)

/-! ### Power and clocks (11) -/

@[simp] theorem freshState_pen (s : State) : (freshState s).pen = { resetPen with otp := (stopBurn s).pen.otp } := (rfl)

@[simp] theorem dark_pen (s : State) : (dark s).pen = { resetPen with otp := (stopBurn s).pen.otp } := (rfl)

@[simp] theorem failPower_pen (s : State) : (failPower s).pen = (stopBurn s).pen := by simp [failPower]

@[simp] theorem moduleReset_pen (cause : Nat) (s : State) : (moduleReset cause s).pen = { resetPen with otp := (stopBurn s).pen.otp } := (rfl)

@[simp] theorem drawPhase_pen (s : State) : (drawPhase s).2.pen = s.pen := (rfl)

@[simp] theorem badShelf_pen (sh : Nat) (s : State) : (badShelf sh s).pen = s.pen := by simp [badShelf]

@[simp] theorem repairArrays_pen (fails : List Spare) (s : State) : (repairArrays fails s).2.pen = s.pen := by
  refine foldl_carry_pen (get := Prod.snd) (fun a x => ?_) _ _
  split
  next u e => simp [pen_of_snd e]
  next u e => simp [pen_of_snd e]

@[simp] theorem startDie_pen (rate die : Nat) (s : State) : (startDie rate die s).pen = s.pen := by
  unfold startDie
  dsimp only
  (repeat' split) <;> simp

@[simp] theorem memBegin_pen (r : Nat) (s : State) : (memBegin r s).pen = s.pen := by simp [memBegin]

@[simp] theorem stopWork_pen (s : State) : (stopWork s).pen = s.pen := by simp [stopWork]

@[simp] theorem powerOffEnd_pen (r : Nat) (s : State) : (powerOffEnd r s).pen = s.pen := by simp [powerOffEnd]

@[simp] theorem loseUnit_pen (unit cause : Nat) (s : State) : (loseUnit unit cause s).pen = s.pen := by simp [loseUnit]

@[simp] theorem setCross_pen (d : ClockDomain) (x : Option Cross) (s : State) : (setCross d x s).pen = s.pen := (rfl)

@[simp] theorem stepCrossings_pen (s : State) : (stepCrossings s).pen = s.pen := (rfl)

/-- The loss of the PCIe side ends the session (R438, R439). -/
@[simp] theorem pcieDown_otp (s : State) : (pcieDown s).pen.otp = s.pen.otp := by
  unfold pcieDown execHostPathReset act after
  dsimp only
  split <;> simp

@[simp] theorem freezeRegion_pen (unit cause : Nat) (s : State) : (freezeRegion unit cause s).pen = s.pen := (rfl)

@[simp] theorem trackRegions_pen (s : State) : (trackRegions s).pen = s.pen := (rfl)

@[simp] theorem tick_pen (s : State) : (tick s).pen = s.pen := by simp [tick]

/-! ### The side band and its pins (15) -/

@[simp] theorem sideData_pen (code : Nat) (bytes : List Nat) (s : State) : (sideData code bytes s).pen = s.pen := (rfl)

@[simp] theorem setCml_pen (s : State) : (setCml s).pen = s.pen := (rfl)

@[simp] theorem modPin_pen (p : Nat) (f : EvtPinSt → EvtPinSt) (s : State) : (modPin p f s).pen = s.pen := (rfl)

@[simp] theorem drivePin_pen (p : Nat) (level : Bool) (s : State) : (drivePin p level s).pen = s.pen := by simp [drivePin]

@[simp] theorem setIr_pen (v : Nat) (s : State) : (setIr v s).pen = s.pen := (rfl)

@[simp] theorem testBank_pen (bank : Nat) (s : State) : (testBank bank s).pen = s.pen := by simp [testBank]

/-! ### Observation (15) -/

@[simp] theorem clearPeaks_pen (sid : Nat) (s : State) : (clearPeaks sid s).pen = s.pen := (rfl)

@[simp] theorem mirrorHeatSeq_pen (sid ppa seq tally : Nat) (s : State) : (mirrorHeatSeq sid ppa seq tally s).pen = s.pen := by simp [mirrorHeatSeq]

@[simp] theorem spillWrite_pen (n : Nat) (ws : List Nat) (s : State) : (spillWrite n ws s).pen = s.pen := by simp [spillWrite]

/-! ### Registers (10) -/

@[simp] theorem badConfig_pen (s : State) : (badConfig s).pen = s.pen := (rfl)

@[simp] theorem writeRing_pen (r o v : Nat) (s : State) : (writeRing r o v s).pen = s.pen := by
  unfold writeRing
  split <;> simp

@[simp] theorem writeBounce_pen (off v : Nat) (s : State) : (writeBounce off v s).pen = s.pen := by
  unfold writeBounce
  (repeat' split) <;> rfl

@[simp] theorem eachRing_pen (v : Nat) {f : Nat → State → State} (hf : ∀ r s, (f r s).pen = s.pen) (s : State) :
    (eachRing v f s).pen = s.pen := by simp [eachRing, hf]

/-! ### Contact frames (14) -/

@[simp] theorem trimTrace_pen (s : State) : (trimTrace s).pen = s.pen := (rfl)

@[simp] theorem pauseTrace_pen (s : State) : (pauseTrace s).pen = s.pen := by simp [pauseTrace]

@[simp] theorem takeSheet_pen (r : Nat) (data : Bool) (s : State) : (takeSheet r data s).pen = s.pen := by simp [takeSheet]

theorem otpLe_goOn (r : Nat) (p : Park) (s : State) : otpLe s.pen.otp (goOn r p s).pen.otp := by
  unfold goOn
  (repeat' split) <;> simp [otpLe_endBurn]

end Sys2Proof.Machine
end

section
/-! PROOFS. One-time-programmable memory (O6), continued: the commands and events that take more than their shape. -/

namespace Sys2Proof.Machine

section
variable (s : State)

/-! ### Shapes of a chapter -/

section
variable {f : State → State} (hf : ∀ s, (f s).pen = s.pen)
include hf

theorem keepsPen_spdmAny : KeepsPen (spdmAny f s) s := keepsPen_act (by split <;> simp [hf])

theorem keepsPen_spdmKeyed : KeepsPen (spdmKeyed f s) s := keepsPen_spdmAny s fun _ => by split <;> simp [hf]

end

section
variable {f : State → State} (hf : ∀ s, otpLe s.pen.otp (f s).pen.otp)
include hf

theorem gainsOtp_spdmKeyed : GainsOtp (spdmKeyed f s) s := gainsOtp_act (by
  split
  · dsimp only
    split <;> simp [hf]
  · simp)

theorem gainsOtp_tokenCmd (r op purpose : Nat) (it : Item) (x : Token) (pre post : State → List Chk) :
    GainsOtp (tokenCmd r op purpose it x pre post f s) s := gainsOtp_cmd (fun u => by
  dsimp only
  split
  · simp
  · split
    · simp
    · exact hf { u with pen.nonce := none }) s _ _ _

end

theorem keepsPen_onPort {f : Port → State → State} (hf : ∀ q s, (f q s).pen = s.pen) (p : Nat) (ok : Port → Bool) :
    KeepsPen (onPort p ok f s) s := keepsPen_act (by (repeat' split) <;> simp [hf])

theorem keepsPen_sideRead (code : Nat) (bytes : State → List Nat) : KeepsPen (sideRead code bytes s) s :=
  keepsPen_act (by split <;> simp)

theorem keepsPen_telemetry (code lo hi measured : Nat) : KeepsPen (telemetry code lo hi measured s) s :=
  keepsPen_act (by (repeat' split) <;> simp)

theorem keepsPen_i3cGet (code n : Nat) : KeepsPen (i3cGet code n s) s := keepsPen_act (by split <;> simp)

/-! ### Agents, firings and windows (04, 06, 07) -/

@[simp] theorem keepsPen_execLeaseExpired (aid : Nat) : KeepsPen (execLeaseExpired aid s) s := keepsPen_act (by
  dsimp only
  (repeat' split) <;> simp)

@[simp] theorem keepsPen_execEndLane (sh : Nat) (g : GArgs) : KeepsPen (execEndLane sh g s) s := keepsPen_act (by
  split
  · rfl
  · dsimp only
    split <;> simp)

@[simp] theorem keepsPen_execFiringDone (fid : Nat) : KeepsPen (execFiringDone fid s) s := keepsPen_act (by
  split
  · rfl
  · split
    · rfl
    · split
      · split <;> simp
      · split
        · split
          · dsimp only
            split
            next v e => simp [pen_of_snd e]
            next v e => simp [pen_of_snd e]
          · rfl
        · split <;> simp)

@[simp] theorem keepsPen_execWindowOpen (r len : Nat) (item : Item) (b : WinBlock) : KeepsPen (execWindowOpen r len item b s) s :=
  keepsPen_cmdFor (fun _ => by split <;> simp) s _ _ _ _

@[simp] theorem keepsPen_execWindowClose (r w : Nat) : KeepsPen (execWindowClose r w s) s := keepsPen_cmd (fun _ => by
  split
  · rfl
  · dsimp only
    split <;> simp) s _ _ _

/-! ### Translation (02) -/

@[simp] theorem keepsPen_execXltRootSet (r sid : Nat) : KeepsPen (execXltRootSet r sid s) s := keepsPen_cmdFor (fun _ => by
  split
  next u e => simp [newTable_pen e]
  next => rfl) s _ _ _ _

@[simp] theorem keepsPen_execXltMap (r sid pva count size ppa : Nat) (rd wr att pin reserve : Bool) (item : Item) (list : List Nat) :
    KeepsPen (execXltMap r sid pva count size ppa rd wr att pin reserve item list s) s := by
  unfold execXltMap
  refine keepsPen_cmdFor (fun _ => ?_) s _ _ _ _
  split
  · simp
  · split
    next => rfl
    next u e => simp [needTables_pen e]

@[simp] theorem keepsPen_execFaultResolve (r n : Nat) (pairs : List (Nat × Nat)) : KeepsPen (execFaultResolve r n pairs s) s :=
  keepsPen_cmd (fun u => by
    have hl := foldl_carry_pen (get := fun a : Nat × Nat × State => a.2.2) resolveOne_pen (pairs.take n) (0, 0, u)
    simpa using hl) s _ _ _

@[simp] theorem keepsPen_execPageMigrate (r sid pva dst : Nat) : KeepsPen (execPageMigrate r sid pva dst s) s := by
  unfold execPageMigrate
  exact keepsPen_cmdFor (fun _ => by split <;> simp) s _ _ _ _

@[simp] theorem keepsPen_execMigrateDone (sid page : Nat) : KeepsPen (execMigrateDone sid page s) s := keepsPen_act (by
  split
  · split
    · rfl
    · lift_lets
      extract_lets mine runs u
      have hu : u.pen = s.pen := by
        unfold u
        (repeat' split) <;> simp
      clear_value u
      split
      · exact hu
      · split
        · exact hu
        next v e =>
          have hv : v.pen = s.pen := (migMover_pen e).trans hu
          dsimp only
          (repeat' split) <;> simp [hv]
  · rfl)

/-! ### Pool memory (03) -/

@[simp] theorem keepsPen_execMemRegen (r die : Nat) : KeepsPen (execMemRegen r die s) s := keepsPen_memCmd (by simp) s _ _ _ _

@[simp] theorem keepsPen_execMemCraze (r ppa lines : Nat) : KeepsPen (execMemCraze r ppa lines s) s :=
  keepsPen_memCmd (fun _ => by simp) s _ _ _ _

@[simp] theorem keepsPen_execBisqueSweep (die : Nat) : KeepsPen (execBisqueSweep die s) s := keepsPen_act (by
  dsimp only
  (repeat' split) <;> simp)

@[simp] theorem keepsPen_execTableSweep (plane : Nat) (found : SweepFound) : KeepsPen (execTableSweep plane found s) s := keepsPen_act (by
  dsimp only
  (repeat' split) <;> simp)

/-! ### Links (09) -/

@[simp] theorem keepsPen_execResume (p : Nat) (fresh : Bool) (trainNo rxAck : Nat) (credits : List Nat) :
    KeepsPen (execResume p fresh trainNo rxAck credits s) s := keepsPen_onPort s (by simp) _ _

@[simp] theorem keepsPen_execLctlResend (p : Nat) : KeepsPen (execLctlResend p s) s := by
  unfold execLctlResend
  exact keepsPen_act (by (repeat' split) <;> simp)

@[simp] theorem keepsPen_execFlitReceive (p : Nat) (f : RxFlit) : KeepsPen (execFlitReceive p f s) s := keepsPen_onPort s (fun _ _ => by
  dsimp only
  (repeat' split) <;> simp) _ _

@[simp] theorem keepsPen_execFlitSend (p : Nat) : KeepsPen (execFlitSend p s) s := keepsPen_onPort s (fun _ _ => by
  dsimp only
  (repeat' split) <;> simp) _ _

@[simp] theorem keepsPen_execLockLost (p : Nat) : KeepsPen (execLockLost p s) s := keepsPen_onPort s (by simp) _ _

/-! ### The host path (10) -/

@[simp] theorem keepsPen_execOutputEntryWrite (r : Nat) : KeepsPen (execOutputEntryWrite r s) s := keepsPen_act (by
  split
  · rfl
  · split
    · split
      next e =>
        dsimp only
        (repeat' split) <;> simp [putEntry_pen e]
      next => rfl
    · split
      next e =>
        dsimp only
        (repeat' split) <;> simp [putEntry_pen e]
      next => rfl
    · split
      next e => simp [putEntry_pen e]
      next => rfl
    · rfl)

@[simp] theorem keepsPen_execCommandDoorbell (r p : Nat) : KeepsPen (execCommandDoorbell r p s) s :=
  keepsPen_act (by (repeat' split) <;> simp)

@[simp] theorem keepsPen_execConsumerDoorbell (r c : Nat) : KeepsPen (execConsumerDoorbell r c s) s := keepsPen_act (by
  dsimp only
  (repeat' split) <;> simp)

@[simp] theorem keepsPen_execIrqCauseClear (mask : Nat) : KeepsPen (execIrqCauseClear mask s) s := keepsPen_act rfl

theorem gainsOtp_execPenFwGo (v : Word) : GainsOtp (execPenFwGo v s) s := gainsOtp_act (by split <;> simp)

/-- Stated of any value, so that no proof has to compare two computed addresses. -/
@[simp] theorem otpLe_fwAddr (a : Nat) : otpLe s.pen.otp { s with pen.fwAddr := a }.pen.otp := otpLe_refl _

theorem gainsOtp_execRegisterWrite (off : Nat) (v : Word) : GainsOtp (execRegisterWrite off v s) s := gainsOtp_act (by
  dsimp only
  split
  · simp
  split
  · simp
  split
  · simp
  split
  · (repeat' split) <;> simp [after_pen]
  split
  case h_6 => exact after_otp (keepsPen_execIrqCauseClear s _).gainsOtp
  case h_7 => exact otpLe_fwAddr s _
  case h_8 => exact otpLe_fwAddr s _
  case h_10 => exact after_otp (gainsOtp_execPenFwGo s v)
  all_goals simp)

/-! ### The module (11) -/

@[simp] theorem keepsPen_execDieJoin (unit : Nat) (ok : Bool) (delay : Nat) : KeepsPen (execDieJoin unit ok delay s) s := keepsPen_act (by
  split
  · rfl
  · split
    · rfl
    · lift_lets
      extract_lets port region k failed u
      have hu : u.pen = s.pen := by
        unfold u
        split
        · split <;> simp
        · split
          · split
            next x w e =>
              dsimp only
              split <;> simp [pen_of_snd e]
          · split <;> simp [failed]
      clear_value u
      split <;> exact hu)

@[simp] theorem keepsPen_execArrayTest (fails : ArrayFails) (badPorts badBanks : List Nat) (planeABad planeBBad : Bool) :
    KeepsPen (execArrayTest fails badPorts badBanks planeABad planeBBad s) s := keepsPen_act (by
  split
  · rfl
  · split
    next left v e =>
      dsimp only
      (repeat' split) <;> simp [pen_of_snd e])

@[simp] theorem keepsPen_execTallySync : KeepsPen (execTallySync s) s := keepsPen_act (by
  split
  · rfl
  · refine foldl_pen (fun u k => ?_) _ _
    split
    · split
      · rfl
      · split
        next e => simp [pen_of_snd e]
    · rfl)

theorem gainsOtp_execClockStop (d : ClockDomain) : GainsOtp (execClockStop d s) s := gainsOtp_act (by
  dsimp only
  (repeat' split) <;> simp [after_pen])

/-! ### Peneno (12) -/

/-- A start that finishes a nibble sets bits only (R411). -/
theorem otpLe_settleOtp (o : Otp) : otpLe o (settleOtp o) := by
  unfold settleOtp
  split
  · simp
  · lift_lets
    extract_lets stands
    split
    · exact (otpLe_refl o).set_lc (Nat.le_max_left _ _)
    · simp

/-- What a start does not put into the memory: a UDS, whose word is marked burned, is all that it adds (R411). -/
theorem gainsOtp_execPenenoStart (romOk rngOk : Bool) : GainsOtp (execPenenoStart romOk rngOk s) s := gainsOtp_act (by
  split
  · simp
  · split
    · simp
    · dsimp only
      (repeat' split) <;> simp [(otpLe_settleOtp s.pen.otp).or_udsBurned])

theorem gainsOtp_execLcChanged : GainsOtp (execLcChanged s) s := gainsOtp_act (by
  split
  · split
    · simp
    · simp [otpLe_endBurn]
  · simp)

/-! ### Observation (15) -/

@[simp] theorem keepsPen_execMirrorUpdate (sid : Nat) : KeepsPen (execMirrorUpdate sid s) s :=
  keepsPen_act (by (repeat' split) <;> simp)

@[simp] theorem keepsPen_execHeatMirrorUpdate (sid : Nat) : KeepsPen (execHeatMirrorUpdate sid s) s :=
  keepsPen_act (by (repeat' split) <;> simp)

end

end Sys2Proof.Machine
end

section
/-! PROOFS. One-time-programmable memory only gains bits (O6): every command and event, and every step. -/

namespace Sys2Proof.Machine

/-! ### Every command and event -/

/-- Commands of one shape need only that their own part leaves Peneno alone. Peneno's own commands, and the resets that stop a burn, only add
bits. -/
theorem exec_gainsOtp (i : Instr) (s : State) : GainsOtp (exec i s) s := by
  cases i <;> dsimp only [exec]
  case nop | hostConfig | sysFence | fenceCancel | moduleReset | gateLoad | shapeConfig | agentRevoke | regionResolve | cohRead | heatConfig |
      glazeInstall | glazeRemove | glazePermit | glazeRead | ctxSet | ctxRead | windowArm | windowForce | windowRead | portConfig | aidAllow |
      portReset | saRekey | portRead | aidDetach | obsCounters | traceConfig | traceRead | contactTake | contactRead | contactRelease |
      shelfSramRead | shelfStep | proofGet | facOtpDump | klnLibGrant | xltTableGrant | traceSpillGrant | faultConfig =>
    exact (keepsPen_cmd (fun _ => by (repeat' split) <;> simp) s _ _ _).gainsOtp
  case poolRead | poolWrite | saggerCreate | saggerSet | saggerShelves | saggerSeal | saggerUnseal | saggerDrain | saggerResume | saggerRead |
      cohConfig | regionBind | xltPresent | xltWithdraw | xltProtect | xltFence | xltRead | moveSubmit | kilnFire | firingCancel | firingRead |
      ctxGrant | obsMirrorSet | saggerDestroy =>
    exact (keepsPen_cmdFor (fun _ => by (repeat' split) <;> simp) s _ _ _ _).gainsOtp
  case memWedge | memPpr | memDieSet | bisqueConfig =>
    exact (keepsPen_memCmd (fun _ => by (repeat' split) <;> simp) s _ _ _ _).gainsOtp
  case memStart | powerOffPrepare | holderSet | traceCtrl =>
    exact (keepsPen_cmd (fun _ => by dsimp only; (repeat' split) <;> simp) s _ _ _).gainsOtp
  case commandFetch | statusInterrupt | completionTimeout | reservationExpiry | claimGranted | moverStart | moveDone | commit | shelfOut |
      spareRowAssign | tallyStart | inputLow | poolReady | regionFreeze | meterAdmit | breachRecord | traceSpill | contactMarker |
      contactDone | evtTimerExpiry | evtEdge | evtTimer | arraytest | mrstNRelease | channelTrained | powerGovernor |
      pulseWindow | gateOutput | evtPin =>
    exact (keepsPen_act (by dsimp only; (repeat' split) <;> simp)).gainsOtp
  case ringStart | ringReset | lowWordRead | busMasterChange | ringDmaError | trained | trainingTimeout |
      trainingRetry | replayTimeout | admitTimeout | ivcLimit | rekeyWindowEnd | leaseExpiry | snoopTimeout | holdEnd | regionChange |
      regionContested | faultBatchClose | faultTimeout | heatDecay | withdrawAck | saggerDrained | moverLost | partPlaced | firingLimit | glazeNop |
      bra | loop | rep | setct | barrier | ldi | ldh | mov | iadd | isub | imul | logic | shift | icmp | fcmp | plog | ldp | ldc | avail | fma32 |
      dot2 | dot4 | dot4x | dot8x | func | cread | cvt | unpk | sred | fred | flags | windowDeadline | driftTracking | dieLost | d2dTransfer |
      dieOvertemp | railGroupGood | railFault | hubResetRelease | pulseSend | gateUnpaired | divergenceParity | parityError | gapEnd | planeTestDone |
      twinRejoin | resyncTimeout | fatal | regionSyncTimeout | queueSample | gateEntry | evtPulseEnd | page | evtCapture |
      sidebandInvalid | setdasa | entdaa | rstdaa | enec | disec | extest | samplePreload | idcode | clamp | highz | intscan | bypass | tapReset |
      clockReturn | inputLowClear | pcieLinkTrained | sel | stp | add32f | spprRepair | wedgePassDone | tallyGap =>
    exact (keepsPen_act (by (repeat' split) <;> simp)).gainsOtp
  case getVersion | getCapabilities | negotiateAlgorithms | spdmUnsupported =>
    exact (keepsPen_spdmAny s fun _ => by simp).gainsOtp
  case getCertificate | challenge | getMeasurements =>
    exact (keepsPen_spdmKeyed s fun _ => by (repeat' split) <;> simp).gainsOtp
  case rdShared | rdOwn | upgrade | rdOnce | scorch | atomic =>
    exact (keepsPen_arriveCoh s _ _).gainsOtp
  case rspData | rspClean | rspGone =>
    exact (keepsPen_arriveRsp s _ _ _ _ _).gainsOtp
  case laneSwap | laneSwapAck | retrain | laneFail | signalDetect | portLost =>
    exact (keepsPen_onPort s (fun _ _ => by (repeat' split) <;> simp) _ _).gainsOtp
  case voutMode | statusWord | moduleStatus | evtResult =>
    exact (keepsPen_sideRead s _ _).gainsOtp
  case readVin | readIin | readVout | readIout | readTemperature1 | readPout | readPin =>
    exact (keepsPen_telemetry s _ _ _ _).gainsOtp
  case getpid | getbcr | getdcr | getstatus | getmrl | getmwl =>
    exact (keepsPen_i3cGet s _ _).gainsOtp
  case xltRootSet | xltMap | faultResolve | pageMigrate | memCraze | memRegen | windowOpen | windowClose | commandDoorbell |
      consumerDoorbell | irqCauseClear | outputEntryWrite | writeback | move | fire | fireCancel | agentCtxSet |
      fence | fenceAck | hdata | hdone | contrib | join | pulse | regionPublish | admitHello | admitProve | rekey | rekeyAck | flitReceive |
      resume | lctlResend | lockLost | leaseExpired | migrateDone | firingDone | endLane | bisqueSweep | tableSweep | dieJoin | arrayTest |
      tallySync | mirrorUpdate | heatMirrorUpdate | flitSend =>
    exact KeepsPen.gainsOtp (by simp)
  case otpGenWrite | lcSeal | safelightArm | safelightClose | fwSvnCommit | facCertWrite | facProvision | facFwRevoke =>
    exact gainsOtp_cmd (fun _ => by (repeat' split) <;> simp) s _ _ _
  case tokenNonce =>
    exact gainsOtp_cmd (fun _ => by simp) s _ _ _
  case lcReturn | lcScrap | safelightOpen | facDebugOpen =>
    exact gainsOtp_tokenCmd s (fun _ => by simp) _ _ _ _ _ _ _
  case keyExchange | finish =>
    exact gainsOtp_spdmKeyed s fun _ => by dsimp only; (repeat' split) <;> simp
  case penFwGo => exact gainsOtp_execPenFwGo s _
  case registerWrite => exact gainsOtp_execRegisterWrite s _ _
  case clockStop => exact gainsOtp_execClockStop s _
  case penenoStart => exact gainsOtp_execPenenoStart s _ _
  case lcChanged => exact gainsOtp_execLcChanged s
  case parkedCommandComplete => exact gainsOtp_act (by (repeat' split) <;> simp [otpLe_goOn])
  case hostPathReset | crossingReset | firmwareStart | rngFail | nonceLapse | safelightExpiry =>
    exact gainsOtp_act (by (repeat' split) <;> simp)
  case firmwareVerified => exact gainsOtp_act (by dsimp only; (repeat' split) <;> simp)
  case inputGood | pwrFailRailsOff | hubOvertemp | mrstN | moduleResetBegin =>
    exact gainsOtp_act (by (repeat' split) <;> simp [otpLe_stopBurn])
  case pwrFail => exact gainsOtp_act (by dsimp only; (repeat' split) <;> simp [otpLe_stopBurn])

/-! ### Every step -/

/-- Settles O6: a command only adds bits to the one-time-programmable memory (`exec_gainsOtp`), and a tick leaves Peneno alone. -/
theorem otpOnlyGains : Obligations.OtpOnlyGains := by
  unfold Obligations.OtpOnlyGains
  intro s t h
  unfold step at h
  split at h
  next =>
    obtain rfl := Host.Outcome.next.inj h
    simp
  next i rest e =>
    obtain ⟨u, hu, hle⟩ := exec_gainsOtp i { s with pending := rest }
    obtain rfl := Host.Outcome.next.inj (h.symm.trans hu)
    exact hle

end Sys2Proof.Machine
end

section
/-! PROOFS. Observation commands (O50; 15 R465, R467): the reserved bits of OBS_MIRROR_SET. -/

namespace Sys2Proof.Machine

/-- The newest reply after a completion has its status. -/
theorem newestStatus_finish {r : Nat} {s : State} {f : Inflight} (hf : inflightOf r s = some f) (st sg ix : Nat) (res : List Nat)
    (items : List OutItem) : ((finish r st sg ix res items s).host.statusQ.getLast?).map (·.status) = some st := by
  obtain ⟨_, hq⟩ := finish_statusQ hf st sg ix res items
  simp [hq]

/-- OBS_MIRROR_SET stands in flight on ring 0 of a module that runs. -/
def mirrorAsked : State :=
  { State.reset with
    glb := { State.reset.glb with hubReset := false }
    tal := { State.reset.tal with running := true }
    host := { resetHost with rings := resetHost.rings.modify 0 fun g =>
      { g with inflight := some ⟨0x81, 7, 0, false, 0, 4096, 0, ⟨0, 0, 0, 0⟩, 0, 0, none⟩ }, bounceSize := 1 } }

theorem mirrorAsked_facts : Ready 0 0x81 0 mirrorAsked ⟨0x81, 7, 0, false, 0, 4096, 0, ⟨0, 0, 0, 0⟩, 0, 0, none⟩
    ∧ sagState 0 mirrorAsked ≠ .free := by decide

theorem exec_obsMirrorSet (s : State) (r sid ppa period heatBase heatPages heatEvery : Nat) :
    exec (.obsMirrorSet r sid ppa period heatBase heatPages heatEvery) s = execObsMirrorSet r sid ppa period heatBase heatPages heatEvery s := rfl

/-- A HEAT_BASE of more than 52 bits is refused whatever the page is (00 R14). -/
theorem mirrorAsked_refuses : exec (.obsMirrorSet 0 0 0 0 (2 ^ 52) 0 0) mirrorAsked = .next (finish 0 stRESERVED 2 0xFFFFF [] [] mirrorAsked) := by
  rw [exec_obsMirrorSet, execObsMirrorSet]
  exact cmdFor_refuses mirrorAsked_facts.1 (c := chkResv true) (by simp [firstBad]) (by decide)

/-- Refutes O50: OBS_MIRROR_SET with PPA 0 is said to stop mirroring whatever its other parameters are, but a HEAT_BASE of 2^52 has a reserved
bit and is answered RESERVED_NONZERO. -/
theorem not_observationCommands : ¬ Obligations.ObservationCommands := by
  intro h
  obtain ⟨hr, hs⟩ := mirrorAsked_facts
  obtain ⟨-, -, hstop, -⟩ := h mirrorAsked 0 _
  have he := Host.Outcome.next.inj (mirrorAsked_refuses.symm.trans (hstop 0 0 (2 ^ 52) 0 0 hr (by decide) hs))
  obtain ⟨-, -, hf, -⟩ := hr
  have hq := congrArg (fun t : State => (t.host.statusQ.getLast?).map (·.status)) he
  have hl : (some stRESERVED : Option Nat) = some stOK :=
    (newestStatus_finish hf ..).symm.trans (hq.trans (newestStatus_finish (inflightOf_latched hf) ..))
  exact absurd hl (by decide)

end Sys2Proof.Machine
end

section
/-! PROOFS. The tick (O2; log 1, 13 R432). -/

namespace Sys2Proof.Machine

/-- Time passes in the rings' waits, the regions and the crossings only. -/
theorem tick_only (s : State) : Only [.host, .tal, .obs] s (tick s) := by
  unfold tick
  split
  · exact Only.rfl' _ s
  · intro c hc
    cases c <;> simp_all [Comp.same, ageRings, trackRegions, stepCrossings]

/-- The tally counts while it runs. -/
theorem tick_now (s : State) : (tick s).now = if s.tal.running then add64 s.now 1 else s.now := by
  unfold tick
  cases hr : s.tal.running <;> simp [State.now, ageRings, trackRegions, stepCrossings]

/-- Settles O2: a step on the empty queue is one tick, which counts, leaves the queue empty and commands nothing. -/
theorem emptyQueueTicks : Obligations.EmptyQueueTicks := by
  intro s hs
  refine ⟨?_, (tick_pending s).trans hs, tick_now s, tick_only s⟩
  unfold step
  rw [hs]

end Sys2Proof.Machine
end

section
/-! PROOFS. Sideband reads and the I3C target (O59; 16 R486, R487). The lengths and bits of the I3C and PMBus codes are PRESUMED of those standards
(log 22); that a page without a reading answers 0xFF and sets CML is the model's choice (log 72). -/

namespace Sys2Proof.Machine

section
variable (s : State) (code lo hi m n a d : Nat)

theorem exec_page : exec (.page n) s = execPage n s := rfl
theorem exec_statusWord : exec .statusWord s = execStatusWord s := rfl
theorem exec_moduleStatus : exec .moduleStatus s = execModuleStatus s := rfl
theorem exec_sidebandInvalid (w : Bool) : exec (.sidebandInvalid code n w) s = execSidebandInvalid code n w s := rfl
theorem exec_setdasa : exec (.setdasa a d) s = execSetdasa a d s := rfl
theorem exec_entdaa : exec (.entdaa d) s = execEntdaa d s := rfl
theorem exec_rstdaa : exec .rstdaa s = execRstdaa s := rfl
theorem exec_enec : exec .enec s = execEnec s := rfl
theorem exec_disec : exec .disec s = execDisec s := rfl

end

section
variable {s : State} (hc : carrier s = true) (code lo hi m n : Nat)
include hc

/-! ### Reads (R487) -/

theorem sideRead_answers (bytes : State → List Nat) : sideRead code bytes s = .next (sideData code (bytes s) s) := by
  simp [sideRead, act, hc]

/-- A page of the read's range answers the word as measured; temperatures need a hub that runs. -/
theorem telemetry_answers (hlo : lo ≤ s.side.pageSel) (hhi : s.side.pageSel ≤ hi) (hh : code = 0x8D → s.glb.hubReset = false) :
    telemetry code lo hi m s = .next (sideData code [m % 256, m / 256 % 256] s) := by
  have hp : ¬(s.side.pageSel < lo ∨ hi < s.side.pageSel) := by omega
  have hr : ¬(code = 0x8D ∧ s.glb.hubReset = true) := fun h => by simp [hh h.1] at h
  simp [telemetry, act, hc, hp, hr]

/-- On another page the code is not in the table. -/
theorem telemetry_offPage (hp : s.side.pageSel < lo ∨ hi < s.side.pageSel) :
    telemetry code lo hi m s = .next (sideData code [0xFF, 0xFF] { s with side.cml := true }) := by
  simp only [telemetry, act, hc, hp, setCml, if_true, Bool.true_eq_false, if_false]

/-- The pages that are no rail show no rail that is off. -/
theorem statusWord_answers (hp : s.side.pageSel = 0) : exec .statusWord s = .next (sideData 0x79 [2 * b2n s.side.cml, 0] s) := by
  rw [exec_statusWord, execStatusWord, sideRead_answers hc]
  simp [hp, b2n]

theorem sidebandInvalid_answers : exec (.sidebandInvalid code n false) s
    = .next (sideData code (List.replicate n 0xFF) { s with side.cml := true })
    ∧ exec (.sidebandInvalid code n true) s = .next { s with side.cml := true } := by
  simp [exec_sidebandInvalid, execSidebandInvalid, act, hc, setCml]

/-! ### Addresses and direct reads (R486; log 22) -/

theorem setdasa_takes (hd : s.side.dynAddr = 0) : exec (.setdasa (staticAddr s) n) s = .next { s with side.dynAddr := n } := by
  simp [exec_setdasa, execSetdasa, act, hc, hd]

theorem entdaa_takes (hd : s.side.dynAddr = 0) :
    ∃ bs, bs.length = 8 ∧ exec (.entdaa n) s = .next (sideData 0x07 bs { s with side.dynAddr := n }) :=
  ⟨((List.range 6).map fun i => Config.i3cByte 0x8D i % 256) ++ [Config.i3cByte 0x8E 0 % 256, Config.i3cByte 0x8F 0 % 256], by simp,
    by simp [exec_entdaa, execEntdaa, act, hc, hd]⟩

theorem i3cGet_answers (hd : s.side.dynAddr ≠ 0) : ∃ bs, bs.length = n ∧ i3cGet code n s = .next (sideData code bs s) :=
  ⟨(List.range n).map fun i => Config.i3cByte code i % 256, by simp, by simp [i3cGet, act, hc, hd]⟩

end

theorem i3cGet_nobody {s : State} (hd : s.side.dynAddr = 0) (code n : Nat) :
    i3cGet code n s = .next { s with sideOut := s.sideOut ++ [.nack code] } := by
  simp [i3cGet, act, hd]

theorem setdasa_ignored {s : State} {a : Nat} (h : a ≠ staticAddr s ∨ s.side.dynAddr ≠ 0) (d : Nat) : exec (.setdasa a d) s = .next s := by
  have hn : ¬(carrier s = true ∧ a = staticAddr s ∧ s.side.dynAddr = 0) := fun ⟨_, ha, hd⟩ => h.elim (· ha) (· hd)
  simp only [exec_setdasa, execSetdasa, act, hn, if_false]

theorem entdaa_ignored {s : State} (h : s.side.dynAddr ≠ 0) (d : Nat) : exec (.entdaa d) s = .next s := by
  simp [exec_entdaa, execEntdaa, act, h]

/-- Settles O59: each read is a `sideRead`, a `telemetry` word or an `i3cGet`, and the carrier controller runs. -/
theorem sidebandAndI3c : Obligations.SidebandAndI3c := by
  intro s hc
  refine ⟨?_, sideRead_answers hc 0x20 fun _ => [0x14], statusWord_answers hc, ?_, ?_, ?_, ?_, sidebandInvalid_answers hc,
    sideRead_answers hc 0xD3 fun s => [s.side.evtResult], ?_, fun a d ha => setdasa_ignored (.inl ha) d, fun a d hd => ⟨setdasa_ignored (.inr hd) d, entdaa_ignored hd d⟩,
    ?_, ?_, ?_, ?_⟩
  · simp [exec_page, execPage, act, hc]
  · intro m hp
    have hrd (code : Nat) (h8 : code ≠ 0x8D) := telemetry_answers hc code 0 0 m (Nat.zero_le _) hp.le (absurd · h8)
    exact ⟨hrd 0x88 (by decide), hrd 0x89 (by decide), hrd 0x97 (by decide), telemetry_offPage hc 0x8B 1 13 m (by omega)⟩
  · intro m h1 h2
    have hrd (code : Nat) (h8 : code ≠ 0x8D) := telemetry_answers hc code 1 13 m h1 h2 (absurd · h8)
    exact ⟨hrd 0x8B (by decide), hrd 0x8C (by decide), hrd 0x96 (by decide)⟩
  · intro m h1 h2 hh
    exact telemetry_answers hc 0x8D 14 38 m h1 h2 fun _ => hh
  · rw [exec_moduleStatus, execModuleStatus, sideRead_answers hc]
  · intro d hd
    exact ⟨setdasa_takes hc d hd, entdaa_takes hc d hd, i3cGet_nobody hd 0x8D 6⟩
  · simp [exec_rstdaa, execRstdaa, act, hc]
  · intro hd
    have hget (code n : Nat) := i3cGet_answers hc code n hd
    exact ⟨hget 0x8D 6, hget 0x8E 1, hget 0x8F 1, hget 0x90 2, hget 0x8C 2, hget 0x8B 2⟩
  · simp [exec_enec, execEnec, act, hc]
  · simp [exec_disec, execDisec, act, hc]

end Sys2Proof.Machine
end

section
/-! PROOFS. Event timers and pins, and the test access port (O60; 16 R488 to R493). -/

namespace Sys2Proof.Machine

section
variable (s : State) (n mode pin low width start period k u : Nat) (e : Bool)

theorem exec_evtTimer : exec (.evtTimer n mode pin low width start period) s = execEvtTimer n mode pin low width start period s := rfl
theorem exec_evtPin : exec (.evtPin pin mode) s = execEvtPin pin mode s := rfl
theorem exec_evtCapture : exec .evtCapture s = execEvtCapture s := rfl
theorem exec_evtTimerExpiry : exec (.evtTimerExpiry n) s = execEvtTimerExpiry n s := rfl
theorem exec_evtPulseEnd : exec (.evtPulseEnd pin) s = execEvtPulseEnd pin s := rfl
theorem exec_evtEdge : exec (.evtEdge pin e) s = execEvtEdge pin e s := rfl
theorem exec_arraytest : exec (.arraytest k u) s = execArraytest k u s := rfl
theorem exec_idcode : exec .idcode s = .next { s with side.tapIr := 2, sideOut := s.sideOut ++ [.tdo 0x02 idcodeBits] } := rfl
theorem exec_intscan : exec .intscan s = execIntscan s := rfl

end

/-! ### Pins and timers -/

theorem pin_modPin (p k : Nat) (f : EvtPinSt → EvtPinSt) (s : State) :
    (modPin p f s).side.pins[k]? = if k = p then (s.side.pins[k]?).map f else s.side.pins[k]? := by
  unfold modPin
  simp only [List.getElem?_modify]
  by_cases h : p = k
  · subst h
    simp
  · simp [h, Ne.symm h]

@[simp] theorem modPin_timers (p : Nat) (f : EvtPinSt → EvtPinSt) (s : State) : (modPin p f s).side.timers = s.side.timers := rfl

theorem setSideband_only (x : Side) (s : State) : Only [.side] s { s with side := x } := by
  intro c hc
  cases c <;> simp_all [Comp.same]

theorem modPin_only (p : Nat) (f : EvtPinSt → EvtPinSt) (s : State) : Only [.side] s (modPin p f s) := setSideband_only _ s

theorem timerOf_set {n : Nat} {s : State} (h : n < s.side.timers.length) (t : EvtTimer) (k : Nat) :
    timerOf k { s with side.timers := s.side.timers.set n t } = if k = n then t else timerOf k s := by
  unfold timerOf
  by_cases hk : n = k
  · subst hk
    simp [h]
  · simp [List.getElem?_set_ne hk, Ne.symm hk]

/-- Driving a pin leaves it at that level (R489). -/
theorem pin_drivePin (p k : Nat) (l : Bool) (s : State) :
    (drivePin p l s).side.pins[k]? = if k = p then (s.side.pins[k]?).map (fun x => { x with level := l }) else s.side.pins[k]? := by
  unfold drivePin
  split
  next h =>
    split
    next hk =>
      subst hk
      cases hx : s.side.pins[k]? with
      | none => rfl
      | some x =>
        have hl : x.level = l := by simpa [hx] using h
        simp [← hl]
    next => rfl
  next => exact pin_modPin p k _ s

@[simp] theorem drivePin_timers (p : Nat) (l : Bool) (s : State) : (drivePin p l s).side.timers = s.side.timers := by
  unfold drivePin
  split <;> rfl

theorem drivePin_only (p : Nat) (l : Bool) (s : State) : Only [.side, .outs] s (drivePin p l s) := by
  unfold drivePin
  split
  · exact Only.rfl' _ s
  · intro c hc
    cases c <;> simp_all [Comp.same, modPin]

/-- A pin that changes its level is seen from outside. -/
theorem drivePin_sideOut {p : Nat} {l : Bool} {s : State} {x : EvtPinSt} (hx : s.side.pins[p]? = some x) (hl : x.level ≠ l) :
    (drivePin p l s).sideOut = s.sideOut ++ [.pin p l] := by
  simp [drivePin, hx, hl]

/-- A number beyond the pins drives none. -/
theorem drivePin_none {p : Nat} {l : Bool} {s : State} (hx : s.side.pins[p]? = none) : drivePin p l s = s := by simp [drivePin, hx]

theorem ibi_sends {s : State} (h : s.side.ibiOn = true) (c : Nat) : (ibi c s).sideOut = s.sideOut ++ [.ibi c] := by simp [ibi, h]

theorem ibi_only (c : Nat) (s : State) : Only [.outs] s (ibi c s) := by
  unfold ibi
  split
  · intro d hd
    cases d <;> simp_all [Comp.same]
  · exact Only.rfl' _ s

theorem mode_of_on {s : State} (h : s.on = true) : s.twin.mode ≠ .fatal := fun e => by simp [State.on, e] at h

/-! ### EVT_TIMER and EVT_PIN (R490, R491) -/

section
variable {s : State} {n mode pin low width start period : Nat} {p : EvtPinSt}

theorem timerResult_ok (ho : s.on = true) (hs : scanHolds s = false) (hn : n < 16) (hp : pin < 8) (hx : s.side.pins[pin]? = some p)
    (hm : p.mode = 0) (hw : p.owner = none) (hst : s.now < start) (h1 : 1 ≤ width) (h2 : width < period) (h3 : 16 ≤ period)
    (h4 : period ≤ 4000000000) : timerResult n 2 pin 0 width start period s = 0 := by
  have hr : ¬(16 ≤ n ∨ 3 ≤ 2 ∨ (8 ≤ pin ∧ pin ≠ 255) ∨ 0 ≠ 0 ∨ start ≤ s.now) := by omega
  have hq : ¬(2 = 2 ∧ (period < 16 ∨ 4000000000 < period ∨ width < 1 ∨ period ≤ width)) := by omega
  unfold timerResult
  rw [if_neg (by simp [hs, ho]), if_neg hr, if_neg (by omega), if_neg hq, hx]
  simp [hm, hw]

theorem timerResult_past (ho : s.on = true) (hs : scanHolds s = false) (hst : start ≤ s.now) :
    timerResult n mode pin low width start period s = 2 := by
  simp [timerResult, ho, hs, hst]

theorem evtTimer_refused (hc : carrier s = true) (hr : timerResult n mode pin low width start period s ≠ 0) :
    exec (.evtTimer n mode pin low width start period) s
      = .next { s with side.evtResult := timerResult n mode pin low width start period s } := by
  simp [exec_evtTimer, execEvtTimer, act, hc, hr]

/-- A timer that drove no pin takes its new setting and its pin. -/
theorem evtTimer_sets (hc : carrier s = true) (hr : timerResult n 2 pin 0 width start period s = 0) (hfree : timerOf n s = ⟨0, 255, 0, 0, 0, 0⟩)
    (hl : s.side.pins.length = 8) : exec (.evtTimer n 2 pin 0 width start period) s = .next (modPin pin (fun p => { p with owner := some n })
      { s with side.evtResult := 0, side.timers := s.side.timers.set n ⟨2, pin, width, start, period, start⟩ }) := by
  have h255 : s.side.pins[255]? = none := by simp [hl]
  have hd : drivePin 255 false { s with side.evtResult := 0 } = { s with side.evtResult := 0 } := drivePin_none h255
  have hm : s.side.pins.modify 255 (fun p => { p with owner := none, pulseEnd := none }) = s.side.pins :=
    List.modify_eq_self (by simp [hl])
  have ht : (timerOf n { s with side.evtResult := 0 }).pin = 255 := congrArg EvtTimer.pin hfree
  simp [exec_evtTimer, execEvtTimer, act, hc, hr, ht, hd, modPin, hm]

theorem evtPin_answers (hc : carrier s = true) (ho : s.on = true) (hs : scanHolds s = false) : exec (.evtPin pin mode) s = .next
    (if 8 ≤ pin ∨ 4 ≤ mode then { s with side.evtResult := 2 }
      else if (s.side.pins[pin]?).any (·.owner.isSome) then { s with side.evtResult := 1 }
      else modPin pin (fun p => { p with mode := mode }) { s with side.evtResult := 0 }) := by
  have h3 : ¬(scanHolds s = true ∨ s.on = false) := by simp [hs, ho]
  simp only [exec_evtPin, execEvtPin, act, hc, h3, if_false, Bool.true_eq_false]
  split
  · simp
  · split <;> simp

end

/-! ### Events of timers and pins (R488, R489) -/

section
variable {s : State} {pin n : Nat} {p : EvtPinSt}

theorem evtTimerExpiry_early {e : EvtTimer} (he : s.side.timers[n]? = some e) (h : s.now + 3 < e.next) : exec (.evtTimerExpiry n) s = .next s := by
  simp [exec_evtTimerExpiry, execEvtTimerExpiry, act, timerOf, he, h]

theorem evtTimerExpiry_fires {e : EvtTimer} (ho : s.on = true) (hn : n < 16) (he : s.side.timers[n]? = some e) (hm : e.mode = 2)
    (h0 : e.next ≠ 0) (hd : e.next ≤ s.now + 3) (hp : e.pin < 8) {v : State}
    (hv : v = { s with side.timers := s.side.timers.set n { e with next := add64 e.next e.period } }) :
    exec (.evtTimerExpiry n) s = .next (modPin e.pin (fun p => { p with pulseEnd := some (s.now + e.width) }) (drivePin e.pin true v)) := by
  subst hv
  have hg : ¬(s.on = false ∨ 16 ≤ n ∨ e.mode = 0 ∨ e.next = 0 ∨ s.now + 3 < e.next) := by simp [ho, hm, h0]; omega
  have ht : timerOf n s = e := by simp [timerOf, he]
  simp only [exec_evtTimerExpiry, execEvtTimerExpiry, act, ht]
  rw [if_neg hg, if_pos hp, if_pos hm]
  rfl

theorem evtPulseEnd_ends {t0 : Nat} (ho : s.on = true) (hx : s.side.pins[pin]? = some p) (hp : p.pulseEnd = some t0) (ht : t0 ≤ s.now) :
    exec (.evtPulseEnd pin) s = .next (drivePin pin false (modPin pin (fun p => { p with pulseEnd := none }) s)) := by
  simp [exec_evtPulseEnd, execEvtPulseEnd, act, hx, hp, ho, ht]

/-- An edge that the pin does not select, or for which it has no room, only shows at its input. -/
theorem evtEdge_input {rising : Bool} (hx : s.side.pins[pin]? = some p)
    (h : ¬(s.on = true ∧ (p.mode = 3 ∨ (p.mode = 1 ∧ rising = true) ∨ (p.mode = 2 ∧ rising = false)) ∧ p.captures.length < 4)) :
    exec (.evtEdge pin rising) s = .next (modPin pin (fun p => { p with input := rising }) s) := by
  simp only [exec_evtEdge, execEvtEdge, act, hx]
  exact congrArg Host.Outcome.next (if_neg h)

/-- A selected edge is captured, with its time to within 3 ticks, and raises an in-band interrupt. -/
theorem evtEdge_captured (ho : s.on = true) (hx : s.side.pins[pin]? = some p) (hm : p.mode = 1) (hl : p.captures.length < 4) :
    ∃ t, exec (.evtEdge pin true) s = .next t ∧ Only [.side, .outs, .free] s t
      ∧ t.side.pins[pin]? = some { p with input := true, captures := p.captures ++ [(s.now + (draw s).1 % 7 - 3, true)] }
      ∧ (s.side.ibiOn = true → t.sideOut = s.sideOut ++ [.ibi 0x05]) := by
  let v := modPin pin (fun p => { p with input := true }) s
  let w := modPin pin (fun x => { x with captures := x.captures ++ [(s.now + (draw s).1 % 7 - 3, true)] }) (draw v).2
  have hv : v.side.pins[pin]? = some { p with input := true } := (pin_modPin ..).trans ((if_pos rfl).trans (congrArg _ hx))
  have hw := (pin_modPin pin pin (fun x => { x with captures := x.captures ++ [(s.now + (draw s).1 % 7 - 3, true)] }) (draw v).2).trans
    ((if_pos rfl).trans (congrArg _ hv))
  refine ⟨ibi 0x05 w, ?_, ?_, (congrArg (·.pins[pin]?) (ibi_side 0x05 w)).trans hw, fun hi => (ibi_sends (s := w) hi 0x05).trans rfl⟩
  · have hwants : v.on = true ∧ (p.mode = 3 ∨ (p.mode = 1 ∧ True) ∨ (p.mode = 2 ∧ true = false)) ∧ p.captures.length < 4 :=
      ⟨ho, .inr (.inl ⟨hm, trivial⟩), hl⟩
    simp only [exec_evtEdge, execEvtEdge, act, hx]
    exact congrArg Host.Outcome.next (if_pos hwants)
  · exact ((((modPin_only _ _ s).mono (by simp)).trans ((draw_only v).mono (by simp))).trans ((modPin_only _ _ _).mono (by simp))).trans
      ((ibi_only _ w).mono (by simp))

end

/-! ### EVT_CAPTURE (R487) -/

/-- The older of the captures found so far and the next pin's oldest. -/
def olderCapture (o : Option (Nat × Nat × Bool)) (p : EvtPinSt × Nat) : Option (Nat × Nat × Bool) :=
  match p.1.captures.head?, o with
  | some c, some (q, t, e) => if c.1 < t then some (p.2, c.1, c.2) else some (q, t, e)
  | some c, none => some (p.2, c.1, c.2)
  | none, o => o

theorem oldestCapture_eq (s : State) : oldestCapture s = s.side.pins.zipIdx.foldl olderCapture none := rfl

theorem olderCapture_empty {p : EvtPinSt} (h : p.captures = []) (i : Nat) (o : Option (Nat × Nat × Bool)) : olderCapture o (p, i) = o := by
  simp [olderCapture, h]

theorem foldl_olderCapture_empty {l : List EvtPinSt} (h : ∀ p ∈ l, p.captures = []) (i : Nat) (o : Option (Nat × Nat × Bool)) :
    (l.zipIdx i).foldl olderCapture o = o := by
  induction l generalizing i with
  | nil => rfl
  | cons p l ih =>
    obtain ⟨hp, hl⟩ := List.forall_mem_cons.1 h
    simp [olderCapture_empty hp, ih hl]

/-- With one pin's queue alone not empty its oldest capture is the oldest. -/
theorem foldl_olderCapture_single {l : List EvtPinSt} {k at0 : Nat} {e : Bool} {p : EvtPinSt} {rest : List (Nat × Bool)} (hx : l[k]? = some p)
    (hc : p.captures = (at0, e) :: rest) (ho : ∀ j q, j ≠ k → l[j]? = some q → q.captures = []) (i : Nat) :
    (l.zipIdx i).foldl olderCapture none = some (i + k, at0, e) := by
  induction l generalizing i k with
  | nil => simp at hx
  | cons x l ih =>
    cases k with
    | zero =>
      obtain rfl : x = p := by simpa using hx
      have hl : ∀ q ∈ l, q.captures = [] := fun q hq => by
        obtain ⟨j, hj⟩ := List.getElem?_of_mem hq
        exact ho (j + 1) q (by simp) hj
      have hh : olderCapture none (x, i) = some (i, at0, e) := by simp [olderCapture, hc]
      simp [hh, foldl_olderCapture_empty hl]
    | succ k =>
      have hhead : x.captures = [] := ho 0 x (by simp) rfl
      have := ih (k := k) (by simpa using hx) (fun j q hj hq => ho (j + 1) q (by simpa using hj) hq) (i + 1)
      simpa [olderCapture_empty hhead, Nat.add_assoc, Nat.add_comm 1] using this

theorem evtCapture_reads {s : State} {pin at0 : Nat} {e : Bool} {p : EvtPinSt} {rest : List (Nat × Bool)} (hc : carrier s = true)
    (hx : s.side.pins[pin]? = some p) (hp : p.captures = (at0, e) :: rest)
    (ho : ∀ k q, k ≠ pin → s.side.pins[k]? = some q → q.captures = []) : exec .evtCapture s = .next (sideData 0xD4
      ([pin, Config.edgeByte e % 256] ++ (List.range 8).map fun i => at0 / 2 ^ (8 * i) % 256)
      (modPin pin (fun x => { x with captures := x.captures.drop 1 }) s)) := by
  have hold : oldestCapture s = some (pin, at0, e) := by
    rw [oldestCapture_eq, foldl_olderCapture_single hx hp ho, Nat.zero_add]
  simp [exec_evtCapture, execEvtCapture, act, hc, hold]

theorem evtCapture_empty {s : State} (hc : carrier s = true) (h : ∀ q ∈ s.side.pins, q.captures = []) : exec .evtCapture s
    = .next (sideData 0xD4 (0xFF :: (List.range 9).map fun i => Config.emptyCapture i % 256) s) := by
  simp [exec_evtCapture, execEvtCapture, act, hc, oldestCapture_eq, foldl_olderCapture_empty h]

/-! ### The test access port (R493) -/

/-- A shift register starts with the lowest bit of its number. -/
theorem shiftBits_head {v : Nat} (h : v % 2 = 1) : ((List.range 32).map (bitOf v))[0]? = some true := by
  simp [bitOf_eq_testBit, Nat.testBit_zero, h]

/-- IDCODE shifts out an odd number. -/
theorem idcodeBits_odd : ∃ v, v % 2 = 1 ∧ idcodeBits = (List.range 32).map (bitOf v) := by
  unfold idcodeBits
  refine ⟨_, ?_, rfl⟩
  omega

theorem idcodeBits_length : idcodeBits.length = 32 := by
  obtain ⟨v, -, hv⟩ := idcodeBits_odd
  simp [hv]

theorem idcodeBits_head : idcodeBits[0]? = some true := by
  obtain ⟨v, hodd, hv⟩ := idcodeBits_odd
  rw [hv]
  exact shiftBits_head hodd

theorem arraytest_closed {s : State} (h : s.pen.factoryDebug = false) (k u : Nat) :
    exec (.arraytest k u) s = .next { s with side.tapIr := 0xFF } := by
  simp [exec_arraytest, execArraytest, act, h, setIr]

theorem arraytest_shelf {s : State} (h : s.pen.factoryDebug = true) {u : Nat} (hu : u < 320) : exec (.arraytest 1 u) s = .next
    { (draw { s with side.tapIr := 0x40 }).2 with sideOut := s.sideOut ++ [.tdo 0x40 [(draw { s with side.tapIr := 0x40 }).1 % 2 == 1]] } := by
  simp only [exec_arraytest, execArraytest, act, h, hu]
  rfl

theorem intscan_closed {s : State} (h : s.pen.factoryDebug = false) : exec .intscan s = .next { s with side.tapIr := 0xFF } := by
  simp [exec_intscan, execIntscan, act, h, setIr]

theorem intscan_fatal {s : State} (h : s.pen.factoryDebug = true) (ho : s.on = true) :
    exec .intscan s = .next (goFatal 1 { s with side.tapIr := 0x41 }) := by
  simp [exec_intscan, execIntscan, act, h, ho, setIr]

/-- Settles O60: each clause is what one row of the event block or the test access port does, in the case that it names. -/
theorem eventsAndTap : Obligations.EventsAndTap := by
  intro s
  refine ⟨?_, ?_, ?_, ?_, ?_, ?_, ?_, ?_, ?_, ?_, ?_, ?_, ?_, rfl, ?_, rfl, rfl, ?_, ?_, ?_⟩
  · intro n pin width start period p hc ho hs hn hp hx hm hw hl hst h1 h2 h3 h4 hfree hpins
    have hr := timerResult_ok ho hs hn hp hx hm hw hst h1 h2 h3 h4
    have hset (k : Nat) := timerOf_set (s := { s with side.evtResult := 0 }) (hl ▸ hn) ⟨2, pin, width, start, period, start⟩ k
    refine ⟨_, _, evtTimer_sets hc hr hfree hpins, (setSideband_only _ s).trans (modPin_only _ _ _), rfl, (hset n).trans (if_pos rfl),
      fun k hk => (hset k).trans (if_neg hk), (pin_modPin ..).trans ((if_pos rfl).trans (congrArg _ hx)), rfl, rfl,
      fun k hk => (pin_modPin ..).trans (if_neg hk)⟩
  · exact fun _ _ _ _ _ _ _ hc hr => evtTimer_refused hc hr
  · exact fun _ _ _ _ _ _ _ ho hs hst => timerResult_past ho hs hst
  · intro pin mode p hc ho hs hp hm hx
    have hr : ¬(8 ≤ pin ∨ 4 ≤ mode) := by omega
    refine ⟨fun hw => ⟨modPin pin (fun p => { p with mode := mode }) { s with side.evtResult := 0 }, { p with mode := mode }, ?_,
      (setSideband_only _ s).trans (modPin_only _ _ _), rfl, (pin_modPin pin pin (fun p => { p with mode := mode }) _).trans
        ((if_pos rfl).trans (congrArg (Option.map _) hx)), rfl, rfl⟩, fun hw => ?_⟩
    · rw [evtPin_answers hc ho hs, if_neg hr, if_neg (by simp [hx, hw])]
    · rw [evtPin_answers hc ho hs, if_neg hr, if_pos (by simp [hx, Option.isSome_iff_ne_none, hw])]
  · intro pin mode hc ho hs hr
    rw [evtPin_answers hc ho hs, if_pos hr]
  · intro pin rising p hx hm
    exact ⟨_, _, evtEdge_input hx (by simp [hm]), modPin_only _ _ _, (pin_modPin ..).trans ((if_pos rfl).trans (congrArg _ hx)), rfl⟩
  · intro n e p ho hn he hm h0 hd hp hx
    have hl : n < s.side.timers.length := (List.getElem?_eq_some_iff.1 he).1
    have hq := (pin_drivePin e.pin e.pin true { s with side.timers := s.side.timers.set n { e with next := add64 e.next e.period } }).trans
      ((if_pos rfl).trans (congrArg _ hx))
    refine ⟨_, _, evtTimerExpiry_fires ho hn he hm h0 hd hp rfl, ?_, ?_, (pin_modPin ..).trans ((if_pos rfl).trans (congrArg _ hq)), rfl, rfl,
      fun hlow => drivePin_sideOut hx (by simp [hlow])⟩
    · exact (((setSideband_only _ s).mono (by simp)).trans (drivePin_only _ _ _)).trans ((modPin_only _ _ _).mono (by simp))
    · have ht := (timerOf_set (s := s) hl { e with next := add64 e.next e.period } n).trans (if_pos rfl)
      simpa [timerOf] using ht
  · exact fun n e he h => evtTimerExpiry_early he h
  · intro pin t0 p ho hx hp ht
    have hq := (pin_modPin pin pin (fun p => { p with pulseEnd := none }) s).trans ((if_pos rfl).trans (congrArg _ hx))
    refine ⟨_, _, evtPulseEnd_ends ho hx hp ht, ((modPin_only _ _ s).mono (by simp)).trans (drivePin_only _ _ _),
      (pin_drivePin ..).trans ((if_pos rfl).trans (congrArg _ hq)), rfl, rfl, by simp⟩
  · intro pin p ho hx hm
    have hin (rising : Bool) := (pin_modPin pin pin (fun p => { p with input := rising }) s).trans ((if_pos rfl).trans (congrArg _ hx))
    refine ⟨fun hl => ?_, ⟨_, _, evtEdge_input hx (by simp [hm]), modPin_only _ _ _, hin false, rfl, rfl⟩, fun hl =>
      ⟨_, _, evtEdge_input hx (by simp [Nat.not_lt.2 hl]), hin true, rfl⟩⟩
    obtain ⟨t, ht, honly, hq, hout⟩ := evtEdge_captured ho hx hm hl
    exact ⟨t, _, s.now + (draw s).1 % 7 - 3, ht, honly, hq, rfl, by omega, by omega, rfl, hout⟩
  · intro pin at0 e p rest hc hx hp ho
    refine ⟨_, _, _, evtCapture_reads hc hx hp ho, ?_, (pin_modPin ..).trans ((if_pos rfl).trans (congrArg _ hx)), by simp [hp], rfl, by simp, rfl,
      fun i hi => ?_⟩
    · intro c hcm
      cases c <;> simp_all [Comp.same, sideData, modPin]
    · simp [Nat.add_comm 2 i, hi]
  · exact fun hc h => ⟨_, evtCapture_empty hc h⟩
  · simp only [List.mem_cons, Prod.mk.injEq, List.not_mem_nil, or_false]
    rintro i v (⟨rfl, rfl⟩ | ⟨rfl, rfl⟩ | ⟨rfl, rfl⟩) <;> rfl
  · exact ⟨idcodeBits, idcodeBits_length, exec_idcode s, idcodeBits_head⟩
  · exact fun k u h => ⟨arraytest_closed h k u, intscan_closed h⟩
  · intro u h hu
    refine ⟨_, _, arraytest_shelf h hu, ?_, rfl, rfl⟩
    intro c hc
    cases c <;> simp_all [Comp.same, draw]
  · intro h ho
    have hm : s.twin.mode ≠ .fatal := mode_of_on ho
    refine ⟨_, intscan_fatal h ho, congrArg Twin.mode (goFatal_twin (s := { s with side.tapIr := 0x41 }) hm 1),
      congrArg Twin.fatalCause (goFatal_twin (s := { s with side.tapIr := 0x41 }) hm 1), ?_⟩
    simp [goFatal, hm, disarm]

end Sys2Proof.Machine
end

section
/-! PROOFS. Tokens and the safelight (O53; 12 R415 to R418, R426). That a token's format and item are judged before its nonce is consumed,
and the other refusals after it, is the model's choice (log 62), as is that closing the safelight leaves held shelves held (log 64). -/

namespace Sys2Proof.Machine

section
variable (s : State) (r : Nat) (it : Item) (t : Token)

theorem exec_tokenNonce : exec (.tokenNonce r) s = execTokenNonce r s := rfl
theorem exec_nonceLapse : exec .nonceLapse s = execNonceLapse s := rfl
theorem exec_safelightArm : exec (.safelightArm r) s = execSafelightArm r s := rfl
theorem exec_safelightClose : exec (.safelightClose r) s = execSafelightClose r s := rfl
theorem exec_safelightExpiry : exec .safelightExpiry s = execSafelightExpiry s := rfl
theorem exec_safelightOpen : exec (.safelightOpen r it t) s = execSafelightOpen r it t s := rfl
theorem exec_lcReturn : exec (.lcReturn r it t) s = execLcReturn r it t s := rfl
theorem exec_lcScrap : exec (.lcScrap r it t) s = execLcScrap r it t s := rfl
theorem exec_facDebugOpen : exec (.facDebugOpen r it t) s = execFacDebugOpen r it t s := rfl

end

@[simp] theorem latched_pen (r sid : Nat) (s : State) : (latched r sid s).pen = s.pen := rfl

@[simp] theorem latched_mem (r sid : Nat) (s : State) : (latched r sid s).mem = s.mem := rfl

@[simp] theorem latched_kiln (r sid : Nat) (s : State) : (latched r sid s).kiln = s.kiln := rfl

@[simp] theorem latched_now (r sid : Nat) (s : State) : (latched r sid s).now = s.now := rfl

@[simp] theorem slOff_kiln (reason : Nat) (s : State) : (slOff reason s).kiln = s.kiln := by
  unfold slOff
  split <;> simp [zeroSheet]

/-! ### The token's check (R415, R416) -/

/-- The command's own changes begin here: its ring latched, the nonce consumed. -/
def spentNonce (r : Nat) (s : State) : State := { latched r 0 s with pen.nonce := none }

@[simp] theorem spentNonce_pen (r : Nat) (s : State) : (spentNonce r s).pen = { s.pen with nonce := none } := rfl

@[simp] theorem spentNonce_now (r : Nat) (s : State) : (spentNonce r s).now = s.now := rfl

theorem tenantsFree_spentNonce (r : Nat) (s : State) : tenantsFree (spentNonce r s) = tenantsFree s := rfl

theorem genNow_spentNonce (r : Nat) (s : State) : genNow (spentNonce r s) = genNow s := rfl

/-- The newest reply after a completion has its status. -/
theorem finish_newest {r : Nat} {s : State} {f : Inflight} (hf : inflightOf r s = some f) (st sg ix : Nat) (res : List Nat) (items : List OutItem) :
    ∃ x : Reply, (finish r st sg ix res items s).host.statusQ.getLast? = some x ∧ x.status = st :=
  Option.map_eq_some_iff.1 (newestStatus_finish hf st sg ix res items)

section
variable {s : State} {r op purpose : Nat} {f : Inflight} {it : Item} {t : Token} {pre post : State → List Chk} {act : State → State}

/-- A command whose format and item are good judges its token. -/
theorem tokenCmd_judges (h : Ready r op 0 s f) (hc : ∀ c ∈ tokenChks it t [] s, c.bad = false) (hpre : ∀ c ∈ pre s, c.bad = false) :
    tokenCmd r op purpose it t pre post act s = .next (if tokenBad purpose t s then refuse r stDENIED 3 (spentNonce r s)
      else match firstBad (post (spentNonce r s)) with
        | some c => finish r c.status c.stage c.index [] [] (spentNonce r s)
        | none => act (spentNonce r s)) := by
  refine cmd_acts h fun c hm => ?_
  simp only [tokenChks, List.append_nil, List.mem_append] at hc hm
  rcases hm with (hm | hm) | hm
  · exact hc c (.inl hm)
  · exact hpre c hm
  · exact hc c (.inr hm)

theorem inflightOf_spentNonce (h : Ready r op 0 s f) : inflightOf r (spentNonce r s) = some { f with lsid := 0, start := latchOf 0 s } :=
  inflightOf_latched h.2.2.1

/-- A wrong token is refused with DENIED, and the nonce is consumed. -/
theorem tokenCmd_denied (h : Ready r op 0 s f) (hc : ∀ c ∈ tokenChks it t [] s, c.bad = false) (hpre : ∀ c ∈ pre s, c.bad = false)
    (hb : tokenBad purpose t s = true) : ∃ u, tokenCmd r op purpose it t pre post act s = .next u
      ∧ u.pen = { s.pen with nonce := none } ∧ ∃ x : Reply, u.host.statusQ.getLast? = some x ∧ x.status = stDENIED := by
  refine ⟨refuse r stDENIED 3 (spentNonce r s), ?_, by simp, finish_newest (inflightOf_spentNonce h) ..⟩
  rw [tokenCmd_judges h hc hpre, if_pos hb]

/-- A refusal after a right token consumes the nonce too. -/
theorem tokenCmd_refused (h : Ready r op 0 s f) (hc : ∀ c ∈ tokenChks it t [] s, c.bad = false) (hpre : ∀ c ∈ pre s, c.bad = false)
    (hb : tokenBad purpose t s = false) {c : Chk} (hpost : firstBad (post (spentNonce r s)) = some c) :
    ∃ u, tokenCmd r op purpose it t pre post act s = .next u
      ∧ u.pen = { s.pen with nonce := none } ∧ ∃ x : Reply, u.host.statusQ.getLast? = some x ∧ x.status = c.status := by
  refine ⟨finish r c.status c.stage c.index [] [] (spentNonce r s), ?_, by simp, finish_newest (inflightOf_spentNonce h) ..⟩
  rw [tokenCmd_judges h hc hpre, if_neg (by simp [hb]), hpost]

/-- A right token that nothing else refuses lets the command act. -/
theorem tokenCmd_acts (h : Ready r op 0 s f) (hc : ∀ c ∈ tokenChks it t [] s, c.bad = false) (hpre : ∀ c ∈ pre s, c.bad = false)
    (hb : tokenBad purpose t s = false) (hpost : ∀ c ∈ post (spentNonce r s), c.bad = false) :
    tokenCmd r op purpose it t pre post act s = .next (act (spentNonce r s)) := by
  rw [tokenCmd_judges h hc hpre, if_neg (by simp [hb]), firstBad_none.2 hpost]

end

section
variable {s : State} {r : Nat} {f : Inflight} {it : Item} {t : Token}

theorem lcDeny_good {a b : Nat} (h : s.pen.otp.lc = a ∨ s.pen.otp.lc = b) :
    ∀ c ∈ [chkDeny (!(s.pen.otp.lc == a || s.pen.otp.lc == b))], c.bad = false := by
  rcases h with h | h <;> simp [h]

theorem lcReturn_answers (h : Ready r 0x93 0 s f) (hc : ∀ c ∈ tokenChks it t [] s, c.bad = false) (hl : s.pen.otp.lc = 1 ∨ s.pen.otp.lc = 2)
    (hb : tokenBad 1 t s = false) (hf : tenantsFree s = true) (hbusy : s.pen.busy = none) :
    exec (.lcReturn r it t) s = .next (ok r [] { latched r 0 s with pen.nonce := none, pen.busy := some (.lc 3) }) := by
  rw [exec_lcReturn, execLcReturn, tokenCmd_acts h hc (lcDeny_good hl) hb]
  · rfl
  · simp [tenantsFree_spentNonce, hf, chkBurn, hbusy]

theorem lcReturn_tenants (h : Ready r 0x93 0 s f) (hc : ∀ c ∈ tokenChks it t [] s, c.bad = false) (hl : s.pen.otp.lc = 1 ∨ s.pen.otp.lc = 2)
    (hb : tokenBad 1 t s = false) (hf : tenantsFree s = false) : ∃ u, exec (.lcReturn r it t) s = .next u
      ∧ u.pen = { s.pen with nonce := none } ∧ ∃ x : Reply, u.host.statusQ.getLast? = some x ∧ x.status = stCONFLICT := by
  rw [exec_lcReturn, execLcReturn]
  refine tokenCmd_refused (c := chkExec true stCONFLICT) h hc (lcDeny_good hl) hb ?_
  simp [firstBad, tenantsFree_spentNonce, hf]

theorem lcScrap_answers (h : Ready r 0x94 0 s f) (hc : ∀ c ∈ tokenChks it t [] s, c.bad = false) (hl : s.pen.otp.lc ≠ 4)
    (hb : tokenBad 2 t s = false) (hf : tenantsFree s = true) (hbusy : s.pen.busy = none) :
    exec (.lcScrap r it t) s = .next (ok r [] { latched r 0 s with pen.nonce := none, pen.busy := some (.lc 4) }) := by
  rw [exec_lcScrap, execLcScrap, tokenCmd_acts h hc (by simpa using hl) hb]
  · rfl
  · simp [tenantsFree_spentNonce, hf, chkBurn, hbusy]

theorem facDebugOpen_opens (h : Ready r 0xF3 0 s f) (hc : ∀ c ∈ tokenChks it t [] s, c.bad = false) (hl : s.pen.otp.lc = 0 ∨ s.pen.otp.lc = 3)
    (hb : tokenBad 4 t s = false) :
    exec (.facDebugOpen r it t) s = .next (ok r [] { latched r 0 s with pen.nonce := none, pen.factoryDebug := true }) := by
  rw [exec_facDebugOpen, execFacDebugOpen, tokenCmd_acts h hc (lcDeny_good hl) hb]
  · rfl
  · simp

end

/-! ### The safelight (R417, R418) -/

section
variable {s : State} {r : Nat} {f : Inflight} {it : Item} {t : Token} {g : GenRec}

/-- The safelight opens from Armed with these fields. -/
def safelightOpened (t : Token) (s : State) : State :=
  { s with pen.safelight := 2, pen.slSince := s.now, pen.slScope := t.scope, pen.slDuration := t.duration }

theorem openDeny_good (h1 : 1000000000 ≤ t.duration) (h2 : t.duration ≤ 86400000000000) (h3 : t.scope < 32) :
    ∀ c ∈ [chkDeny (t.purpose == 3 && (decide (t.duration < 1000000000) || decide (86400000000000 < t.duration) || decide (32 ≤ t.scope)))],
      c.bad = false := by
  have : ¬(t.duration < 1000000000 ∨ 86400000000000 < t.duration ∨ 32 ≤ t.scope) := by omega
  simp only [List.mem_singleton, forall_eq, chkDeny_bad, Bool.and_eq_false_imp]
  intro _
  simpa [not_or, and_assoc] using this

theorem safelightOpen_opens (h : Ready r 0x96 0 s f) (hc : ∀ c ∈ tokenChks it t [] s, c.bad = false) (h1 : 1000000000 ≤ t.duration)
    (h2 : t.duration ≤ 86400000000000) (h3 : t.scope < 32) (hb : tokenBad 3 t s = false) (hs : s.pen.safelight = 1) (hg : genNow s = some g)
    (hw : s.pen.slSince + g.armNotice ≤ s.now) : exec (.safelightOpen r it t) s
      = .next (ok r [] (emit 0x24 4095 3 0 ([t.scope, 0] ++ w64 t.duration) (safelightOpened t (spentNonce r s)))) := by
  rw [exec_safelightOpen, execSafelightOpen, tokenCmd_acts h hc (openDeny_good h1 h2 h3) hb]
  · rfl
  simp [hs, genNow_spentNonce, hg, Nat.not_lt.2 hw]

theorem safelightOpen_waits (h : Ready r 0x96 0 s f) (hc : ∀ c ∈ tokenChks it t [] s, c.bad = false) (h1 : 1000000000 ≤ t.duration)
    (h2 : t.duration ≤ 86400000000000) (h3 : t.scope < 32) (hb : tokenBad 3 t s = false) (hs : s.pen.safelight = 1) (hl : s.pen.otp.lc = 2)
    (hg : genNow s = some g) (hw : s.now < s.pen.slSince + g.armNotice) : ∃ u, exec (.safelightOpen r it t) s = .next u
      ∧ u.pen = { s.pen with nonce := none } ∧ ∃ x : Reply, u.host.statusQ.getLast? = some x ∧ x.status = stBUSY := by
  rw [exec_safelightOpen, execSafelightOpen]
  exact tokenCmd_refused (c := chkExec true stBUSY) h hc (openDeny_good h1 h2 h3) hb (by simp [firstBad, hs, hl, genNow_spentNonce, hg, hw])

end

/-- TOKEN_NONCE draws the nonce (R404, R415). -/
theorem tokenNonce_draws {s : State} {r : Nat} {f : Inflight} (h : Ready r 0x97 0 s f) (hr : s.pen.rngFail = false) :
    exec (.tokenNonce r) s = .next (ok r (w256 ((draw s).1 % 2 ^ 256))
      { (draw (latched r 0 s)).2 with pen.nonce := some ((draw s).1 % 2 ^ 256, s.now) }) := by
  rw [exec_tokenNonce, execTokenNonce, cmd_acts h (by simp [hr])]
  rfl

/-- Settles O53: a nonce is issued, consumed by the token's check whatever its outcome, or lapses; the safelight is armed, opened and closed. -/
theorem tokensAndSafelight : Obligations.TokensAndSafelight := by
  intro s r f
  refine ⟨?_, ?_, ?_, ?_, ?_, ?_, ?_, ?_, ?_, fun it t hc => ⟨?_, ?_, ?_, ?_, ?_, ?_, ?_⟩⟩
  · intro h hr
    refine ⟨_, _, tokenNonce_draws h hr, ?_, Nat.mod_lt _ (by decide), ok_only (sid := 0) (by simp) (by simp) ?_, ok_replied h rfl⟩
    · rw [ok_pen]
      rfl
    · intro c hc
      cases c <;> simp_all [Comp.same, draw]
  · exact fun h hr => cmd_refused (c := chkExec true stBUSY) (exec_tokenNonce s r) h (by simp [firstBad, hr]) (by decide)
  · intro n t0 hp hn ht
    simp [exec_nonceLapse, execNonceLapse, act, hn, hp, ht]
  · intro n t0 hn ht
    simp [exec_nonceLapse, execNonceLapse, act, hn, Nat.not_le.2 ht]
  · intro h hs
    rw [exec_safelightArm, execSafelightArm, cmd_acts h (by simp [hs])]
    rfl
  · exact fun h hs => cmd_refused (c := chkExec true stCONFLICT) (exec_safelightArm s r) h (by simp [firstBad, chkExec, chk, hs]) (by decide)
  · intro h hs
    rw [exec_safelightClose, execSafelightClose, cmd_acts h (by simp [hs])]
    refine ⟨_, rfl, ?_, inflightOf_finish .., by simp, by simp [ok]⟩
    simp [hs]
  · exact fun h hs => cmd_refused (c := chkExec true stCONFLICT) (exec_safelightClose s r) h (by simp [firstBad, hs]) (by decide)
  · intro hp hs ht
    exact ⟨slOff 1 s, by simp [exec_safelightExpiry, execSafelightExpiry, act, hp, hs, ht], by simp [hs]⟩
  · intro g h _ h1 h2 h3 hb hs _ hg hw
    exact ⟨_, safelightOpen_opens h hc h1 h2 h3 hb hs hg hw, by simp [ok, safelightOpened], inflightOf_finish ..⟩
  · exact fun g h _ h1 h2 h3 hb hs hl hg hw => safelightOpen_waits h hc h1 h2 h3 hb hs hl hg hw
  · intro h _ h1 h2 h3 hb
    rw [exec_safelightOpen, execSafelightOpen]
    exact tokenCmd_denied h hc (openDeny_good h1 h2 h3) hb
  · exact fun h hl hb hf hbusy => lcReturn_answers h hc hl hb hf hbusy
  · exact fun h hl hb hf hbusy => lcScrap_answers h hc hl hb hf hbusy
  · exact fun h hl hb hf => lcReturn_tenants h hc hl hb hf
  · exact fun h hl hb => facDebugOpen_opens h hc hl hb

end Sys2Proof.Machine
end

section
/-! PROOFS. Commands that burn one-time-programmable memory, and the life cycle (O54; 12 R407 to R413, R426). That LC_SEAL takes a consumed slot with
the same record again, has no LC_CHANGED record, and that LC_CHANGED waits for its command's reply, is the model's choice (log 63). -/

namespace Sys2Proof.Machine

section
variable (s : State) (r len mask c type : Nat) (it : Item) (g : GenRec) (k : Bool)

theorem exec_otpGenWrite : exec (.otpGenWrite r len it g k) s = execOtpGenWrite r len it g k s := rfl
theorem exec_lcSeal : exec (.lcSeal r len it g k) s = execLcSeal r len it g k s := rfl
theorem exec_fwSvnCommit : exec (.fwSvnCommit r type) s = execFwSvnCommit r type s := rfl
theorem exec_facCertWrite : exec (.facCertWrite r len it c k) s = execFacCertWrite r len it c k s := rfl
theorem exec_facProvision : exec (.facProvision r) s = execFacProvision r s := rfl
theorem exec_facFwRevoke : exec (.facFwRevoke r mask) s = execFacFwRevoke r mask s := rfl
theorem exec_facOtpDump : exec (.facOtpDump r) s = execFacOtpDump r s := rfl
theorem exec_lcChanged : exec .lcChanged s = execLcChanged s := rfl

end

/-! ### Generation records (R409, R410) -/

section
variable {s : State} {r len : Nat} {f : Inflight} {it : Item} {g : GenRec}

/-- The first thing that a packet's own check 3 or its record's contents fail is DENIED. -/
theorem genChks_denied {deny bad : Bool} (hl : len ≠ 0) (hc : ∀ c ∈ genChks len it g false false s, c.bad = false)
    (hd : deny = true ∨ bad = true) :
    firstBad (genChks len it g deny bad s) = some (chkDeny true) := by
  simp only [genChks, hl, if_false, List.mem_append, List.mem_cons, List.not_mem_nil, or_false] at hc
  have ha := hc _ (.inl (.inr rfl))
  have hr : firstBad (itemRead it len s) = none := firstBad_none.2 fun c hm => hc c (.inr (.inl hm))
  have hv := hc _ (.inr (.inr (.inl rfl)))
  have hs := hc _ (.inr (.inr (.inr (.inl rfl))))
  cases deny
  · obtain rfl : bad = true := by simpa using hd
    simp only [genChks, hl, if_false, List.cons_append, List.nil_append, firstBad_append, firstBad_cons_good ha, firstBad_cons_good hv,
      firstBad_cons_good hs, hr, firstBad_cons_good (chkDeny_bad false)]
    simp [firstBad]
  · simp [genChks, firstBad]

theorem otpGenWrite_burns (hl : len ≠ 0) (hc : ∀ c ∈ genChks len it g false false s, c.bad = false) (h : Ready r 0x91 0 s f)
    (hlc : s.pen.otp.lc = 2) (hu : slotsUsed s ≠ 4) (hg : g.gen = slotsUsed s + 1) : exec (.otpGenWrite r len it g true) s
      = .next (burn r (.gen g) { latched r 0 s with pen.otp.used := s.pen.otp.used.set (g.gen - 1) true }) := by
  have e : genChks len it g (s.pen.otp.lc != 2 || slotsUsed s == 4) (g.gen != slotsUsed s + 1 || !true) s = genChks len it g false false s := by
    rw [beq_eq_false_iff_ne.2 hu, hlc, hg, bne_self_eq_false (slotsUsed s + 1)]
    rfl
  rw [exec_otpGenWrite, execOtpGenWrite, cmd_acts h (e ▸ hc), if_neg hl]
  rfl

theorem otpGenWrite_nothing {k : Bool} (ha : it.off % 64 = 0) (h : Ready r 0x91 0 s f) (hlc : s.pen.otp.lc = 2) (hu : slotsUsed s ≠ 4) :
    exec (.otpGenWrite r 0 it g k) s = .next (ok r [] (latched r 0 s)) := by
  rw [exec_otpGenWrite, execOtpGenWrite, cmd_acts h (by simp [genChks, itemAlign, ha, hlc, hu]), if_pos rfl]

theorem lcSeal_burns (hl : len ≠ 0) (hc : ∀ c ∈ genChks len it g false false s, c.bad = false) (h : Ready r 0x92 0 s f)
    (hlc : s.pen.otp.lc = 1) (hg : g.gen = 1) (hu : s.pen.otp.used.getD 0 false = false) : exec (.lcSeal r len it g true) s
      = .next (burn r (.seal g) { latched r 0 s with pen.otp.used := s.pen.otp.used.set 0 true }) := by
  have e : genChks len it g (s.pen.otp.lc != 1) (g.gen != 1 || !true || (s.pen.otp.used.getD 0 false && (s.pen.otp.slots[0]?).join != some g)) s
      = genChks len it g false false s := by rw [hlc, hg, hu]; rfl
  rw [exec_lcSeal, execLcSeal, cmd_acts h (e ▸ hc), if_neg hl]
  rfl

theorem lcSeal_nothing {k : Bool} (ha : it.off % 64 = 0) (h : Ready r 0x92 0 s f) (hlc : s.pen.otp.lc = 1) :
    exec (.lcSeal r 0 it g k) s = .next (ok r [] (latched r 0 s)) := by
  rw [exec_lcSeal, execLcSeal, cmd_acts h (by simp [genChks, itemAlign, ha, hlc]), if_pos rfl]

end

/-! ### The other burns (R407, R408, R411) -/

section
variable {s : State} {r len c : Nat} {f : Inflight} {it : Item} {k : Bool}

theorem facCertWrite_nothing (ha : it.off % 64 = 0) (h : Ready r 0xF0 0 s f) (hlc : s.pen.otp.lc = 0) :
    exec (.facCertWrite r 0 it c k) s = .next (ok r [] (latched r 0 s)) := by
  rw [exec_facCertWrite, execFacCertWrite, cmd_acts h (by simp [itemAlign, ha, hlc]), if_pos rfl]

theorem facCertWrite_burns (h : Ready r 0xF0 0 s f) (hi : GoodItem it len s) (hlc : s.pen.otp.lc = 0) (hl : len ≠ 0) (hm : len ≤ 2048)
    (hb : s.pen.busy = none) : exec (.facCertWrite r len it c k) s = .next (burn r (.cert c k) (latched r 0 s)) := by
  have hr := itemRead_good hi
  rw [exec_facCertWrite, execFacCertWrite, cmd_acts h, if_neg hl]
  simp only [if_neg hl, List.mem_append, List.mem_cons, List.not_mem_nil, or_false]
  rintro c ((rfl | rfl) | hm' | rfl | rfl)
  · simp [hlc]
  · simp [itemAlign, hi.1]
  · exact hr c hm'
  · simpa using hm
  · simp [chkBurn, hb]

/-- The value that FW_SVN_COMMIT burns (R407). -/
def svnCommitted (type : Nat) (s : State) : Nat := max (svnMin type s) (min 64 (((imageOf type s).map (·.svn)).getD 0))

theorem fwSvnCommit_burns {type : Nat} (h : Ready r 0x99 0 s f) (h1 : 1 ≤ type) (h4 : type ≤ 4) (hb : s.pen.busy = none) :
    exec (.fwSvnCommit r type) s = .next (burn r (.svn type (svnCommitted type s)) (latched r 0 s)) := by
  have h0 : ¬(type = 0 ∨ 4 < type) := by omega
  rw [exec_fwSvnCommit, execFwSvnCommit, cmd_acts h (by simpa [chkBurn, hb] using h0)]
  rfl

theorem svnCommitted_image {type : Nat} {x : Loaded} (hx : imageOf type s = some x) (h1 : svnMin type s ≤ x.svn) (h2 : x.svn ≤ 64) :
    svnCommitted type s = x.svn := by
  simp only [svnCommitted, hx, Option.map_some, Option.getD_some]
  omega

theorem svnCommitted_none {type : Nat} (hx : imageOf type s = none) : svnCommitted type s = svnMin type s := by simp [svnCommitted, hx]

theorem facProvision_burns (h : Ready r 0xF1 0 s f) (hlc : s.pen.otp.lc = 0) (hc : (s.pen.otp.cert.map (·.2)) = some true) (hb : s.pen.busy = none) :
    exec (.facProvision r) s = .next (burn r .provision (latched r 0 s)) := by
  rw [exec_facProvision, execFacProvision, cmd_acts h (by simp [hlc, hc, chkBurn, hb])]

theorem facFwRevoke_burns {mask : Nat} (h : Ready r 0xF2 0 s f) (hm : mask < 64) (hl : s.pen.otp.lc = 0 ∨ s.pen.otp.lc = 3)
    (hb : s.pen.busy = none) : exec (.facFwRevoke r mask) s = .next (burn r (.revoke mask) (latched r 0 s)) := by
  have hd := lcDeny_good hl
  simp only [List.mem_singleton, forall_eq] at hd
  rw [exec_facFwRevoke, execFacFwRevoke, cmd_acts h]
  simp only [List.mem_cons, List.not_mem_nil, or_false]
  rintro c (rfl | rfl | rfl)
  · simpa using hm
  · exact hd
  · simp [chkBurn, hb]

theorem facOtpDump_answers (h : Ready r 0xF4 24576 s f) (hl : s.pen.otp.lc = 0 ∨ s.pen.otp.lc = 3) :
    exec (.facOtpDump r) s = .next (okItem r [.words (otpWords s)] (latched r 0 s)) := by
  obtain ⟨o3, o4, -⟩ := outRoom_checks h.2.2.2.2.2
  have hd := lcDeny_good hl
  rw [exec_facOtpDump, execFacOtpDump, cmd_acts h]
  · rfl
  · simp only [List.mem_cons, List.not_mem_nil, or_false]
    rintro c (rfl | rfl | rfl)
    exacts [hd _ (by simp), o3, o4]

end

/-! ### LC_CHANGED (R412) -/

theorem slOff_only (reason : Nat) (s : State) : Only [.host, .obs, .pen] s (slOff reason s) := by
  unfold slOff
  split
  · exact Only.rfl' _ s
  · intro c hc
    cases c <;> simp_all [Comp.same, zeroSheet]

/-- The life cycle's burn changes Peneno only. -/
theorem endBurn_lc_only (t : Nat) (s : State) : Only [.pen] s (endBurn (.lc t) s) := by
  intro p hp
  unfold endBurn
  split <;> cases p <;> simp_all [Comp.same]

theorem endBurn_lc_pen (t : Nat) (s : State) :
    (endBurn (.lc t) s).pen.busy = none ∧ (endBurn (.lc t) s).pen.otp.lc = max s.pen.otp.lc t
      ∧ (t = 3 → (endBurn (.lc t) s).pen.otp.killOwner = true ∧ (endBurn (.lc t) s).pen.inForce = 0)
      ∧ (t = 4 → (endBurn (.lc t) s).pen.otp.killUds = true) := by
  by_cases h : t = 3
  · subst h
    exact ⟨rfl, rfl, fun _ => ⟨rfl, rfl⟩, by simp⟩
  · have e : endBurn (.lc t) s
        = { s with pen.busy := none, pen.otp.killUds := true, pen.otp.lc := max s.pen.otp.lc t, pen.otp.half := none } := by
      unfold endBurn
      split <;> simp_all
    rw [e]
    exact ⟨rfl, rfl, fun h' => absurd h' h, fun _ => rfl⟩

/-- The life cycle's burn has ended, its record is written, and factory debug stays only into Returned. -/
def lcMoved (t : Nat) (s : State) : State :=
  { emit 0x22 4095 3 0 [s.pen.otp.lc, t] (endBurn (.lc t) s) with
    pen.factoryDebug := (endBurn (.lc t) s).pen.factoryDebug && t == 3 }

theorem lcChanged_moves {t : Nat} {s : State} (hp : s.powered = true) (hb : s.pen.busy = some (.lc t)) (hr : lcReplied s = true) :
    exec .lcChanged s = .next (endSession (slOff 3 (eraseHub (lcMoved t s)))) := by
  simp [exec_lcChanged, execLcChanged, act, hb, hp, hr, lcMoved]

theorem lcChanged_waits {t : Nat} {s : State} (hb : s.pen.busy = some (.lc t)) (hr : lcReplied s = false) : exec .lcChanged s = .next s := by
  simp [exec_lcChanged, execLcChanged, act, hb, hr]

/-- Erasing ends the safelight and the session and leaves the OTP. -/
theorem erased_pen (w : State) : (endSession (slOff 3 (eraseHub w))).pen.busy = w.pen.busy ∧ (endSession (slOff 3 (eraseHub w))).pen.otp = w.pen.otp
    ∧ (endSession (slOff 3 (eraseHub w))).pen.inForce = w.pen.inForce ∧ (endSession (slOff 3 (eraseHub w))).pen.session = false
    ∧ (endSession (slOff 3 (eraseHub w))).pen.safelight = 0 := by
  simp only [endSession_pen, slOff_pen, eraseHub_pen]
  split <;> simp_all

/-- What erasing leaves alone. -/
theorem erased_only (w : State) : Only [.host, .obs, .pen] (eraseHub w) (endSession (slOff 3 (eraseHub w))) :=
  (slOff_only 3 _).trans ((endSession_only _).mono (by simp))

theorem eraseHub_ports {w : State} {p : Nat} {q : Port} (h : portOf p (eraseHub w) = some q) : q.st = .down ∧ q.assocs = [] := by
  simp only [portOf, eraseHub, List.getElem?_map, Option.map_eq_some_iff] at h
  obtain ⟨_, -, rfl⟩ := h
  exact ⟨rfl, rfl⟩

/-- Settles O54: a command that its checks let pass starts its burn, the burn's end sets its bits, and LC_CHANGED moves the life cycle. -/
theorem oneTimeMemory : Obligations.OneTimeMemory := by
  intro s r f
  refine ⟨fun len it g hl hc hb => ⟨fun h hlc hu hg => otpGenWrite_burns hl hc h hlc hu hg, fun h hlc hg hu => lcSeal_burns hl hc h hlc hg hu,
    fun h => ?_, fun h hlc => ?_⟩, fun it g k ha => ⟨fun h hlc hu => otpGenWrite_nothing ha h hlc hu, fun h hlc => lcSeal_nothing ha h hlc,
    fun c h hlc => facCertWrite_nothing ha h hlc⟩, ?_, fun len c it k h hi hlc hl hm hb => facCertWrite_burns h hi hlc hl hm hb,
    fun h hlc hc hb => facProvision_burns h hlc hc hb, fun h hlc hc => ?_, fun mask h hm hl hb => facFwRevoke_burns h hm hl hb,
    fun mask h hm hl => ?_, fun h hl => facOtpDump_answers h hl, fun h hl => ?_, ?_, fun g => ⟨rfl, rfl, rfl⟩, fun m => rfl,
    ?_, fun t hb hr => lcChanged_waits hb hr⟩
  · exact cmd_refused (c := chkDeny true) (exec_otpGenWrite s r len it g false) h (genChks_denied hl hc (.inr (by simp))) (by decide)
  · exact cmd_refused (c := chkDeny true) (exec_lcSeal s r len it g true) h (genChks_denied hl hc (.inl (by simpa using hlc))) (by decide)
  · intro type h h1 h4 hb
    exact ⟨_, fwSvnCommit_burns h h1 h4 hb, le_max_left _ _, fun x hx h1 h2 => svnCommitted_image hx h1 h2, svnCommitted_none⟩
  · exact cmd_refused (c := chkExec true stCONFLICT) (exec_facProvision s r) h (by simp [firstBad, hlc, hc]) (by decide)
  · exact cmd_refused (c := chkDeny true) (exec_facFwRevoke s r mask) h (by simp [firstBad, hl, Nat.not_le.2 hm]) (by decide)
  · exact cmd_refused (c := chkDeny true) (exec_facOtpDump s r) h (by simp [firstBad, hl]) (by decide)
  · intro b ha hr hf hw hb hn
    rw [parkedCommandComplete_goesOn ha hr hf hw]
    cases b <;> simp_all [goOn]
  · intro t hp hb hr
    obtain ⟨hbusy, hlc, h3, h4⟩ := endBurn_lc_pen t s
    have hpen : (lcMoved t s).pen = { (endBurn (.lc t) s).pen with factoryDebug := (endBurn (.lc t) s).pen.factoryDebug && t == 3 } := by
      simp [lcMoved]
    obtain ⟨pbusy, potp, pforce, psession, psafe⟩ := erased_pen (lcMoved t s)
    have honly := erased_only (lcMoved t s)
    have hports := honly .ports (by simp)
    refine ⟨_, lcChanged_moves hp hb hr, by rw [pbusy, hpen]; exact hbusy, by rw [potp, hpen]; exact hlc.symm,
      by rw [potp, pforce, hpen]; exact h3, by rw [potp, hpen]; exact h4, psession, psafe, honly .xlt (by simp), honly .dir (by simp),
      honly .outst (by simp), congrArg Kiln.firings (honly .kiln (by simp)), congrArg Kiln.library (honly .kiln (by simp)), fun p q hq => ?_,
      (honly .mem (by simp)).trans ?_⟩
    · exact eraseHub_ports (w := lcMoved t s) (by rwa [portOf, hports] at hq)
    · exact (emit_mem ..).trans (endBurn_mem _ s)

end Sys2Proof.Machine
end

section
/-! PROOFS. Peneno's start, firmware, the proof, SPDM and the session (O55; 12 R403 to R407, R419 to R428). The codes of SPDM are PRESUMED of the DMTF
standard (log 4), that a request is answered in any order is the model's choice (log 61), and free values stand in for the message bytes (log 77). -/

namespace Sys2Proof.Machine

section
variable (s : State) (r n test slot hashType index : Nat) (v : Word) (k m a b : Bool) (img : FwImage) (body : FinishBody)

theorem exec_penenoStart : exec (.penenoStart a b) s = execPenenoStart a b s := rfl
theorem exec_rngFail : exec (.rngFail test) s = execRngFail test s := rfl
theorem exec_penFwGo : exec (.penFwGo v) s = execPenFwGo v s := rfl
theorem exec_firmwareVerified : exec (.firmwareVerified a img b) s = execFirmwareVerified a img b s := rfl
theorem exec_proofGet : exec (.proofGet r n) s = execProofGet r n s := rfl
theorem exec_getVersion : exec .getVersion s = execGetVersion s := rfl
theorem exec_getCapabilities : exec .getCapabilities s = execGetCapabilities s := rfl
theorem exec_negotiateAlgorithms : exec .negotiateAlgorithms s = execNegotiateAlgorithms s := rfl
theorem exec_spdmUnsupported : exec .spdmUnsupported s = execSpdmUnsupported s := rfl
theorem exec_getCertificate : exec (.getCertificate slot) s = execGetCertificate slot s := rfl
theorem exec_challenge : exec (.challenge slot hashType) s = execChallenge slot hashType s := rfl
theorem exec_getMeasurements : exec (.getMeasurements index m) s = execGetMeasurements index m s := rfl
theorem exec_keyExchange : exec .keyExchange s = execKeyExchange s := rfl
theorem exec_finish : exec (.finish k body) s = execFinish k body s := rfl

end

/-! ### Start (R403, R404, R411) -/

section
variable {s : State}

theorem penenoStart_wrongRom (hp : s.powered = true) (hs : s.pen.started = false) : exec (.penenoStart false true) s
    = .next { s with pen.romError := true, glb.hubReset := true, tal.running := false } := by
  simp [exec_penenoStart, execPenenoStart, act, hp, hs]

/-- The UDS that a start finds or, in Blank for the first time, draws (R411). -/
def startUds (s : State) : Nat × State := if s.pen.otp.lc = 0 ∧ s.pen.otp.udsBurned = false then draw s else (s.pen.otp.uds, s)

theorem startUds_host (s : State) : (startUds s).2.host = s.host := by
  unfold startUds
  split <;> rfl

/-- The OTP after a start, with that UDS. -/
def startOtp (s : State) : Otp := { s.pen.otp with udsBurned := s.pen.otp.udsBurned || (s.pen.otp.lc == 0), uds := (startUds s).1 % 2 ^ 512 }

/-- Peneno after a start. -/
def startedPen (s : State) : State :=
  { (startUds s).2 with
    pen := { s.pen with otp := startOtp s, started := true, inForce := newestGen s.pen.otp, idKey := some (identityKey (startOtp s).uds) } }

theorem penenoStart_starts (hp : s.powered = true) (hs : s.pen.started = false) (hh : s.pen.otp.half = none) (hl : s.pen.otp.lc ≠ 4) :
    exec (.penenoStart true true) s = .next (raiseIrq 4 (startHostWait { startedPen s with glb.step := max 2 s.glb.step })) := by
  have hset : settleOtp s.pen.otp = s.pen.otp := by simp [settleOtp, hh]
  by_cases hu : s.pen.otp.lc = 0 ∧ s.pen.otp.udsBurned = false
  · simp [exec_penenoStart, execPenenoStart, act, hp, hs, hset, startUds, startOtp, startedPen, draw, hu, newestGen, -Nat.reducePow]
  · simp [exec_penenoStart, execPenenoStart, act, hp, hs, hset, hl, startUds, startOtp, startedPen, hu, newestGen, -Nat.reducePow]

end

/-! ### Firmware (R405 to R407) -/

section
variable {s : State} {img : FwImage} {dma sig : Bool}

/-- An image that every check lets pass has RESULT 1. -/
theorem fwResultOf_good (hb : s.host.bme = true) (hd : s.host.d3hot = false) (hl : s.pen.fwLen = 64 + img.length + 114) (h64 : 64 ≤ img.length)
    (hmax : img.length ≤ 16777216) (hm : img.length % 64 = 0) (hf : img.fmt = 1) (hr : img.resv = false) (ht : img.type = s.pen.fwNext)
    (hk : fwKeyOk img.factory img.slot s = true) (hs : svnMin img.type s ≤ img.svn) : fwResultOf true img true s = 1 := by
  have hlen : ¬(s.pen.fwLen ≠ 64 + img.length + 114 ∨ img.length < 64 ∨ 16777216 < img.length ∨ img.length % 64 ≠ 0) := by omega
  simp [fwResultOf, hb, hd, hlen, hf, hr, ht]
  simp [← ht, hk, Nat.not_lt.2 hs]

/-- RESULT 1 says that the checks passed. -/
theorem of_fwResultOf (h : fwResultOf dma img sig s = 1) :
    img.type = s.pen.fwNext ∧ svnMin img.type s ≤ img.svn ∧ sig = true ∧ dma = true ∧ img.fmt = 1 := by
  unfold fwResultOf at h
  split_ifs at h <;> simp_all

/-- A checked image is loaded; the next type is expected. -/
def fwLoadedState (img : FwImage) (s : State) : State :=
  { s with pen.verifying := false, pen.fwResult := 1, pen.fwNext := if img.type = 4 then 0 else img.type + 1
           pen.fwLoaded := Nat.lor s.pen.fwLoaded (2 ^ (img.type - 1))
           pen.images := s.pen.images ++ [⟨img.type, img.slot, img.factory, img.svn, img.version, img.digest⟩] }

theorem firmwareVerified_loads (hp : s.powered = true) (hv : s.pen.verifying = true) (h : fwResultOf dma img sig s = 1) :
    ∃ t, exec (.firmwareVerified dma img sig) s = .next t ∧ t.pen = (fwLoadedState img s).pen := by
  have hrun : ¬(s.powered = false ∨ s.pen.verifying = false) := by simp [hp, hv]
  simp only [exec_firmwareVerified, execFirmwareVerified, act, if_neg hrun, h, if_true]
  refine ⟨_, rfl, ?_⟩
  by_cases h4 : img.type = 4
  · rw [if_pos h4]
    split <;> simp [fwLoadedState, h4]
  · split <;> simp_all [fwLoadedState]

theorem firmwareVerified_fails (hp : s.powered = true) (hv : s.pen.verifying = true) (h : fwResultOf dma img sig s ≠ 1) :
    ∃ t, exec (.firmwareVerified dma img sig) s = .next t ∧ t.pen = { s.pen with verifying := false, fwResult := fwResultOf dma img sig s } := by
  have hrun : ¬(s.powered = false ∨ s.pen.verifying = false) := by simp [hp, hv]
  simp only [exec_firmwareVerified, execFirmwareVerified, act, if_neg hrun, if_neg h]
  refine ⟨_, rfl, ?_⟩
  split <;> simp

end

/-! ### The proof (R419 to R421) -/

theorem proofGet_parks {s : State} {r : Nat} {f : Inflight} (h : Ready r 0x90 (proofLen s) s f) (n : Nat) :
    exec (.proofGet r n) s = .next (park r (.proof (n % 2 ^ 256) []) (latched r 0 s)) := by
  obtain ⟨o3, o4, -⟩ := outRoom_checks h.2.2.2.2.2
  rw [exec_proofGet, execProofGet, cmd_acts h (by simp [o3, o4])]

/-! ### SPDM and the session (R422 to R425) -/

section
variable {s : State}

theorem spdmAny_answers (h : spdmReady s = true) (f : State → State) : spdmAny f s = .next (f s) := by simp [spdmAny, act, h]

theorem spdmKeyed_answers (h : spdmReady s = true) (hl : s.pen.otp.lc ≠ 4) (f : State → State) : spdmKeyed f s = .next (f s) := by
  rw [spdmKeyed, spdmAny_answers h, if_neg hl]

theorem spdmKeyed_scrap (h : spdmReady s = true) (hl : s.pen.otp.lc = 4) (f : State → State) : spdmKeyed f s = .next (spdmError 7 s) := by
  rw [spdmKeyed, spdmAny_answers h, if_pos hl]

theorem getCertificate_answers (h : spdmReady s = true) (hl : s.pen.otp.lc ≠ 4) : exec (.getCertificate 0) s
    = .next (spdmSay 0x02 [(s.pen.otp.cert.map (·.1)).getD 0, edPublic s.pen.idKey, edPublic s.pen.aliasKey] s) := by
  rw [exec_getCertificate, execGetCertificate, spdmKeyed_answers h hl, if_pos rfl]

theorem challenge_answers (h : spdmReady s = true) (hl : s.pen.otp.lc ≠ 4) : exec (.challenge 0 0xFF) s
    = .next (spdmSay 0x03 (signed (digestWords (allMeasurements s)) s) s) := by
  rw [exec_challenge, execChallenge, spdmKeyed_answers h hl, if_pos (by simp), if_neg (by simp)]

/-- Stopping the rings for a new session leaves each ring its place, Stopped at 0. -/
theorem ringOf_stopRings {r : Nat} {g : Ring} (h : ringOf r s = some g) :
    ringOf r (stopRings true s) = some { resetRing' (some 6) g with seq := 0 } := by
  simp only [ringOf] at h
  simp [ringOf, stopRings, h]

/-- A new session has taken effect, every ring stopped with SEQ 0. -/
def sessionOpened (fin : List Nat) (s : State) : State :=
  stopRings true (spdmSay 0x65 ((List.range 16).map fun i => (Config.openWord 9 i).toNat)
    { s with pen.handshake := false, pen.exch := none, pen.session := true
             pen.keys := s.pen.exch.map fun e => sessionKeys e.1 e.2.1 e.2.2 fin })

/-- A FINISH that passes its checks opens the session; the start goes on to the host's next step. -/
theorem finish_opens (h : spdmReady s = true) (hl : s.pen.otp.lc ≠ 4) (hh : s.pen.handshake = true)
    (hg : s.pen.otp.lc = 2 → (genNow s).isSome = true) (fin : List Nat) :
    ∃ t, exec (.finish true ⟨true, fin⟩) s = .next t ∧ Only [.glb] (sessionOpened fin s) t := by
  have hno : ¬(true = false ∨ s.pen.otp.lc = 2 ∧ (true = false ∨ (genNow s).isNone = true)) := by
    rintro (h | ⟨h2, h | hn⟩)
    · simp at h
    · simp at h
    · simp [Option.isNone_iff_eq_none.1 hn] at hg
      exact hg h2
  rw [exec_finish, execFinish, spdmKeyed_answers h hl, if_neg (by simp [hh]), if_neg hno]
  refine ⟨if (sessionOpened fin s).glb.memStarted then { sessionOpened fin s with glb.step := max 4 s.glb.step }
    else startHostWait (endHostWait s.now { sessionOpened fin s with glb.step := max 4 s.glb.step }), rfl, ?_⟩
  intro c hc
  split <;> cases c <;> simp_all [Comp.same, startHostWait, endHostWait]

theorem finish_fails {k v : Bool} (h : spdmReady s = true) (hl : s.pen.otp.lc ≠ 4) (hh : s.pen.handshake = true)
    (hf : v = false ∨ s.pen.otp.lc = 2 ∧ k = false) (fin : List Nat) :
    exec (.finish k ⟨v, fin⟩) s = .next (spdmError 6 { s with pen.handshake := false, pen.exch := none }) := by
  rw [exec_finish, execFinish, spdmKeyed_answers h hl]
  rcases hf with rfl | ⟨h2, rfl⟩ <;> simp_all

theorem keyExchange_answers (h : spdmReady s = true) (hl : s.pen.otp.lc ≠ 4) (hr : s.pen.rngFail = false) {x pub msgs z th1 verify : Nat}
    (hx : x = (draw s).1 % 2 ^ 448) (hpub : pub = (draw (draw s).2).1 % 2 ^ 448) (hmsgs : msgs = (draw (draw (draw s).2).2).1)
    (hz : z = Config.x448 x pub % 2 ^ 448) (hth : th1 = hash64 (bytesLE 64 msgs ++ leBytes (exchangeRsp x s)))
    (hv : verify = hash64 (bytesLE 32 (handshakeSecret z th1 % 2 ^ 256) ++ bytesLE 64 th1)) :
    exec .keyExchange s = .next (spdmSay 0x64 (exchangeRsp x s ++ natWords 16 verify)
      { (draw (draw (draw s).2).2).2 with pen.handshake := true, pen.exch := some (z, th1, verify) }) := by
  rw [exec_keyExchange, execKeyExchange, spdmKeyed_answers h hl, if_neg (by simp [hr])]
  subst hx hpub hmsgs hz hth hv
  rfl

end

/-- Settles O55: what each row of the start, the firmware, the proof, SPDM and the session does, in the cases named. -/
theorem penenoAndSession : Obligations.PenenoAndSession := by
  intro s
  refine ⟨fun hp hs => ⟨_, penenoStart_wrongRom hp hs, rfl, rfl, rfl⟩, ?_, ?_, failRng_pen 1 s, ?_, ?_, fun dma sig img hp hv h =>
    firmwareVerified_fails hp hv h, fun dma sig img h => of_fwResultOf h, fun r n f h => proofGet_parks h n, ?_,
    fun h => ⟨?_, ?_, ?_, ?_, ?_, ?_⟩, ?_, fun k v fin h hl hh hf => finish_fails h hl hh hf fin⟩
  · intro hp hs hh hl
    refine ⟨_, penenoStart_starts hp hs hh hl, ?_⟩
    simp only [raiseIrq_pen, startHostWait_pen, raiseIrq_glb, raiseIrq_irqCause]
    exact ⟨rfl, rfl, rfl, rfl, congrArg (·.irqCause ||| 16) (startUds_host s), rfl, rfl, rfl⟩
  · intro hp hs hr
    simp [exec_rngFail, execRngFail, act, hp, hs, hr]
  · intro v hp hs hl hv hw hn
    simp [exec_penFwGo, execPenFwGo, act, hp, hs, hl, hv, hw, hn]
  · intro img hp hv hb hd hl h64 hmax hm hf hr ht hk hs
    obtain ⟨t, ht', hpen⟩ := firmwareVerified_loads hp hv (fwResultOf_good hb hd hl h64 hmax hm hf hr ht hk hs)
    exact ⟨t, ht', by rw [hpen]; exact ⟨rfl, rfl, rfl, rfl, rfl, rfl⟩⟩
  · intro r n ch f ha hr hf hw hn
    rw [parkedCommandComplete_goesOn ha hr hf hw]
    simp only [goOn, proofEnd, hf]
    rw [if_neg (Nat.not_lt.2 hn)]
  · rw [exec_getVersion, execGetVersion, spdmAny_answers h]
  · rw [exec_getCapabilities, execGetCapabilities, spdmAny_answers h]
  · rw [exec_negotiateAlgorithms, execNegotiateAlgorithms, spdmAny_answers h]
  · rw [exec_spdmUnsupported, execSpdmUnsupported, spdmAny_answers h]
  · intro hl
    refine ⟨⟨_, getCertificate_answers h hl⟩, ⟨_, challenge_answers h hl⟩, ?_, fun i h1 h11 => ?_, ?_, ?_,
      fun x pub msgs z th1 verify hr hx hp hm hz ht hv => keyExchange_answers h hl hr hx hp hm hz ht hv, fun hr => ?_⟩
    · rw [exec_challenge, execChallenge, spdmKeyed_answers h hl, if_neg (by simp)]
    · rw [exec_getMeasurements, execGetMeasurements, spdmKeyed_answers h hl, if_neg (by omega), if_pos ⟨h1, h11⟩]
      rfl
    · rw [exec_getMeasurements, execGetMeasurements, spdmKeyed_answers h hl, if_pos rfl]
      rfl
    · rw [exec_getMeasurements, execGetMeasurements, spdmKeyed_answers h hl, if_neg (by simp), if_neg (by simp)]
    · rw [exec_keyExchange, execKeyExchange, spdmKeyed_answers h hl, if_pos hr]
  · intro hl
    rw [exec_getCertificate, execGetCertificate, spdmKeyed_scrap h hl, exec_keyExchange, execKeyExchange, spdmKeyed_scrap h hl]
    exact ⟨rfl, rfl⟩
  · intro h hl hh hg fin
    obtain ⟨t, ht, honly⟩ := finish_opens h hl hh hg fin
    have hrings : t.host = (sessionOpened fin s).host := honly .host (by simp)
    refine ⟨t, _, ht, honly .pen (by simp), (honly .outs (by simp)).1, fun r g hg =>
      ⟨{ resetRing' (some 6) g with seq := 0 }, ?_, rfl, rfl, rfl, rfl, rfl, rfl⟩⟩
    rw [ringOf, hrings]
    exact ringOf_stopRings hg

end Sys2Proof.Machine
end

section
/-! PROOFS. MEM_START, MODULE_RESET and POWER_OFF_PREPARE (O45; 14 R452, R455, R457, R459). -/

namespace Sys2Proof.Machine

section
variable (s : State) (r rate len : Nat) (it : Item) (es : SpprItem) (force : Bool)

theorem exec_memStart : exec (.memStart r rate it len es) s = execMemStart r rate it len es s := rfl
theorem exec_moduleReset : exec (.moduleReset r force) s = execModuleReset r force s := rfl
theorem exec_powerOffPrepare : exec (.powerOffPrepare r force) s = execPowerOffPrepare r force s := rfl

end

/-! ### MEM_START (R452) -/

/-- What MEM_START stores before the training begins. -/
def memStored (r rate bell : Nat) (es : List (RowLoc × Bool)) (s : State) : State :=
  { endHostWait bell (latched r 0 s) with
    glb.memStarted := true, glb.rate := rate, glb.step := max 5 (endHostWait bell (latched r 0 s)).glb.step, mem.savedSppr := es }

section
variable {s : State} {r rate len : Nat} {f : Inflight} {it : Item}

theorem memStored_only (r rate bell : Nat) (es : List (RowLoc × Bool)) (s : State) : Only [.host, .glb, .mem] s (memStored r rate bell es s) := by
  intro c hc
  cases c <;> simp_all [Comp.same, memStored, endHostWait, latched]

/-- A MEM_START whose checks pass stores its values, then begins or waits for the array test. -/
theorem memStart_stores {es : SpprItem} (h : Ready r 0x0A 0 s f) (hr : rate < 4) (hm : s.glb.memStarted = false) (ha : it.off % 64 = 0)
    (hl8 : len % 8 = 0) (hread : len ≠ 0 → GoodItem it len s) (hresv : len = 0 ∨ es.resv = false) (hl : len / 8 ≤ 512)
    (hch : ∀ e ∈ es.rows.take (len / 8), e.1.channel < 6) : exec (.memStart r rate it len es) s
      = .next (if s.glb.arraysTested then memBegin r (memStored r rate f.bellAt (es.rows.take (len / 8)) s)
          else park r .memStart (memStored r rate f.bellAt (es.rows.take (len / 8)) s)) := by
  have hbell : ((inflightOf r (latched r 0 s)).map (·.bellAt)).getD s.now = f.bellAt := by simp [inflightOf_latched h.2.2.1]
  rw [exec_memStart, execMemStart, cmd_acts h]
  · simp only [latched_now, hbell]
    rfl
  · have heach : (chkEach (fun e : RowLoc × Bool => decide (6 ≤ e.1.channel)) (es.rows.take (len / 8))).bad = false :=
      (chkEach_good _ _).2 fun e he => by simpa using hch e he
    have hmany : (decide (4096 < len / 8) || (List.range 8).any fun k =>
        decide (512 < ((es.rows.take (len / 8)).filter fun e => e.1.die == k).length)) = false := by
      simp only [Bool.or_eq_false_iff, decide_eq_false_iff_not, List.any_eq_false, Nat.not_lt, decide_eq_true_eq]
      refine ⟨by omega, fun k _ => (List.length_filter_le _ _).trans ?_⟩
      simp
      omega
    simp only [List.mem_append, List.mem_cons, List.not_mem_nil, or_false]
    rintro c (((rfl | rfl | rfl) | hc) | rfl | rfl | rfl | rfl)
    · simpa using hr
    · simp [itemAlign, ha]
    · simp [hl8]
    · split at hc
      · simp at hc
      · exact itemRead_good (hread ‹_›) c hc
    · rcases hresv with h0 | h0 <;> simp [h0]
    · exact heach
    · exact hmany
    · simp [hm]

theorem memStart_again {resv : Bool} (h : Ready r 0x0A 0 s f) (hm : s.glb.memStarted = true) (hr : rate < 4) (ha : it.off % 64 = 0) :
    Refuses (.memStart r rate it 0 ⟨resv, []⟩) r 0x0A stCONFLICT 7 s :=
  cmd_refused (c := chkExec true stCONFLICT) (exec_memStart s r rate 0 it ⟨resv, []⟩) h
    (by simp [firstBad, itemAlign, ha, hm, Nat.not_le.2 hr, chkEach]) (by decide)

/-- The DIMMs of a die that holds six alike. -/
theorem dimmsOf_alike {die : Nat} {x : Dimm} (h : ∀ c, c < 6 → (dimmsOf die s)[c]? = some (some x)) :
    dimmsOf die s = List.replicate 6 (some x) := by
  have hl : (dimmsOf die s).length = 6 := by simp [dimmsOf]
  refine List.ext_getElem? fun c => ?_
  by_cases hc : c < 6
  · rw [h c hc, List.getElem?_replicate, if_pos hc]
  · rw [List.getElem?_eq_none (by omega), List.getElem?_eq_none (by simpa using hc)]

/-- Six DIMMs that match train (R87). -/
theorem startDie_trains {die : Nat} {d : DieMem} {x : Dimm} (hk : s.glb.kilnIn.getLsbD die = true) (hd : dieMem die s = some d)
    (hx : ∀ c, c < 6 → (dimmsOf die s)[c]? = some (some x)) : dieMem die (startDie rate die s)
      = some { d with st := .training, rate := rate, size := x.size, ranks := x.ranks, rows := x.rows } := by
  have hds := dimmsOf_alike hx
  have hgo : ¬(s.glb.kilnIn.getLsbD die = false ∨ (List.replicate 6 (some x)).all (·.isNone) = true) := by simp [hk]
  have hm : matched (List.replicate 6 (some x)) = true := by simp [matched]
  have hd' : dieMem die (touchDie die s) = some d := hd
  simp only [startDie, hds, if_neg hgo, hm, if_true]
  exact (dieMem_modDie ..).trans ((if_pos rfl).trans (congrArg _ hd'))

end

/-! ### Resets and power-down (R455, R457) -/

section
variable {s : State} {r : Nat} {f : Inflight} {force : Bool}

theorem moduleReset_answers (h : Ready r 0x0B 0 s f) (hf : force = true ∨ tenantsFree s = true) :
    exec (.moduleReset r force) s = .next (ok r [] (latched r 0 s)) := by
  rw [exec_moduleReset, execModuleReset, cmd_acts h (by rcases hf with hf | hf <;> simp [hf])]

/-- With no firing and no descriptor in a mover nothing has to stop. -/
theorem stopWork_idle (hf : s.kiln.firings = []) (hr : ∀ x ∈ s.kiln.runs, x.mig = true) : stopWork s = s := by
  have hruns : (s.kiln.runs.map fun x : MRun => if x.stop.isSome ∨ x.mig = true then x else { x with stop := some stINCOMPLETE })
      = s.kiln.runs := by
    conv_rhs => rw [← List.map_id s.kiln.runs]
    exact List.map_congr_left fun x hx => if_pos (.inr (hr x hx))
  have hfold (g : State → Firing → State) : s.kiln.firings.foldl g s = s := by rw [hf, List.foldl_nil]
  simp only [stopWork, hfold, hruns]

theorem workDone_idle (hf : s.kiln.firings = []) (hr : ∀ x ∈ s.kiln.runs, x.mig = true) : workDone s = true := by
  simp [workDone, hf, List.filter_eq_nil_iff]
  exact hr

theorem powerOffPrepare_ends (h : Ready r 0x0C 0 s f) (hf : force = true ∨ tenantsFree s = true) (hk : s.kiln.firings = [])
    (hr : ∀ x ∈ s.kiln.runs, x.mig = true) : exec (.powerOffPrepare r force) s = .next (powerOffEnd r (latched r 0 s)) := by
  rw [exec_powerOffPrepare, execPowerOffPrepare, cmd_acts h (by rcases hf with hf | hf <;> simp [hf])]
  simp only [stopWork_idle (s := latched r 0 s) hk hr, workDone_idle (s := latched r 0 s) hk hr, if_true]

theorem powerOffEnd_ports {p : Nat} {q : Port} (h : portOf p (powerOffEnd r s) = some q) : q.st = .down := by
  simp only [powerOffEnd, portOf, ok, finish_ports, ibi_ports, emit_ports, List.getElem?_map, Option.map_eq_some_iff] at h
  obtain ⟨x, -, rfl⟩ := h
  split
  · assumption
  · rfl

end

/-- Settles O45: each command does what its checks and the state of the module let it do. -/
theorem powerCommands : Obligations.PowerCommands := by
  intro s r f
  refine ⟨?_, fun rate h hm hr it resv ha => memStart_again h hm hr ha, ?_, ?_, fun force h hf => moduleReset_answers h hf,
    fun h ht => ?_, ?_, fun h ht => ?_⟩
  · intro rate h hr hm hnot it resv ha
    have hx := memStart_stores (es := ⟨resv, []⟩) h hr hm ha rfl (by simp) (.inl rfl) (by simp) (by simp)
    rw [if_neg (by simp [hnot])] at hx
    refine ⟨park r .memStart (memStored r rate f.bellAt [] s), hx, ?_, rfl, rfl, rfl, rfl, ?_⟩
    · exact ((memStored_only r rate f.bellAt [] s).mono (by simp)).trans ((park_only _ _).mono (by simp))
    · rw [inflightOf_park (t := memStored r rate f.bellAt [] s) (inflightOf_latched h.2.2.1)]
      rfl
  · intro rate len it es h hr hm ht hl8 hi hlen hmax hch
    have htake : es.take (len / 8) = es := List.take_of_length_le hlen.le
    have hx := memStart_stores (es := ⟨false, es⟩) h hr hm hi.1 hl8 (fun _ => hi) (.inr rfl) (by omega) (by rwa [htake])
    rw [if_pos ht] at hx
    exact hx.trans (by rw [htake]; rfl)
  · intro die rate hk d hd x hx
    exact ⟨_, startDie_trains hk hd hx, rfl, rfl, rfl, rfl, rfl⟩
  · exact cmd_refused (c := chkExec true stCONFLICT) (exec_moduleReset s r false) h (by simp [firstBad, ht]) (by decide)
  · intro force h hf hk hr
    refine ⟨_, powerOffPrepare_ends h hf hk hr, ?_, fun p q hq => powerOffEnd_ports hq, inflightOf_finish .., ?_, ?_, ?_, ?_⟩
      <;> simp [powerOffEnd, ok, latched]
  · exact cmd_refused (c := chkExec true stCONFLICT) (exec_powerOffPrepare s r false) h (by simp [firstBad, ht]) (by decide)

end Sys2Proof.Machine
end

section
/-! PROOFS. Contact sheets (O51; 15 R475 to R478). -/

namespace Sys2Proof.Machine

section
variable (s : State) (r u off len : Nat) (data : Bool)

theorem exec_contactTake : exec (.contactTake r data) s = execContactTake r data s := rfl
theorem exec_contactMarker : exec (.contactMarker u) s = execContactMarker u s := rfl
theorem exec_contactDone : exec .contactDone s = execContactDone s := rfl
theorem exec_contactRead : exec (.contactRead r off len) s = execContactRead r off len s := rfl
theorem exec_contactRelease : exec (.contactRelease r) s = execContactRelease r s := rfl

end

/-! ### Taking a sheet (R475) -/

theorem pauseTrace_only (s : State) : Only [.host, .obs] s (pauseTrace s) := by
  unfold pauseTrace
  split
  · intro c hc
    cases c <;> simp_all [Comp.same]
  · exact Only.rfl' _ s

@[simp] theorem pauseTrace_contact (s : State) : (pauseTrace s).obs.contact = s.obs.contact := by
  unfold pauseTrace
  split <;> simp

@[simp] theorem pauseTrace_rings (s : State) : (pauseTrace s).host.rings = s.host.rings := by
  unfold pauseTrace
  split <;> simp

section
variable {s : State} {r : Nat} {f : Inflight}

/-- Pausing the trace leaves what the sheet begins with. -/
theorem unitUp_pauseTrace (u : Nat) (s : State) : unitUp u (pauseTrace s) = unitUp u s := by
  have hg : (pauseTrace s).glb = s.glb := pauseTrace_only s .glb (by simp)
  have hp : (pauseTrace s).ports = s.ports := pauseTrace_only s .ports (by simp)
  simp [unitUp, portOf, hg, hp]

theorem unitUp_latched : (fun u => unitUp u (latched r 0 s)) = fun u => unitUp u s := rfl

theorem now_pauseTrace (s : State) : (pauseTrace s).now = s.now :=
  congrArg (·.now) (show (pauseTrace s).tal = s.tal from pauseTrace_only s .tal (by simp))

theorem takeSheet_only (data : Bool) (s : State) : Only [.host, .obs] s (takeSheet r data s) := by
  have h := pauseTrace_only s
  intro c hc
  have := h c hc
  cases c <;> simp_all [Comp.same, takeSheet, trimTrace]

theorem takeSheet_contact (data : Bool) (s : State) : (takeSheet r data s).obs.contact.st = 1
    ∧ (takeSheet r data s).obs.contact.number = s.obs.contact.number + 1 ∧ (takeSheet r data s).obs.contact.ring = r
    ∧ (takeSheet r data s).obs.contact.tStart = s.now
    ∧ (takeSheet r data s).obs.contact.units = (List.range 24).filter fun u => unitUp u s := by
  simp [takeSheet, trimTrace, unitUp_pauseTrace, now_pauseTrace]

theorem inflightOf_takeSheet {g : Inflight} (data : Bool) (h : inflightOf r s = some g) :
    inflightOf r (takeSheet r data s) = some { g with parked := some .contact } := by
  have : inflightOf r (pauseTrace s) = some g := by simpa [inflightOf, ringOf] using h
  exact inflightOf_park this

theorem contactTake_takes (h : Ready r 0x86 0 s f) (hb : 32 ≤ s.obs.trace.banks) (hc : s.obs.contact.st = 0)
    (hp : ∀ p ∈ s.twin.planes, p.st ≠ .resync) : exec (.contactTake r false) s = .next (takeSheet r false (latched r 0 s)) := by
  have hany : s.twin.planes.any (·.st == .resync) = false := by simpa using hp
  rw [exec_contactTake, execContactTake, cmd_acts h (by simp [Nat.not_lt.2 hb, hc, hany])]

theorem contactTake_denied (h : Ready r 0x86 0 s f) (hb : s.obs.trace.banks < 32) (data : Bool) :
    Refuses (.contactTake r data) r 0x86 stDENIED 3 s :=
  cmd_refused (c := chkDeny true) (exec_contactTake s r data) h (by simp [firstBad, hb]) (by decide)

theorem contactTake_busy (h : Ready r 0x86 0 s f) (hb : 32 ≤ s.obs.trace.banks) (hc : s.obs.contact.st = 2) :
    Refuses (.contactTake r false) r 0x86 stBUSY 7 s :=
  cmd_refused (c := chkExec true stBUSY) (exec_contactTake s r false) h (by simp [firstBad, Nat.not_lt.2 hb, hc]) (by decide)

/-! ### Markers and the end of the cut (R475, R478) -/

theorem contactMarker_adds {u : Nat} (ho : s.on = true) (hc : s.obs.contact.st = 1) (hu : u ∈ s.obs.contact.waitUnits) (hup : unitUp u s = true) :
    exec (.contactMarker u) s = .next { s with obs.contact := { s.obs.contact with
      waitUnits := s.obs.contact.waitUnits.filter (· != u)
      sections := s.obs.contact.sections ++ (if u < 8 then kilnSects u s else portSects (u - 8) s) } } := by
  simp [exec_contactMarker, execContactMarker, act, ho, hc, hu, hup]

theorem freePools_only (s : State) : Only [.ports] s (freePools s) :=
  Only.foldl (fun t p => (modPort_only p (fun q => { q with rxOcc := List.replicate 16 0 }) t).trans (regrant_only p _)) (List.range 16) s

/-- The end of a pause for which no message waits: the timers have moved. -/
theorem endPause_only {s : State} (h : s.twin.rxWait = []) (len why : Nat) :
    Only [.ports] (addPause len why { s with twin.rxWait := [] }) (endPause len why s) := by
  rw [endPause_of_nil h]
  exact freePools_only _

theorem smGet_map {α β : Type} (g : α → β) (k : Nat) (m : SMap α) : smGet k (m.map fun a => (a.1, g a.2)) = (smGet k m).map g := by
  induction m with
  | nil => rfl
  | cons a m ih =>
    simp only [List.map_cons, smGet, ih]
    split
    · rfl
    · split <;> rfl

/-- A pause lengthens a lease that runs by its own length. -/
theorem smGet_addPause {aid : Nat} {a : Agent} (h : smGet aid s.dir.agents = some a) (hk : a.kind = 1) (hl : a.lapsed = false) (len why : Nat) :
    smGet aid (addPause len why s).dir.agents = some { a with expiry := a.expiry + len } := by
  have hmap := smGet_map (fun b : Agent => if b.kind = 1 ∧ b.lapsed = false then { b with expiry := b.expiry + len } else b) aid s.dir.agents
  refine hmap.trans ?_
  simp [h, hk, hl]

/-- The sheet when its last marker has come. -/
def sheetHeld (s : State) : Contact :=
  let c := s.obs.contact
  let done := c.units.filter fun u => !c.waitUnits.contains u
  { c with st := 2, tEnd := s.now, pause := min (s.now - c.tStart) 200000, count := (c.count + 1) % 4096, units := done
           frozen := c.frozen.filter fun u => done.contains u, waitUnits := [] }

theorem contactDone_ends (ho : s.on = true) (hc : s.obs.contact.st = 1) (hw : ∀ u ∈ s.obs.contact.waitUnits, unitUp u s = false) :
    exec .contactDone s = .next (emit 0x27 4095 0 0 ([s.obs.contact.number, 1, sheetLen (sheetHeld s), min (s.now - s.obs.contact.tStart) 200000,
        unitBits (sheetHeld s).units, 0] ++ w64 s.obs.contact.tStart)
      (endPause (min (s.now - s.obs.contact.tStart) 200000) 6 { s with obs.contact := sheetHeld s })) := by
  have hany : s.obs.contact.waitUnits.any (fun u => unitUp u s) = false := by simpa using hw
  simp only [exec_contactDone, execContactDone, act, ho, hc, hany, and_self, if_true]
  rfl

end

/-- The sheet is gone. -/
def sheetFreed (s : State) : State :=
  { s with obs.contact := { s.obs.contact with st := 0, data := false, units := [], frozen := [], sections := [], resumeTrace := false } }

theorem contactRelease_frees {s : State} {r : Nat} {f : Inflight} (h : Ready r 0x88 0 s f) (hc : s.obs.contact.st = 2)
    (hr : s.obs.contact.resumeTrace = false) : exec (.contactRelease r) s = .next (ok r [] (sheetFreed (latched r 0 s))) := by
  rw [exec_contactRelease, execContactRelease, cmd_acts h (by simp [hc])]
  have hno : ¬((latched r 0 s).obs.contact.resumeTrace = true ∧ (latched r 0 s).obs.trace.st = 3) := fun hx =>
    absurd (hr.symm.trans hx.1) (by decide)
  exact congrArg (fun t => Host.Outcome.next (ok r [] t)) (if_neg hno)

/-- Settles O51: a sheet is taken, its markers add their sections, the pause ends with the last, and it is read and released. -/
theorem contactSheets : Obligations.ContactSheets := by
  intro s r f
  refine ⟨?_, fun data h hb => contactTake_denied h hb data, contactTake_busy, ?_, ?_, ?_, ?_, ?_, ?_, ?_, ?_⟩
  · intro h hb hc hp
    obtain ⟨hst, hnum, hring, hstart, hunits⟩ := takeSheet_contact (r := r) false (latched r 0 s)
    have honly := takeSheet_only (r := r) false (latched r 0 s)
    refine ⟨_, contactTake_takes h hb hc hp, hst, hnum, hring, hstart, fun u => ?_, rfl, ?_, ?_, honly .mem (by simp), honly .dir (by simp),
      honly .kiln (by simp), honly .xlt (by simp), honly .sags (by simp)⟩
    · rw [hunits, unitUp_latched]
      simp
    · rw [inflightOf_takeSheet false (inflightOf_latched h.2.2.1)]
      rfl
    · simp [State.holds, hst]
  · intro u ho hc hu hup
    refine ⟨_, contactMarker_adds ho hc hu hup, ?_, rfl, by simp, fun v hv hne => by simp [hv, hne], rfl, hc⟩
    intro c hc
    cases c <;> simp_all [Comp.same]
  · intro ho hc hw hrx
    have honly := endPause_only (s := { s with obs.contact := sheetHeld s }) hrx (min (s.now - s.obs.contact.tStart) 200000) 6
    have hcon := congrArg Obs.contact (honly .obs (by simp))
    have hdir := congrArg Dir.agents (honly .dir (by simp))
    have htwin := congrArg Twin.pauseLen (honly .twin (by simp))
    refine ⟨_, contactDone_ends ho hc hw, ?_⟩
    simp only [emit_obs_contact, emit_twin, emit_mem, emit_dir, hcon, hdir, htwin]
    exact ⟨rfl, rfl, rfl, rfl, rfl, honly .mem (by simp), fun aid a ha hk hl => ⟨_, smGet_addPause ha hk hl _ 6, rfl⟩⟩
  · rintro ⟨u, hu, hup⟩
    have hany : s.obs.contact.waitUnits.any (fun u => unitUp u s) = true := List.any_eq_true.2 ⟨u, hu, hup⟩
    simp [exec_contactDone, execContactDone, act, hany]
  · intro off len h hc hl hle
    obtain ⟨o3, o4, -⟩ := outRoom_checks h.2.2.2.2.2
    rw [exec_contactRead, execContactRead, cmd_acts h (by simp [o3, o4, hc, Nat.not_lt.2 hle])]
    exact congrArg (fun items => Host.Outcome.next (okItem r items (latched r 0 s))) (if_neg (by omega))
  · intro off len h hc hlt
    obtain ⟨o3, -, -⟩ := outRoom_checks h.2.2.2.2.2
    exact cmd_refused (c := chkLen true) (exec_contactRead s r off len) h (by simp [firstBad, o3, hc, hlt]) (by decide)
  · intro off len h hc
    obtain ⟨o3, o4, -⟩ := outRoom_checks h.2.2.2.2.2
    exact cmd_refused (c := chkExec true stCONFLICT) (exec_contactRead s r off len) h (by simp [firstBad, o3, o4, hc]) (by decide)
  · intro h hc hr
    refine ⟨_, contactRelease_frees h hc hr, ok_only (sid := 0) (by simp) (by simp) ?_, ?_, ?_, inflightOf_finish ..⟩
    · intro c hc
      cases c <;> simp_all [Comp.same, sheetFreed]
    · simp [ok, sheetFreed]
    · simp [ok, sheetFreed]
  · exact fun h hc => cmd_refused (c := chkExec true stCONFLICT) (exec_contactRelease s r) h (by simp [firstBad, chkExec, chk, hc]) (by decide)

end Sys2Proof.Machine
end

section
/-! PROOFS. Power, the start sequence, resets and Fatal (O56; 14 R444 to R460, 11 R399, 16 R496). That a rail fault or an overtemperature blocks
the rails until the input has fallen (log 66), that POOL_READY needs MEM_START and which claim plane B takes (log 67), and how many spares a bank has
left (log 76) are the model's choices. -/

namespace Sys2Proof.Machine

section
variable (s : State) (b : Board) (rail mv u delay c : Nat) (k : Bool) (l : ArrayFails) (ports banks : List Nat) (pa pb : Bool)

theorem exec_inputGood : exec (.inputGood b) s = execInputGood b s := rfl
theorem exec_railGroupGood : exec .railGroupGood s = execRailGroupGood s := rfl
theorem exec_railFault : exec (.railFault rail) s = execRailFault rail s := rfl
theorem exec_hubResetRelease : exec .hubResetRelease s = execHubResetRelease s := rfl
theorem exec_tallyStart : exec .tallyStart s = execTallyStart s := rfl
theorem exec_inputLow : exec (.inputLow mv) s = execInputLow mv s := rfl
theorem exec_pwrFail : exec (.pwrFail k) s = execPwrFail k s := rfl
theorem exec_hubOvertemp : exec .hubOvertemp s = execHubOvertemp s := rfl
theorem exec_pwrFailRailsOff : exec .pwrFailRailsOff s = execPwrFailRailsOff s := rfl
theorem exec_mrstN : exec .mrstN s = execMrstN s := rfl
theorem exec_mrstNRelease : exec .mrstNRelease s = execMrstNRelease s := rfl
theorem exec_moduleResetBegin : exec .moduleResetBegin s = execModuleResetBegin s := rfl
theorem exec_dieJoin : exec (.dieJoin u k delay) s = execDieJoin u k delay s := rfl
theorem exec_arrayTest : exec (.arrayTest l ports banks pa pb) s = execArrayTest l ports banks pa pb s := rfl
theorem exec_firmwareStart : exec .firmwareStart s = execFirmwareStart s := rfl
theorem exec_poolReady : exec .poolReady s = execPoolReady s := rfl
theorem exec_fatal : exec (.fatal c) s = execFatal c s := rfl

end

/-! ### A burn that stops (R456) -/

theorem joinCert_only (o : Option (Nat × Bool)) (c : Nat) (k : Bool) (s : State) : Only [.free] s (joinCert o c k s).2 := by
  unfold joinCert
  split
  · exact Only.rfl' _ s
  · dsimp only
    split
    · exact Only.rfl' _ s
    · split
      · exact Only.rfl' _ s
      · exact draw_only s

theorem setPen_only (x : Pen) (s : State) : Only [.pen] s { s with pen := x } := by
  intro c hc
  cases c <;> simp_all [Comp.same]

theorem endBurn_only (b : Burn) (s : State) : Only [.pen, .free] s (endBurn b s) := by
  have hp (x : Pen) (u : State) : Only [.pen, .free] u { u with pen := x } := (setPen_only x u).mono (by simp)
  unfold endBurn
  split
  case h_4 c k => exact ((hp _ s).trans ((joinCert_only _ _ _ _).mono (by simp))).trans (hp _ _)
  all_goals exact hp _ s

/-- A burn that is stopped leaves everything but Peneno and the free values. -/
theorem stopBurn_only (s : State) : Only [.pen, .free] s (stopBurn s) := by
  have hp (x : Pen) (u : State) : Only [.pen, .free] u { u with pen := x } := (setPen_only x u).mono (by simp)
  have hd (u : State) : Only [.pen, .free] u (draw u).2 := (draw_only u).mono (by simp)
  unfold stopBurn
  split
  · exact Only.rfl' _ s
  next b _ =>
    have h0 : Only [.pen, .free] s (draw { s with pen.busy := none }).2 := (hp _ s).trans (hd _)
    dsimp only
    split
    · exact h0.trans (endBurn_only b _)
    · split
      case h_4 c _ =>
        split
        · exact h0
        · exact (h0.trans ((joinCert_only _ _ _ _).mono (by simp))).trans (hp _ _)
      all_goals
        repeat' split
        all_goals first | exact h0 | exact h0.trans (hp _ _)

/-! ### Resets (R444, R453 to R458) -/

section
variable (s : State)

theorem freshState_glb : (freshState s).glb = { State.reset.glb with inputGood := s.glb.inputGood, board := s.glb.board } := by
  have h : (stopBurn s).glb = s.glb := stopBurn_only s .glb (by simp)
  simp only [freshState, h]

theorem freshState_mem : (freshState s).mem = { resetMem with hardRows := s.mem.hardRows } := by simp only [freshState, stopBurn_mem]

theorem dark_glb : (dark s).glb = { State.reset.glb with
    inputGood := s.glb.inputGood, board := s.glb.board, blocked := s.glb.blocked, disconnected := s.glb.disconnected
    railFault := s.glb.railFault } := by
  simp only [dark, freshState_glb]

theorem dark_mem : (dark s).mem = { resetMem with hardRows := s.mem.hardRows } := freshState_mem s

theorem moduleReset_glb (cause : Nat) : (moduleReset cause s).glb = { State.reset.glb with
    inputGood := s.glb.inputGood, board := s.glb.board, inputLow := s.glb.inputLow, disconnected := s.glb.disconnected, group := s.glb.group
    mrst := s.glb.mrst, resetCause := cause, prevFatal := if s.twin.mode = .fatal then s.twin.fatalCause else 0 } := by
  simp only [moduleReset, freshState_glb]

/-- Power fails: the rails' state, every port Down. -/
theorem failPower_glb : (failPower s).glb = { s.glb with
    pwrFail := true, pwrFailAt := s.now, inputLow := false, resetDue := none, selfRefresh := true } := by
  have h : (stopBurn s).glb = s.glb := stopBurn_only s .glb (by simp)
  have ht : (stopBurn s).tal = s.tal := stopBurn_only s .tal (by simp)
  simp only [failPower, ibi_glb, disarm, h, State.now, ht]

theorem failPower_ports {p : Nat} {q : Port} (h : portOf p (failPower s) = some q) : q.st = .down := by
  simp only [failPower, portOf, ibi_ports, disarm, List.getElem?_map, Option.map_eq_some_iff] at h
  obtain ⟨x, -, rfl⟩ := h
  rfl

theorem failPower_pwrGood : (failPower s).side.pwrGood = false := by simp [failPower, disarm]

theorem failPower_ibi (h : s.side.ibiOn = true) : .ibi 0x03 ∈ (failPower s).sideOut := by
  have hs : (stopBurn s).side = s.side := stopBurn_only s .side (by simp)
  simp only [failPower]
  rw [ibi_sends (by simpa [disarm, hs] using h)]
  simp

end

/-! ### Input (R444, R458) -/

theorem pwrFail_of_on {s : State} (h : s.on = true) : s.glb.pwrFail = false := by
  simp only [State.on, Bool.and_eq_true, Bool.not_eq_true'] at h
  exact h.1.2

section
variable {s : State}

theorem pwrFail_fails (hi : s.glb.inputGood = true) (hb : s.glb.blocked = false) (hp : s.glb.pwrFail = false) (ov : Bool) :
    exec (.pwrFail ov) s = .next (failPower { s with glb.inputGood := false, glb.blocked := false, glb.inputLow := false
                                                     glb.disconnected := s.glb.disconnected || ov }) := by
  simp [exec_pwrFail, execPwrFail, act, hi, hb, hp]

theorem hubOvertemp_fails (hg : s.glb.group = 3) (hp : s.glb.pwrFail = false) :
    exec .hubOvertemp s = .next (failPower { s with glb.blocked := true, glb.disconnected := true }) := by
  simp [exec_hubOvertemp, execHubOvertemp, act, hg, hp]

/-- An input that is low is recorded, at most once a second. -/
theorem inputLow_records {mv : Nat} (hi : s.glb.inputGood = true) (ho : s.on = true) (h1 : 53000 ≤ mv) (h2 : mv < 56000)
    (hl : s.glb.lastLow = none) : exec (.inputLow mv) s
      = .next (ibi 0x06 (emit 0x1F 4095 0 0 [mv] { s with glb.inputLow := true, glb.lastLow := some s.now })) := by
  simp only [exec_inputLow, execInputLow, act]
  rw [if_pos ⟨hi, pwrFail_of_on ho, h1, h2⟩]
  exact congrArg Host.Outcome.next (if_pos ⟨ho, by rw [hl]⟩)

theorem inputLow_recent {mv t0 : Nat} (hi : s.glb.inputGood = true) (ho : s.on = true) (h1 : 53000 ≤ mv) (h2 : mv < 56000)
    (hl : s.glb.lastLow = some t0) (ht : s.now < t0 + 1000000000) : exec (.inputLow mv) s = .next { s with glb.inputLow := true } := by
  simp only [exec_inputLow, execInputLow, act]
  rw [if_pos ⟨hi, pwrFail_of_on ho, h1, h2⟩]
  refine congrArg Host.Outcome.next (if_neg fun ⟨_, hrecent⟩ => ?_)
  rw [hl] at hrecent
  exact of_decide_eq_false hrecent ht

theorem inputGood_starts (hi : s.glb.inputGood = false) (hb : s.glb.blocked = false) (hp : s.glb.pwrFail = false) (b : Board) :
    exec (.inputGood b) s = .next (freshState { s with glb.inputGood := true, glb.board := some b }) := by
  simp [exec_inputGood, execInputGood, act, hi, hb, hp]

theorem pwrFailRailsOff_ends (hp : s.glb.pwrFail = true) (ht : s.glb.pwrFailAt + 200000 ≤ s.now) :
    exec .pwrFailRailsOff s = .next (if s.glb.inputGood = true ∧ s.glb.blocked = false then freshState s else dark s) := by
  have h : s.glb.pwrFail = true ∧ (s.tal.running = false ∨ s.glb.pwrFailAt + 200000 ≤ s.now) := ⟨hp, .inr ht⟩
  simp only [exec_pwrFailRailsOff, execPwrFailRailsOff, act, if_pos h]

theorem mrstN_resets (hm : s.glb.mrst = false) (hp : s.glb.pwrFail = false) (hi : s.glb.inputGood = true) (hg : s.glb.group = 3) :
    exec .mrstN s = .next { moduleReset 1 s with glb.mrst := true } := by
  simp [exec_mrstN, execMrstN, act, hm, hp, hi, hg]

theorem mrstNRelease_releases (hm : s.glb.mrst = true) (hg : s.glb.group = 3) (hp : s.glb.pwrFail = false) : exec .mrstNRelease s
    = .next { s with glb.mrst := false, glb.hubReset := false
                     side.tapIr := if s.side.tapIr = 0x00 ∨ s.side.tapIr = 0x03 ∨ s.side.tapIr = 0x04 then 0xFF else s.side.tapIr } := by
  simp [exec_mrstNRelease, execMrstNRelease, act, hm, hg, hp]

theorem moduleResetBegin_resets {t0 : Nat} (ho : s.on = true) (hd : s.glb.resetDue = some t0) (ht : t0 ≤ s.now) :
    exec .moduleResetBegin s = .next (moduleReset 2 s) := by
  simp [exec_moduleResetBegin, execModuleResetBegin, act, ho, hd, ht]

end

/-! ### The start sequence (R448 to R451) -/

section
variable {s : State} {u delay : Nat} {d : DieTally}

theorem modTally_die (h : s.tal.dies[u]? = some d) (f : DieTally → DieTally) : (modTally u f s).tal.dies[u]? = some (f d) := by
  simp [modTally, h]

/-- Among the dies' bits, the bit of one die is its own. -/
theorem dieBit {u v : Nat} (hu : u < 8) (hv : v < 8) : (1#8 <<< u).getLsbD v = decide (v = u) := by
  have h : ∀ a b : Fin 8, (1#8 <<< a.val).getLsbD b.val = decide (b.val = a.val) := by decide
  exact h ⟨u, hu⟩ ⟨v, hv⟩

/-- A free phase lies within two ticks (13 R434). -/
theorem drawPhase_range (s : State) : -2 ≤ (drawPhase s).1 ∧ (drawPhase s).1 ≤ 2 := by
  have h : (draw s).1 % 5 < 5 := Nat.mod_lt _ (by decide)
  simp only [drawPhase]
  omega

/-- The start goes on once each die has joined or failed. -/
def joinStep (s : State) : State := if allJoined s then { s with glb.step := max 1 s.glb.step } else s

/-- A kiln die has joined. -/
def kilnJoined (u delay : Nat) (s : State) : State :=
  { modTally u (fun d => { d with joined := true, synced := true, delay := delay, offset := (drawPhase s).1 }) (drawPhase s).2 with
    glb.kilnIn := s.glb.kilnIn ||| (1#8 <<< u) }

/-- A port die has failed to join. -/
def portFailed (u : Nat) (s : State) : State :=
  emit 0x14 4095 2 (u - 8) [5] (modPort (u - 8) (fun q => { q with outCause := 5 }) (modTally u (fun d => { d with failed := true }) s))

theorem dieJoin_kiln (hp : s.powered = true) (hu : u < 8) (hd : s.tal.dies[u]? = some d) (hj : d.joined = false) (hf : d.failed = false) :
    exec (.dieJoin u true delay) s = .next (joinStep (kilnJoined u delay s)) := by
  have h8 : ¬8 ≤ u := by omega
  simp only [exec_dieJoin, execDieJoin, act, hd, hp, hj, hf, h8, decide_false, Bool.false_eq_true, Bool.true_eq_false, or_self, if_false, if_true]
  rfl

theorem dieJoin_portFails (hp : s.powered = true) (hu : 8 ≤ u) (hd : s.tal.dies[u]? = some d) (hj : d.joined = false) (hf : d.failed = false) :
    exec (.dieJoin u false delay) s = .next (joinStep (portFailed u s)) := by
  simp [exec_dieJoin, execDieJoin, act, hd, hp, hj, hf, hu, joinStep, portFailed]

theorem joinStep_only (s : State) : Only [.glb] s (joinStep s) := by
  unfold joinStep
  split
  · intro c hc
    cases c <;> simp_all [Comp.same]
  · exact Only.rfl' _ s

theorem joinStep_kilnIn (s : State) : (joinStep s).glb.kilnIn = s.glb.kilnIn := by
  unfold joinStep
  split <;> rfl

/-- A record changes of a die's tally only the count of records stamped for it (13 R442). -/
theorem emit_die (h : s.tal.dies[u]? = some d) (kind sid region unit : Nat) (body : List Nat) :
    ∃ n, (emit kind sid region unit body s).tal.dies[u]? = some { d with hubStamped := n } := by
  rw [emit_tal, countStamped]
  split
  · simp only [List.getElem?_modify, h]
    split
    · exact ⟨_, rfl⟩
    · exact ⟨d.hubStamped, rfl⟩
  · exact ⟨d.hubStamped, h⟩

/-- The shelves' spare lanes are free and the arrays count as tested. -/
def arraysUp (s : State) : State :=
  { s with glb.arraysTested := true, obs.trace.banks := 64, obs.trace.bankOut := []
           kiln.shelves := s.kiln.shelves.map fun (x : Shelf) => { x with free := (List.range 8).map (· + 256) } }

theorem noBanks : (List.range 64).filter ([] : List Nat).contains = [] := rfl

theorem arrayTest_repaired {l : List Spare} {w : State} (hp : s.powered = true) (ha : s.glb.arraysTested = false) (hj : allJoined s = true)
    (hr : repairArrays l s = ([], w)) : exec (.arrayTest ⟨l, []⟩ [] [] false false) s = .next (arraysUp w) := by
  simp [exec_arrayTest, execArrayTest, act, hp, ha, hj, hr, arraysUp, noBanks]

theorem arrayTest_shelfLeft {l : List Spare} {x : Spare} {w : State} (hp : s.powered = true) (ha : s.glb.arraysTested = false)
    (hj : allJoined s = true) (hr : repairArrays l s = ([x], w)) (hx : x.array = 0) :
    exec (.arrayTest ⟨l, []⟩ [] [] false false) s = .next (badShelf x.unit (arraysUp w)) := by
  simp [exec_arrayTest, execArrayTest, act, hp, ha, hj, hr, arraysUp, hx, noBanks]

theorem arrayTest_planes (hp : s.powered = true) (ha : s.glb.arraysTested = false) (hj : allJoined s = true) :
    exec (.arrayTest ⟨[], []⟩ [] [] true true) s = .next (goFatal 1 (arraysUp s)) := by
  simp [exec_arrayTest, execArrayTest, act, hp, ha, hj, repairArrays, arraysUp, noBanks]

theorem shelfOf_arraysUp {i : Nat} {h : Shelf} (hs : shelfOf i (arraysUp s) = some h) :
    h.free = (List.range 8).map (· + 256) ∧ (shelfOf i s).map (·.out) = some h.out := by
  simp only [shelfOf, arraysUp, List.getElem?_map, Option.map_eq_some_iff] at hs
  obtain ⟨x, hx, rfl⟩ := hs
  exact ⟨rfl, by simp [shelfOf, hx]⟩

/-- A shelf that leaves is out of service. -/
theorem badShelf_out {sh : Nat} {x : Shelf} (hx : shelfOf sh s = some x) : ∃ h, shelfOf sh (badShelf sh s) = some h ∧ h.out = true := by
  unfold badShelf
  split
  next ho => exact ⟨x, hx, by simpa [hx] using ho⟩
  next =>
    have hm (k : State) (hk : k.kiln = (modShelf sh (fun x => { x with out := true }) s).kiln) :
        shelfOf sh k = (shelfOf sh s).map fun x => { x with out := true } := by simp [shelfOf, hk, modShelf]
    exact ⟨_, (hm _ (emit_kiln ..)).trans (congrArg _ hx), rfl⟩

end

/-! ### Fatal (R399) -/

section
variable {s : State} {c : Nat}

theorem goFatal_ports {p : Nat} {q : Port} (hm : s.twin.mode ≠ .fatal) (h : portOf p (goFatal c s) = some q) : q.st = .down := by
  simp only [goFatal, if_neg hm, portOf, ibi_ports, disarm, List.getElem?_map, Option.map_eq_some_iff] at h
  obtain ⟨x, -, rfl⟩ := h
  rfl

theorem goFatal_fatalN (hm : s.twin.mode ≠ .fatal) : (goFatal c s).side.fatalN = false := by simp [goFatal, hm, disarm]

theorem goFatal_on (hm : s.twin.mode ≠ .fatal) : (goFatal c s).on = false := by simp [State.on, goFatal_twin hm]

theorem goFatal_ibi (hm : s.twin.mode ≠ .fatal) (h : s.side.ibiOn = true) : .ibi 0x01 ∈ (goFatal c s).sideOut := by
  simp only [goFatal, if_neg hm]
  rw [ibi_sends (by simpa [disarm] using h)]
  simp

theorem fatal_goes (hr : s.glb.hubReset = false) (h3 : 3 ≤ c) (h5 : c ≤ 5) : exec (.fatal c) s = .next (goFatal c s) := by
  simp [exec_fatal, execFatal, act, hr, h3, h5]

end

/-- Settles O56: each row of power, the start, the resets and Fatal, in the cases named. -/
theorem powerAndStart : Obligations.PowerAndStart := by
  intro s
  refine ⟨fun b hi hb hp => ?_, fun hi hb hp hg => ⟨?_, fun rail => ?_⟩, fun hg hp hm hr hh => ?_, fun b hh hp hr hb ho => ?_,
    fun mv hi ho h1 h2 hl => ?_, fun mv t0 hi ho h1 h2 hl ht => ?_, rfl, fun ov hi hb hp => ?_,
    fun hg hp => ?_, fun hp ht => ?_, fun hm hp hi hg => ?_, fun hm hg hp => ?_, fun t0 ho hd ht => ?_, fun u delay d hp hu hd hj hf => ?_,
    fun u delay d hp hu hd hj hf => ?_, fun hp ha hj => ?_,
    fun x hp ha hj hx => ⟨fun hl => ?_, fun hl h0 hu => ?_⟩, fun hp ha hj hm => ?_, fun hp ha hf hs => ?_, fun hp hr hf ha hm ht hk => ?_,
    fun k hk h => ?_, fun c hr h3 h5 hm => ?_⟩
  · refine ⟨_, inputGood_starts hi hb hp b, ?_⟩
    rw [freshState_glb, freshState_mem]
    exact ⟨rfl, rfl, rfl, rfl, rfl, rfl, rfl, rfl, rfl, rfl, rfl, freshState_pending _⟩
  · simp [exec_railGroupGood, execRailGroupGood, act, hi, hb, hp, hg]
  · simp [exec_railFault, execRailFault, act, hi, hb, hp, hg]
  · simp [exec_hubResetRelease, execHubResetRelease, act, hg, hp, hm, hr, hh]
  · simp [exec_tallyStart, execTallyStart, act, hh, hp, hr, hb, ho]
  · exact inputLow_records hi ho h1 h2 hl
  · exact inputLow_recent hi ho h1 h2 hl ht
  · refine ⟨_, pwrFail_fails hi hb hp ov, ?_⟩
    simp only [failPower_glb, failPower_mem, failPower_pwrGood, State.on]
    refine ⟨trivial, rfl, trivial, trivial, ?_, fun p q hq => failPower_ports _ hq, trivial, ?_, fun h => failPower_ibi _ h⟩
    · simp
    · rintro rfl
      simp
  · refine ⟨_, hubOvertemp_fails hg hp, ?_⟩
    simp only [failPower_glb, failPower_mem]
    exact ⟨trivial, trivial, trivial, trivial⟩
  · refine ⟨_, pwrFailRailsOff_ends hp ht, ?_⟩
    split
    · rw [freshState_glb, freshState_mem]
      exact ⟨rfl, rfl, rfl, rfl, rfl, rfl⟩
    · rw [dark_glb, dark_mem]
      exact ⟨rfl, rfl, rfl, rfl, rfl, rfl⟩
  · refine ⟨_, mrstN_resets hm hp hi hg, ?_⟩
    have hglb := moduleReset_glb s 1
    exact ⟨rfl, congrArg (·.resetCause) hglb, congrArg (·.hubReset) hglb, (congrArg (·.group) hglb).trans hg, congrArg (·.board) hglb,
      rfl, rfl, rfl⟩
  · refine ⟨_, mrstNRelease_releases hm hg hp, ?_, rfl, rfl⟩
    intro c hc
    cases c <;> simp_all [Comp.same]
  · refine ⟨_, moduleResetBegin_resets ho hd ht, ?_⟩
    rw [moduleReset_glb]
    exact ⟨rfl, rfl, rfl, rfl, rfl, rfl, rfl⟩
  · obtain ⟨hlo, hhi⟩ := drawPhase_range s
    have hdie := modTally_die (s := (drawPhase s).2) hd fun d => { d with joined := true, synced := true, delay := delay, offset := (drawPhase s).1 }
    have htal : (joinStep (kilnJoined u delay s)).tal = (kilnJoined u delay s).tal := joinStep_only _ .tal (by simp)
    refine ⟨_, _, dieJoin_kiln hp hu hd hj hf, (congrArg (·.dies[u]?) htal).trans hdie, rfl, rfl, rfl, hlo, hhi, ?_, fun v hv hv8 => ?_, ?_⟩
    · simp [joinStep_kilnIn, kilnJoined, dieBit hu hu]
    · simp [joinStep_kilnIn, kilnJoined, dieBit hu hv8, hv]
    · refine Only.trans ?_ ((joinStep_only _).mono (by simp))
      intro c hc
      cases c <;> simp_all [Comp.same, kilnJoined, drawPhase, draw]
  · obtain ⟨n, hn⟩ := emit_die (s := modPort (u - 8) (fun q => { q with outCause := 5 }) (modTally u (fun d => { d with failed := true }) s))
      (modTally_die hd fun d => { d with failed := true }) 0x14 4095 2 (u - 8) [5]
    have htal : (joinStep (portFailed u s)).tal = (portFailed u s).tal := joinStep_only _ .tal (by simp)
    have hports : (joinStep (portFailed u s)).ports = (portFailed u s).ports := joinStep_only _ .ports (by simp)
    refine ⟨_, { d with failed := true, hubStamped := n }, dieJoin_portFails hp hu hd hj hf, (congrArg (·.dies[u]?) htal).trans hn, hj, rfl, ?_⟩
    rw [portOf, hports]
    simp [portFailed, modPort, portOf, Function.comp_def]
  · refine ⟨_, arrayTest_repaired hp ha hj rfl, rfl, rfl, ?_, fun i x hx => (shelfOf_arraysUp hx).1⟩
    intro c hc
    cases c <;> simp_all [Comp.same, arraysUp]
  · have hrep : repairArrays [x] s = ([], { s with mem.spares := s.mem.spares ++ [x] }) := by simp [repairArrays, assignSpare, hx, hl]
    refine ⟨_, arrayTest_repaired hp ha hj hrep, rfl, ?_, fun i h hi => (shelfOf_arraysUp hi).2⟩
    intro c hc
    cases c <;> simp_all [Comp.same, arraysUp]
  · have hrep : repairArrays [x] s = ([x], s) := by simp [repairArrays, assignSpare, hx, hl]
    have hshelf : ∃ y, shelfOf x.unit (arraysUp s) = some y := by simp [shelfOf, arraysUp, hu]
    obtain ⟨y, hy⟩ := hshelf
    obtain ⟨h, hh, ho⟩ := badShelf_out hy
    exact ⟨_, h, arrayTest_shelfLeft hp ha hj hrep h0, congrArg (·.spares) (badShelf_mem x.unit (arraysUp s)), hh, ho⟩
  · have hm' : (arraysUp s).twin.mode ≠ .fatal := hm
    exact ⟨_, arrayTest_planes hp ha hj, congrArg Twin.mode (goFatal_twin hm' 1), congrArg Twin.fatalCause (goFatal_twin hm' 1)⟩
  · simp only [exec_firmwareStart, execFirmwareStart, act, hp, ha, hf, hs, and_self, if_true]
    refine ⟨_, rfl, ?_, rfl, rfl, rfl, rfl⟩
    intro c hc
    cases c <;> simp_all [Comp.same, startHostWait]
  · refine ⟨_, rfl, ?_⟩
    have hset : ((List.range 8).all fun k => dieState k s == .inService || dieState k s == .absent || dieState k s == .lost) = true := by
      simpa [or_assoc] using hk
    simp only [exec_poolReady, execPoolReady, act]
    rw [if_pos ⟨hp, hr, hf, ha, hm, .inl ht, hset⟩]
  · have hset : ((List.range 8).all fun k => dieState k s == .inService || dieState k s == .absent || dieState k s == .lost) = false := by
      refine List.all_eq_false.2 ⟨k, List.mem_range.2 hk, ?_⟩
      rcases h with h | h <;> simp [h]
    simp [exec_poolReady, execPoolReady, act, hset]
  · exact ⟨_, fatal_goes hr h3 h5, congrArg Twin.mode (goFatal_twin hm c), congrArg Twin.fatalCause (goFatal_twin hm c), goFatal_fatalN hm,
      goFatal_on hm, fun p q hq => goFatal_ports hm hq, by simp, by simp, goFatal_ibi hm⟩

end Sys2Proof.Machine
end

section
/-! SUPPORT. What the directory, the loss of memory and the work on a die leave of the module's own flags (01 R42, 14)
and of the mirror pages (15 R465). -/

namespace Sys2Proof.Machine

/-- The module's own flags and the mirrors' settings are the same in two states. -/
@[simp] abbrev SameGlbMirrors (s t : State) : Prop := t.glb = s.glb ∧ t.obs.mirrors = s.obs.mirrors

@[simp] theorem ite_glb (c : Prop) [Decidable c] (s t : State) : (if c then s else t).glb = if c then s.glb else t.glb := by split <;> rfl

@[simp] theorem ite_mirrors (c : Prop) [Decidable c] (s t : State) :
    (if c then s else t).obs.mirrors = if c then s.obs.mirrors else t.obs.mirrors := by split <;> rfl

/-- Steps that leave both alone do so one after another. -/
@[simp] theorem foldl_same {α : Type} {f : State → α → State} (hf : ∀ s a, SameGlbMirrors s (f s a)) (l : List α) (s : State) :
    SameGlbMirrors s (l.foldl f s) :=
  ⟨foldl_keeps State.glb (fun s a => (hf s a).1) l s, foldl_keeps (·.obs.mirrors) (fun s a => (hf s a).2) l s⟩

/-- Both in a state that a result carries. -/
theorem same_of_snd {α : Type} {x : α × State} {a : α} {u : State} (e : x = (a, u)) : SameGlbMirrors x.2 u := by
  subst e
  exact ⟨rfl, rfl⟩

@[simp] theorem countDenied_same (sid : Nat) (s : State) : SameGlbMirrors s (countDenied sid s) := ⟨rfl, rfl⟩

@[simp] theorem noteUE_same (l sid finder : Nat) (s : State) : SameGlbMirrors s (noteUE l sid finder s) := by simp [noteUE]

@[simp] theorem noteCE_same (l : Nat) (s : State) : SameGlbMirrors s (noteCE l s) := by simp [noteCE]

@[simp] theorem noteDecode_same (l sid finder : Nat) (s : State) : SameGlbMirrors s (noteDecode l sid finder s) := by
  unfold noteDecode
  split <;> simp

@[simp] theorem setSide_same (l : Nat) (f : Line → Line) (s : State) : SameGlbMirrors s (setSide l f s) := by simp [setSide]

@[simp] theorem setSummary_same (l : Nat) (v : BitVec 16) (s : State) : SameGlbMirrors s (setSummary l v s) := by simp [setSummary]

@[simp] theorem setCraze_same (l : Nat) (v : BitVec 4) (s : State) : SameGlbMirrors s (setCraze l v s) := by simp [setCraze]

@[simp] theorem readLocal_same (l sid : Nat) (s : State) : SameGlbMirrors s (readLocal l sid s).2 := by
  unfold readLocal
  (repeat' split) <;> simp

theorem writeLocal_same {l sid tag cause : Nat} {d : LineData} {m : BitVec 64} {v : Option (BitVec 16)} {s t : State}
    (h : writeLocal l sid tag d m cause v s = some t) : SameGlbMirrors s t := by
  unfold writeLocal at h
  split at h
  · split at h
    · cases h
    · obtain rfl := Option.some.inj h
      simp
  · cases h

@[simp] theorem ownLine_same (l tag : Nat) (d : LineData) (s : State) : SameGlbMirrors s (ownLine l tag d s) := ⟨rfl, rfl⟩

@[simp] theorem modPortCtr_same (p : Nat) (f : PortCtr → PortCtr) (s : State) : SameGlbMirrors s (modPortCtr p f s) := ⟨rfl, rfl⟩

@[simp] theorem noteBreach_same (sid guarantee reason port meter amount : Nat) (s : State) :
    SameGlbMirrors s (noteBreach sid guarantee reason port meter amount s) := by simp [noteBreach]

@[simp] theorem countLate_same (sid : Nat) (s : State) : SameGlbMirrors s (countLate sid s) := ⟨rfl, rfl⟩

@[simp] theorem sendAt_same (due p : Nat) (plain : Bool) (m : OutMsg) (s : State) : SameGlbMirrors s (sendAt due p plain m s) := by simp [sendAt]

@[simp] theorem sendOn_same (p : Nat) (plain : Bool) (m : OutMsg) (s : State) : SameGlbMirrors s (sendOn p plain m s) := by simp [sendOn]

@[simp] theorem sendWords_same (p op dst tag tgen status : Nat) (body : List Nat) (s : State) :
    SameGlbMirrors s (sendWords p op dst tag tgen status body s) := by simp [sendWords]

@[simp] theorem flushFences_same (p aid : Nat) (s : State) : SameGlbMirrors s (flushFences p aid s) := by
  unfold flushFences
  split <;> simp

@[simp] theorem closeReq_same (p aid tag : Nat) (s : State) : SameGlbMirrors s (closeReq p aid tag s) := by simp [closeReq]

@[simp] theorem clearAgentNacks_same (aid : Nat) (s : State) : SameGlbMirrors s (clearAgentNacks aid s) := ⟨rfl, rfl⟩

@[simp] theorem done_same (p aid tag tgen sid status : Nat) (line : Option (LineData × Nat)) (old : List Nat) (s : State) :
    SameGlbMirrors s (done p aid tag tgen sid status line old s) := by simp [done]

@[simp] theorem sendTracked_same (p op aid : Nat) (body : List Nat) (line : Option (LineData × Nat)) (pur : Purpose) (s : State) :
    SameGlbMirrors s (sendTracked p op aid body line pur s) := by simp [sendTracked]

@[simp] theorem sendHread_same (hid off : Nat) (pur : Purpose) (s : State) : SameGlbMirrors s (sendHread hid off pur s) := by simp [sendHread]

@[simp] theorem sendHwrite_same (hid off : Nat) (d : LineData) (cause : Nat) (markOnly : Bool) (pur : Purpose) (s : State) :
    SameGlbMirrors s (sendHwrite hid off d cause markOnly pur s) := by simp [sendHwrite]

@[simp] theorem modLeaf_same (sid base : Nat) (f : Leaf → Leaf) (s : State) : SameGlbMirrors s (modLeaf sid base f s) := ⟨rfl, rfl⟩

@[simp] theorem closeBatch_same (s : State) : SameGlbMirrors s (closeBatch s) := by simp [closeBatch]

@[simp] theorem readyRec_same (r : FaultRec) (s : State) : SameGlbMirrors s (readyRec r s) := by simp [readyRec]

@[simp] theorem addHeat_same (sid base n : Nat) (s : State) : SameGlbMirrors s (addHeat sid base n s) := by
  unfold addHeat
  split <;> simp

@[simp] theorem modEnt_same (k : Nat) (f : DirEnt → DirEnt) (s : State) : SameGlbMirrors s (modEnt k f s) := ⟨rfl, rfl⟩

@[simp] theorem setAgent_same (aid : Nat) (a : Agent) (s : State) : SameGlbMirrors s (setAgent aid a s) := ⟨rfl, rfl⟩

@[simp] theorem entFromSummary_same (k sid page : Nat) (s : State) : SameGlbMirrors s (entFromSummary k sid page s).2 := by
  unfold entFromSummary
  dsimp only
  (repeat' split) <;> exact ⟨rfl, rfl⟩

@[simp] theorem sendSnoop_same (k : Nat) (inv : Bool) (aid : Nat) (s : State) : SameGlbMirrors s (sendSnoop k inv aid s) := by simp [sendSnoop]

@[simp] theorem freeEnt_same (k : Nat) (s : State) : SameGlbMirrors s (freeEnt k s) := by
  unfold freeEnt
  split <;> simp

@[simp] theorem popHead_same (k : Nat) (s : State) : SameGlbMirrors s (popHead k s) := by
  unfold popHead
  dsimp only
  (repeat' split) <;> simp

@[simp] theorem clearNacks_same (aid k : Nat) (s : State) : SameGlbMirrors s (clearNacks aid k s) := ⟨rfl, rfl⟩

@[simp] theorem countAccess_same (q : Req) (s : State) : SameGlbMirrors s (countAccess q s) := by
  unfold countAccess
  split <;> simp

@[simp] theorem setPresence_same (k : Nat) (s : State) : SameGlbMirrors s (setPresence k s) := by simp [setPresence]

@[simp] theorem grant_same (k : Nat) (q : Req) (op : Nat) (line : Option (LineData × Nat)) (s : State) :
    SameGlbMirrors s (grant k q op line s) := by simp [grant]

@[simp] theorem doneReq_same (k : Nat) (q : Req) (status : Nat) (line : Option (LineData × Nat)) (old : List Nat) (s : State) :
    SameGlbMirrors s (doneReq k q status line old s) := by
  unfold doneReq
  split <;> simp

@[simp] theorem deliver_same (k : Nat) (q : Req) (d : LineData × Nat) (s : State) : SameGlbMirrors s (deliver k q d s) := by
  unfold deliver
  split <;> simp

@[simp] theorem refuseHead_same (k : Nat) (q : Req) (status : Nat) (s : State) : SameGlbMirrors s (refuseHead k q status s) := by simp [refuseHead]

@[simp] theorem wrote_same (k : Nat) (q : Req) (old : List Nat) (s : State) : SameGlbMirrors s (wrote k q old s) := by simp [wrote]

@[simp] theorem serveLocal_same (k : Nat) (q : Req) (s : State) : SameGlbMirrors s (serveLocal k q s) := by
  unfold serveLocal
  dsimp only
  split
  · split
    next u e => simp [writeLocal_same e]
    next => simp
  · split
    next u e => simp [same_of_snd e]
    next d c u e =>
      have hu : SameGlbMirrors s u := by simp [same_of_snd e]
      split
      · simp [hu]
      · split
        next v e' => simp [writeLocal_same e', hu]
        next => simp [hu]
  · split
    next d u e => simp [same_of_snd e]
    next u e => simp [same_of_snd e]

@[simp] theorem modHead_same (k : Nat) (q : Req) (s : State) : SameGlbMirrors s (modHead k q s) := ⟨rfl, rfl⟩

@[simp] theorem writeRemote_same (k : Nat) (q : Req) (d : LineData) (c : Nat) (s : State) :
    SameGlbMirrors s (writeRemote k q d c s) := by simp [writeRemote]

@[simp] theorem remoteData_same (k : Nat) (q : Req) (d : LineData) (c : Nat) (s : State) : SameGlbMirrors s (remoteData k q d c s) := by
  unfold remoteData
  (repeat' split) <;> simp

@[simp] theorem serveRemote_same (k : Nat) (e : DirEnt) (q : Req) (s : State) : SameGlbMirrors s (serveRemote k e q s) := by
  unfold serveRemote
  (repeat' split) <;> simp

@[simp] theorem noteRecalled_same (k : Nat) (s : State) : SameGlbMirrors s (noteRecalled k s) := by simp [noteRecalled]

@[simp] theorem serveHead_same (k : Nat) (e : DirEnt) (q : Req) (s : State) : SameGlbMirrors s (serveHead k e q s) := by
  unfold serveHead
  split <;> simp

@[simp] theorem markOwned_same (k aid : Nat) (s : State) : SameGlbMirrors s (markOwned k aid s) := by
  unfold markOwned
  dsimp only
  (repeat' split) <;> simp

@[simp] theorem pump_same (fuel k : Nat) (s : State) : SameGlbMirrors s (pump fuel k s) := by
  induction fuel generalizing s with
  | zero => exact ⟨rfl, rfl⟩
  | succ n ih =>
    unfold pump
    dsimp only
    (repeat' split) <;> simp [ih]

@[simp] theorem pushReq_same (k : Nat) (q : Req) (s : State) : SameGlbMirrors s (pushReq k q s) := ⟨rfl, rfl⟩

@[simp] theorem newEnt_same (k : Nat) (q : Req) (s : State) : SameGlbMirrors s (newEnt k q s) := by simp [newEnt]

@[simp] theorem evictLine_same (v : Nat) (s : State) : SameGlbMirrors s (evictLine v s) := by simp [evictLine]

@[simp] theorem tryWay_same (w : Nat × Req × Option Nat) (s : State) : SameGlbMirrors s (tryWay w s) := by
  unfold tryWay
  (repeat' split) <;> simp

@[simp] theorem serveWays_same (n : Nat) (s : State) : SameGlbMirrors s (serveWays n s) := by
  induction n generalizing s with
  | zero => exact ⟨rfl, rfl⟩
  | succ n ih => simp [serveWays, ih]

@[simp] theorem pumpLine_same (k : Nat) (s : State) : SameGlbMirrors s (pumpLine k s) := by simp [pumpLine]

@[simp] theorem dirEnter_same (k : Nat) (q : Req) (s : State) : SameGlbMirrors s (dirEnter k q s) := by
  unfold dirEnter
  split <;> simp

@[simp] theorem nextReserv_same (s : State) : SameGlbMirrors s (nextReserv s) := by
  unfold nextReserv
  split <;> exact ⟨rfl, rfl⟩

@[simp] theorem nack_same (k : Nat) (q : Req) (reason : Nat) (s : State) : SameGlbMirrors s (nack k q reason s) := by simp [nack]

@[simp] theorem useResv_same (k : Nat) (q : Req) (s : State) : SameGlbMirrors s (useResv k q s) := by simp [useResv]

@[simp] theorem dirRequest_same (k : Nat) (q : Req) (s : State) : SameGlbMirrors s (dirRequest k q s) := by
  unfold dirRequest
  split <;> simp

@[simp] theorem holdCut_same (reason k : Nat) (s : State) : SameGlbMirrors s (holdCut reason k s) := by
  unfold holdCut
  split <;> simp

@[simp] theorem recallLine_same (k : Nat) (op : LineOp) (now : Bool) (s : State) : SameGlbMirrors s (recallLine k op now s) := by
  unfold recallLine
  split <;> simp

@[simp] theorem sendCompletion_same (due : Nat) (sub : Nat × Nat × Nat × Nat) (status : Nat) (rec : List Nat) (s : State) :
    SameGlbMirrors s (sendCompletion due sub status rec s) := by simp [sendCompletion]

@[simp] theorem flushClaims_same (s : State) : SameGlbMirrors s (flushClaims s) := by simp [flushClaims]

@[simp] theorem freeShelf_same (sh : Nat) (s : State) : SameGlbMirrors s (freeShelf sh s) := ⟨rfl, rfl⟩

@[simp] theorem winRest_same (w : Nat) (rearm : Bool) (s : State) : SameGlbMirrors s (winRest w rearm s) := by
  unfold winRest
  split <;> simp

@[simp] theorem endFiring_same (f : Firing) (s : State) : SameGlbMirrors s (endFiring f s) := by
  unfold endFiring
  (repeat' split) <;> simp

@[simp] theorem stopFiring_same (fid status : Nat) (s : State) : SameGlbMirrors s (stopFiring fid status s) := by
  unfold stopFiring
  split <;> simp

@[simp] theorem starveParts_same (s : State) : SameGlbMirrors s (starveParts s) := by simp [starveParts]

@[simp] theorem endPart_same (fid i : Nat) (s : State) : SameGlbMirrors s (endPart fid i s) := by
  unfold endPart
  (repeat' split) <;> simp

@[simp] theorem roundRecord_same (w outcome firing : Nat) (s : State) : SameGlbMirrors s (roundRecord w outcome firing s) := by
  unfold roundRecord
  split <;> simp

@[simp] theorem strayLine_same (k : Nat) (e : DirEnt) (s : State) : SameGlbMirrors s (strayLine k e s) := by simp [strayLine]

@[simp] theorem loseLines_same (lost : Nat → Bool) (s : State) : SameGlbMirrors s (loseLines lost s) :=
  foldl_same (fun _ _ => by split <;> simp) _ _

@[simp] theorem loseWindows_same (die : Nat) (s : State) : SameGlbMirrors s (loseWindows die s) := by simp [loseWindows]

@[simp] theorem loseMemory_same (die scope cause : Nat) (s : State) : SameGlbMirrors s (loseMemory die scope cause s) := by simp [loseMemory]

@[simp] theorem loseParts_same (die : Nat) (f : Firing) (s : State) : SameGlbMirrors s (loseParts die f s) := by
  unfold loseParts
  dsimp only
  (repeat' split) <;> simp

end Sys2Proof.Machine
end

section
/-! PROOFS. Dies and their links, the power governor, the tally's copies, crossings and frozen regions (O57; 13 R433 to R442, 03 R89, R105, R120,
01 R28, R42, 11 R396). The lane voltages between the first and the last are the device's own (log 6); that the governor takes one step at each row and
records its hold (log 68), and that a crossing moves on one state a tick (log 69), are the model's choices. -/

namespace Sys2Proof.Machine

section
variable (s : State) (die c u cause watts : Nat) (k : Bool) (x : D2dTransfer) (d : ClockDomain)

theorem exec_channelTrained : exec (.channelTrained die c k) s = execChannelTrained die c k s := rfl
theorem exec_wedgePassDone : exec (.wedgePassDone die) s = execWedgePassDone die s := rfl
theorem exec_dieLost : exec (.dieLost die k c) s = execDieLost die k c s := rfl
theorem exec_d2dTransfer : exec (.d2dTransfer u x) s = execD2dTransfer u x s := rfl
theorem exec_dieOvertemp : exec (.dieOvertemp u) s = execDieOvertemp u s := rfl
theorem exec_powerGovernor : exec (.powerGovernor watts) s = execPowerGovernor watts s := rfl
theorem exec_tallySync : exec .tallySync s = execTallySync s := rfl
theorem exec_clockStop : exec (.clockStop d) s = execClockStop d s := rfl
theorem exec_clockReturn : exec (.clockReturn d) s = execClockReturn d s := rfl
theorem exec_crossingReset : exec (.crossingReset d) s = execCrossingReset d s := rfl
theorem exec_regionFreeze : exec (.regionFreeze u cause) s = execRegionFreeze u cause s := rfl
theorem exec_tallyGap : exec (.tallyGap u) s = execTallyGap u s := rfl
theorem exec_regionSyncTimeout : exec (.regionSyncTimeout u) s = execRegionSyncTimeout u s := rfl

end

/-! ### Training and the wedge pass (03 R89, R105) -/

section
variable {s : State} {die c : Nat} {d : DieMem} (hp : s.powered = true) (hd : dieMem die s = some d)

/-- Only what is written to the die's own memory counts. -/
theorem modDie_congr {f g : DieMem → DieMem} (hd : dieMem die s = some d) (h : f d = g d) : modDie die f s = modDie die g s := by
  have hl : s.mem.dies.modify die f = s.mem.dies.modify die g := List.ext_getElem? fun i => by
    simp only [List.getElem?_modify]
    by_cases hi : die = i
    · subst hi
      simp [show s.mem.dies[die]? = some d from hd, h]
    · simp [hi]
  simp only [modDie, hl]

include hp hd

theorem channelTrained_trains (hst : d.st = .training) (hc : c < 6) (ht : d.trained[c]? = some false) : exec (.channelTrained die c true) s
    = .next (if (d.trained.set c true).all id then
        { modDie die (fun d => { d with st := .wedging }) (applySaved die (modDie die (fun x => { x with trained := d.trained.set c true }) s)) with
          glb.step := max s.glb.step 6 }
      else modDie die (fun x => { x with trained := d.trained.set c true }) s) := by
  have hgo : ¬(s.powered = false ∨ (d.st ≠ .training ∧ d.st ≠ .inService ∧ d.st ≠ .offline) ∨ 6 ≤ c
      ∨ d.trained.getD c true = true) := by
    simp [hp, hst, List.getD, ht, hc]
  simp only [exec_channelTrained, execChannelTrained, act, hd, if_neg hgo, if_true]
  simp only [hst, and_true]
  rfl

theorem channelTrained_fails (hst : d.st = .training) (hc : c < 6) (ht : d.trained[c]? = some false) (ha : d.attempts.getD c 0 < 2) :
    exec (.channelTrained die c false) s
      = .next (modDie die (fun x => { x with attempts := x.attempts.set c (d.attempts.getD c 0 + 1) }) s) := by
  have hgo : ¬(s.powered = false ∨ (d.st ≠ .training ∧ d.st ≠ .inService ∧ d.st ≠ .offline) ∨ 6 ≤ c
      ∨ d.trained.getD c true = true) := by
    simp [hp, hst, List.getD, ht, hc]
  have h3 : ¬3 ≤ d.attempts.getD c 0 + 1 := by omega
  simp only [exec_channelTrained, execChannelTrained, act, hd, if_neg hgo, if_neg h3, Bool.false_eq_true, if_false]

theorem wedgePassDone_serves (hst : d.st = .wedging) : exec (.wedgePassDone die) s = .next
    { modDie die (fun d => { d with st := .inService, wgen := 1, pos := 0, sweepAt := s.now }) s with
      mem := fillPages (die * 2 ^ 21) (diePages die (modDie die (fun d => { d with st := .inService, wgen := 1, pos := 0, sweepAt := s.now }) s)) none
        (modDie die (fun d => { d with st := .inService, wgen := 1, pos := 0, sweepAt := s.now }) s).mem } := by
  have hgo : ¬(s.powered = false ∨ dieState die s ≠ .wedging) := by simp [hp, dieState, hd, hst]
  simp only [exec_wedgePassDone, execWedgePassDone, act, if_neg hgo]

end

/-! ### Loss of a die and its link (01 R28, 11 R396) -/

theorem loseDie_glb (die cause : Nat) (s : State) : (loseDie die cause s).glb = { s.glb with kilnIn := s.glb.kilnIn &&& ~~~(1#8 <<< die) } := by
  simp [loseDie]

/-- A lost kiln die is out, the others stay. -/
theorem loseDie_kilnIn {die k : Nat} (hd : die < 8) (hk : k < 8) (cause : Nat) (s : State) :
    (loseDie die cause s).glb.kilnIn.getLsbD k = (s.glb.kilnIn.getLsbD k && decide (k ≠ die)) := by
  rw [loseDie_glb, BitVec.getLsbD_and, BitVec.getLsbD_not, dieBit hd hk]
  simp [hk]

theorem bytesLE_length (n v : Nat) : (bytesLE n v).length = n := by
  induction n generalizing v with
  | zero => rfl
  | succ n ih => simp [bytesLE, ih]

/-- A transfer that arrives as it was sent passes its check. -/
theorem d2dGood_d2dFrame (header payload : List Nat) : d2dGood (d2dFrame header payload) = true := by
  have hl : (d2dFrame header payload).length = (header ++ payload).length + 4 := by
    simp [d2dFrame, bytesLE_length, Nat.add_assoc]
  have hn : (d2dFrame header payload).length - 4 = (header ++ payload).length := by omega
  have h4 : 4 ≤ (d2dFrame header payload).length := by omega
  simp only [d2dGood, hn, h4, decide_true, Bool.true_and, beq_iff_eq]
  rw [d2dFrame, List.drop_left, List.take_left]

section
variable {s : State} {u id n : Nat} {header payload got frame : List Nat} {d : DieTally} (hp : s.powered = true) (hd : s.tal.dies[u]? = some d)
  (hj : d.joined = true)
include hp hd hj

theorem d2dTransfer_good (hg : d2dGood got = true) :
    exec (.d2dTransfer u ⟨id, header, payload, got⟩) s = .next (modTally u (fun d => { d with d2d := smDel id d.d2d }) s) := by
  simp [exec_d2dTransfer, execD2dTransfer, act, hd, hp, hj, hg]

theorem d2dTransfer_bad (hf : (smGet id d.d2d).getD (0, d2dFrame header payload) = (n, frame)) (hg : d2dGood got = false) :
    exec (.d2dTransfer u ⟨id, header, payload, got⟩) s = .next (if n + 1 < 8 then
        modTally u (fun d => { d with d2d := smSet id (n + 1, frame) d.d2d }) s
      else loseUnit u 1 (modTally u (fun d => { d with d2d := [] }) s)) := by
  simp [exec_d2dTransfer, execD2dTransfer, act, hd, hp, hj, hf, hg]

/-- The eighth attempt that fails loses a kiln die. -/
theorem d2dTransfer_eighth (hf : (smGet id d.d2d).getD (0, d2dFrame header payload) = (n, frame)) (hg : d2dGood got = false) (hn : ¬n + 1 < 8)
    (hu : u < 8) (hk : s.glb.kilnIn.getLsbD u = true) :
    ∃ t, exec (.d2dTransfer u ⟨id, header, payload, got⟩) s = .next t ∧ t.glb.kilnIn.getLsbD u = false := by
  refine ⟨loseDie u 1 (modTally u (fun d => { d with d2d := [] }) s), ?_, ?_⟩
  · rw [d2dTransfer_bad hp hd hj hf hg, if_neg hn, loseUnit, if_pos hu, if_pos (by rwa [modTally_glb])]
  · rw [loseDie_kilnIn hu hu, decide_eq_false (not_not_intro rfl), Bool.and_false]

end

/-! ### The power governor (01 R42) -/

/-- At 950 W the governor goes down a step and at the last one holds placement; below it takes these back, one at each row. -/
theorem powerGovernor_steps {s : State} {n : Nat} (hp : s.powered = true) (hn : s.glb.powerStep = n) (watts : Nat) :
    (950 ≤ watts → n < govLast →
      exec (.powerGovernor watts) s = .next (emit 0x1E 4095 0 0 [0, laneMv (n + 1), govShelves s] { s with glb.powerStep := n + 1 }))
    ∧ (950 ≤ watts → govLast ≤ n → s.glb.heldPlacement = false →
      exec (.powerGovernor watts) s = .next (emit 0x1E 4095 0 0 [0, laneMv n, govShelves s] { s with glb.heldPlacement := true }))
    ∧ (950 ≤ watts → govLast ≤ n → s.glb.heldPlacement = true → exec (.powerGovernor watts) s = .next s)
    ∧ (watts < 950 → s.glb.heldPlacement = true →
      exec (.powerGovernor watts) s = .next (emit 0x1E 4095 0 0 [1, laneMv n, govShelves s] { s with glb.heldPlacement := false }))
    ∧ (watts < 950 → s.glb.heldPlacement = false → 0 < n →
      exec (.powerGovernor watts) s = .next (emit 0x1E 4095 0 0 [1, laneMv (n - 1), govShelves s] { s with glb.powerStep := n - 1 }))
    ∧ (watts < 950 → s.glb.heldPlacement = false → n = 0 → exec (.powerGovernor watts) s = .next s) := by
  have hgo : ¬(s.powered = false) := by simp [hp]
  simp only [exec_powerGovernor, execPowerGovernor, act, if_neg hgo, hn]
  refine ⟨fun hw hl => ?_, fun hw hl hh => ?_, fun hw hl hh => ?_, fun hw hh => ?_, fun hw hh h0 => ?_, fun hw hh h0 => ?_⟩
  · rw [if_pos hw, if_pos hl]
  · rw [if_pos hw, if_neg (Nat.not_lt.2 hl), if_neg (by simp [hh])]
  · rw [if_pos hw, if_neg (Nat.not_lt.2 hl), if_pos hh]
  · rw [if_neg (Nat.not_le.2 hw), if_pos hh]
  · rw [if_neg (Nat.not_le.2 hw), if_neg (by simp [hh]), if_pos h0]
  · rw [if_neg (Nat.not_le.2 hw), if_neg (by simp [hh]), if_neg (by omega)]

theorem govLast_pos : 0 < govLast := Nat.succ_pos _

theorem govLast_le : govLast ≤ 79 := Nat.succ_le_of_lt (Nat.mod_lt _ (by decide))

theorem laneMv_last : laneMv govLast = 420 := by
  obtain ⟨k, hk⟩ := Nat.exists_eq_succ_of_ne_zero govLast_pos.ne'
  rw [hk, laneMv, if_pos hk.le]

/-- Above its floor the lane voltage leaves room for the steps to come. -/
theorem laneMv_above {k : Nat} (h : k < govLast) : 420 + (govLast - k) ≤ laneMv k := by
  cases k with
  | zero =>
    have := govLast_le
    simp only [laneMv]
    omega
  | succ k =>
    rw [laneMv, if_neg (by omega)]
    exact Nat.le_add_right _ _

theorem laneMv_falls {k : Nat} (h : k < govLast) : laneMv (k + 1) < laneMv k := by
  have ha := laneMv_above h
  rw [laneMv]
  split
  · omega
  · have := Nat.mod_lt (Config.govMillivolts (k + 1)) (show 0 < laneMv k - (420 + (govLast - (k + 1))) by omega)
    omega

/-! ### The tally's copies (13 R433, R434) -/

/-- A copy that takes no part in the sync stays, and no copy goes back. -/
def CopySynced (d e : DieTally) : Prop :=
  (d.synced = false ∨ d.freeze ≠ 0 → e = d) ∧ e.synced = d.synced ∧ e.freeze = d.freeze ∧ d.offset ≤ e.offset

theorem CopySynced.rfl' (d : DieTally) : CopySynced d d := ⟨fun _ => rfl, rfl, rfl, le_rfl⟩

theorem CopySynced.trans {d e g : DieTally} (h : CopySynced d e) (k : CopySynced e g) : CopySynced d g := by
  obtain ⟨h1, h2, h3, h4⟩ := h
  obtain ⟨k1, k2, k3, k4⟩ := k
  refine ⟨fun hd => ?_, k2.trans h2, k3.trans h3, h4.trans k4⟩
  rw [k1 (by rwa [h2, h3]), h1 hd]

/-- What a sync of some copies leaves. -/
def TallySynced (s t : State) : Prop :=
  Only [.free, .tal] s t ∧ t.tal.now = s.tal.now ∧ (s.tal.skew ≤ 7 → t.tal.skew ≤ 7)
    ∧ ∀ (u : Nat) (d : DieTally), s.tal.dies[u]? = some d → ∃ e, t.tal.dies[u]? = some e ∧ CopySynced d e

theorem TallySynced.rfl' (s : State) : TallySynced s s := ⟨Only.rfl' _ s, rfl, id, fun _ d h => ⟨d, h, .rfl' d⟩⟩

theorem TallySynced.trans {s t u : State} (h : TallySynced s t) (k : TallySynced t u) : TallySynced s u := by
  obtain ⟨h1, h2, h3, h4⟩ := h
  obtain ⟨k1, k2, k3, k4⟩ := k
  refine ⟨h1.trans k1, k2.trans h2, k3 ∘ h3, fun v d hd => ?_⟩
  obtain ⟨e, he, hde⟩ := h4 v d hd
  obtain ⟨g, hg, heg⟩ := k4 v e he
  exact ⟨g, hg, hde.trans heg⟩

/-- The sync of one copy. -/
def syncCopy (s : State) (u : Nat) : State :=
  match s.tal.dies[u]? with
  | some d =>
    if d.synced = false ∨ d.freeze ≠ 0 then s
    else
      let (x, s) := drawPhase s
      let c := x - d.offset
      let s := { s with tal.skew := max s.tal.skew (min 7 c.natAbs) }
      modTally u (fun d => if 64 < c then { d with offset := x, corr := 0 } else { d with corr := c }) s
  | none => s

theorem setTal_only (x : Tal) (s : State) : Only [.free, .tal] s { s with tal := x } := by
  intro c hc
  cases c <;> simp_all [Comp.same]

theorem tallySync_syncs {s : State} (ho : s.on = true) (hn : s.now % 65536 = 0) :
    exec .tallySync s = .next ((List.range 24).foldl syncCopy { s with tal.skew := 0 }) := by
  have hgo : ¬(s.on = false ∨ s.now % 65536 ≠ 0) := by simp [ho, hn]
  simp only [exec_tallySync, execTallySync, act, if_neg hgo]
  rfl

theorem tallySynced_syncCopy (s : State) (u : Nat) : TallySynced s (syncCopy s u) := by
  unfold syncCopy
  split
  next d hd =>
    split
    · exact .rfl' s
    next hs =>
      refine ⟨?_, rfl, fun h => max_le h (min_le_left _ _), fun v e he => ?_⟩
      · intro c hc
        cases c <;> simp_all [Comp.same, drawPhase, draw, modTally]
      · by_cases hv : v = u
        · subst hv
          obtain rfl : d = e := Option.some.inj (hd.symm.trans he)
          refine ⟨_, modTally_die (s := { (drawPhase s).2 with tal.skew := _ }) hd _, ?_⟩
          split
          · exact ⟨fun h => absurd h hs, rfl, rfl, by dsimp only; omega⟩
          · exact ⟨fun h => absurd h hs, rfl, rfl, le_rfl⟩
        · exact ⟨e, by simpa [modTally, drawPhase, draw, List.getElem?_modify, Ne.symm hv] using he, .rfl' e⟩
  next => exact .rfl' s

theorem tallySynced_foldl (l : List Nat) (s : State) : TallySynced s (l.foldl syncCopy s) := by
  induction l generalizing s with
  | nil => exact .rfl' s
  | cons u l ih => exact (tallySynced_syncCopy s u).trans (ih _)

theorem tallySync_effect {s : State} (ho : s.on = true) (hn : s.now % 65536 = 0) :
    ∃ t, exec .tallySync s = .next t ∧ TallySynced { s with tal.skew := 0 } t :=
  ⟨_, tallySync_syncs ho hn, tallySynced_foldl _ _⟩

/-! ### Crossings and stopped clocks (13 R437 to R439) -/

theorem setCross_only (d : ClockDomain) (x : Option Cross) (s : State) : Only [.tal] s (setCross d x s) := by
  intro c hc
  cases c <;> simp_all [Comp.same, setCross]

theorem setCross_flush (d : ClockDomain) (s : State) : (d, Cross.flush) ∈ (setCross d (some .flush) s).tal.crossings := by simp [setCross]

theorem setCross_flush_only {d : ClockDomain} {s : State} {c : Cross} (h : (d, c) ∈ (setCross d (some .flush) s).tal.crossings) : c = .flush := by
  simpa [setCross] using h

/-- The stopped clocks, their count and the crossings are the same in two states. -/
@[simp] abbrev SameClocks (s t : State) : Prop :=
  t.tal.stopped = s.tal.stopped ∧ t.tal.clkStop = s.tal.clkStop ∧ t.tal.crossings = s.tal.crossings

theorem hubReset_of_on {s : State} (h : s.on = true) : s.glb.hubReset = false := by
  simp only [State.on, Bool.and_eq_true, Bool.not_eq_true'] at h
  obtain ⟨⟨⟨hr, -⟩, -⟩, -⟩ := h
  exact hr

/-- The clock has stopped and its crossing empties. -/
def clockStopped (d : ClockDomain) (s : State) : State :=
  setCross d (some .flush) { s with tal.clkStop := add32 s.tal.clkStop 1, tal.stopped := s.tal.stopped ++ [d] }

/-- What the owning block does about it. -/
def clockLost (d : ClockDomain) (s : State) : State :=
  match d with
  | .golhaRx p => after s (execLockLost p s)
  | .golhaTx p => after s (execLockLost p s)
  | .ddr k c => modDie k (fun m => { m with trained := m.trained.set c false, attempts := m.attempts.set c 0 }) s
  | .pcie => pcieDown s
  | .hubTally => goFatal 4 s
  | .dieTally u => freezeRegion u 4 s

theorem clockStop_stops {d : ClockDomain} {s : State} (ho : s.on = true) (hd : d ∉ s.tal.stopped) (ha : clockArmed d s = true) :
    exec (.clockStop d) s = .next (clockLost d (clockStopped d s)) := by
  have hgo : ¬(s.on = false ∨ s.tal.stopped.contains d = true ∨ clockArmed d s = false) := by simp [ho, hd, ha]
  simp only [exec_clockStop, execClockStop, act, if_neg hgo]
  cases d <;> rfl

theorem lockLost_clocks (p : Nat) (s : State) : SameClocks s (after s (execLockLost p s)) := by
  simp only [execLockLost, onPort, act, after]
  split
  · split <;> exact ⟨rfl, rfl, rfl⟩
  · exact ⟨rfl, rfl, rfl⟩

theorem pcieDown_ends {s : State} (h : s.glb.hubReset = false) : (pcieDown s).pen.session = false ∧ (pcieDown s).host.linkUp = false := by
  have he : after s (execHostPathReset s) = after s (exec .hostPathReset s) := rfl
  rw [pcieDown, he, hostPathReset_ends h]
  exact ⟨rfl, rfl⟩

theorem pcieDown_clocks (s : State) : SameClocks s (pcieDown s) := by
  simp only [pcieDown, execHostPathReset, act, after]
  split <;> exact ⟨rfl, rfl, rfl⟩

theorem goFatal_clocks (cause : Nat) (s : State) : SameClocks s (goFatal cause s) := by
  unfold goFatal
  split
  · exact ⟨rfl, rfl, rfl⟩
  · simp [disarm]

/-- What the owning block does leaves the crossings to the clock. -/
theorem clockLost_clocks (d : ClockDomain) (s : State) : SameClocks s (clockLost d s) := by
  cases d with
  | golhaRx p => exact lockLost_clocks p s
  | golhaTx p => exact lockLost_clocks p s
  | ddr k c => exact ⟨rfl, rfl, rfl⟩
  | pcie => exact pcieDown_clocks s
  | hubTally => exact goFatal_clocks 4 s
  | dieTally u => exact ⟨rfl, rfl, rfl⟩

/-- A port whose receive clock stops trains again. -/
theorem lockLost_port {p : Nat} {s : State} (hp : s.powered = true) (ha : clockArmed (.golhaRx p) s = true)
    (hu : (portOf p s).map (·.st) = some .up) : (portOf p (after s (execLockLost p s))).map (·.st) = some .training := by
  obtain ⟨q, hq, hst⟩ := Option.map_eq_some_iff.1 hu
  have hi : q.inSvc = true := by
    simp only [clockArmed, hq, Bool.and_eq_true] at ha
    exact ha.1
  have he : after s (execLockLost p s) = after s (exec (.lockLost p) s) := rfl
  rw [he, lockLost_trains hp hq hi hst]
  have hq' : s.ports[p]? = some q := hq
  simp [after, portOf, toTraining, modPort, modPortCtr, draw, hq']

/-- The clock is back. -/
def clockBack (d : ClockDomain) (s : State) : State := { s with tal.stopped := s.tal.stopped.filter (· != d) }

theorem clockReturn_only {d : ClockDomain} {s : State} (hd : d ∈ s.tal.stopped) : ∃ t, exec (.clockReturn d) s = .next t ∧ Only [.tal] s t
    ∧ SameClocks (clockBack d s) t := by
  have hgo : ¬(s.tal.stopped.contains d = false) := by simp [hd]
  simp only [exec_clockReturn, execClockReturn, act, if_neg hgo]
  refine ⟨_, rfl, ?_, ?_⟩
  · intro c hc
    cases d <;> cases c <;> simp_all [Comp.same, modTally]
  · cases d <;> exact ⟨rfl, rfl, rfl⟩

theorem crossingReset_flushes {d : ClockDomain} {s : State} (ho : s.on = true) (hd : d ≠ .pcie) :
    exec (.crossingReset d) s = .next (setCross d (some .flush) s) := by
  simp only [exec_crossingReset, execCrossingReset, act, ho]
  cases d <;> simp_all

theorem crossingReset_pcie {s : State} (ho : s.on = true) : exec (.crossingReset .pcie) s = .next (pcieDown (setCross .pcie (some .flush) s)) := by
  simp only [exec_crossingReset, execCrossingReset, act, ho]
  rfl

theorem stepCrossings_moves {d : ClockDomain} {c : Cross} {s : State} (h : (d, c) ∈ s.tal.crossings)
    (hn : crossNext (s.tal.stopped.contains d) c ≠ .run) : (d, crossNext (s.tal.stopped.contains d) c) ∈ (stepCrossings s).tal.crossings := by
  simp only [stepCrossings, List.mem_filter, List.mem_map]
  exact ⟨⟨(d, c), h, rfl⟩, by simpa using hn⟩

/-! ### Frozen regions (13 R440 to R442) -/

section
variable {s : State} {u : Nat} {d : DieTally}

theorem regionFreeze_stretch (ho : s.on = true) (hd : s.tal.dies[u]? = some d) (hs : d.synced = true) (hf : d.freeze = 0) :
    exec (.regionFreeze u 3) s = .next (freezeRegion u 3 s) := by
  simp [exec_regionFreeze, execRegionFreeze, act, hd, ho, hs, hf]

theorem regionFreeze_awake (hd : s.tal.dies[u]? = some d) (hc : couldSleep u s = false) : exec (.regionFreeze u 1) s = .next s := by
  simp [exec_regionFreeze, execRegionFreeze, act, hd, hc]

/-- Region and unit of a tally copy. -/
theorem tallyUnit_self (u : Nat) : tallyUnit (if u < 8 then 1 else 2) (if u < 8 then u else u - 8) = some u := by
  by_cases h : u < 8
  · simp [tallyUnit, h]
  · simp only [tallyUnit, h, if_false, if_true, OfNat.ofNat_ne_one, Option.some.injEq]
    omega

/-- A copy that is not frozen stamps its own records, so that its count stays. -/
theorem emit_tal_running (hd : s.tal.dies[u]? = some d) (hf : d.freeze = 0) (kind sid : Nat) (body : List Nat) :
    (emit kind sid (if u < 8 then 1 else 2) (if u < 8 then u else u - 8) body s).tal = s.tal := by
  have h : regionFrozen (if u < 8 then 1 else 2) (if u < 8 then u else u - 8) s = false := by
    simp [regionFrozen, tallyUnit_self, hd, hf]
  rw [emit_tal, countStamped, h]
  rfl

/-- The region runs again on the hub's time. -/
def regionResumed (u : Nat) (d : DieTally) (s : State) : State :=
  { modTally u (fun e =>
      { e with freeze := 0, offset := ((max s.now (d.frozenLocal + 1) : Nat) : Int) - s.now, wakeAt := none, idleAt := none, corr := 0 }) s
    with tal.gaps := add32 s.tal.gaps 1 }

theorem tallyGap_resumes (ho : s.on = true) (hd : s.tal.dies[u]? = some d) (hf : d.freeze = 3) : ∃ t, exec (.tallyGap u) s = .next t
    ∧ t.tal = (regionResumed u d s).tal := by
  have hover : freezeOver u d s = true := by simp [freezeOver, hf]
  have hgo : ¬(s.on = false ∨ freezeOver u d s = false) := by simp [ho, hover]
  simp only [exec_tallyGap, execTallyGap, act, hd, if_neg hgo]
  exact ⟨_, rfl, emit_tal_running (s := regionResumed u d s) (modTally_die hd _) rfl ..⟩

theorem regionSyncTimeout_loses {t0 : Nat} (hp : s.powered = true) (hd : s.tal.dies[u]? = some d) (hw : d.wakeAt = some t0)
    (ht : t0 + 1000000 ≤ s.now) : exec (.regionSyncTimeout u) s = .next (loseUnit u 1 s) := by
  simp [exec_regionSyncTimeout, execRegionSyncTimeout, act, hd, hw, hp, ht]

end

/-- Settles O57: each row of the dies, their links, the governor, the tally's copies, the crossings and the regions, in the cases named. -/
theorem unitsAndTally : Obligations.UnitsAndTally := by
  intro s
  refine ⟨fun die c d hp hd hst hc hl ht => ⟨fun hi => ?_, fun hall hsaved => ?_, fun ha => channelTrained_fails hp hd hst hc ht ha⟩,
    fun die d hp hd hst => ?_, fun die c hp h8 hu h4 h6 => ?_, fun die c hp h8 hk h1 h3 => ?_, fun u id n header payload got frame d hp hd hj hf =>
      ⟨fun hg => d2dTransfer_good hp hd hj hg, fun hg hn => ?_, fun hg hn hu hk => ?_, d2dGood_d2dFrame header payload⟩,
    fun u hp hu => ?_, ?_, rfl, laneMv_last, fun k hk => laneMv_falls hk, fun ho hn => ?_, fun ho hn => ?_, fun d ho hd ha => ?_, fun d hd => ?_,
    fun d ho hd => ?_, fun d c h hn => stepCrossings_moves h hn, fun ho hr => ?_, fun u d ho hd hs hf => regionFreeze_stretch ho hd hs hf,
    fun u d _ _ hd hc => regionFreeze_awake hd hc, fun u d ho hd hf => ?_, fun u t0 d hp hd hw ht => regionSyncTimeout_loses hp hd hw ht⟩
  · obtain ⟨i, -, hne, hi⟩ := hi
    have hget : (d.trained.set c true)[i]? = some false := by rw [List.getElem?_set_ne (Ne.symm hne), hi]
    have hnot : ¬((d.trained.set c true).all id = true) := fun h => by
      have := List.all_eq_true.1 h false (List.mem_of_getElem? hget)
      simp at this
    rw [channelTrained_trains hp hd hst hc ht, if_neg hnot]
    exact congrArg Host.Outcome.next (modDie_congr hd rfl)
  · have hyes : (d.trained.set c true).all id = true := List.all_eq_true.2 fun b hb => by
      obtain ⟨i, hi⟩ := List.getElem?_of_mem hb
      have hlen : i < 6 := by simpa [hl] using (List.getElem?_eq_some_iff.1 hi).1
      by_cases hic : i = c
      · subst hic
        simpa [hl, hc] using hi.symm
      · rw [List.getElem?_set_ne (Ne.symm hic), hall i hlen hic] at hi
        exact (Option.some.inj hi).symm
    rw [channelTrained_trains hp hd hst hc ht, if_pos hyes]
    refine ⟨_, rfl, ?_, rfl⟩
    have hno (v : State) (hv : v.mem.savedSppr = []) : applySaved die v = v := by simp [applySaved, hv]
    rw [hno (modDie die (fun x => { x with trained := d.trained.set c true }) s) hsaved]
    have hd' := (dieMem_modDie die die (fun x => { x with trained := d.trained.set c true }) s).trans ((if_pos rfl).trans (congrArg _ hd))
    have hw := (dieMem_modDie die die (fun x => { x with st := .wedging }) _).trans ((if_pos rfl).trans (congrArg _ hd'))
    exact congrArg (fun o : Option DieMem => (o.map (·.st)).getD .absent) hw
  · have hw := (dieMem_modDie die die (fun d => { d with st := .inService, wgen := 1, pos := 0, sweepAt := s.now }) s).trans
      ((if_pos rfl).trans (congrArg _ hd))
    refine ⟨_, _, wedgePassDone_serves hp hd hst, ?_, hw, rfl, rfl, rfl, rfl⟩
    intro c hc
    cases c <;> simp_all [Comp.same]
  · simp [exec_dieLost, execDieLost, act, hp, Nat.not_le.2 h8, hu, h4, h6]
  · refine ⟨loseDie die c s, by simp [exec_dieLost, execDieLost, act, hp, Nat.not_le.2 h8, hk, h1, h3], ?_, fun k hk8 hne => ?_⟩
    · simp [loseDie_kilnIn h8 h8]
    · simp [loseDie_kilnIn h8 hk8, hne]
  · rw [d2dTransfer_bad hp hd hj hf hg, if_pos (by omega)]
  · exact d2dTransfer_eighth hp hd hj hf hg (by omega) hu hk
  · simp [exec_dieOvertemp, execDieOvertemp, act, hp, hu]
  · exact fun watts n hp hn => powerGovernor_steps hp hn watts
  · obtain ⟨t, ht, honly, hnow, hskew, hdies⟩ := tallySync_effect ho hn
    refine ⟨t, ht, (setTal_only _ s).trans honly, hnow, hskew (by simp), fun u d e hd he => ?_⟩
    obtain ⟨e', he', hde⟩ := hdies u d hd
    obtain rfl : e' = e := Option.some.inj (he'.symm.trans he)
    exact hde
  · simp [exec_tallySync, execTallySync, act, hn]
  · obtain ⟨hst, hcount, hcross⟩ := clockLost_clocks d (clockStopped d s)
    refine ⟨_, clockStop_stops ho hd ha, ?_, hcount, ?_, ?_, ?_, ?_⟩
    · rw [hst]
      simp [clockStopped, setCross]
    · rw [hcross]
      exact setCross_flush ..
    · rintro rfl hm
      have htwin := goFatal_twin (s := clockStopped .hubTally s) hm 4
      exact ⟨congrArg Twin.mode htwin, congrArg Twin.fatalCause htwin⟩
    · rintro rfl
      exact pcieDown_ends (s := clockStopped .pcie s) (hubReset_of_on ho)
    · rintro p rfl hu hp
      exact lockLost_port (s := clockStopped (.golhaRx p) s) hp ha hu
  · obtain ⟨t, ht, honly, hst, -, hcross⟩ := clockReturn_only hd
    refine ⟨t, ht, honly, ?_, hcross, fun e he => ?_⟩ <;> rw [hst] <;> simp [clockBack]
    exact fun _ => he
  · exact ⟨_, crossingReset_flushes ho hd, setCross_only d _ s, rfl, setCross_flush .., fun c h => setCross_flush_only h⟩
  · exact ⟨_, crossingReset_pcie ho, pcieDown_ends (s := setCross .pcie (some .flush) s) hr⟩
  · obtain ⟨t, ht, htal⟩ := tallyGap_resumes ho hd hf
    have hdie := modTally_die hd fun e =>
      { e with freeze := 0, offset := ((max s.now (d.frozenLocal + 1) : Nat) : Int) - s.now, wakeAt := none, idleAt := none, corr := 0 }
    refine ⟨t, _, ht, (congrArg (·.dies[u]?) htal).trans hdie, rfl, ?_, ?_, congrArg (·.gaps) htal, congrArg (·.now) htal⟩
    · dsimp only
      omega
    · dsimp only
      omega

end Sys2Proof.Machine
end

section
/-! PROOFS. Event records, the trace, mirror pages and the spill ring (15 R465 to R474). One record a TRACE_SPILL row and no loss in
front of the trace are the model's choice (log 70), as is the order in which a mirror page is written (log 52). -/

namespace Sys2Proof.Machine

/-! ### Event records -/

/-- The event record that `emitRaw` creates. -/
def newEvent (k sid region unit : Nat) (body : List Nat) (s : State) : Event :=
  let s := countStamped region unit s
  ⟨k, sid, region, unit, regionFrozen region unit s, regionTally region unit s, s.host.evSeq, body⟩

/-- The host's side of a record: EVSEQ counts it, and the buffer takes it, it waits at its source, or it is lost. -/
theorem emitRaw_host (k sid region unit : Nat) (body : List Nat) (s : State) :
    (emitRaw k sid region unit body s).host =
      if s.host.evBuf.length < 4096 then
        { s.host with evSeq := add64 s.host.evSeq 1, evBuf := s.host.evBuf ++ [newEvent k sid region unit body s] }
      else if keptKind k then
        { s.host with evSeq := add64 s.host.evSeq 1, evKept := s.host.evKept ++ [newEvent k sid region unit body s] }
      else { s.host with evSeq := add64 s.host.evSeq 1, evtLost := add32 s.host.evtLost 1 } := by
  simp [emitRaw, newEvent]

theorem emitRaw_host_evSeq (k sid region unit : Nat) (body : List Nat) (s : State) :
    (emitRaw k sid region unit body s).host.evSeq = add64 s.host.evSeq 1 := by
  rw [emitRaw_host]
  split
  · rfl
  · split <;> rfl

/-! ### The trace -/

@[simp] theorem maskRec_source (s : State) (x : TraceRec) : (maskRec s x).source = x.source := by
  unfold maskRec
  split <;> rfl

/-- A trace in WRAP stores its record as the last, in place of the oldest when the buffer is full. -/
theorem traceStore_wrap {s : State} (x : TraceRec) (hm : s.obs.trace.cfg.mode = 0) :
    (traceStore x s).obs.trace = if s.obs.trace.recs.length < traceCap s
      then { s.obs.trace with recs := s.obs.trace.recs ++ [x], written := add64 s.obs.trace.written 1 }
      else { s.obs.trace with recs := s.obs.trace.recs.drop 1 ++ [x], first := s.obs.trace.first + 1, written := add64 s.obs.trace.written 1 } := by
  unfold traceStore
  dsimp only
  split
  · simp [hm]
  · rfl

/-- Without a data record and without a marker owed, a wanted record of a running trace in WRAP is stored. -/
theorem traceMsg_wrap {s : State} {x : TraceRec} (hw : traceWants x s.obs.trace = true) (hst : s.obs.trace.st = 1) (hm : s.obs.trace.cfg.mode = 0)
    (hd : s.obs.trace.cfg.data = 0) (hn : smGet x.source s.obs.trace.missed = none) : traceMsg x [] s = traceStore (maskRec s x) s := by
  simp [traceMsg, hw, hst, hd, tracePut, hm, hn]

/-! ### Mirror pages -/

theorem mirrorLine_mirrors (sid ppa i : Nat) (ws : List Nat) (s : State) : (mirrorLine sid ppa i ws s).obs.mirrors = s.obs.mirrors := by
  unfold mirrorLine
  dsimp only
  split <;> simp

theorem mirrorSeq_mirrors (sid ppa seq : Nat) (s : State) : (mirrorSeq sid ppa seq s).obs.mirrors = s.obs.mirrors := mirrorLine_mirrors ..

theorem mirrorHeatSeq_mirrors (sid ppa seq tally : Nat) (s : State) : (mirrorHeatSeq sid ppa seq tally s).obs.mirrors = s.obs.mirrors :=
  mirrorLine_mirrors ..

/-- The lines of a mirror page written one after another leave every mirror's registers. -/
theorem mirrorLines_mirrors (sid ppa : Nat) (line : Nat → Nat) (ws : Nat → List Nat) (l : List Nat) (s : State) :
    (l.foldl (fun s i => mirrorLine sid ppa (line i) (ws i) s) s).obs.mirrors = s.obs.mirrors :=
  foldl_keeps (·.obs.mirrors) (fun s i => mirrorLine_mirrors sid ppa (line i) (ws i) s) l s

/-- A mirror's registers, changed behind writes that left them. -/
theorem smGet_next {sid : Nat} {m : Mirror} {s t : State} (h : smGet sid s.obs.mirrors = some m) (ht : t.obs.mirrors = s.obs.mirrors)
    (f : Mirror → Mirror) : smGet sid (smMod sid f t.obs.mirrors) = some (f m) := by
  rw [ht, smGet_smMod_same, h]
  rfl

theorem smGet_clearPeaks_next {sid : Nat} {m : Mirror} {s t : State} (h : smGet sid s.obs.mirrors = some m) (ht : t.obs.mirrors = s.obs.mirrors)
    (f : Mirror → Mirror) : smGet sid (clearPeaks sid { t with obs.mirrors := smMod sid f t.obs.mirrors }).obs.mirrors = some (f m) :=
  smGet_next h ht f

/-- A mirror that is due raises SEQ by two and moves on by its period. -/
theorem execMirrorUpdate_due {sid : Nat} {m : Mirror} {s : State} (hp : s.powered = true) (h : smGet sid s.obs.mirrors = some m)
    (hd : m.due ≤ s.now) : ∃ t, execMirrorUpdate sid s = .next t
      ∧ smGet sid t.obs.mirrors = some { m with seq := m.seq + 2, updates := m.updates + 1, due := m.due + m.period } := by
  simp only [execMirrorUpdate, act, h, hp, Bool.true_eq_false, hd.not_gt, or_self, if_false]
  refine ⟨_, rfl, smGet_clearPeaks_next h ?_ _⟩
  exact (mirrorSeq_mirrors ..).trans ((mirrorLines_mirrors ..).trans (mirrorSeq_mirrors ..))

theorem execMirrorUpdate_early {sid : Nat} {m : Mirror} {s : State} (h : smGet sid s.obs.mirrors = some m) (hd : s.now < m.due) :
    execMirrorUpdate sid s = .next s := by
  simp [execMirrorUpdate, act, h, hd]

/-- A mirror whose heat array is due counts its updates from 0 again. -/
theorem execHeatMirrorUpdate_due {sid : Nat} {m : Mirror} {s : State} (hp : s.powered = true) (h : smGet sid s.obs.mirrors = some m)
    (hn : m.heatPages ≠ 0) (hd : m.heatEvery ≤ m.updates) : ∃ t, execHeatMirrorUpdate sid s = .next t
      ∧ smGet sid t.obs.mirrors = some { m with updates := 0, heatSeq := m.heatSeq + 2, heatTally := s.now } := by
  simp only [execHeatMirrorUpdate, act, h, hp, Bool.true_eq_false, hn, hd.not_gt, or_self, if_false]
  refine ⟨_, rfl, smGet_next h ?_ _⟩
  exact (mirrorHeatSeq_mirrors ..).trans ((mirrorLines_mirrors ..).trans (mirrorHeatSeq_mirrors ..))

/-! ### The spill ring -/

theorem ownLine_host (l tag : Nat) (d : LineData) (s : State) : (ownLine l tag d s).host = s.host := rfl

theorem spillWrite_host (n : Nat) (ws : List Nat) (s : State) : (spillWrite n ws s).host = s.host := by
  simp only [spillWrite, apply_ite State.host, ownLine_host, ite_self]

/-- With room in the ring the oldest record leaves the buffer. -/
theorem execTraceSpill_room {s : State} {x : TraceRec} {rest : List TraceRec} (hp : s.powered = true) (hr : s.obs.trace.recs = x :: rest)
    (hst : s.obs.trace.st = 1) (hm : s.obs.trace.cfg.mode = 2)
    (h : s.obs.trace.spillPos - s.obs.trace.spillAck < 65536 * s.obs.trace.spillPages.length) :
    ∃ t, execTraceSpill s = .next t ∧ t.obs.trace.recs = rest ∧ t.obs.trace.first = s.obs.trace.first + 1
      ∧ t.obs.trace.spillPos = s.obs.trace.spillPos + 1 ∧ t.host = s.host := by
  simp only [execTraceSpill, act, hr, hp, hst, hm, h.not_ge, Bool.true_eq_false, ne_eq, not_true_eq_false, or_self, if_false]
  exact ⟨_, rfl, rfl, rfl, rfl, spillWrite_host ..⟩

theorem execTraceSpill_full {s : State} {x : TraceRec} {rest : List TraceRec} (hp : s.powered = true) (hr : s.obs.trace.recs = x :: rest)
    (hst : s.obs.trace.st = 1) (hm : s.obs.trace.cfg.mode = 2)
    (h : 65536 * s.obs.trace.spillPages.length ≤ s.obs.trace.spillPos - s.obs.trace.spillAck) :
    execTraceSpill s = .next (traceState 2 s) := by
  simp [execTraceSpill, act, hr, hp, hst, hm, h]

/-- Settles O52: a record's three ways, what the trace takes, a mirror page's registers when it is due, and the spill ring with and without room. -/
theorem recordsAndMirrors : Obligations.RecordsAndMirrors := by
  unfold Obligations.RecordsAndMirrors
  intro s
  refine ⟨fun k sid region unit body => ⟨newEvent k sid region unit body s, emitRaw_host_evSeq .., rfl, rfl, rfl, rfl, rfl, ?_, fun h => ?_,
      fun h hk => ?_, fun h hk => ?_⟩, fun x body hw => ?_, fun x body hst => ?_, fun x hw hst hm hd hn hr => ?_,
    fun sid m => execMirrorUpdate_due, fun sid m => execMirrorUpdate_early, fun sid m => execHeatMirrorUpdate_due,
    fun x rest => execTraceSpill_room, fun x rest => execTraceSpill_full⟩
  · simp [newEvent]
  · simp [emitRaw_host, h]
  · simp [emitRaw_host, h.not_gt, hk]
  · simp [emitRaw_host, h.not_gt, hk]
  · simp [traceMsg, hw]
  · simp [traceMsg, hst]
  · refine ⟨_, traceMsg_wrap hw hst hm hd hn, ?_⟩
    rw [traceStore_wrap _ hm]
    by_cases hc : s.obs.trace.recs.length < traceCap s
    · simp [hc]
    · simp [hc, Nat.not_lt.mp hc]

end Sys2Proof.Machine
end
